-- ==== Sys2Proof/Word.lean ====
section
/-! DEFINITION. The word types of the model: the bit vectors the manual treats as bits. -/

namespace Sys2Proof

/-- A byte. -/
abbrev Byte := BitVec 8

/-- A string of bytes, offset 0 first. -/
abbrev Bytes := List Byte

/-- A TC64 value (R13): comparisons and differences are modulo 2^64, a difference read as signed. -/
abbrev Tick := BitVec 64

/-- A context number, 0 to 63 (R113). -/
abbrev Ctx6 := BitVec 6

/-- The signed difference a - b of two TC64 values (R13). -/
def Tick.diff (a b : Tick) : Int := (a - b).toInt

/-- `a` is at or after `b` (R13). -/
def Tick.le (b a : Tick) : Bool := decide (0 ≤ Tick.diff a b)

end Sys2Proof
end

