-- ==== Sys2Proof/Syntax.lean ====
section
/-! DEFINITION. The commands of the block: one constructor of `Instr` for each row of spec/opcode_table.json, and the
operands they carry. The table gives no row any bits, so the operands are those the row's rule names. -/

namespace Sys2Proof

/-- The two planes (R2). -/
inductive Plane where
  | A | B
  deriving DecidableEq, Repr

/-- The two units of the model: the TSU of a die and an HZD-288 distributor. -/
inductive UnitRef where
  | tsu | dist
  deriving DecidableEq, Repr

/-- A sync lane: lane A or B of the TSU (R69), or lane n of the distributor, 0 to 311 (R454). -/
inductive LaneRef where
  | tsu (p : Plane)
  | dist (n : Nat)
  deriving DecidableEq, Repr

/-- WORLD and PRIV of a register-port access (R334). -/
structure Access where
  secure : Bool
  priv   : BitVec 2
  deriving DecidableEq, Repr

/-- An access by the register port, or by the debug port with the world it requests (R334, R342). -/
inductive AnyAccess where
  | port (a : Access)
  | debug (secure : Bool)
  deriving DecidableEq, Repr

/-- The switched power domains of the TSU (R344, R382). -/
inductive PwrDomain where
  | time | mem | engine | linkA | linkB
  deriving DecidableEq, Repr

/-- A timestamp: a tick count and FINE; FINE = 0x3FF marks an absent timestamp (R52). -/
structure Ts where
  tick : Tick
  fine : BitVec 10
  deriving DecidableEq, Repr

/-- An instant in TAI (R15). -/
structure Ht96 where
  sec  : BitVec 48
  ns   : BitVec 32
  frac : BitVec 16
  deriving DecidableEq, Repr

/-- What spine calibration measured at one endpoint (R29): whether the echo was seen, the mean round trip in TDC units,
and the residual of the second measurement, two's complement, in TDC units. -/
structure EpMeas where
  ep        : BitVec 6
  echo      : Bool
  roundTrip : Nat
  resid     : BitVec 8
  deriving DecidableEq, Repr

/-- What restart calibration measured at one endpoint (R126): the raw latency RL in TDC units and the residual of the
second measurement. -/
structure RstMeas where
  ep    : BitVec 6
  rl    : Int
  resid : BitVec 8
  deriving DecidableEq, Repr

/-- The two writes of VIT_ARM_AT (R38): setting ARM_AT, or writing AT. -/
inductive VitArm where
  | setArm
  | writeAt (t : Tick)
  deriving DecidableEq, Repr

/-- The header fields of a received frame that the receiver checks (R40), with the number of symbols the decoder
corrected in its codewords (R45, R70). -/
structure Hdr where
  fmt    : BitVec 4
  cls    : BitVec 4
  w      : Bool
  lseq   : BitVec 12
  mepoch : BitVec 32
  corr   : Nat
  deriving DecidableEq, Repr

/-- The HELLO payload (R64). -/
structure Hello where
  ver    : BitVec 16
  step   : BitVec 16
  feat   : BitVec 64
  role   : Byte
  plane  : Byte
  pos    : BitVec 16
  unitId : BitVec 64
  ack    : Bool
  deriving DecidableEq, Repr

/-- Why a received frame was dropped before its header could be used (R45). -/
inductive FrameErr where
  | unc (codewords : Nat)
  | crc
  deriving DecidableEq, Repr

/-- The LINKCTL payload (R445). -/
structure LinkCtl where
  ack  : BitVec 12
  nak  : Bool
  cred : List (BitVec 16)
  byp  : Bool
  deriving DecidableEq, Repr

/-- The sync frame payload (R51). With `cmp` the ticks of the two timestamps count in their low 24 bits only (R52). -/
structure SyncFrame where
  cmp    : Bool
  sseq   : BitVec 16
  tv     : Bool
  pcal   : Bool
  dir    : Bool
  pmv    : Bool
  txPrev : Ts
  rxSeq  : BitVec 16
  rxTs   : Ts
  epoch  : Ht96
  pmean  : BitVec 32
  dsum   : BitVec 48
  dcnt   : BitVec 16
  servo  : BitVec 64
  deriving DecidableEq, Repr

/-- A TDC channel: LANE_A, LANE_B and SPINE of the TSU, one per lane of a distributor (R53). -/
inductive TdcCh where
  | laneA | laneB | spine
  | dist (n : Nat)
  deriving DecidableEq, Repr

/-- A PTP message at a root port (R101): an announcement, or a completed event exchange with its measured offset in TDC
units before the port asymmetry. -/
inductive PtpMsg where
  | announce (domain clockClass accuracy : Byte) (timescale : Bool)
  | exchange (domain : Byte) (offset : Int)
  deriving DecidableEq, Repr

/-- The extended TLV of an ESMC PDU (R103). -/
inductive EsmcTlv where
  | none | ePRC | eEEC
  deriving DecidableEq, Repr

/-- The step fields of an arrival at a closing barrier (R116, R155, R434). -/
structure StepFields where
  step    : BitVec 64
  attempt : Byte
  missed  : Bool
  voidreq : Bool
  swapRdy : Bool
  swapAny : Bool
  mixed   : Bool
  fseen   : Bool
  brim    : BitVec 16
  lkey    : BitVec 32
  stamp   : Tick
  nmiss   : BitVec 32
  deriving DecidableEq, Repr

/-- The STEP_GO payload (R118). -/
structure StepGo where
  step      : BitVec 64
  attempt   : Byte
  outcome   : BitVec 2
  swap      : Bool
  swapDefer : Bool
  fenceSeen : Bool
  brim      : BitVec 16
  lkey      : BitVec 32
  stamp     : Tick
  e         : Tick
  nmiss     : BitVec 32
  deriving DecidableEq, Repr

/-- The CSF of BARRIER-class frames and of STEP_GO (R154, R118). -/
structure BarAddr where
  hbid  : BitVec 16
  sense : Bool
  scope : BitVec 2
  group : BitVec 16
  deriving DecidableEq, Repr

/-- ARM (R133). -/
structure ArmMsg where
  job    : BitVec 32
  tStart : Tick
  brim0  : BitVec 16
  deriving DecidableEq, Repr

/-- COMMIT (R133). -/
structure CommitMsg where
  job    : BitVec 32
  tStart : Tick
  deriving DecidableEq, Repr

/-- ABORT (R133). -/
structure AbortMsg where
  job  : BitVec 32
  more : Bool
  ldis : List (BitVec 16)
  deriving DecidableEq, Repr

/-- The fields of WS_CMD other than OP and SPACE (R184). -/
structure WsFlags where
  nowait  : Bool
  sense   : Bool
  voidreq : Bool
  tmo     : BitVec 4
  deriving DecidableEq, Repr

/-- ARRIVE (R154). -/
structure ArriveMsg where
  count   : BitVec 20
  sat     : Bool
  closing : Option StepFields
  deriving DecidableEq, Repr

/-- TAKE (R154). -/
structure TakeMsg where
  count  : BitVec 32
  pda    : BitVec 16
  tag    : BitVec 16
  nowait : Bool
  deriving DecidableEq, Repr

/-- TAKE_RESP (R154). -/
structure TakeResp where
  pda    : BitVec 16
  tag    : BitVec 16
  status : Byte
  count  : BitVec 32
  deriving DecidableEq, Repr

/-- A beat of the stream port (R296). -/
structure Beat where
  ch   : BitVec 6
  sob  : Bool
  eob  : Bool
  data : Bytes
  bcrc : BitVec 32
  deriving DecidableEq, Repr

/-- The point whose cut tick has come (R219). -/
inductive CutPoint where
  | tsu (n : BitVec 4)
  | dist (cobj : BitVec 14) (seq : BitVec 16)
  deriving DecidableEq, Repr

/-- The CSF of COLL-class frames (R211). -/
structure CollAddr where
  cobj  : BitVec 14
  seq   : BitVec 16
  group : BitVec 16
  deriving DecidableEq, Repr

/-- The header of CONTRIB, SSUM2, ABSENT and KDOWN, the record bytes of this frame and, in the LAST frame, the missing
entries (R212, R213). -/
structure Contrib where
  op      : Byte
  fmt     : BitVec 3
  ofmt    : BitVec 3
  last    : Bool
  raw     : Bool
  root    : Bool
  idxmode : Bool
  scope   : BitVec 2
  vl      : BitVec 16
  k       : BitVec 16
  first   : BitVec 16
  nel     : BitVec 16
  npres   : BitVec 32
  deadline : Tick
  ccrc    : BitVec 32
  rootLdi : BitVec 16
  nmiss   : BitVec 16
  recs    : Bytes
  missing : List (BitVec 32)
  deriving DecidableEq, Repr

/-- RESULT: laid out as a contribution, with RCODE and RFLAGS (R212). -/
structure CollResult where
  c      : Contrib
  rcode  : Byte
  rflags : BitVec 16
  deriving DecidableEq, Repr

/-- HREQ (R265). -/
structure HReq where
  ha     : BitVec 39
  pda    : BitVec 16
  tag    : BitVec 16
  op     : BitVec 4
  nowait : Bool
  lcap   : Bool
  x      : Tick
  wdata  : BitVec 64
  deriving DecidableEq, Repr

/-- HRESP (R265). -/
structure HResp where
  pda    : BitVec 16
  tag    : BitVec 16
  status : Byte
  full   : Bool
  w      : Bool
  sat    : Bool
  marked : Bool
  data   : BitVec 64
  deriving DecidableEq, Repr

/-- A write of the selected deadline timer: TSU_DT_CFG or TSU_DT_AT (R275). -/
inductive DtWrite where
  | cfg (data : BitVec 64)
  | at (t : Tick)
  deriving DecidableEq, Repr

/-- The producers of output bursts, in the order of R302. -/
inductive Producer where
  | coll (n : BitVec 4)
  | gen (n : BitVec 3)
  | step (c : Ctx6)
  | telemetry
  deriving DecidableEq, Repr

/-- The three interfaces of a Catalogue (R314). -/
inductive CatSource where
  | local | tree | udp
  deriving DecidableEq, Repr

/-- Who makes a Catalogue request and of which unit (R322, R334). -/
structure CatReq where
  unit   : UnitRef
  src    : CatSource
  secure : Bool
  priv   : BitVec 2
  tid    : BitVec 16
  deriving DecidableEq, Repr

/-- A Catalogue entry, index:sub-index (R308). -/
structure EntryId where
  index : BitVec 16
  sub   : Byte
  deriving DecidableEq, Repr

/-- The source address and port of a UDP message (R321). -/
structure UdpSource where
  addr : BitVec 128
  port : BitVec 16
  deriving DecidableEq, Repr

/-- The writes of Gauntlet fields (R337, R355). -/
inductive GntWrite where
  | blk (data : BitVec 64)
  | tmw (data : BitVec 64)
  | crdata (data : BitVec 32)
  | vctrl (data : BitVec 32)
  | ctxWorld (data : BitVec 64)
  | strWorld (ch : BitVec 6) (secure : Bool)
  deriving DecidableEq, Repr

/-- A request of the debug port (R385). -/
structure DebugReq where
  secure : Bool
  write  : Bool
  size64 : Bool
  addr   : BitVec 24
  data   : BitVec 64
  tag    : Byte
  deriving DecidableEq, Repr

/-- A write of one of the freeze registers (R343, R356). -/
inductive FrzWrite where
  | sel (c : Ctx6)
  | at (step : BitVec 64)
  | arm (on : Bool)
  deriving DecidableEq, Repr

/-- TOPO_REPORT (R403). -/
structure TopoReport where
  unitId     : BitVec 64
  pda        : BitVec 16
  topoOk     : Bool
  hostReady  : Bool
  admitted   : Bool
  cloak      : Bool
  catDefaulted : Bool
  timeValid  : Bool
  tsuReady   : Bool
  reason     : BitVec 4
  result     : BitVec 2
  ldi        : BitVec 16
  deriving DecidableEq, Repr

/-- The CSF of BULK-class image frames (R413). -/
structure ImgAddr where
  ih     : Byte
  block  : BitVec 16
  group  : BitVec 16
  repair : Bool
  deriving DecidableEq, Repr

/-- IMG_START (R413). -/
structure ImgStart where
  imageId : BitVec 64
  total   : BitVec 32
  nblk    : BitVec 16
  itype   : Byte
  target  : Byte
  hash    : Bytes
  deriving DecidableEq, Repr

/-- FENCE (R429). -/
structure FenceMsg where
  epoch   : BitVec 32
  unicast : Bool
  ldis    : List (BitVec 16)
  deriving DecidableEq, Repr

/-- A new value of a health measure (R442): EYE and RES of a lane, OPT_RX of a distributor lane (0.01 dBm, signed),
REF_RES of a root candidate. -/
inductive Measure where
  | eye (l : LaneRef) (v : Byte)
  | res (l : LaneRef) (v : BitVec 16)
  | optRx (n : Nat) (v : BitVec 16)
  | refRes (cand : BitVec 3) (v : BitVec 16)
  deriving DecidableEq, Repr

/-- One thing R449 watches: a class on a lane, or a combining slice. -/
inductive CongWhere where
  | lane (n : BitVec 9) (cls : BitVec 3)
  | slice (s : BitVec 3)
  deriving DecidableEq, Repr

/-- What a congestion window saw: for each thing watched, the ticks of the window during which it was stalled (R449). -/
structure CongMeasure where
  stalls : List (CongWhere × Nat)
  deriving DecidableEq, Repr

/-- Every frame a unit sends, with its class-specific field and payload. -/
inductive FrameBody where
  | hello (p : Hello)
  | sync (f : SyncFrame)
  | linkctl (p : LinkCtl)
  | stepGo (b : BarAddr) (p : StepGo)
  | arm (group : BitVec 16) (p : ArmMsg)
  | armed (group : BitVec 16) (job count : BitVec 32)
  | commit (group : BitVec 16) (p : CommitMsg)
  | abort (group : BitVec 16) (p : AbortMsg)
  | fence (f : FenceMsg)
  | arrive (b : BarAddr) (p : ArriveMsg)
  | done (b : BarAddr) (sat : Bool)
  | signal (b : BarAddr) (count : BitVec 32)
  | take (b : BarAddr) (p : TakeMsg)
  | takeResp (b : BarAddr) (p : TakeResp)
  | cancel (b : BarAddr) (pda tag : BitVec 16)
  | contrib (b : CollAddr) (p : Contrib)
  | ssum2 (b : CollAddr) (p : Contrib)
  | kdown (b : CollAddr) (p : Contrib)
  | result (b : CollAddr) (p : CollResult)
  | absent (b : CollAddr) (p : Contrib)
  | hreq (p : HReq)
  | hresp (p : HResp)
  | hcancel (ha : BitVec 39) (pda tag : BitVec 16)
  | ctrl (csf : BitVec 48) (msg : Bytes)
  | topoReport (r : TopoReport)
  | topoSum (admitted : BitVec 32)
  | imgBlock (b : ImgAddr) (data : Bytes)
  | imgStart (b : ImgAddr) (p : ImgStart)
  | imgEnd (b : ImgAddr) (nblk : BitVec 16)
  | imgNack (b : ImgAddr) (ranges : List (BitVec 16 × BitVec 16))
  | imgReport (b : ImgAddr) (okn failn : BitVec 32)
  | imgCommit (b : ImgAddr) (tAct : Tick)
  | imgRollback (b : ImgAddr)
  | imgActed (b : ImgAddr) (actn missn : BitVec 32)
  deriving DecidableEq, Repr

/-- The commands, in the table's order. Each constructor is named for its row of spec/opcode_table.json. -/
inductive Instr where
  /-- AON_RESET_RELEASE (R379). -/
  | aonResetRelease
  /-- TSU_RESET_RELEASE (R394). -/
  | tsuResetRelease
  /-- FUSE_READ_DONE (R384). -/
  | fuseReadDone (u : UnitRef) (words : List (Nat × BitVec 32))
  /-- FUSE_TIMEOUT (R384). -/
  | fuseTimeout
  /-- POWER_ACK (R382). -/
  | powerAck (d : PwrDomain) (level : Bool)
  /-- PWR_ACK_LOSS (R383). -/
  | pwrAckLoss (d : PwrDomain)
  /-- REGISTER_WRITE (R10). -/
  | registerWrite (a : Access) (size64 : Bool) (addr : BitVec 24) (data : BitVec 64)
  /-- SPINE_LOAD_TAKE (R28). -/
  | spineLoadTake
  /-- CAL_START (R29). -/
  | calStart (a : Access)
  /-- SPINE_CAL_DONE (R29). -/
  | spineCalDone (ms : List EpMeas)
  /-- SPINE_TRACK_MEASURE (R32). -/
  | spineTrackMeasure (echo : Bool) (resid : BitVec 8)
  /-- VIT_CAPTURE (R36). -/
  | vitCapture (a : Access)
  /-- VIT_ARM_AT (R38). -/
  | vitArmAt (a : Access) (w : VitArm)
  /-- VIT_AT_REACHED (R38). -/
  | vitAtReached (secure : Bool)
  /-- LANE_ENABLE (R406). -/
  | laneEnable (a : Access) (l : LaneRef)
  /-- LANE_DISABLE (R406). -/
  | laneDisable (a : Access) (l : LaneRef)
  /-- LANE_SHUTDOWN_DONE (R406). -/
  | laneShutdownDone (l : LaneRef)
  /-- RETRAIN (R48). -/
  | retrain (a : Access) (l : LaneRef)
  /-- LANE_CNT_CLR (R70). -/
  | laneCntClr (a : Access) (l : LaneRef)
  /-- TRAINING_DONE (R396). -/
  | trainingDone (l : LaneRef) (eye : BitVec 8) (settings : Bytes)
  /-- CODEWORD_LOCK (R396). -/
  | codewordLock (l : LaneRef)
  /-- TRAINING_TIMEOUT (R397). -/
  | trainingTimeout (l : LaneRef)
  /-- RETRAIN_BACKOFF_EXPIRE (R397). -/
  | retrainBackoffExpire (l : LaneRef)
  /-- HELLO_SEND (R64). -/
  | helloSend (l : LaneRef)
  /-- HELLO_RECEIVE (R64). -/
  | helloReceive (l : LaneRef) (h : Hdr) (p : Hello)
  /-- NEG_TIMEOUT (R64). -/
  | negTimeout (l : LaneRef)
  /-- CDR_LOCK_LOSS (R48). -/
  | cdrLockLoss (l : LaneRef)
  /-- FRAME_CORRUPT (R45). -/
  | frameCorrupt (l : LaneRef) (e : FrameErr) (time : Bool)
  /-- LINKCTL_SEND (R445). -/
  | linkctlSend (l : LaneRef)
  /-- LINKCTL_RECEIVE (R445). -/
  | linkctlReceive (l : LaneRef) (h : Hdr) (p : LinkCtl)
  /-- SYNC_SEND_DOWN (R49). -/
  | syncSendDown (n : Nat) (tx : Ts)
  /-- SYNC_SEND_UP (R49). -/
  | syncSendUp (l : LaneRef) (tx : Ts)
  /-- SYNC_FRAME_RECEIVE (R50). -/
  | syncFrameReceive (l : LaneRef) (h : Hdr) (f : SyncFrame) (rx : Ts)
  /-- SYNC_LOSS_DETECT (R57). -/
  | syncLossDetect (l : LaneRef)
  /-- TDC_CAPTURE_DISCARD (R54). -/
  | tdcCaptureDiscard (ch : TdcCh)
  /-- CDC_START (R55). -/
  | cdcStart (a : Access) (u : UnitRef)
  /-- CDC_DONE (R55). -/
  | cdcDone (u : UnitRef) (inlMax : BitVec 8)
  /-- DLL_UNLOCK (R53). -/
  | dllUnlock (ch : TdcCh)
  /-- REFINE_WINDOW_END (R61). -/
  | refineWindowEnd (u : UnitRef)
  /-- STEP_ARM (R81). -/
  | stepArm (a : Access) (u : UnitRef)
  /-- TWIN_SWITCH (R85). -/
  | twinSwitch
  /-- PLANE_WTR_EXPIRE (R83). -/
  | planeWtrExpire (p : Plane)
  /-- PPS_EDGE (R98). -/
  | ppsEdge (n : BitVec 2) (t : Ts)
  /-- PPS_EDGE_MISSING (R98). -/
  | ppsEdgeMissing (n : BitVec 2)
  /-- TOD_MESSAGE_RECEIVE (R99). -/
  | todMessageReceive (n : BitVec 2) (msg : Bytes)
  /-- TOD_TIMEOUT (R98). -/
  | todTimeout (n : BitVec 2)
  /-- TENMHZ_LOSS (R98). -/
  | tenmhzLoss (n : BitVec 2)
  /-- PTP_MESSAGE_RECEIVE (R101). -/
  | ptpMessageReceive (n : Bool) (m : PtpMsg)
  /-- PTP_ANNOUNCE_TIMEOUT (R101). -/
  | ptpAnnounceTimeout (n : Bool)
  /-- ESMC_RECEIVE (R103). -/
  | esmcReceive (n : Bool) (code : BitVec 4) (ext : EsmcTlv)
  /-- ESMC_TIMEOUT (R103). -/
  | esmcTimeout (n : Bool)
  /-- REF_HOLDOFF_EXPIRE (R105). -/
  | refHoldoffExpire
  /-- REF_WTR_EXPIRE (R105). -/
  | refWtrExpire (cand : BitVec 3)
  /-- TIE_HOLDOFF_EXPIRE (R94). -/
  | tieHoldoffExpire
  /-- TIE_SWITCH_AT (R94). -/
  | tieSwitchAt
  /-- ROOT_MANUAL_START (R112). -/
  | rootManualStart (q : CatReq)
  /-- AGEING_LEARN (R107). -/
  | ageingLearn
  /-- AON_CLOCK_LOSS (R109). -/
  | aonClockLoss (u : UnitRef)
  /-- CTX_ENABLE (R114). -/
  | ctxEnable (a : Access) (c : Ctx6)
  /-- CTX_DISABLE (R114). -/
  | ctxDisable (a : Access) (c : Ctx6)
  /-- CTX_CLEARING_DONE (R175). -/
  | ctxClearingDone (c : Ctx6)
  /-- READY (R115). -/
  | ready (a : Access) (c : Ctx6)
  /-- GO (R121). -/
  | go (a : Access) (c : Ctx6)
  /-- STOP (R114). -/
  | stop (a : Access) (c : Ctx6)
  /-- CLEAR (R114). -/
  | clear (a : Access) (c : Ctx6)
  /-- CTX_CNT_CLR (R140). -/
  | ctxCntClr (a : Access) (c : Ctx6)
  /-- STEP_GO_RECEIVE (R119). -/
  | stepGoReceive (l : LaneRef) (h : Hdr) (b : BarAddr) (p : StepGo)
  /-- RESTART_SEND (R124). -/
  | restartSend (c : Ctx6)
  /-- RG_QUIESCE_RAISE (R370). -/
  | rgQuiesceRaise (c : Ctx6)
  /-- LAUNCH (R120). -/
  | launch (c : Ctx6) (firstEdge : Option (BitVec 8))
  /-- MISSED_ARRIVAL (R122). -/
  | missedArrival (c : Ctx6)
  /-- RST_CAL_START (R126). -/
  | rstCalStart (a : Access)
  /-- RST_CAL_DONE (R126). -/
  | rstCalDone (ms : List RstMeas)
  /-- STRETCH_REPORT (R372). -/
  | stretchReport (ep : BitVec 6) (amt : BitVec 12)
  /-- REFRESH_REQUEST (R131). -/
  | refreshRequest (g : BitVec 6)
  /-- REFRESH_URGENT (R131). -/
  | refreshUrgent (g : BitVec 6)
  /-- QUIET_WINDOW_OPEN (R131). -/
  | quietWindowOpen
  /-- REFRESH_GRANT_END (R374). -/
  | refreshGrantEnd (g : BitVec 6)
  /-- ARM_RECEIVE (R134). -/
  | armReceive (l : LaneRef) (h : Hdr) (group : BitVec 16) (p : ArmMsg)
  /-- COMMIT_RECEIVE (R135). -/
  | commitReceive (l : LaneRef) (h : Hdr) (group : BitVec 16) (p : CommitMsg)
  /-- ABORT_RECEIVE (R135). -/
  | abortReceive (l : LaneRef) (h : Hdr) (group : BitVec 16) (p : AbortMsg)
  /-- NOSTART_EXPIRE (R135). -/
  | nostartExpire (c : Ctx6)
  /-- ARMED_RECEIVE (R136). -/
  | armedReceive (n : Nat) (h : Hdr) (group : BitVec 16) (job : BitVec 32) (count : BitVec 32)
  /-- JOB_ARM (R136). -/
  | jobArm (q : CatReq)
  /-- JOB_COMMIT (R136). -/
  | jobCommit (q : CatReq)
  /-- JOB_ABORT (R136). -/
  | jobAbort (q : CatReq)
  /-- BSLOT_CONFIG (R145). -/
  | bslotConfig (a : Access) (data : BitVec 64)
  /-- XLAT_WRITE (R146). -/
  | xlatWrite (a : Access) (data : BitVec 32)
  /-- WS_CONSUME (R166). -/
  | wsConsume (a : Access) (c : Ctx6) (k : BitVec 3) (f : WsFlags)
  /-- WS_READ (R166). -/
  | wsRead (a : Access) (c : Ctx6) (k : BitVec 3) (f : WsFlags)
  /-- WS_PRODUCE (R166). -/
  | wsProduce (a : Access) (c : Ctx6) (k : BitVec 3) (f : WsFlags)
  /-- WS_WRITE_FORCE (R166). -/
  | wsWriteForce (a : Access) (c : Ctx6) (k : BitVec 3) (f : WsFlags)
  /-- WS_FILL_COUNT (R167). -/
  | wsFillCount (a : Access) (c : Ctx6) (k : BitVec 3) (f : WsFlags)
  /-- WS_PROBE (R166). -/
  | wsProbe (a : Access) (c : Ctx6) (k : BitVec 3) (f : WsFlags)
  /-- HALL_CONSUME (R257). -/
  | hallConsume (a : Access) (c : Ctx6) (k : BitVec 3) (f : WsFlags)
  /-- HALL_READ (R257). -/
  | hallRead (a : Access) (c : Ctx6) (k : BitVec 3) (f : WsFlags)
  /-- HALL_PRODUCE (R257). -/
  | hallProduce (a : Access) (c : Ctx6) (k : BitVec 3) (f : WsFlags)
  /-- HALL_WRITE_FORCE (R257). -/
  | hallWriteForce (a : Access) (c : Ctx6) (k : BitVec 3) (f : WsFlags)
  /-- HALL_FILL_COUNT (R257). -/
  | hallFillCount (a : Access) (c : Ctx6) (k : BitVec 3) (f : WsFlags)
  /-- HALL_PROBE (R257). -/
  | hallProbe (a : Access) (c : Ctx6) (k : BitVec 3) (f : WsFlags)
  /-- WS_ARRIVE (R148). -/
  | wsArrive (a : Access) (c : Ctx6) (k : BitVec 3) (f : WsFlags)
  /-- WS_ARRIVE_WAIT (R150). -/
  | wsArriveWait (a : Access) (c : Ctx6) (k : BitVec 3) (f : WsFlags)
  /-- WS_WAIT (R150). -/
  | wsWait (a : Access) (c : Ctx6) (k : BitVec 3) (f : WsFlags)
  /-- WS_SIGNAL (R159). -/
  | wsSignal (a : Access) (c : Ctx6) (k : BitVec 3) (f : WsFlags)
  /-- WS_TAKE (R159). -/
  | wsTake (a : Access) (c : Ctx6) (k : BitVec 3) (f : WsFlags)
  /-- WS_READ_COUNT (R159). -/
  | wsReadCount (a : Access) (c : Ctx6) (k : BitVec 3) (f : WsFlags)
  /-- WS_WAIT_READ (R169). -/
  | wsWaitRead (a : Access) (c : Ctx6) (k : BitVec 3) (tag : BitVec 8)
  /-- REG_ABORT (R360). -/
  | regAbort (tag : BitVec 8)
  /-- WAIT_TIMEOUT (R170). -/
  | waitTimeout (c : Ctx6) (k : BitVec 3)
  /-- ARRIVE_RECEIVE (R153). -/
  | arriveReceive (n : Nat) (h : Hdr) (b : BarAddr) (p : ArriveMsg)
  /-- DONE_RECEIVE (R148). -/
  | doneReceive (l : LaneRef) (h : Hdr) (b : BarAddr) (sat : Bool)
  /-- SIGNAL_RECEIVE (R160). -/
  | signalReceive (n : Nat) (h : Hdr) (b : BarAddr) (count : BitVec 32)
  /-- TAKE_RECEIVE (R160). -/
  | takeReceive (n : Nat) (h : Hdr) (b : BarAddr) (p : TakeMsg)
  /-- TAKE_RESP_RECEIVE (R160). -/
  | takeRespReceive (l : LaneRef) (h : Hdr) (b : BarAddr) (p : TakeResp)
  /-- CANCEL_RECEIVE (R160). -/
  | cancelReceive (n : Nat) (h : Hdr) (b : BarAddr) (pda : BitVec 16) (tag : BitVec 16)
  /-- DIRECT_WINDOW_READ (R165). -/
  | directWindowRead (a : Access) (size64 : Bool) (word : BitVec 19) (tag : BitVec 8)
  /-- DIRECT_WINDOW_WRITE (R165). -/
  | directWindowWrite (a : Access) (size64 : Bool) (word : BitVec 19) (data : BitVec 64)
  /-- TM_SCRUB_START (R163). -/
  | tmScrubStart (a : Access) (region : BitVec 6)
  /-- TM_SCRUB_DONE (R163). -/
  | tmScrubDone
  /-- TM_INIT_DONE (R162). -/
  | tmInitDone
  /-- HBAR_COMMIT (R152). -/
  | hbarCommit (q : CatReq)
  /-- GROUP_COMMIT (R156). -/
  | groupCommit (q : CatReq)
  /-- BAR_CNT_CLR (R181). -/
  | barCntClr (a : Access)
  /-- COLL_ISSUE (R189). -/
  | collIssue (a : Access) (n : BitVec 4)
  /-- COLL_CANCEL (R223). -/
  | collCancel (a : Access) (n : BitVec 4)
  /-- COLL_CNT_CLR (R224). -/
  | collCntClr (a : Access)
  /-- STREAM_BEAT_RECEIVE (R296). -/
  | streamBeatReceive (b : Beat)
  /-- BURST_STALL_TRUNC (R300). -/
  | burstStallTrunc (ch : BitVec 6)
  /-- COLL_CUT (R219). -/
  | collCut (w : CutPoint)
  /-- CONTRIB_RECEIVE (R219). -/
  | contribReceive (n : Nat) (h : Hdr) (b : CollAddr) (p : Contrib)
  /-- ABSENT_RECEIVE (R220). -/
  | absentReceive (n : Nat) (h : Hdr) (b : CollAddr) (p : Contrib)
  /-- SSUM2_RECEIVE (R207). -/
  | ssum2Receive (n : Nat) (h : Hdr) (b : CollAddr) (p : Contrib)
  /-- KDOWN_RECEIVE (R207). -/
  | kdownReceive (l : LaneRef) (h : Hdr) (b : CollAddr) (p : Contrib)
  /-- RESULT_RECEIVE (R215). -/
  | resultReceive (l : LaneRef) (h : Hdr) (b : CollAddr) (p : CollResult)
  /-- RES_GRACE_EXPIRE (R221). -/
  | resGraceExpire (n : BitVec 4)
  /-- COLL_OUTPUT_DONE (R218). -/
  | collOutputDone (n : BitVec 4)
  /-- COBJ_COMMIT (R225). -/
  | cobjCommit (q : CatReq)
  /-- GEN_ISSUE (R234). -/
  | genIssue (a : Access) (n : BitVec 3)
  /-- GEN_CANCEL (R236). -/
  | genCancel (a : Access) (n : BitVec 3)
  /-- GEN_COMPLETE (R234). -/
  | genComplete (n : BitVec 3)
  /-- GEN_TEST_CALL (R250). -/
  | genTestCall (a : Access)
  /-- GEN_SELFTEST_RUN (R235). -/
  | genSelftestRun (a : Access)
  /-- GEN_KEY_WRITE (R237). -/
  | genKeyWrite (a : Access) (c : Ctx6) (hi : Bool) (data : BitVec 64)
  /-- HREQ_RECEIVE (R258). -/
  | hreqReceive (l : LaneRef) (h : Hdr) (p : HReq)
  /-- HREQ_EXPIRY (R259). -/
  | hreqExpiry (pda : BitVec 16) (tag : BitVec 16)
  /-- HCANCEL_RECEIVE (R261). -/
  | hcancelReceive (l : LaneRef) (h : Hdr) (ha : BitVec 39) (pda : BitVec 16) (tag : BitVec 16)
  /-- HRESP_RECEIVE (R261). -/
  | hrespReceive (l : LaneRef) (h : Hdr) (p : HResp)
  /-- HM_GRACE_EXPIRE (R261). -/
  | hmGraceExpire (tag : BitVec 16)
  /-- HMEM_REGION_COMMIT (R264). -/
  | hmemRegionCommit (q : CatReq)
  /-- HMEM_SCRUB_DONE (R264). -/
  | hmemScrubDone (region : BitVec 10)
  /-- HMEM_SELFTEST_DONE (R256). -/
  | hmemSelftestDone (failing : List Nat)
  /-- DT_CONFIG_WRITE (R269). -/
  | dtConfigWrite (a : Access) (w : DtWrite)
  /-- DT_FIRE (R270). -/
  | dtFire (n : BitVec 12)
  /-- DM_ENABLE (R293). -/
  | dmEnable (a : Access) (n : BitVec 3)
  /-- DM_DISABLE (R293). -/
  | dmDisable (a : Access) (n : BitVec 3)
  /-- DM_LOAD (R287). -/
  | dmLoad (a : Access) (n : BitVec 3)
  /-- DM_KICK (R287). -/
  | dmKick (a : Access) (n : BitVec 3)
  /-- DM_PAUSE (R290). -/
  | dmPause (a : Access) (n : BitVec 3)
  /-- DM_RESUME (R290). -/
  | dmResume (a : Access) (n : BitVec 3)
  /-- DM_RESTART (R292). -/
  | dmRestart (a : Access) (n : BitVec 3)
  /-- DM_SKIP (R292). -/
  | dmSkip (a : Access) (n : BitVec 3)
  /-- DM_ABORT (R292). -/
  | dmAbort (a : Access) (n : BitVec 3)
  /-- DM_DESC_FETCH_DONE (R287). -/
  | dmDescFetchDone (n : BitVec 3) (resp : BitVec 2) (desc : Bytes)
  /-- DM_POLL_EXPIRE (R287). -/
  | dmPollExpire (n : BitVec 3)
  /-- DM_READ_DATA (R277). -/
  | dmReadData (n : BitVec 3) (resp : BitVec 2) (data : Bytes)
  /-- DM_WRITE_ACK (R288). -/
  | dmWriteAck (n : BitVec 3) (resp : BitVec 2)
  /-- DM_HALT_DRAINED (R291). -/
  | dmHaltDrained (n : BitVec 3)
  /-- STR_CH_ENABLE (R304). -/
  | strChEnable (a : Access) (ch : BitVec 6)
  /-- STR_CH_DISABLE (R304). -/
  | strChDisable (a : Access) (ch : BitVec 6)
  /-- STREAM_CREDIT_RETURN (R298). -/
  | streamCreditReturn
  /-- OUTPUT_BURST_ADMIT (R302). -/
  | outputBurstAdmit (p : Producer)
  /-- OUT_WAIT_EXPIRE (R303). -/
  | outWaitExpire (p : Producer)
  /-- CAT_READ (R318). -/
  | catRead (q : CatReq) (e : EntryId) (staged : Bool)
  /-- CAT_WRITE (R318). -/
  | catWrite (q : CatReq) (e : EntryId) (vtype : BitVec 8) (value : Bytes)
  /-- CAT_READ_BLOCK (R318). -/
  | catReadBlock (q : CatReq) (e : EntryId) (offset : BitVec 32) (count : BitVec 16)
  /-- CAT_WRITE_BLOCK (R318). -/
  | catWriteBlock (q : CatReq) (e : EntryId) (offset : BitVec 32) (data : Bytes) (last : Bool)
  /-- CAT_COMMIT (R313). -/
  | catCommit (q : CatReq) (index : BitVec 16)
  /-- CAT_SUBSCRIBE (R325). -/
  | catSubscribe (q : CatReq) (e : EntryId) (minInt : BitVec 16) (lifetime : BitVec 16)
  /-- NOTIFY_SAMPLE (R325). -/
  | notifySample (u : UnitRef) (n : Nat)
  /-- SUBSCRIPTION_EXPIRE (R325). -/
  | subscriptionExpire (u : UnitRef) (n : Nat)
  /-- UDP_MESSAGE_RECEIVE (R321). -/
  | udpMessageReceive (src : UdpSource) (msg : Bytes)
  /-- CTRL_FRAME_RECEIVE (R321). -/
  | ctrlFrameReceive (l : LaneRef) (h : Hdr) (csf : BitVec 48) (msg : Bytes)
  /-- FWD_TIMEOUT (R321). -/
  | fwdTimeout (tag : BitVec 24)
  /-- CAT_IMAGE_LOAD (R331). -/
  | catImageLoad (a : Access)
  /-- CAT_DEFAULT (R331). -/
  | catDefault (a : Access)
  /-- CAT_IMAGE_FETCHED (R329). -/
  | catImageFetched (resp : BitVec 2) (img : Bytes)
  /-- CAT_LOAD_TIMEOUT (R331). -/
  | catLoadTimeout
  /-- CAT_SAVE (R332). -/
  | catSave (q : CatReq)
  /-- CAT_SAVE_DONE (R332). -/
  | catSaveDone
  /-- GAUNTLET_WRITE (R337). -/
  | gauntletWrite (a : Access) (w : GntWrite)
  /-- DBG_SET (R340). -/
  | dbgSet (a : AnyAccess) (level : BitVec 2)
  /-- DBG_UNLOCK (R341). -/
  | dbgUnlock (a : AnyAccess) (level : BitVec 2)
  /-- DEBUG_ACCESS (R342). -/
  | debugAccess (r : DebugReq)
  /-- FREEZE_ARM (R343). -/
  | freezeArm (a : AnyAccess) (w : FrzWrite)
  /-- FREEZE_RELEASE (R343). -/
  | freezeRelease (a : AnyAccess)
  /-- MITTEN_REQUEST (R347). -/
  | mittenRequest (a : Access)
  /-- MITTEN_INC_MEASURED (R348). -/
  | mittenIncMeasured (inc : BitVec 64)
  /-- MITTEN_ENTRY_COMPLETE (R348). -/
  | mittenEntryComplete
  /-- WAKE_AT_REACHED (R349). -/
  | wakeAtReached
  /-- HOST_WAKE_REQUEST (R350). -/
  | hostWakeRequest
  /-- LANE_ENERGY_WAKE (R350). -/
  | laneEnergyWake (p : Plane)
  /-- DBG_WAKE (R350). -/
  | dbgWake (a : AnyAccess)
  /-- SOFTWARE_WAKE (R350). -/
  | softwareWake (a : Access)
  /-- MITTEN_EXIT_DONE (R350). -/
  | mittenExitDone
  /-- ENGINE_DEMAND (R346). -/
  | engineDemand
  /-- ENGINE_STARTED (R346). -/
  | engineStarted
  /-- ENG_LEAD_EXPIRE (R346). -/
  | engLeadExpire (c : Ctx6)
  /-- ENG_IDLE_EXPIRE (R346). -/
  | engIdleExpire
  /-- TELEMETRY_RECORD (R387). -/
  | telemetryRecord
  /-- CLOAKROOM_ENTRY (R407). -/
  | cloakroomEntry
  /-- CLOAKROOM_FORCED_STOP (R407). -/
  | cloakroomForcedStop (n : BitVec 3)
  /-- CLOAKROOM_DRAIN_DONE (R407). -/
  | cloakroomDrainDone
  /-- CLOAKROOM_EXIT (R410). -/
  | cloakroomExit
  /-- ADMIT_COMMIT (R405). -/
  | admitCommit (q : CatReq)
  /-- TOPO_EXPECT_COMMIT (R400). -/
  | topoExpectCommit (q : CatReq) (pda : BitVec 16)
  /-- DIST_TOPO_COMMIT (R402). -/
  | distTopoCommit (q : CatReq)
  /-- TOPO_REPORT_SEND (R403). -/
  | topoReportSend
  /-- TOPO_REPORT_RECEIVE (R403). -/
  | topoReportReceive (n : Nat) (h : Hdr) (r : TopoReport)
  /-- TOPO_SUM_RECEIVE (R403). -/
  | topoSumReceive (n : Nat) (h : Hdr) (admitted : BitVec 32)
  /-- IMG_TX_START (R412). -/
  | imgTxStart (q : CatReq)
  /-- IMG_BLOCK_SEND (R412). -/
  | imgBlockSend
  /-- IMG_TX_COMMIT (R417). -/
  | imgTxCommit (q : CatReq)
  /-- IMG_TX_ROLLBACK (R417). -/
  | imgTxRollback (q : CatReq)
  /-- IMG_START_RECEIVE (R414). -/
  | imgStartReceive (l : LaneRef) (h : Hdr) (b : ImgAddr) (p : ImgStart)
  /-- IMG_BLOCK_RECEIVE (R414). -/
  | imgBlockReceive (l : LaneRef) (h : Hdr) (b : ImgAddr) (data : Bytes)
  /-- IMG_END_RECEIVE (R415). -/
  | imgEndReceive (l : LaneRef) (h : Hdr) (b : ImgAddr) (nblk : BitVec 16)
  /-- IMG_NACK_TIMER (R415). -/
  | imgNackTimer (u : UnitRef)
  /-- IMG_NACK_RECEIVE (R415). -/
  | imgNackReceive (n : Nat) (h : Hdr) (b : ImgAddr) (ranges : List (BitVec 16 × BitVec 16))
  /-- IMG_VERIFY_DONE (R416). -/
  | imgVerifyDone (u : UnitRef) (resp : BitVec 2) (img : Bytes)
  /-- IMG_REPORT_RECEIVE (R413). -/
  | imgReportReceive (n : Nat) (h : Hdr) (b : ImgAddr) (okn : BitVec 32) (failn : BitVec 32)
  /-- IMG_COMMIT_RECEIVE (R417). -/
  | imgCommitReceive (l : LaneRef) (h : Hdr) (b : ImgAddr) (tAct : BitVec 64)
  /-- IMG_ACTIVATE (R417). -/
  | imgActivate (u : UnitRef)
  /-- IMG_ROLLBACK_RECEIVE (R417). -/
  | imgRollbackReceive (l : LaneRef) (h : Hdr) (b : ImgAddr)
  /-- IMG_ACTED_RECEIVE (R413). -/
  | imgActedReceive (n : Nat) (h : Hdr) (b : ImgAddr) (actn : BitVec 32) (missn : BitVec 32)
  /-- IMG_TAKEN (R418). -/
  | imgTaken (q : CatReq)
  /-- DIST_POWER_UP (R398). -/
  | distPowerUp
  /-- OCXO_WARM (R398). -/
  | ocxoWarm
  /-- MEM_COMMIT (R429). -/
  | memCommit (q : CatReq)
  /-- FENCE_RECEIVE_DIST (R429). -/
  | fenceReceiveDist (n : Nat) (h : Hdr) (f : FenceMsg)
  /-- FENCE_RECEIVE_TSU (R431). -/
  | fenceReceiveTsu (p : Plane) (h : Hdr) (f : FenceMsg)
  /-- RM_COMMIT (R434). -/
  | rmCommit (q : CatReq)
  /-- PURGE_COMMIT (R435). -/
  | purgeCommit (q : CatReq)
  /-- SEED_COMMIT (R436). -/
  | seedCommit (q : CatReq)
  /-- LDI_MAP_COMMIT (R426). -/
  | ldiMapCommit (q : CatReq)
  /-- DIST_DRAIN (R439). -/
  | distDrain (q : CatReq)
  /-- SHADOW_END (R440). -/
  | shadowEnd
  /-- CURATOR_UPDATE (R442). -/
  | curatorUpdate (m : Measure)
  /-- BUCKET_LEAK (R444). -/
  | bucketLeak
  /-- CONGESTION_WINDOW (R449). -/
  | congestionWindow (w : CongMeasure)
  /-- PORT_LISTEN (R456). -/
  | portListen (n : Nat)
  /-- PORT_WAKE (R456). -/
  | portWake (q : CatReq) (n : Nat)
  /-- PORT_ENERGY_DETECT (R456). -/
  | portEnergyDetect (n : Nat)
  /-- INPUT_UNDERVOLTAGE (R463). -/
  | inputUndervoltage (v : BitVec 16)
  /-- INPUT_OFF (R463). -/
  | inputOff
  /-- INPUT_RECOVERED (R463). -/
  | inputRecovered
  /-- THERM_WARN (R465). -/
  | thermWarn (tj : BitVec 8)
  /-- THERM_TRIP (R465). -/
  | thermTrip (tj : BitVec 8)
  /-- CAGE_LIMIT (R464). -/
  | cageLimit (lanes : List Nat)
  /-- TSU_RESET_ASSERT (R379). -/
  | tsuResetAssert
  /-- AON_RESET_ASSERT (R379). -/
  | aonResetAssert
  /-- AON_CLOCK_RECOVER (R109). -/
  | aonClockRecover (u : UnitRef)
  /-- DLL_LOCK_REGAIN (R53). -/
  | dllLockRegain (ch : TdcCh)
  /-- TENMHZ_RECOVER (R98). -/
  | tenmhzRecover (n : BitVec 2)
  /-- LOCK_AGE_TEN_MINUTES (R23). -/
  | lockAgeTenMinutes
  /-- TOPO_SUM_SEND (R403). -/
  | topoSumSend
  /-- IMG_END_TIMEOUT (R415). -/
  | imgEndTimeout (u : UnitRef)
  /-- IMG_BLOCK_WRITE_ACK (R414). -/
  | imgBlockWriteAck (resp : BitVec 2)
  /-- FIRMWARE_BOOT_DONE (R398). -/
  | firmwareBootDone
  /-- DIST_CAT_LOAD_DONE (R332). -/
  | distCatLoadDone (slots : List Bytes)
  /-- STR_CLK_START (R365). -/
  | strClkStart
  deriving DecidableEq, Repr

end Sys2Proof
end

