-- ==== Sys2Proof/WellFormed.lean ====
section
/-! DEFINITION. Which commands can come: a lane, port, TDC channel, candidate or slice that is named exists, and the payload of a frame
received fits a frame. One arm per constructor. -/

namespace Sys2Proof

/-- The lane exists: planes A and B of the TSU, lanes 0 to 311 of the distributor (R69, R454). -/
def LaneRef.ok : LaneRef → Bool
  | .tsu _ => true
  | .dist n => decide (n < 312)

/-- The TDC channel exists (R53). -/
def TdcCh.ok : TdcCh → Bool
  | .dist n => decide (n < 312)
  | _ => true

/-- What is measured exists: six root candidates (R104), 312 lanes. -/
def Measure.ok : Measure → Bool
  | .eye l _ => l.ok
  | .res l _ => l.ok
  | .optRx n _ => decide (n < 312)
  | .refRes c _ => decide (c.toNat < 6)

/-- What is watched exists (R449). -/
def CongWhere.ok : CongWhere → Bool
  | .lane n _ => decide (n.toNat < 312)
  | .slice _ => true

/-- A Catalogue request reaches a TSU from its registers or the tree, a distributor from the tree or UDP (R314, R322). -/
def CatReq.ok (q : CatReq) : Bool :=
  match q.unit with
  | .tsu => q.src != .udp
  | .dist => q.src != .local

/-- A register address is aligned to the size of the access (R359). -/
def addrOk (size64 : Bool) (addr : BitVec 24) : Bool := addr.toNat % (if size64 then 8 else 4) == 0

/-- The command names only what the two units have. -/
def Instr.wf : Instr → Bool
  | .aonResetRelease => true
  | .tsuResetRelease => true
  | .fuseReadDone _ _ => true
  | .fuseTimeout => true
  | .powerAck _ _ => true
  | .pwrAckLoss _ => true
  | .registerWrite _ size64 addr _ => addrOk size64 addr
  | .spineLoadTake => true
  | .calStart _ => true
  | .spineCalDone _ => true
  | .spineTrackMeasure _ _ => true
  | .vitCapture _ => true
  | .vitArmAt _ _ => true
  | .vitAtReached _ => true
  | .laneEnable _ l => l.ok
  | .laneDisable _ l => l.ok
  | .laneShutdownDone l => l.ok
  | .retrain _ l => l.ok
  | .laneCntClr _ l => l.ok
  | .trainingDone l _ _ => l.ok
  | .codewordLock l => l.ok
  | .trainingTimeout l => l.ok
  | .retrainBackoffExpire l => l.ok
  | .helloSend l => l.ok
  | .helloReceive l _ _ => l.ok
  | .negTimeout l => l.ok
  | .cdrLockLoss l => l.ok
  | .frameCorrupt l _ _ => l.ok
  | .linkctlSend l => l.ok
  | .linkctlReceive l _ _ => l.ok
  | .syncSendDown n _ => decide (n < 312)
  | .syncSendUp l _ => l.ok
  | .syncFrameReceive l _ _ _ => l.ok
  | .syncLossDetect l => l.ok
  | .tdcCaptureDiscard ch => ch.ok
  | .cdcStart _ _ => true
  | .cdcDone _ _ => true
  | .dllUnlock ch => ch.ok
  | .refineWindowEnd _ => true
  | .stepArm _ _ => true
  | .twinSwitch => true
  | .planeWtrExpire _ => true
  | .ppsEdge _ _ => true
  | .ppsEdgeMissing _ => true
  | .todMessageReceive _ _ => true
  | .todTimeout _ => true
  | .tenmhzLoss _ => true
  | .ptpMessageReceive _ _ => true
  | .ptpAnnounceTimeout _ => true
  | .esmcReceive _ _ _ => true
  | .esmcTimeout _ => true
  | .refHoldoffExpire => true
  | .refWtrExpire cand => decide (cand.toNat < 6)
  | .tieHoldoffExpire => true
  | .tieSwitchAt => true
  | .rootManualStart q => q.ok
  | .ageingLearn => true
  | .aonClockLoss _ => true
  | .ctxEnable _ _ => true
  | .ctxDisable _ _ => true
  | .ctxClearingDone _ => true
  | .ready _ _ => true
  | .go _ _ => true
  | .stop _ _ => true
  | .clear _ _ => true
  | .ctxCntClr _ _ => true
  | .stepGoReceive l _ _ _ => l.ok
  | .restartSend _ => true
  | .rgQuiesceRaise _ => true
  | .launch _ _ => true
  | .missedArrival _ => true
  | .rstCalStart _ => true
  | .rstCalDone _ => true
  | .stretchReport _ _ => true
  | .refreshRequest _ => true
  | .refreshUrgent _ => true
  | .quietWindowOpen => true
  | .refreshGrantEnd _ => true
  | .armReceive l _ _ _ => l.ok
  | .commitReceive l _ _ _ => l.ok
  | .abortReceive l _ _ _ => l.ok
  | .nostartExpire _ => true
  | .armedReceive n _ _ _ _ => decide (n < 312)
  | .jobArm q => q.ok
  | .jobCommit q => q.ok
  | .jobAbort q => q.ok
  | .bslotConfig _ _ => true
  | .xlatWrite _ _ => true
  | .wsConsume _ _ _ _ => true
  | .wsRead _ _ _ _ => true
  | .wsProduce _ _ _ _ => true
  | .wsWriteForce _ _ _ _ => true
  | .wsFillCount _ _ _ _ => true
  | .wsProbe _ _ _ _ => true
  | .hallConsume _ _ _ _ => true
  | .hallRead _ _ _ _ => true
  | .hallProduce _ _ _ _ => true
  | .hallWriteForce _ _ _ _ => true
  | .hallFillCount _ _ _ _ => true
  | .hallProbe _ _ _ _ => true
  | .wsArrive _ _ _ _ => true
  | .wsArriveWait _ _ _ _ => true
  | .wsWait _ _ _ _ => true
  | .wsSignal _ _ _ _ => true
  | .wsTake _ _ _ _ => true
  | .wsReadCount _ _ _ _ => true
  | .wsWaitRead _ _ _ _ => true
  | .regAbort _ => true
  | .waitTimeout _ _ => true
  | .arriveReceive n _ _ _ => decide (n < 312)
  | .doneReceive l _ _ _ => l.ok
  | .signalReceive n _ _ _ => decide (n < 312)
  | .takeReceive n _ _ _ => decide (n < 312)
  | .takeRespReceive l _ _ _ => l.ok
  | .cancelReceive n _ _ _ _ => decide (n < 312)
  | .directWindowRead _ _ _ _ => true
  | .directWindowWrite _ _ _ _ => true
  | .tmScrubStart _ _ => true
  | .tmScrubDone => true
  | .tmInitDone => true
  | .hbarCommit q => q.ok
  | .groupCommit q => q.ok
  | .barCntClr _ => true
  | .collIssue _ _ => true
  | .collCancel _ _ => true
  | .collCntClr _ => true
  | .streamBeatReceive _ => true
  | .burstStallTrunc _ => true
  | .collCut _ => true
  | .contribReceive n _ _ _ => decide (n < 312)
  | .absentReceive n _ _ _ => decide (n < 312)
  | .ssum2Receive n _ _ _ => decide (n < 312)
  | .kdownReceive l _ _ _ => l.ok
  | .resultReceive l _ _ _ => l.ok
  | .resGraceExpire _ => true
  | .collOutputDone _ => true
  | .cobjCommit q => q.ok
  | .genIssue _ _ => true
  | .genCancel _ _ => true
  | .genComplete _ => true
  | .genTestCall _ => true
  | .genSelftestRun _ => true
  | .genKeyWrite _ _ _ _ => true
  | .hreqReceive l _ _ => l.ok
  | .hreqExpiry _ _ => true
  | .hcancelReceive l _ _ _ _ => l.ok
  | .hrespReceive l _ _ => l.ok
  | .hmGraceExpire _ => true
  | .hmemRegionCommit q => q.ok
  | .hmemScrubDone _ => true
  | .hmemSelftestDone _ => true
  | .dtConfigWrite _ _ => true
  | .dtFire _ => true
  | .dmEnable _ _ => true
  | .dmDisable _ _ => true
  | .dmLoad _ _ => true
  | .dmKick _ _ => true
  | .dmPause _ _ => true
  | .dmResume _ _ => true
  | .dmRestart _ _ => true
  | .dmSkip _ _ => true
  | .dmAbort _ _ => true
  | .dmDescFetchDone _ _ _ => true
  | .dmPollExpire _ => true
  | .dmReadData _ _ _ => true
  | .dmWriteAck _ _ => true
  | .dmHaltDrained _ => true
  | .strChEnable _ _ => true
  | .strChDisable _ _ => true
  | .streamCreditReturn => true
  | .outputBurstAdmit _ => true
  | .outWaitExpire _ => true
  | .catRead q _ _ => q.ok
  | .catWrite q _ _ _ => q.ok
  | .catReadBlock q _ _ _ => q.ok
  | .catWriteBlock q _ _ _ _ => q.ok
  | .catCommit q _ => q.ok
  | .catSubscribe q _ _ _ => q.ok
  | .notifySample _ _ => true
  | .subscriptionExpire _ _ => true
  | .udpMessageReceive _ _ => true
  | .ctrlFrameReceive l _ _ msg => l.ok && decide (msg.length ≤ 2048)
  | .fwdTimeout _ => true
  | .catImageLoad _ => true
  | .catDefault _ => true
  | .catImageFetched _ _ => true
  | .catLoadTimeout => true
  | .catSave q => q.ok
  | .catSaveDone => true
  | .gauntletWrite _ _ => true
  | .dbgSet _ _ => true
  | .dbgUnlock _ _ => true
  | .debugAccess r => addrOk r.size64 r.addr
  | .freezeArm _ _ => true
  | .freezeRelease _ => true
  | .mittenRequest _ => true
  | .mittenIncMeasured _ => true
  | .mittenEntryComplete => true
  | .wakeAtReached => true
  | .hostWakeRequest => true
  | .laneEnergyWake _ => true
  | .dbgWake _ => true
  | .softwareWake _ => true
  | .mittenExitDone => true
  | .engineDemand => true
  | .engineStarted => true
  | .engLeadExpire _ => true
  | .engIdleExpire => true
  | .telemetryRecord => true
  | .cloakroomEntry => true
  | .cloakroomForcedStop _ => true
  | .cloakroomDrainDone => true
  | .cloakroomExit => true
  | .admitCommit q => q.ok
  | .topoExpectCommit q _ => q.ok
  | .distTopoCommit q => q.ok
  | .topoReportSend => true
  | .topoReportReceive n _ _ => decide (n < 312)
  | .topoSumReceive n _ _ => decide (n < 312)
  | .imgTxStart q => q.ok
  | .imgBlockSend => true
  | .imgTxCommit q => q.ok
  | .imgTxRollback q => q.ok
  | .imgStartReceive l _ _ _ => l.ok
  | .imgBlockReceive l _ _ data => l.ok && decide (data.length ≤ 2048)
  | .imgEndReceive l _ _ _ => l.ok
  | .imgNackTimer _ => true
  | .imgNackReceive n _ _ _ => decide (n < 312)
  | .imgVerifyDone _ _ _ => true
  | .imgReportReceive n _ _ _ _ => decide (n < 312)
  | .imgCommitReceive l _ _ _ => l.ok
  | .imgActivate _ => true
  | .imgRollbackReceive l _ _ => l.ok
  | .imgActedReceive n _ _ _ _ => decide (n < 312)
  | .imgTaken q => q.ok
  | .distPowerUp => true
  | .ocxoWarm => true
  | .memCommit q => q.ok
  | .fenceReceiveDist n _ _ => decide (n < 312)
  | .fenceReceiveTsu _ _ _ => true
  | .rmCommit q => q.ok
  | .purgeCommit q => q.ok
  | .seedCommit q => q.ok
  | .ldiMapCommit q => q.ok
  | .distDrain q => q.ok
  | .shadowEnd => true
  | .curatorUpdate m => m.ok
  | .bucketLeak => true
  | .congestionWindow w => w.stalls.all fun x => x.1.ok
  | .portListen n => decide (n < 312)
  | .portWake q n => q.ok && decide (n < 312)
  | .portEnergyDetect n => decide (n < 312)
  | .inputUndervoltage _ => true
  | .inputOff => true
  | .inputRecovered => true
  | .thermWarn _ => true
  | .thermTrip _ => true
  | .cageLimit lanes => lanes.all fun n => decide (n < 312)
  | .tsuResetAssert => true
  | .aonResetAssert => true
  | .aonClockRecover _ => true
  | .dllLockRegain ch => ch.ok
  | .tenmhzRecover _ => true
  | .lockAgeTenMinutes => true
  | .topoSumSend => true
  | .imgEndTimeout _ => true
  | .imgBlockWriteAck _ => true
  | .firmwareBootDone => true
  | .distCatLoadDone _ => true
  | .strClkStart => true

end Sys2Proof
end

