-- ==== Sys2Proof/Config.lean ====
section
/-! DEFINITION. What the manual leaves open: free values, which nothing here fixes, and what the build of one part
fixes. -/

namespace Sys2Proof.Config

open Sys2Proof

/-- FREE VALUE. The n-th open value the block draws (log entry 3). -/
opaque freeValue : Nat → BitVec 64

/-- FREE VALUE. Words 0 and 3 of the generator's self-test: R230's table and R227 disagree on them, so whether they
compare equal is open (log entry 6). -/
opaque selfTestWords03 : Bool

/-- FREE VALUE. How the build fixes the media of each distributor lane (R459, R467): true on module optics. -/
opaque media : Nat → Bool

/-- FREE VALUE. The factory calibration of the OCXO: FFO and TAI seconds (R112, R462). -/
opaque calFfo : BitVec 32
opaque calSec : BitVec 64

/-- FREE VALUE. The TSU firmware version (R250). -/
opaque tsuFw : BitVec 32

/-- FREE VALUE. tie.role_pref of the other plane's root, which this unit cannot see (R94). -/
opaque otherRolePref : Nat

end Sys2Proof.Config
end

