-- ==== Sys2Proof/Machine/Bits.lean ====
section
/-! DEFINITION. Bit fields, byte order (R8), saturating counts, CRC-32C (R297), SHA-256 and HMAC-SHA-256. -/

namespace Sys2Proof.Machine

open Sys2Proof

/-- The bit of a Bool. -/
def bit (x : Bool) : BitVec 1 := if x then 1 else 0

/-- Bit `i` of a 64-bit word set to `x`. -/
def setBit64 (w : BitVec 64) (i : Nat) (x : Bool) : BitVec 64 :=
  if x then w ||| (1#64 <<< i) else w &&& ~~~(1#64 <<< i)

/-- A field of width `n` at bit `lo` of a 64-bit word. -/
def fld (w : BitVec 64) (lo n : Nat) : BitVec n := w.extractLsb' lo n

/-- A value placed at bit `lo` of a 64-bit word. -/
def put {n : Nat} (lo : Nat) (v : BitVec n) : BitVec 64 := (v.setWidth 64) <<< lo

/-- A flag placed at bit `lo` of a 64-bit word. -/
def putB (lo : Nat) (x : Bool) : BitVec 64 := if x then 1#64 <<< lo else 0

/-- One more, saturating at the greatest value of the width. -/
def sat1 {n : Nat} (x : BitVec n) : BitVec n := if x = BitVec.allOnes n then x else x + 1

/-- `k` more, saturating. -/
def satAdd {n : Nat} (x : BitVec n) (k : Nat) : BitVec n :=
  if x.toNat + k < 2 ^ n then BitVec.ofNat n (x.toNat + k) else BitVec.allOnes n

/-- `x` limited to the range from `lo` to `hi`. -/
def clampI (lo hi x : Int) : Int := if x < lo then lo else if hi < x then hi else x

/-- A signed integer saturated to `n` bits, two's complement. -/
def satI (n : Nat) (x : Int) : BitVec n := BitVec.ofInt n (clampI (-(2 ^ (n - 1))) (2 ^ (n - 1) - 1) x)

/-- Round half to even of `a / b`, with b positive. -/
def divRNE (a : Int) (b : Nat) : Int :=
  let q := a / (b : Int)
  let r := a % (b : Int)
  if 2 * r < b then q else if 2 * r > b then q + 1 else if q % 2 = 0 then q else q + 1

/-- Insertion of an integer into a sorted list. -/
def insertI (x : Int) : List Int → List Int
  | [] => [x]
  | y :: t => if x ≤ y then x :: y :: t else y :: insertI x t

/-- The list sorted upwards. -/
def sortI (l : List Int) : List Int := l.foldr insertI []

/-- The first `n` bytes of a number, least significant first. -/
def toLE : Nat → Nat → Bytes
  | 0, _ => []
  | n + 1, x => BitVec.ofNat 8 x :: toLE n (x / 256)

/-- The number that bytes spell, least significant first. -/
def ofLE : Bytes → Nat
  | [] => 0
  | b :: t => b.toNat + 256 * ofLE t

/-- The first `n` bytes of a number, most significant first. -/
def toBE (n x : Nat) : Bytes := (toLE n x).reverse

/-- The number that bytes spell, most significant first. -/
def ofBE (l : Bytes) : Nat := ofLE l.reverse

/-- `n` bytes from offset `o`, zero past the end. -/
def slice (l : Bytes) (o n : Nat) : Bytes :=
  let s := (l.drop o).take n
  s ++ List.replicate (n - s.length) 0

/-- The little-endian number of `n` bytes at offset `o`. -/
def leAt (l : Bytes) (o n : Nat) : Nat := ofLE (slice l o n)

/-- The big-endian number of `n` bytes at offset `o`. -/
def beAt (l : Bytes) (o n : Nat) : Nat := ofBE (slice l o n)

/-- `l` with the bytes `v` written from offset `o`, the length unchanged. -/
def patch (l : Bytes) (o : Nat) (v : Bytes) : Bytes :=
  ((l.take o) ++ v ++ (l.drop (o + v.length))).take l.length

/-- Every byte is zero. -/
def allZero (l : Bytes) : Bool := l.all (fun x => x == 0)

/-- One bit of CRC-32C, reflected. -/
def crcBit (c : BitVec 32) : BitVec 32 :=
  if c.getLsbD 0 then (c >>> 1) ^^^ 0x82F63B78#32 else c >>> 1

/-- One byte of CRC-32C. -/
def crcByte (c : BitVec 32) (x : Byte) : BitVec 32 :=
  Nat.repeat crcBit 8 (c ^^^ x.setWidth 32)

/-- CRC-32C: polynomial 0x1EDC6F41, reflected, initial value and final exclusive-or all ones (R297). -/
def crc32c (l : Bytes) : BitVec 32 := ~~~(l.foldl crcByte 0xFFFFFFFF#32)

/-- The 64 round constants of SHA-256. -/
def shaK : List (BitVec 32) :=
  [0x428a2f98, 0x71374491, 0xb5c0fbcf, 0xe9b5dba5, 0x3956c25b, 0x59f111f1, 0x923f82a4, 0xab1c5ed5,
   0xd807aa98, 0x12835b01, 0x243185be, 0x550c7dc3, 0x72be5d74, 0x80deb1fe, 0x9bdc06a7, 0xc19bf174,
   0xe49b69c1, 0xefbe4786, 0x0fc19dc6, 0x240ca1cc, 0x2de92c6f, 0x4a7484aa, 0x5cb0a9dc, 0x76f988da] ++
  [0x983e5152, 0xa831c66d, 0xb00327c8, 0xbf597fc7, 0xc6e00bf3, 0xd5a79147, 0x06ca6351, 0x14292967,
   0x27b70a85, 0x2e1b2138, 0x4d2c6dfc, 0x53380d13, 0x650a7354, 0x766a0abb, 0x81c2c92e, 0x92722c85,
   0xa2bfe8a1, 0xa81a664b, 0xc24b8b70, 0xc76c51a3, 0xd192e819, 0xd6990624, 0xf40e3585, 0x106aa070] ++
  [0x19a4c116, 0x1e376c08, 0x2748774c, 0x34b0bcb5, 0x391c0cb3, 0x4ed8aa4a, 0x5b9cca4f, 0x682e6ff3,
   0x748f82ee, 0x78a5636f, 0x84c87814, 0x8cc70208, 0x90befffa, 0xa4506ceb, 0xbef9a3f7, 0xc67178f2]

/-- The first hash value of SHA-256. -/
def shaH0 : List (BitVec 32) :=
  [0x6a09e667, 0xbb67ae85, 0x3c6ef372, 0xa54ff53a, 0x510e527f, 0x9b05688c, 0x1f83d9ab, 0x5be0cd19]

def bsig0 (x : BitVec 32) : BitVec 32 := x.rotateRight 2 ^^^ x.rotateRight 13 ^^^ x.rotateRight 22
def bsig1 (x : BitVec 32) : BitVec 32 := x.rotateRight 6 ^^^ x.rotateRight 11 ^^^ x.rotateRight 25
def ssig0 (x : BitVec 32) : BitVec 32 := x.rotateRight 7 ^^^ x.rotateRight 18 ^^^ (x >>> 3)
def ssig1 (x : BitVec 32) : BitVec 32 := x.rotateRight 17 ^^^ x.rotateRight 19 ^^^ (x >>> 10)

/-- The message schedule; the list holds the latest word first. -/
def shaSched : Nat → List (BitVec 32) → List (BitVec 32)
  | 0, w => w
  | n + 1, w =>
    shaSched n ((ssig1 (w.getD 1 0) + w.getD 6 0 + ssig0 (w.getD 14 0) + w.getD 15 0) :: w)

/-- One round on the eight working variables. -/
def shaRound (v : List (BitVec 32)) (kw : BitVec 32 × BitVec 32) : List (BitVec 32) :=
  match v with
  | [a, b, c, d, e, f, g, h] =>
    let t1 := h + bsig1 e + ((e &&& f) ^^^ (~~~e &&& g)) + kw.1 + kw.2
    let t2 := bsig0 a + ((a &&& b) ^^^ (a &&& c) ^^^ (b &&& c))
    [t1 + t2, a, b, c, d + t1, e, f, g]
  | _ => v

/-- One 64-byte block. -/
def shaBlock (h : List (BitVec 32)) (blk : Bytes) : List (BitVec 32) :=
  let w0 := (List.range 16).map (fun i => BitVec.ofNat 32 (beAt blk (4 * i) 4))
  let w := (shaSched 48 w0.reverse).reverse
  List.zipWith (· + ·) h ((shaK.zip w).foldl shaRound h)

/-- All blocks of a padded message; `n` is the number of blocks. -/
def shaBlocks : Nat → List (BitVec 32) → Bytes → List (BitVec 32)
  | 0, h, _ => h
  | n + 1, h, m => shaBlocks n (shaBlock h (m.take 64)) (m.drop 64)

/-- SHA-256 of a byte string. -/
def sha256 (m : Bytes) : Bytes :=
  let z := (119 - m.length % 64) % 64
  let p := m ++ [0x80] ++ List.replicate z 0 ++ toBE 8 (8 * m.length)
  (shaBlocks (p.length / 64) shaH0 p).flatMap (fun x => toBE 4 x.toNat)

/-- HMAC-SHA-256 with a key of at most 64 bytes. -/
def hmacSha256 (key msg : Bytes) : Bytes :=
  let k := slice key 0 64
  sha256 (k.map (· ^^^ 0x5C) ++ sha256 (k.map (· ^^^ 0x36) ++ msg))

end Sys2Proof.Machine
end

