-- ==== Sys2Proof/Machine/CatTable.lean ====
section
/-! DEFINITION. The Catalogue's entries as the tables of the chapters list them (R33, R73, R111, R112, R144, R185, R225,
R250, R264, R276, R295, R306, R333, R357, R422, R453, R467), with the types of R309 and the rights of R310. -/

namespace Sys2Proof.Machine

open Sys2Proof

/-- Access rights (R310). -/
inductive CatAcc where
  | const | ro | rw | wo | rws | so
  deriving DecidableEq, Repr

/-- Which units hold an entry. -/
inductive CatWho where
  | both | tsu | dist | t1 | root
  deriving DecidableEq, Repr

/-- One row: index, the range of sub-indices, type code and size (R309), right, default (read little-endian), whether it
is volatile (R311), and who holds it. Index 0xA000 stands for 0xA000 + n of every distributor lane n. -/
structure CatEnt where
  index : Nat
  subLo : Nat
  subHi : Nat
  vtype : Nat
  size  : Nat
  acc   : CatAcc
  dflt  : Nat
  vol   : Bool
  who   : CatWho
  deriving DecidableEq, Repr

def catRows0 : List CatEnt := [
  ⟨0x1001, 0x00, 0x00, 11, 16, .const, 0x5845444549524154, true, .both⟩,
  ⟨0x1002, 0x00, 0x00, 11, 16, .const, 0, true, .both⟩,
  ⟨0x1003, 0x00, 0x00, 11, 2, .const, 0, true, .both⟩,
  ⟨0x1004, 0x00, 0x00, 5, 8, .const, 0, true, .both⟩,
  ⟨0x1005, 0x00, 0x00, 3, 2, .const, 0x100, true, .both⟩,
  ⟨0x1006, 0x00, 0x00, 4, 4, .const, 0x30000, true, .both⟩,
  ⟨0x1020, 0x01, 0x01, 1, 1, .ro, 0, true, .both⟩,
  ⟨0x1020, 0x02, 0x02, 2, 1, .ro, 0, true, .both⟩,
  ⟨0x1020, 0x03, 0x03, 4, 4, .ro, 0, true, .both⟩,
  ⟨0x1020, 0x04, 0x04, 3, 2, .ro, 0, true, .both⟩,
  ⟨0x1020, 0x05, 0x05, 1, 1, .rws, 0, true, .dist⟩,
  ⟨0x1020, 0x06, 0x06, 4, 4, .ro, 0, true, .dist⟩,
  ⟨0x1030, 0x01, 0x01, 10, 32, .so, 0, false, .dist⟩,
  ⟨0x1030, 0x02, 0x02, 5, 8, .ro, 0, true, .dist⟩,
  ⟨0x1030, 0x03, 0x03, 4, 4, .ro, 0, true, .dist⟩,
  ⟨0x1030, 0x04, 0x04, 3, 2, .rws, 0x1e, false, .dist⟩,
  ⟨0x1031, 0x00, 0x00, 4, 4, .rws, 0x2625a0, false, .dist⟩,
  ⟨0x1040, 0x01, 0x01, 10, 16, .rws, 0, false, .dist⟩,
  ⟨0x1040, 0x02, 0x02, 2, 1, .rws, 0x40, false, .dist⟩,
  ⟨0x1040, 0x03, 0x03, 10, 4, .rws, 0, false, .dist⟩,
  ⟨0x1040, 0x04, 0x04, 2, 1, .rws, 0x18, false, .dist⟩,
  ⟨0x1040, 0x05, 0x05, 3, 2, .rws, 0, false, .dist⟩,
  ⟨0x1101, 0x01, 0x01, 1, 1, .rw, 1, false, .tsu⟩,
  ⟨0x1101, 0x02, 0x02, 2, 1, .rw, 0, false, .tsu⟩,
  ⟨0x1101, 0x03, 0x03, 1, 1, .rw, 1, false, .tsu⟩,
  ⟨0x1101, 0x04, 0x04, 1, 1, .rw, 1, false, .tsu⟩,
  ⟨0x1101, 0x05, 0x05, 10, 64, .rw, 0, false, .tsu⟩,
  ⟨0x1101, 0x06, 0x06, 3, 2, .rw, 0x40, false, .tsu⟩,
  ⟨0x1102, 0x01, 0x01, 1, 1, .rw, 1, false, .tsu⟩,
  ⟨0x1102, 0x02, 0x02, 2, 1, .rw, 0, false, .tsu⟩,
  ⟨0x1102, 0x03, 0x03, 1, 1, .rw, 1, false, .tsu⟩,
  ⟨0x1102, 0x04, 0x04, 1, 1, .rw, 1, false, .tsu⟩,
  ⟨0x1102, 0x05, 0x05, 10, 64, .rw, 0, false, .tsu⟩,
  ⟨0x1102, 0x06, 0x06, 3, 2, .rw, 0x40, false, .tsu⟩,
  ⟨0x1110, 0x00, 0x00, 3, 2, .const, 0x200, true, .both⟩,
  ⟨0x1111, 0x00, 0x00, 5, 8, .const, 0x7070f, true, .both⟩,
  ⟨0x1112, 0x00, 0x00, 5, 8, .rws, 0xffffffffffffffff, false, .both⟩,
  ⟨0x1113, 0x00, 0x00, 3, 2, .rws, 0x200, false, .both⟩,
  ⟨0x2001, 0x00, 0x00, 9, 12, .rws, 0, false, .both⟩,
  ⟨0x2002, 0x00, 0x00, 5, 8, .ro, 0, true, .both⟩,
  ⟨0x2003, 0x00, 0x00, 6, 4, .rws, 0x25, false, .both⟩,
  ⟨0x2004, 0x00, 0x00, 1, 1, .ro, 0, true, .both⟩,
  ⟨0x2010, 0x01, 0x01, 1, 1, .ro, 0, true, .tsu⟩,
  ⟨0x2010, 0x02, 0x02, 1, 1, .rw, 1, false, .tsu⟩,
  ⟨0x2010, 0x03, 0x03, 5, 8, .rw, 0, false, .tsu⟩,
  ⟨0x2010, 0x04, 0x04, 3, 2, .ro, 0, true, .tsu⟩]

def catRows1 : List CatEnt := [
  ⟨0x2101, 0x00, 0x00, 2, 1, .rw, 1, false, .tsu⟩,
  ⟨0x2102, 0x00, 0x00, 1, 1, .rw, 1, false, .tsu⟩,
  ⟨0x2103, 0x00, 0x00, 2, 1, .rw, 0, false, .tsu⟩,
  ⟨0x2104, 0x01, 0x01, 4, 4, .rws, 0x14f8b59, false, .both⟩,
  ⟨0x2104, 0x02, 0x02, 2, 1, .rws, 0xa, false, .both⟩,
  ⟨0x2104, 0x03, 0x03, 3, 2, .rw, 0x50, false, .both⟩,
  ⟨0x2104, 0x04, 0x04, 3, 2, .rw, 0x320, false, .both⟩,
  ⟨0x2104, 0x05, 0x05, 4, 4, .rws, 0xd1b7176, false, .both⟩,
  ⟨0x2105, 0x00, 0x00, 1, 1, .so, 0, true, .both⟩,
  ⟨0x2106, 0x00, 0x00, 3, 2, .rw, 0x3c, false, .tsu⟩,
  ⟨0x2107, 0x00, 0x00, 4, 4, .rws, 0x6e, false, .root⟩,
  ⟨0x2110, 0x00, 0x00, 2, 1, .ro, 0, true, .both⟩,
  ⟨0x2111, 0x00, 0x00, 6, 4, .ro, 0, true, .both⟩,
  ⟨0x2112, 0x00, 0x00, 4, 4, .ro, 0, true, .tsu⟩,
  ⟨0x2120, 0x01, 0x01, 2, 1, .rws, 0, false, .root⟩,
  ⟨0x2120, 0x02, 0x02, 8, 8, .rws, 0, true, .root⟩,
  ⟨0x2120, 0x03, 0x03, 3, 2, .rw, 0xa, false, .root⟩,
  ⟨0x2121, 0x00, 0x00, 2, 1, .ro, 0, true, .root⟩,
  ⟨0x2122, 0x00, 0x00, 6, 4, .ro, 0, true, .root⟩,
  ⟨0x2123, 0x00, 0x00, 1, 1, .ro, 0, true, .root⟩,
  ⟨0x2201, 0x01, 0x01, 2, 1, .rws, 0, false, .root⟩,
  ⟨0x2201, 0x02, 0x02, 2, 1, .rws, 0x5f, false, .root⟩,
  ⟨0x2201, 0x03, 0x03, 2, 1, .rws, 0, false, .root⟩,
  ⟨0x2201, 0x04, 0x04, 2, 1, .rws, 0xff, false, .root⟩,
  ⟨0x2201, 0x05, 0x05, 2, 1, .rws, 0, false, .root⟩,
  ⟨0x2201, 0x06, 0x06, 6, 4, .rws, 0, false, .root⟩,
  ⟨0x2201, 0x07, 0x07, 2, 1, .rws, 0xff, false, .root⟩,
  ⟨0x2202, 0x01, 0x01, 2, 1, .rws, 0, false, .root⟩,
  ⟨0x2202, 0x02, 0x02, 2, 1, .rws, 0x5f, false, .root⟩,
  ⟨0x2202, 0x03, 0x03, 2, 1, .rws, 0, false, .root⟩,
  ⟨0x2202, 0x04, 0x04, 2, 1, .rws, 0xff, false, .root⟩,
  ⟨0x2202, 0x05, 0x05, 2, 1, .rws, 0, false, .root⟩,
  ⟨0x2202, 0x06, 0x06, 6, 4, .rws, 0, false, .root⟩,
  ⟨0x2202, 0x07, 0x07, 2, 1, .rws, 0xff, false, .root⟩,
  ⟨0x2203, 0x01, 0x01, 2, 1, .rws, 0, false, .root⟩,
  ⟨0x2203, 0x02, 0x02, 2, 1, .rws, 0x5f, false, .root⟩,
  ⟨0x2203, 0x03, 0x03, 2, 1, .rws, 0, false, .root⟩,
  ⟨0x2203, 0x04, 0x04, 2, 1, .rws, 0xff, false, .root⟩,
  ⟨0x2203, 0x05, 0x05, 2, 1, .rws, 0, false, .root⟩,
  ⟨0x2203, 0x06, 0x06, 6, 4, .rws, 0, false, .root⟩]

def catRows2 : List CatEnt := [
  ⟨0x2203, 0x07, 0x07, 2, 1, .rws, 0xff, false, .root⟩,
  ⟨0x2204, 0x01, 0x01, 2, 1, .rws, 0, false, .root⟩,
  ⟨0x2204, 0x02, 0x02, 2, 1, .rws, 0x5f, false, .root⟩,
  ⟨0x2204, 0x03, 0x03, 2, 1, .rws, 0, false, .root⟩,
  ⟨0x2204, 0x04, 0x04, 2, 1, .rws, 0xff, false, .root⟩,
  ⟨0x2204, 0x05, 0x05, 2, 1, .rws, 0, false, .root⟩,
  ⟨0x2204, 0x06, 0x06, 6, 4, .rws, 0, false, .root⟩,
  ⟨0x2204, 0x07, 0x07, 2, 1, .rws, 0xff, false, .root⟩,
  ⟨0x2205, 0x01, 0x01, 1, 1, .rws, 0, false, .root⟩,
  ⟨0x2205, 0x02, 0x02, 2, 1, .rws, 0, false, .root⟩,
  ⟨0x2205, 0x03, 0x03, 2, 1, .rws, 0, false, .root⟩,
  ⟨0x2205, 0x04, 0x04, 2, 1, .rws, 0, false, .root⟩,
  ⟨0x2205, 0x05, 0x05, 2, 1, .rws, 0, false, .root⟩,
  ⟨0x2205, 0x06, 0x06, 2, 1, .rws, 0, false, .root⟩,
  ⟨0x2205, 0x07, 0x07, 6, 4, .rws, 0, false, .root⟩,
  ⟨0x2206, 0x01, 0x01, 1, 1, .rws, 0, false, .root⟩,
  ⟨0x2206, 0x02, 0x02, 2, 1, .rws, 0, false, .root⟩,
  ⟨0x2206, 0x03, 0x03, 2, 1, .rws, 0, false, .root⟩,
  ⟨0x2206, 0x04, 0x04, 2, 1, .rws, 0, false, .root⟩,
  ⟨0x2206, 0x05, 0x05, 2, 1, .rws, 0, false, .root⟩,
  ⟨0x2206, 0x06, 0x06, 2, 1, .rws, 0, false, .root⟩,
  ⟨0x2206, 0x07, 0x07, 6, 4, .rws, 0, false, .root⟩,
  ⟨0x2210, 0x00, 0x00, 3, 2, .rws, 0x12c, false, .root⟩,
  ⟨0x2211, 0x00, 0x00, 3, 2, .rws, 0x12c, false, .root⟩,
  ⟨0x2212, 0x00, 0x00, 1, 1, .rws, 1, false, .root⟩,
  ⟨0x2213, 0x00, 0x00, 2, 1, .rws, 0xc, false, .root⟩,
  ⟨0x2220, 0x01, 0x01, 6, 4, .ro, 0, true, .root⟩,
  ⟨0x2220, 0x02, 0x02, 5, 8, .ro, 0, true, .root⟩,
  ⟨0x2220, 0x03, 0x03, 6, 4, .rws, 0, false, .root⟩,
  ⟨0x2220, 0x04, 0x04, 1, 1, .rws, 1, false, .root⟩,
  ⟨0x2220, 0x05, 0x05, 6, 4, .ro, 0, true, .root⟩,
  ⟨0x2230, 0x01, 0x06, 2, 1, .ro, 0xf, true, .root⟩,
  ⟨0x2230, 0x07, 0x07, 2, 1, .ro, 0xff, true, .root⟩,
  ⟨0x2230, 0x08, 0x08, 1, 1, .ro, 0, true, .root⟩,
  ⟨0x2231, 0x01, 0x01, 9, 12, .so, 0, true, .root⟩,
  ⟨0x2231, 0x02, 0x02, 1, 1, .so, 0, true, .root⟩,
  ⟨0x2301, 0x00, 0x00, 4, 4, .rw, 0x100000, false, .both⟩,
  ⟨0x2302, 0x00, 0x00, 2, 1, .ro, 0, true, .both⟩,
  ⟨0x3001, 0x00, 0x00, 2, 1, .rws, 8, false, .tsu⟩,
  ⟨0x3002, 0x00, 0x00, 1, 1, .rw, 1, false, .tsu⟩]

def catRows3 : List CatEnt := [
  ⟨0x3003, 0x01, 0x01, 1, 1, .rw, 1, false, .tsu⟩,
  ⟨0x3003, 0x02, 0x02, 2, 1, .rw, 0, false, .tsu⟩,
  ⟨0x3003, 0x03, 0x03, 4, 4, .rw, 0, false, .tsu⟩,
  ⟨0x3003, 0x04, 0x04, 3, 2, .rw, 0, false, .tsu⟩,
  ⟨0x3003, 0x05, 0x05, 3, 2, .rw, 0x100, false, .tsu⟩,
  ⟨0x3003, 0x06, 0x06, 2, 1, .rw, 8, false, .tsu⟩,
  ⟨0x3010, 0x01, 0x01, 4, 4, .rws, 0, true, .root⟩,
  ⟨0x3010, 0x02, 0x02, 3, 2, .rws, 0, true, .root⟩,
  ⟨0x3010, 0x03, 0x03, 8, 8, .rws, 0, true, .root⟩,
  ⟨0x3010, 0x04, 0x04, 3, 2, .rws, 0xf424, true, .root⟩,
  ⟨0x3010, 0x05, 0x05, 2, 1, .rws, 0, true, .root⟩,
  ⟨0x3010, 0x06, 0x06, 10, 2034, .rws, 0, true, .root⟩,
  ⟨0x3011, 0x01, 0x01, 4, 4, .ro, 0, true, .root⟩,
  ⟨0x3011, 0x02, 0x02, 4, 4, .ro, 0, true, .root⟩,
  ⟨0x3011, 0x03, 0x03, 2, 1, .ro, 0, true, .root⟩,
  ⟨0x3012, 0x00, 0x00, 10, 73728, .ro, 0, true, .root⟩,
  ⟨0x3100, 0x01, 0x01, 3, 2, .rw, 0, false, .tsu⟩,
  ⟨0x3100, 0x02, 0x02, 2, 1, .rw, 3, false, .tsu⟩,
  ⟨0x3100, 0x03, 0x03, 3, 2, .rw, 0x1000, false, .tsu⟩,
  ⟨0x3100, 0x04, 0x04, 3, 2, .rw, 0x40, false, .tsu⟩,
  ⟨0x3100, 0x05, 0x05, 2, 1, .rw, 6, false, .tsu⟩,
  ⟨0x3140, 0x01, 0x40, 5, 8, .ro, 0, true, .tsu⟩,
  ⟨0x3201, 0x00, 0x00, 4, 4, .ro, 0, true, .tsu⟩,
  ⟨0x3202, 0x00, 0x00, 4, 4, .ro, 0, true, .tsu⟩,
  ⟨0x3210, 0x01, 0x01, 3, 2, .rws, 0, false, .dist⟩,
  ⟨0x3210, 0x02, 0x02, 2, 1, .rws, 0, false, .dist⟩,
  ⟨0x3210, 0x03, 0x03, 2, 1, .rws, 1, false, .dist⟩,
  ⟨0x3210, 0x04, 0x04, 4, 4, .rws, 1, false, .dist⟩,
  ⟨0x3210, 0x05, 0x05, 3, 2, .rws, 0, false, .dist⟩,
  ⟨0x3210, 0x06, 0x06, 2, 1, .rws, 1, false, .dist⟩,
  ⟨0x3210, 0x07, 0x07, 2, 1, .rws, 0, false, .dist⟩,
  ⟨0x3220, 0x01, 0x01, 3, 2, .rws, 0, false, .dist⟩,
  ⟨0x3220, 0x02, 0x02, 10, 36, .rws, 0, false, .dist⟩,
  ⟨0x3220, 0x03, 0x03, 2, 1, .rws, 0, false, .dist⟩,
  ⟨0x3230, 0x01, 0x01, 4, 4, .ro, 0, true, .dist⟩,
  ⟨0x3230, 0x02, 0x02, 4, 4, .ro, 0, true, .dist⟩,
  ⟨0x3230, 0x03, 0x03, 4, 4, .ro, 0, true, .dist⟩,
  ⟨0x3301, 0x00, 0x00, 1, 1, .ro, 0, true, .tsu⟩,
  ⟨0x3302, 0x00, 0x00, 4, 4, .ro, 0, true, .tsu⟩,
  ⟨0x3303, 0x00, 0x00, 4, 4, .ro, 0, true, .tsu⟩]

def catRows4 : List CatEnt := [
  ⟨0x3310, 0x00, 0x00, 4, 4, .rws, 0x10000, false, .tsu⟩,
  ⟨0x3311, 0x00, 0x00, 4, 4, .ro, 0, true, .tsu⟩,
  ⟨0x4001, 0x00, 0x00, 3, 2, .rws, 0x2000, false, .tsu⟩,
  ⟨0x4002, 0x00, 0x00, 3, 2, .rws, 0x1800, false, .tsu⟩,
  ⟨0x4003, 0x01, 0x01, 3, 2, .rws, 0x1000, false, .dist⟩,
  ⟨0x4003, 0x02, 0x02, 3, 2, .rws, 0x800, false, .dist⟩,
  ⟨0x4003, 0x03, 0x03, 3, 2, .rws, 0x40, false, .dist⟩,
  ⟨0x4004, 0x00, 0x00, 4, 4, .rws, 0x4000, false, .dist⟩,
  ⟨0x4010, 0x01, 0x01, 3, 2, .rws, 0, false, .dist⟩,
  ⟨0x4010, 0x02, 0x02, 2, 1, .rws, 1, false, .dist⟩,
  ⟨0x4010, 0x03, 0x03, 3, 2, .rws, 0, false, .dist⟩,
  ⟨0x4010, 0x04, 0x04, 4, 4, .rws, 1, false, .dist⟩,
  ⟨0x4010, 0x05, 0x05, 2, 1, .rws, 1, false, .dist⟩,
  ⟨0x4010, 0x06, 0x06, 2, 1, .rws, 0, false, .dist⟩,
  ⟨0x4020, 0x01, 0x01, 4, 4, .ro, 0, true, .tsu⟩,
  ⟨0x4020, 0x02, 0x02, 4, 4, .ro, 0, true, .both⟩,
  ⟨0x4020, 0x03, 0x03, 4, 4, .ro, 0, true, .both⟩,
  ⟨0x4020, 0x04, 0x04, 4, 4, .ro, 0, true, .dist⟩,
  ⟨0x4020, 0x05, 0x05, 4, 4, .ro, 0, true, .dist⟩,
  ⟨0x4101, 0x00, 0x00, 5, 8, .ro, 0, true, .tsu⟩,
  ⟨0x4102, 0x00, 0x00, 1, 1, .ro, 0, true, .tsu⟩,
  ⟨0x4201, 0x01, 0x01, 4, 4, .rws, 0, true, .tsu⟩,
  ⟨0x4201, 0x02, 0x02, 3, 2, .rws, 0, true, .tsu⟩,
  ⟨0x4201, 0x03, 0x03, 10, 8, .ro, 0, true, .tsu⟩,
  ⟨0x4201, 0x04, 0x04, 4, 4, .ro, 0, true, .tsu⟩,
  ⟨0x4201, 0x05, 0x05, 4, 4, .ro, 0, true, .tsu⟩,
  ⟨0x4210, 0x01, 0x40, 10, 64, .ro, 0, true, .tsu⟩,
  ⟨0x5001, 0x00, 0x00, 3, 2, .rw, 0x400, false, .tsu⟩,
  ⟨0x5002, 0x01, 0x08, 2, 1, .rw, 8, false, .tsu⟩,
  ⟨0x5003, 0x00, 0x00, 4, 4, .ro, 0, true, .tsu⟩,
  ⟨0x5101, 0x00, 0x00, 3, 2, .rw, 0x1000, false, .tsu⟩,
  ⟨0x5102, 0x00, 0x00, 4, 4, .rw, 0x10000, false, .tsu⟩,
  ⟨0x5103, 0x01, 0x40, 2, 1, .rws, 1, false, .tsu⟩,
  ⟨0x5104, 0x00, 0x00, 4, 4, .ro, 0, true, .tsu⟩,
  ⟨0x5105, 0x00, 0x00, 4, 4, .ro, 0, true, .tsu⟩,
  ⟨0x6001, 0x01, 0x01, 5, 8, .so, 0x1171111111115501, false, .tsu⟩,
  ⟨0x6001, 0x02, 0x02, 5, 8, .so, 0xffffffffffffffff, false, .tsu⟩,
  ⟨0x6001, 0x03, 0x03, 10, 256, .so, 0, false, .tsu⟩,
  ⟨0x6001, 0x04, 0x04, 1, 1, .so, 1, false, .tsu⟩,
  ⟨0x6002, 0x00, 0x00, 4, 4, .ro, 0, true, .tsu⟩]

def catRows5 : List CatEnt := [
  ⟨0x6003, 0x00, 0x00, 4, 4, .ro, 0, true, .tsu⟩,
  ⟨0x6101, 0x00, 0x00, 2, 1, .ro, 0, true, .tsu⟩,
  ⟨0x6102, 0x00, 0x00, 2, 1, .so, 0, false, .tsu⟩,
  ⟨0x6103, 0x00, 0x00, 2, 1, .ro, 0, true, .tsu⟩,
  ⟨0x6201, 0x01, 0x01, 1, 1, .rw, 1, false, .tsu⟩,
  ⟨0x6201, 0x02, 0x02, 4, 4, .rw, 0x1312d0, false, .tsu⟩,
  ⟨0x6201, 0x03, 0x03, 3, 2, .rw, 0x1000, false, .tsu⟩,
  ⟨0x6202, 0x00, 0x00, 2, 1, .rws, 3, false, .tsu⟩,
  ⟨0x6203, 0x00, 0x00, 2, 1, .ro, 0, true, .tsu⟩,
  ⟨0x6204, 0x00, 0x00, 4, 4, .ro, 0, true, .tsu⟩,
  ⟨0x7001, 0x01, 0x01, 2, 1, .rw, 0x40, false, .both⟩,
  ⟨0x7001, 0x02, 0x02, 2, 1, .rw, 0x20, false, .both⟩,
  ⟨0x7001, 0x03, 0x03, 3, 2, .rw, 0x10, false, .both⟩,
  ⟨0x7001, 0x04, 0x04, 3, 2, .rw, 0x30, false, .both⟩,
  ⟨0x7001, 0x05, 0x05, 10, 2, .rw, 0xfc7c, false, .dist⟩,
  ⟨0x7001, 0x06, 0x06, 10, 2, .rw, 0xfbb4, false, .dist⟩,
  ⟨0x7002, 0x01, 0x01, 4, 4, .rw, 1, false, .dist⟩,
  ⟨0x7002, 0x02, 0x02, 4, 4, .rw, 0x100, false, .dist⟩,
  ⟨0x7002, 0x03, 0x03, 4, 4, .rw, 0x10000, false, .dist⟩,
  ⟨0x7002, 0x04, 0x04, 4, 4, .rw, 0x40000, false, .dist⟩,
  ⟨0x7002, 0x05, 0x05, 4, 4, .rw, 0x4000, false, .dist⟩,
  ⟨0x7002, 0x06, 0x06, 4, 4, .rw, 0x10000, false, .dist⟩,
  ⟨0x7002, 0x07, 0x07, 4, 4, .rw, 0x400000, false, .dist⟩,
  ⟨0x7003, 0x00, 0x00, 10, 4, .ro, 0, true, .dist⟩,
  ⟨0x7005, 0x01, 0x01, 3, 2, .ro, 0, true, .dist⟩,
  ⟨0x7005, 0x02, 0x02, 3, 2, .ro, 0, true, .dist⟩,
  ⟨0x7005, 0x03, 0x03, 2, 1, .ro, 0, true, .dist⟩,
  ⟨0x7005, 0x04, 0x04, 4, 4, .ro, 0, true, .dist⟩,
  ⟨0x7101, 0x00, 0x00, 3, 2, .rws, 0xffff, false, .tsu⟩,
  ⟨0x7102, 0x01, 0x01, 3, 2, .rws, 0xffff, true, .tsu⟩,
  ⟨0x7102, 0x02, 0x02, 4, 4, .rws, 0, true, .tsu⟩,
  ⟨0x7102, 0x03, 0x03, 2, 1, .rws, 0, true, .tsu⟩,
  ⟨0x7103, 0x00, 0x00, 4, 4, .ro, 0, true, .tsu⟩,
  ⟨0x7110, 0x01, 0x01, 2, 1, .rws, 0, false, .dist⟩,
  ⟨0x7110, 0x02, 0x02, 2, 1, .rws, 0, false, .dist⟩,
  ⟨0x7110, 0x03, 0x03, 2, 1, .rws, 0, false, .dist⟩,
  ⟨0x7110, 0x04, 0x04, 2, 1, .rws, 0, false, .dist⟩,
  ⟨0x7110, 0x05, 0x05, 10, 36, .rws, 0, false, .dist⟩,
  ⟨0x7111, 0x01, 0x01, 1, 1, .ro, 0, true, .dist⟩,
  ⟨0x7111, 0x02, 0x02, 1, 1, .ro, 0, true, .dist⟩]

def catRows6 : List CatEnt := [
  ⟨0x7111, 0x03, 0x03, 4, 4, .ro, 0, true, .dist⟩,
  ⟨0x7111, 0x04, 0x04, 3, 2, .ro, 0, true, .dist⟩,
  ⟨0x7111, 0x05, 0x05, 3, 2, .ro, 0, true, .dist⟩,
  ⟨0x7111, 0x06, 0x06, 4, 4, .ro, 0, true, .dist⟩,
  ⟨0x7112, 0x00, 0x00, 10, 4096, .ro, 0, true, .t1⟩,
  ⟨0x7113, 0x01, 0x01, 3, 2, .ro, 0, true, .both⟩,
  ⟨0x7113, 0x02, 0x02, 4, 4, .ro, 0, true, .dist⟩,
  ⟨0x7120, 0x01, 0x01, 10, 131072, .rws, 0, false, .dist⟩,
  ⟨0x7120, 0x02, 0x02, 4, 4, .ro, 0, true, .t1⟩,
  ⟨0x7130, 0x01, 0x01, 4, 4, .rws, 0, true, .root⟩,
  ⟨0x7130, 0x02, 0x02, 10, 2034, .rws, 0, true, .root⟩,
  ⟨0x7130, 0x03, 0x03, 2, 1, .rws, 0, true, .root⟩,
  ⟨0x7131, 0x01, 0x01, 4, 4, .ro, 0, true, .both⟩,
  ⟨0x7131, 0x02, 0x02, 4, 4, .ro, 0, true, .both⟩,
  ⟨0x7131, 0x03, 0x03, 4, 4, .rws, 0x100000, false, .both⟩,
  ⟨0x7131, 0x04, 0x04, 10, 32, .ro, 0, true, .t1⟩,
  ⟨0x7131, 0x05, 0x05, 4, 4, .ro, 0, true, .dist⟩,
  ⟨0x7132, 0x01, 0x01, 2, 1, .rws, 0, true, .t1⟩,
  ⟨0x7132, 0x02, 0x02, 10, 4096, .rws, 0, true, .t1⟩,
  ⟨0x7133, 0x01, 0x01, 10, 4096, .rws, 0, true, .dist⟩,
  ⟨0x7134, 0x01, 0x01, 3, 2, .rws, 0, true, .dist⟩,
  ⟨0x7134, 0x02, 0x02, 4, 4, .rws, 0, true, .dist⟩,
  ⟨0x7140, 0x01, 0x01, 10, 5, .rws, 0x101040804, false, .dist⟩,
  ⟨0x7140, 0x02, 0x02, 2, 1, .rw, 0x80, false, .dist⟩,
  ⟨0x7140, 0x03, 0x03, 1, 1, .ro, 0, true, .dist⟩,
  ⟨0x7140, 0x04, 0x04, 3, 2, .ro, 0, true, .dist⟩,
  ⟨0x7150, 0x01, 0x01, 1, 1, .rws, 0, true, .dist⟩,
  ⟨0x7150, 0x02, 0x02, 3, 2, .rws, 0x3c, false, .dist⟩,
  ⟨0x7150, 0x03, 0x03, 2, 1, .ro, 0, true, .dist⟩,
  ⟨0x7201, 0x01, 0x01, 5, 8, .rws, 0, false, .tsu⟩,
  ⟨0x7201, 0x02, 0x02, 4, 4, .rws, 0, false, .tsu⟩,
  ⟨0x7202, 0x01, 0x01, 5, 8, .ro, 0, true, .both⟩,
  ⟨0x7202, 0x02, 0x02, 2, 1, .ro, 0, true, .both⟩,
  ⟨0x7202, 0x03, 0x03, 2, 1, .ro, 0, true, .both⟩,
  ⟨0x7202, 0x04, 0x04, 3, 2, .ro, 0, true, .both⟩,
  ⟨0x7202, 0x05, 0x05, 4, 4, .ro, 0, true, .both⟩,
  ⟨0x7203, 0x01, 0x05, 5, 8, .ro, 0, true, .both⟩,
  ⟨0x7203, 0x11, 0x15, 5, 8, .ro, 0, true, .both⟩,
  ⟨0x7204, 0x00, 0x00, 1, 1, .rws, 0, true, .tsu⟩,
  ⟨0x7210, 0x01, 0x01, 2, 1, .rws, 0, true, .root⟩]

def catRows7 : List CatEnt := [
  ⟨0x7210, 0x02, 0x02, 3, 2, .rws, 0, true, .root⟩,
  ⟨0x7210, 0x03, 0x03, 2, 1, .rws, 0, true, .root⟩,
  ⟨0x7210, 0x04, 0x04, 10, 32, .rws, 0, true, .root⟩,
  ⟨0x7210, 0x05, 0x05, 3, 2, .rws, 0x80, true, .root⟩,
  ⟨0x7210, 0x06, 0x06, 8, 8, .rws, 0, true, .root⟩,
  ⟨0x7210, 0x07, 0x07, 2, 1, .rws, 0, true, .root⟩,
  ⟨0x7211, 0x01, 0x04, 10, 67108864, .so, 0, true, .root⟩,
  ⟨0x7212, 0x01, 0x01, 4, 4, .ro, 0, true, .dist⟩,
  ⟨0x7212, 0x02, 0x02, 4, 4, .ro, 0, true, .dist⟩,
  ⟨0x7212, 0x03, 0x03, 4, 4, .ro, 0, true, .dist⟩,
  ⟨0x7212, 0x04, 0x04, 4, 4, .ro, 0, true, .dist⟩,
  ⟨0x7212, 0x05, 0x05, 4, 4, .ro, 0, true, .dist⟩,
  ⟨0x7213, 0x00, 0x00, 10, 73728, .ro, 0, true, .dist⟩,
  ⟨0x7220, 0x01, 0x01, 4, 4, .rw, 0x1312d0, false, .both⟩,
  ⟨0x7220, 0x02, 0x02, 2, 1, .rw, 0x40, false, .both⟩,
  ⟨0x8001, 0x00, 0x00, 1, 1, .ro, 0, true, .dist⟩,
  ⟨0x8010, 0x01, 0x01, 3, 2, .rws, 0, false, .dist⟩,
  ⟨0x8010, 0x02, 0x02, 2, 1, .rws, 1, false, .dist⟩,
  ⟨0x8010, 0x03, 0x03, 1, 1, .rws, 0, false, .dist⟩,
  ⟨0x8010, 0x04, 0x04, 1, 1, .rws, 0, false, .dist⟩,
  ⟨0x8010, 0x05, 0x05, 2, 1, .rws, 0, false, .dist⟩,
  ⟨0x8020, 0x01, 0x01, 4, 4, .ro, 0, true, .dist⟩,
  ⟨0x8020, 0x02, 0x02, 4, 4, .ro, 0, true, .dist⟩,
  ⟨0x8020, 0x03, 0x03, 4, 4, .ro, 0, true, .dist⟩,
  ⟨0x8020, 0x04, 0x04, 4, 4, .ro, 0, true, .dist⟩,
  ⟨0x8020, 0x05, 0x05, 4, 4, .ro, 0, true, .dist⟩,
  ⟨0x8020, 0x06, 0x06, 4, 4, .ro, 0, true, .dist⟩,
  ⟨0xA000, 0x01, 0x01, 1, 1, .rw, 1, false, .dist⟩,
  ⟨0xA000, 0x02, 0x02, 2, 1, .rw, 0, false, .dist⟩,
  ⟨0xA000, 0x03, 0x03, 1, 1, .rw, 1, false, .dist⟩,
  ⟨0xA000, 0x04, 0x04, 1, 1, .rw, 1, false, .dist⟩,
  ⟨0xA000, 0x05, 0x05, 10, 64, .rw, 0, false, .dist⟩,
  ⟨0xA000, 0x06, 0x06, 3, 2, .rw, 64, false, .dist⟩,
  ⟨0xA000, 0x07, 0x07, 2, 1, .ro, 0, true, .dist⟩,
  ⟨0xA000, 0x08, 0x08, 1, 1, .wo, 0, true, .dist⟩,
  ⟨0xA000, 0x09, 0x09, 3, 2, .ro, 0, true, .dist⟩,
  ⟨0xA000, 0x0A, 0x0A, 2, 1, .const, 0, true, .dist⟩,
  ⟨0xA000, 0x0B, 0x0B, 10, 2, .ro, 0, true, .dist⟩]

/-- Every row. -/
def catRows : List CatEnt :=
  catRows0 ++ catRows1 ++ catRows2 ++ catRows3 ++ catRows4 ++ catRows5 ++ catRows6 ++ catRows7

end Sys2Proof.Machine
end

