-- ==== Sys2Proof/Machine/FrameInfo.lean ====
section
/-! DEFINITION. Class, needed feature and payload length of each frame (R41, R51, R64, R66, R118, R133, R154, R212,
R265, R403, R413, R429, R445). -/

namespace Sys2Proof.Machine

open Sys2Proof

/-- CLASS (R41). -/
def frameCls : FrameBody → Nat
  | .hello _ | .sync _ | .linkctl _ => 0
  | .stepGo .. | .arm .. | .armed .. | .commit .. | .abort .. | .fence _ => 1
  | .arrive .. | .done .. | .signal .. | .take .. | .takeResp .. | .cancel .. => 2
  | .contrib .. | .ssum2 .. | .kdown .. | .result .. | .absent .. => 3
  | .hreq _ | .hresp _ | .hcancel .. => 4
  | .ctrl .. | .topoReport _ | .topoSum _ => 5
  | .imgBlock .. | .imgStart .. | .imgEnd .. | .imgNack .. | .imgReport .. | .imgCommit .. | .imgRollback _
  | .imgActed .. => 6

/-- The feature bit that carries a collective operation code (R66): TOPK, SSUM, or COLL. -/
def opFeature (op : Nat) : Nat := if op = 5 then 8 else if op = 6 then 9 else 2

/-- The feature bit a frame needs (R66, R67). -/
def frameFeature : FrameBody → Nat
  | .contrib _ p | .ssum2 _ p | .kdown _ p => opFeature p.op.toNat
  | .absent .. => 2
  | .result _ p => opFeature p.c.op.toNat
  | b => match frameCls b with
    | 0 | 1 => 0
    | 2 => 1
    | 4 => 10
    | _ => 3

/-- Payload bytes of a record frame (R212). -/
def contribLen (p : Contrib) : Nat := 32 + p.recs.length + 4 * p.missing.length

/-- LEN: payload bytes. -/
def frameLen : FrameBody → Nat
  | .hello _ => 25
  | .sync f => if f.cmp then 44 else 54
  | .linkctl _ => 14
  | .stepGo .. => 40
  | .arm .. => 14
  | .armed .. => 8
  | .commit .. => 12
  | .abort _ p => 8 + 2 * p.ldis.length
  | .fence f => 8 + 2 * f.ldis.length
  | .arrive _ p => if p.closing.isSome then 36 else 8
  | .done .. => 4
  | .signal .. => 4
  | .take .. | .takeResp .. => 12
  | .cancel .. => 8
  | .contrib _ p | .ssum2 _ p | .kdown _ p | .absent _ p => contribLen p
  | .result _ p => contribLen p.c
  | .hreq _ => 24
  | .hresp _ => 16
  | .hcancel .. => 8
  | .ctrl _ m => m.length
  | .topoReport _ => 16
  | .topoSum _ => 4
  | .imgBlock _ d => d.length
  | .imgStart .. => 48
  | .imgEnd .. => 4
  | .imgNack _ r => 4 + 4 * r.length
  | .imgReport .. | .imgActed .. => 8
  | .imgCommit .. => 8
  | .imgRollback _ => 0

/-- Bytes on the lane: header, payload and CRC (R40). -/
def frameBytes (b : FrameBody) : Nat := 20 + frameLen b

end Sys2Proof.Machine
end

