-- ==== Sys2Proof/Machine/SMap.lean ====
section
/-! DEFINITION. Sparse maps: lists of (number, value) in one canonical form. Numbers rise strictly, and no entry holds
the value that an unlisted number reads as, so equal maps are equal lists. -/

namespace Sys2Proof.Machine

/-- The value at `n`; an unlisted number reads as `d`. -/
def smGet {α : Type} (d : α) : List (Nat × α) → Nat → α
  | [], _ => d
  | (m, v) :: t, n => if m = n then v else smGet d t n

/-- Lists `v` at `n`, in place of what is listed there or before the first greater number. -/
def smIns {α : Type} : List (Nat × α) → Nat → α → List (Nat × α)
  | [], n, v => [(n, v)]
  | (m, w) :: t, n, v =>
    if n < m then (n, v) :: (m, w) :: t
    else if n = m then (n, v) :: t
    else (m, w) :: smIns t n v

/-- Every entry but those of `n`. -/
def smDel {α : Type} (l : List (Nat × α)) (n : Nat) : List (Nat × α) := l.filter fun e => e.1 != n

/-- Writes `v` at `n`, keeping the canonical form: writing the unlisted value `d` removes the entry. -/
def smPut {α : Type} [DecidableEq α] (d : α) (l : List (Nat × α)) (n : Nat) (v : α) : List (Nat × α) :=
  if v = d then smDel l n else smIns (smDel l n) n v

/-- Changes the value at `n` by `f`. -/
def smMod {α : Type} [DecidableEq α] (d : α) (l : List (Nat × α)) (n : Nat) (f : α → α) : List (Nat × α) :=
  smPut d l n (f (smGet d l n))

/-- Numbers above `lo` rise strictly and no entry equals the unlisted value of its number. -/
def smWfFrom {α : Type} [DecidableEq α] (d : Nat → α) : Option Nat → List (Nat × α) → Bool
  | _, [] => true
  | lo, (m, v) :: t =>
    (match lo with | none => true | some k => decide (k < m)) && decide (v ≠ d m) && smWfFrom d (some m) t

/-- The canonical form. -/
def smWf {α : Type} [DecidableEq α] (d : Nat → α) (l : List (Nat × α)) : Bool := smWfFrom d none l

/-- The listed numbers whose value meets `p`. -/
def smKeys {α : Type} (p : α → Bool) (l : List (Nat × α)) : List Nat :=
  (l.filter (fun e => p e.2)).map Prod.fst

/-- Changes every listed value by `f`, keeping the canonical form. -/
def smMap {α : Type} [DecidableEq α] (d : α) (f : α → α) (l : List (Nat × α)) : List (Nat × α) :=
  l.foldl (fun acc e => smMod d acc e.1 f) l

end Sys2Proof.Machine
end

