-- ==== Sys2Proof/Machine/State.lean ====
section
/-! DEFINITION. The state of the block: one TSU and one HZD-288 distributor, every register, buffer, counter and mode the
spec gives them, the queue of waiting commands, and the record of what the block has driven out. Plain data throughout.
Sparse collections are lists of (number, value), numbers strictly rising, no value equal to the reset value. -/

namespace Sys2Proof.Machine

open Sys2Proof

/-- Lane STATE (R69), with LISTEN of a distributor lane (R456). -/
inductive LaneSt where
  | down | training | aligning | negotiating | up | listen
  deriving DecidableEq, Repr

/-- The nine saturating counters of a lane (R70). -/
structure LaneCnt where
  fecCorr   : BitVec 32 := 0
  fecUnc    : BitVec 32 := 0
  crcErr    : BitVec 32 := 0
  replay    : BitVec 32 := 0
  retrain   : BitVec 32 := 0
  syncDrop  : BitVec 32 := 0
  preempt   : BitVec 32 := 0
  protoErr  : BitVec 32 := 0
  epochDrop : BitVec 32 := 0
  deriving DecidableEq, Repr

/-- Cumulative frame counts of the credited classes 2 to 6 (R445, R446). -/
structure Cred where
  c2 : BitVec 16 := 0
  c3 : BitVec 16 := 0
  c4 : BitVec 16 := 0
  c5 : BitVec 16 := 0
  c6 : BitVec 16 := 0
  deriving DecidableEq, Repr

/-- A frame to send: class, world, membership epoch and contents. -/
structure TxFrame where
  cls    : Nat
  w      : Bool
  mepoch : BitVec 32
  body   : FrameBody
  deriving DecidableEq, Repr

/-- A frame in the replay buffer, with its LSEQ and its consecutive replays (R46, R48). -/
structure Sent where
  lseq  : BitVec 12
  tries : Nat
  frame : TxFrame
  deriving DecidableEq, Repr

/-- Registers and training state of a lane (R64, R69, R396, R397). -/
structure LaneReg where
  enable     : Bool := false
  retrainReq : Bool := false
  fastStart  : Bool := true
  refineEn   : Bool := true
  cableClass : BitVec 4 := 0
  state      : LaneSt := .down
  enPend     : Bool := false
  /-- A shut-down is in progress (R406). -/
  shutting   : Bool := false
  refined    : Bool := false
  pcalRx     : Bool := false
  tvRx       : Bool := false
  refLost    : Bool := false
  syncLoss   : Bool := false
  asymLimit  : Bool := false
  negChange  : Bool := false
  negFail    : Bool := false
  verEff     : BitVec 16 := 0
  verPartner : BitVec 16 := 0
  featAdv    : BitVec 64 := 0
  featPartner : BitVec 64 := 0
  featEff    : BitVec 64 := 0
  peerPos    : BitVec 16 := 0
  peerPlane  : Byte := 0
  peerRole   : Byte := 0
  peerUnit   : BitVec 64 := 0
  posValid   : Bool := false
  delay2     : BitVec 32 := 0
  offset2    : BitVec 64 := 0
  aRef       : BitVec 16 := 0
  delayWin   : BitVec 16 := 64
  pmean      : BitVec 32 := 0
  /-- A valid HELLO of this partner has been received, and one with ACK = 1 (R64). -/
  helloSeen  : Bool := false
  ackRx      : Bool := false
  ackTx      : Bool := false
  /-- Failed starts in a row, the 1 s wait of R397, and full training in use (R396). -/
  failStarts : Nat := 0
  backoff    : Bool := false
  fullTrain  : Bool := false
  settings   : Bytes := []
  /-- Fused bad (R392, R454) or in a disabled cage (R464). -/
  bad        : Bool := false
  cageOff    : Bool := false
  /-- Topology result 0 NONE, 1 OK, 2 MISMATCH, and REASON (R400, R402). -/
  topoRes    : BitVec 2 := 0
  topoReason : BitVec 4 := 0
  deriving DecidableEq, Repr

/-- Replay, credits and error windows of a lane (R46, R48, R445-R448). -/
structure LaneLink where
  cnt      : LaneCnt := {}
  txSeq    : BitVec 12 := 0
  rxSeq    : BitVec 12 := 0
  rxDiscard : Bool := false
  nakDue   : Bool := false
  replay   : List Sent := []
  txq      : List TxFrame := []
  credRx   : Cred := {}
  sent     : Cred := {}
  credTx   : Cred := {}
  bypRx    : Bool := false
  bypTx    : Bool := false
  /-- Uncorrectable codewords of the last 2^20 ticks, newest first, with their tick (R48). -/
  uncs     : List (Tick × Nat) := []
  fenceAt  : Option Tick := none
  /-- Baselines of the last telemetry record (R387). -/
  telCorr  : BitVec 32 := 0
  telReplay : BitVec 32 := 0
  telDrop  : BitVec 32 := 0
  /-- Frames sent again since reset, of which a counting interval takes its share (R129). -/
  resent   : Nat := 0
  deriving DecidableEq, Repr

/-- The SERVO fields last received on a lane (R92, R110). -/
structure ServoRx where
  rql  : BitVec 4 := 15
  rsrc : BitVec 3 := 0
  mst  : Bool := false
  tlk  : Bool := false
  ridx : BitVec 3 := 7
  xmst : Bool := false
  deriving DecidableEq, Repr

/-- Sync exchange, estimator and refinement state of a lane (R49-R63, R78-R82). -/
structure LaneSync where
  dllLock  : Bool := false
  tdcOvf   : Bool := false
  sseqTx   : BitVec 16 := 0
  prevTx   : Option Ts := none
  prevTxSeq : BitVec 16 := 0
  /-- At a parent, the transmit timestamp before that, and the RX_TS the child last reported (R50). -/
  prev2Tx  : Option Ts := none
  peerRx   : Option Ts := none
  lastRxAt : Tick := 0
  rxSeq    : BitVec 16 := 0
  rxTs     : Option Ts := none
  /-- A downward frame waits to be answered (R49). -/
  answer   : Bool := false
  accN     : Nat := 0
  d2s      : List Int := []
  th2s     : List Int := []
  /-- Outcomes of the last 16 exchange periods, newest first (R78). -/
  periods  : List Bool := []
  est      : Int := 0
  winSum   : Int := 0
  winN     : Nat := 0
  winClean : Bool := false
  smallRun : Nat := 0
  largeRun : Nat := 0
  dsum     : BitVec 48 := 0
  dcnt     : BitVec 16 := 0
  pmv      : Bool := false
  rx       : ServoRx := {}
  deriving DecidableEq, Repr

/-- Health measures of a lane (R442, R443, R452); states 0 GOOD, 1 WARN, 2 FAIL. -/
structure LaneHealth where
  eye    : Byte := 0
  eyeLow : Byte := 0xFF
  res    : BitVec 16 := 0
  opt    : BitVec 16 := 0
  eyeSt  : BitVec 2 := 0
  resSt  : BitVec 2 := 0
  optSt  : BitVec 2 := 0
  eyeRun : Nat := 0
  resRun : Nat := 0
  optRun : Nat := 0
  warn   : Bool := false
  fail   : Bool := false
  deriving DecidableEq, Repr

structure Lane where
  reg    : LaneReg := {}
  link   : LaneLink := {}
  sync   : LaneSync := {}
  health : LaneHealth := {}
  deriving DecidableEq, Repr

/-- A captured vitrine bank with its triggers (R36). -/
structure VitBank where
  armAt  : Bool := false
  onDisc : Bool := false
  past   : Bool := false
  at_    : Tick := 0
  seq    : BitVec 32 := 0
  vTc64  : Tick := 0
  vSec   : BitVec 48 := 0
  vNs    : BitVec 32 := 0
  vFrac  : BitVec 16 := 0
  vOffA  : BitVec 32 := 0
  vOffB  : BitVec 32 := 0
  vFfo   : BitVec 32 := 0
  vSel   : Bool := false
  vValid : Bool := false
  vPromise : Bool := false
  deriving DecidableEq, Repr

/-- Hall time at a unit (R12-R26, R35). -/
structure TimeSt where
  tc64      : Tick := 0
  /-- The remainder placed into the phase interpolator, in half TDC units (R79). -/
  phase     : Int := 0
  timeValid : Bool := false
  promise   : Bool := false
  selB      : Bool := false
  epochDiff : Bool := false
  timeLost  : Bool := false
  timeDisc  : Bool := false
  epoch     : Ht96 := ⟨0, 0, 0⟩
  epochA    : Option Ht96 := none
  epochB    : Option Ht96 := none
  lockAge   : BitVec 64 := 0
  vitS      : VitBank := {}
  vitN      : VitBank := {}
  deriving DecidableEq, Repr

/-- A spine endpoint with its cell (R29, R35, R126, R141, R370, R372). -/
structure Endpoint where
  en      : Bool := false
  /-- The EN in effect since the last full calibration (R35, R115). -/
  enAtCal : Bool := false
  calOk   : Bool := false
  fault   : Bool := false
  lat     : BitVec 4 := 0
  trim    : BitVec 10 := 0
  resid   : Byte := 0
  badRun  : Nat := 0
  rtrim   : BitVec 12 := 0
  rstOk   : Bool := false
  rstFault : Bool := false
  rresid  : Byte := 0
  /-- TSU_STRETCH_n, and the debt running in the cell. -/
  debt    : BitVec 32 := 0
  cell    : BitVec 32 := 0
  quiesce : Bool := false
  bank    : Bool := false
  deriving DecidableEq, Repr

/-- The time spine (R27-R32). -/
structure Spine where
  calStart : Bool := false
  trackEn  : Bool := true
  calBusy  : Bool := false
  calDone  : Bool := false
  calFail  : Bool := false
  eps      : List (Nat × Endpoint) := []
  trackIdx : Nat := 0
  rstIdx   : Nat := 0
  load     : Option (Tick × Tick) := none
  /-- The pending LOAD makes an authorised step (R81). -/
  loadStep : Bool := false
  replica  : Tick := 0
  deriving DecidableEq, Repr

/-- The TDC of a unit; the per-channel lock of a lane stands with the lane (R53-R55, R72). -/
structure Tdc where
  busy      : Bool := false
  done      : Bool := false
  spineLock : Bool := false
  spineOvf  : Bool := false
  dllUnlock : Bool := false
  inlMax    : Byte := 0
  /-- The 25 MHz always-on clock is lost now (R109). -/
  aonLost   : Bool := false
  /-- The number of tap tables that have taken effect. -/
  table     : Nat := 0
  deriving DecidableEq, Repr

/-- Servo STATE (R110). -/
inductive ServoState where
  | free | acquiring | locked | hold | reacq | lost
  deriving DecidableEq, Repr

/-- The servo of a unit (R74-R91, R110). -/
structure Servo where
  lossMode  : Bool := true
  revert    : Bool := true
  planePref : Bool := false
  stepArm   : Bool := false
  bw        : BitVec 4 := 10
  force     : BitVec 2 := 0
  slew      : BitVec 28 := 21990233
  reacqSlew : BitVec 28 := 219902326
  lockThr   : BitVec 16 := 80
  unlockThr : BitVec 16 := 800
  state     : ServoState := .free
  slewClamp : Bool := false
  switched  : Bool := false
  holdEntered : Bool := false
  stepRef   : Bool := false
  refLost   : Bool := false
  unlocked  : Bool := false
  ffo       : BitVec 32 := 0
  holdFfo   : BitVec 32 := 0
  delta     : BitVec 32 := 0
  irqEn     : BitVec 6 := 0
  switchCnt : BitVec 32 := 0
  fTrack    : BitVec 32 := 0
  fSteer    : BitVec 32 := 0
  lockRun   : Nat := 0
  unlockRun : Nat := 0
  /-- θ is being measured under R80. -/
  measuring : Bool := false
  thHist    : List Int := []
  /-- The Δ still added to the servo's input, in units of 1/781,250 of a half TDC unit (R85). -/
  walk      : Int := 0
  walkAt    : Tick := 0
  /-- FFO values with the tick each began, newest first, over the last 2^30 ticks (R86). -/
  ffoHist   : List (Tick × BitVec 32) := []
  ffoAt     : Tick := 0
  /-- The first selection after reset, or after exit from MITTEN, has been made (R83). -/
  selMade   : Bool := false
  /-- The plane that was selected when HOLD was entered (R83). -/
  holdPlane : Option Plane := none
  wtrA      : Bool := false
  wtrB      : Bool := false
  /-- The timing lane of a distributor (R90). -/
  timing    : Option Nat := none
  deriving DecidableEq, Repr

/-- A context's state (R114). -/
inductive CtxSt where
  | off | idle | ready | armed | run | close | halt | stopping
  deriving DecidableEq, Repr

/-- The W1C flags of CTX_STATUS (R143). -/
structure CtxFlags where
  late : Bool := false
  missed : Bool := false
  void : Bool := false
  exhausted : Bool := false
  aborted : Bool := false
  nostart : Bool := false
  mismatch : Bool := false
  fenced : Bool := false
  withdrawn : Bool := false
  overlap : Bool := false
  brimSat : Bool := false
  swapDefer : Bool := false
  regionFault : Bool := false
  closeNomap : Bool := false
  lostMember : Bool := false
  deriving DecidableEq, Repr

/-- The class of a launch (R120). -/
inductive LaunchCls where
  | onTime | late | missed
  deriving DecidableEq, Repr

/-- A launch that has been decided (R120): the computed tick T, the tick it acts on (T, or D), its class, whether it
follows an OK completion, whether it flips the swap bank, whether it slipped, and the combined BRIM used (R132). -/
structure Sched where
  t      : Tick
  at_    : Tick
  cls    : LaunchCls
  ok     : Bool
  swap   : Bool
  slip   : Bool
  brim   : BitVec 16
  restartSent : Bool
  deriving DecidableEq, Repr

/-- The counting interval that runs (R129), with what its step record will hold (R132). -/
structure Interval where
  step    : BitVec 64
  attempt : Byte
  cls     : LaunchCls
  slip    : Bool
  swap    : Bool
  lateness : BitVec 16
  brim    : BitVec 16
  t       : Tick
  resent0 : Nat
  ref     : BitVec 16
  outcome : BitVec 2
  deriving DecidableEq, Repr

/-- Configuration and status registers of a context (R143, R251). -/
structure CtxReg where
  mode      : BitVec 2 := 0
  telEn     : Bool := false
  telCh     : BitVec 6 := 0
  swapArm   : Bool := false
  swapSel   : Bool := false
  flags     : CtxFlags := {}
  step      : BitVec 64 := 0
  attempt   : Byte := 0
  attemptMax : Byte := 3
  slack     : BitVec 16 := 0
  job       : BitVec 32 := 0
  closeVbid : BitVec 10 := 0
  t0        : Tick := 0
  period    : BitVec 32 := 0
  tat       : Tick := 0
  regions   : BitVec 64 := 0
  swapStep  : BitVec 64 := 0
  brim      : BitVec 16 := 4096
  brimInit  : BitVec 16 := 4096
  brimMin   : BitVec 16 := 64
  brimMax   : BitVec 16 := 65535
  margin    : BitVec 16 := 64
  winLog    : BitVec 4 := 6
  fix       : Bool := false
  lastT     : Tick := 0
  lastD     : Tick := 0
  lateness  : BitVec 16 := 0
  retry     : BitVec 16 := 0
  ref       : BitVec 16 := 0
  strSum    : BitVec 32 := 0
  strMaxReg : BitVec 6 := 0
  launchCnt : BitVec 64 := 0
  lateCnt   : BitVec 32 := 0
  missedCnt : BitVec 32 := 0
  voidCnt   : BitVec 32 := 0
  slipCnt   : BitVec 32 := 0
  deriving DecidableEq, Repr

/-- Replay, accession and freeze registers of a context (R237, R242, R251, R343). -/
structure CtxRun where
  modelId  : BitVec 64 := 0
  rplEn    : Bool := false
  rplBase  : BitVec 19 := 0
  rplCount : BitVec 20 := 0
  rplShift : BitVec 64 := 0
  rplIdx   : BitVec 20 := 0
  rplEnd   : Bool := false
  rplErr   : Bool := false
  /-- START_STEP of the replay: STEP when the accession record was formed. -/
  rplStart : BitVec 64 := 0
  lstep    : BitVec 64 := 0
  lstepOk  : Bool := false
  acc      : Bytes := []
  /-- The accession record is frozen (R243). -/
  accOn    : Bool := false
  key      : BitVec 128 := 0
  frzAt    : BitVec 64 := 0
  frzArm   : Bool := false
  frzDbg   : Bool := false
  deriving DecidableEq, Repr

/-- A launch context (R113). -/
structure Ctx where
  st      : CtxSt := .off
  enPend  : Bool := false
  world   : Bool := true
  reg     : CtxReg := {}
  run     : CtxRun := {}
  /-- Latencies of the last deliveries, newest first (R123). -/
  window  : List Nat := []
  sched   : Option Sched := none
  /-- The last STEP_GO with its phase sense, and a STEP_GO held by a freeze (R119, R343). -/
  lastGo  : Option (StepGo × Bool) := none
  heldGo  : Option (StepGo × Bool) := none
  /-- T_START and the ARM accepted, and whether the job's first closing barrier has completed (R134, R135). -/
  arm     : Option ArmMsg := none
  firstDone : Bool := false
  /-- From D of a MISSED launch to the next launch or HALT (R172). -/
  missedWin : Bool := false
  interval  : Option Interval := none
  /-- LKEY of the die's arrival, and the T_AT of the step after STEP that a replay read then (R116, R248). -/
  lkey      : BitVec 32 := 0
  rplTat    : Tick := 0
  deriving DecidableEq, Repr

/-- Launch, restart and refresh control (R131, R141, R373, R374). -/
structure LaunchCtl where
  rlatTgt  : BitVec 4 := 8
  rstStart : Bool := false
  rstTrack : Bool := true
  refAlign : Bool := true
  refCtx   : Ctx6 := 0
  refPar   : BitVec 7 := 8
  rstBusy  : Bool := false
  rstDone  : Bool := false
  rstFail  : Bool := false
  qwOff    : BitVec 32 := 0
  qwLen    : BitVec 16 := 0
  refDur   : BitVec 16 := 256
  req      : BitVec 64 := 0
  urg      : BitVec 64 := 0
  gnt      : BitVec 64 := 0
  /-- End tick of each outstanding grant, and whether it counts against REF_PAR. -/
  ends     : List (Nat × (Tick × Bool)) := []
  lastGrp  : Nat := 63
  /-- The launch tick of REF_CTX whose quiet window is still to open, and the end of the open window. -/
  winT     : Option Tick := none
  winEnd   : Option Tick := none
  armUnm   : BitVec 32 := 0
  goDiff   : BitVec 32 := 0
  deriving DecidableEq, Repr

/-- A barrier slot (R145, R147, R157, R181). -/
structure Slot where
  kind   : BitVec 2 := 0
  scope  : BitVec 2 := 0
  owner  : Ctx6 := 0
  world  : Bool := false
  home   : Bool := false
  expect : BitVec 20 := 0
  hbid   : BitVec 16 := 0
  group  : BitVec 12 := 0
  sense  : Bool := false
  sent   : Bool := false
  sat    : Bool := false
  ovr    : Bool := false
  c0     : Nat := 0
  c1     : Nat := 0
  /-- VOIDREQ of the local arrivals of each phase (R157). -/
  void0  : Bool := false
  void1  : Bool := false
  deriving DecidableEq, Repr

/-- An operation outstanding at a wait slot (R169, R170). -/
structure WOp where
  space  : BitVec 2
  op     : BitVec 4
  addr   : BitVec 64
  wdata  : BitVec 64
  flags  : WsFlags
  /-- Issue order, issue tick and the tick of time-out. -/
  seq    : Nat
  issue  : Tick
  expiry : Option Tick
  /-- The physical slot the operation was issued on, and the phase it waits for (R146, R150). -/
  slot   : Option Nat
  phase  : Option Bool
  /-- The context whose next launch releases the wait, once its closing barrier's phase has completed (R158). -/
  await  : Option Nat
  /-- What the arrival of an ARRIVE_WAIT showed: SAT, OVER and the count. -/
  arrived : Bool × Bool × BitVec 20
  /-- Held for ENGINE, INIT_DONE or a scrub, and not yet examined. -/
  held   : Bool
  deriving DecidableEq, Repr

/-- A wait slot's registers and its outstanding operation (R184). -/
structure WSlot where
  addr    : BitVec 64 := 0
  wdata   : BitVec 64 := 0
  status  : Byte := 0xFF
  sat     : Bool := false
  ovr     : Bool := false
  full    : Bool := false
  w       : Bool := false
  count   : BitVec 20 := 0
  rdata   : BitVec 64 := 0
  cmdLost : Bool := false
  op      : Option WOp := none
  deriving DecidableEq, Repr

/-- The barrier block and translation (R145, R146, R181, R182). -/
structure BarSt where
  sel      : BitVec 12 := 0
  cfgRef   : Bool := false
  xlatRef  : Bool := false
  overCnt  : BitVec 32 := 0
  stale    : BitVec 32 := 0
  semRet   : BitVec 32 := 0
  slots    : List (Nat × Slot) := []
  /-- Entry 1024 × context + VBID: VALID and PSLOT. -/
  xlat     : List (Nat × (Bool × BitVec 12)) := []
  selVbid  : BitVec 10 := 0
  selCtx   : Ctx6 := 0
  deriving DecidableEq, Repr

/-- The state of a word's check bits (R164): good, correctable, uncorrectable, or failed cells. -/
inductive Ecc where
  | good | ce | ue | ueHard
  deriving DecidableEq, Repr

/-- A tagged word or hall word (R161, R253). -/
structure TWord where
  data : BitVec 64
  fe   : Bool
  w    : Bool
  ecc  : Ecc
  deriving DecidableEq, Repr

/-- Tagged memory (R161-R165, R183, R391). -/
structure TagMem where
  initDone : Bool := false
  scrub    : Option (BitVec 6) := none
  scrubSel : BitVec 6 := 0
  ue       : Bool := false
  ce       : Bool := false
  ceCnt    : BitVec 32 := 0
  ueCnt    : BitVec 32 := 0
  ueWord   : BitVec 19 := 0
  ueValid  : Bool := false
  words    : List (Nat × TWord) := []
  /-- The W bit that the unlisted words of each region read as. -/
  fillW    : BitVec 64 := BitVec.allOnes 64
  deriving DecidableEq, Repr

/-- A local tagged-word operation or arrival that is no wait slot's (R168): a direct-window access, or a signal. -/
inductive EngOp where
  | dirRead (dbg secure : Bool) (priv : BitVec 2) (tag : Option Byte) (word : Nat)
  | dirWrite (dbg secure : Bool) (priv : BitVec 2) (tag : Option Byte) (word : Nat) (data : BitVec 64)
  | timer (n : Nat)
  | collSig (n : Nat)
  | genSig (n : Nat)
  | dmSig (n : Nat)
  | waitOp (c : Nat) (k : Nat)
  deriving DecidableEq, Repr

/-- A hall operation the TSU has sent (R257, R261): its TAG, HA, code, expiry, lane and world. -/
structure HOut where
  tag    : BitVec 16
  ha     : BitVec 39
  op     : BitVec 4
  x      : Tick
  plane  : Plane
  secure : Bool
  deriving DecidableEq, Repr

/-- The orphan latch of a world (R274). -/
structure Orphan where
  ha     : BitVec 39 := 0
  op     : BitVec 4 := 0
  status : Byte := 0
  valid  : Bool := false
  data   : BitVec 64 := 0
  deriving DecidableEq, Repr

/-- The TSU's hall-memory requester (R257-R261, R274). -/
structure HallReq where
  grace     : BitVec 32 := 65536
  nopath    : BitVec 32 := 0
  orphanCnt : BitVec 32 := 0
  orphS     : Orphan := {}
  orphN     : Orphan := {}
  out       : List HOut := []
  /-- Operations whose wait was withdrawn or completed: a response is an orphan. -/
  gone      : List HOut := []
  deriving DecidableEq, Repr

/-- A deadline timer (R269-R272, R275). -/
structure Timer where
  en     : Bool := false
  action : BitVec 2 := 0
  irq    : Bool := false
  ctx    : Ctx6 := 0
  addr   : BitVec 19 := 0
  data   : BitVec 20 := 0
  at_    : Tick := 0
  past   : Bool := false
  fired  : Bool := false
  deriving DecidableEq, Repr

structure Timers where
  sel    : BitVec 12 := 0
  dtRef  : Bool := false
  actErr : Bool := false
  timers : List (Nat × Timer) := []
  deriving DecidableEq, Repr

/-- The protection registers (R335-R339, R355). -/
structure Gnt where
  blk     : BitVec 64 := 0x1171111111115501
  tmw     : BitVec 64 := BitVec.allOnes 64
  crsel   : BitVec 6 := 0
  /-- The raise list, 64 entries in the layout of TSU_GNT_CRDATA. -/
  raise   : List (Nat × BitVec 32) := []
  gen     : BitVec 32 := 0
  violIrq : Bool := true
  vSrc    : BitVec 4 := 0
  vWorld  : Bool := false
  vPriv   : BitVec 2 := 0
  vDbg    : Bool := false
  vWrite  : Bool := false
  vGen    : BitVec 32 := 0
  vValid  : Bool := false
  vAddr   : BitVec 64 := 0
  vCnt    : BitVec 32 := 0
  deriving DecidableEq, Repr

/-- Debug level, unlock and freeze selection (R340-R343, R356), with the fuse words they use (R390). -/
structure Dbg where
  level    : BitVec 2 := 0
  reqLevel : BitVec 2 := 0
  failCnt  : BitVec 3 := 0
  lockout  : Bool := false
  dbgRef   : Bool := false
  dbgPwr   : Bool := false
  chal     : BitVec 64 := 0
  resp     : BitVec 128 := 0
  frzSel   : Ctx6 := 0
  frzRef   : Bool := false
  dkey     : Bytes := []
  fullDis  : Bool := false
  deriving DecidableEq, Repr

/-- Power states (R345). -/
inductive PwrSt where
  | on | idle | entering | mitten | exiting
  deriving DecidableEq, Repr

/-- One flag per switched domain (R344, R382). -/
structure Doms where
  time   : Bool
  mem    : Bool
  engine : Bool
  linkA  : Bool
  linkB  : Bool
  deriving DecidableEq, Repr

/-- Power control (R344-R351, R356, R382, R383). -/
structure Pwr where
  st        : PwrSt := .on
  on        : Doms := ⟨true, true, true, true, true⟩
  req       : Doms := ⟨false, false, false, false, false⟩
  ack       : Doms := ⟨false, false, false, false, false⟩
  mittenReq : Bool := false
  engAuto   : Bool := true
  wakeAtEn  : Bool := false
  listenA   : Bool := true
  listenB   : Bool := true
  engIdle   : BitVec 32 := 1250000
  engLead   : BitVec 16 := 4096
  wakeAt    : Tick := 0
  inc       : BitVec 64 := 0x3200000000
  acc       : BitVec 96 := 0
  mitCnt    : BitVec 32 := 0
  engStarts : BitVec 32 := 0
  enPend    : Bool := false
  /-- Wake causes that came while entry ran (R351). -/
  heldCause : BitVec 6 := 0
  mitRef    : Bool := false
  mitReason : BitVec 3 := 0
  ctxDropped : Bool := false
  pwrAcc    : Bool := false
  wakeCause : BitVec 6 := 0
  pwrLost   : Bool := false
  /-- INC has been measured in this entry (R348). -/
  incDone   : Bool := false
  /-- The last tick of ENGINE demand, and whether a demand waits for ENGINE (R346). -/
  demandAt  : Tick := 0
  engWanted : Bool := false
  deriving DecidableEq, Repr

/-- Identity, bring-up, admission, membership and Cloakroom of the TSU (R386, R394-R410, R421, R427-R431, R452). -/
structure Boot where
  /-- TSU_RST_N and AON_RST_N are low. -/
  tsuRst   : Bool := true
  aonRst   : Bool := true
  unitId   : BitVec 64 := 0
  fver     : Byte := 0
  fuseBusy : Bool := false
  fuseDone : Bool := false
  fuseErr  : Bool := false
  hostMap  : List (BitVec 32) := []
  /-- VALID spare entries, lowest number first: (spare, row). -/
  spares   : List (Nat × Nat) := []
  spareDup : Bool := false
  cdcEnded : Bool := false
  spineEnded : Bool := false
  rstEnded : Bool := false
  hostReady : Bool := false
  topoMismatch : Bool := false
  admitted : Bool := false
  ldi      : BitVec 16 := 0xFFFF
  ep       : BitVec 32 := 0
  prev     : BitVec 32 := 0
  adoptAt  : Tick := 0
  fenced   : Bool := false
  fenceRx  : Bool := false
  adoptCnt : BitVec 16 := 0
  fenceEp  : BitVec 32 := 0
  computeRst : Bool := false
  inCloak  : Bool := false
  exitPend : Bool := false
  crCnt    : BitVec 16 := 0
  crAck    : Bool := false
  lostAck  : Bool := false
  cloakAt  : Tick := 0
  deriving DecidableEq, Repr

/-- A delivery being received (R413-R418); the blocks held, the writes outstanding in order, and the NACK rounds. -/
structure ImgRx where
  ih       : Byte := 0
  group    : BitVec 16 := 0
  start    : ImgStart := ⟨0, 0, 0, 0, 0, []⟩
  /-- 0 NONE to 8 ROLLED_BACK, as img.rx.state (R422). -/
  st       : Nat := 0
  reason   : Byte := 0
  dropped  : BitVec 32 := 0
  got      : List (Nat × Bool) := []
  /-- Block writes outstanding at the host fabric, oldest first. -/
  writes   : List Nat := []
  ended    : Bool := false
  rounds   : Nat := 0
  nackAt   : Tick := 0
  startAt  : Tick := 0
  planeA   : Bool := false
  planeB   : Bool := false
  tAct     : Option Tick := none
  /-- img.next.N and img.prev.N, for ITYPE 1 to 5. -/
  next     : List (Nat × BitVec 64) := []
  prev     : List (Nat × BitVec 64) := []
  taken    : Bool := false
  /-- An image has been activated and not yet taken (R418). -/
  untaken  : Bool := false
  deriving DecidableEq, Repr

/-- Telemetry records (R387). -/
structure Tel where
  en     : Bool := false
  ch     : BitVec 6 := 0
  period : BitVec 5 := 27
  telRef : Bool := false
  seq    : BitVec 32 := 0
  deriving DecidableEq, Repr

/-- Health configuration (R452). -/
structure Hlth where
  eyeWarn : Byte := 64
  eyeFail : Byte := 32
  resWarn : BitVec 16 := 16
  resFail : BitVec 16 := 48
  irqEn   : Bool := false
  deriving DecidableEq, Repr

/-- A held read of a wait register (R169, R360): its tag, whether the debug port made it, its context and wait slot. -/
structure HeldRead where
  tag    : Byte
  dbg    : Bool
  /-- The half of the register read: 0 both, 1 bits 31 to 0, 2 bits 63 to 32 (R359). -/
  part   : Nat
  c      : Nat
  k      : Nat
  deriving DecidableEq, Repr
/-- Module status (R463-R466). -/
structure Module where
  powered   : Bool := false
  /-- Shut down by THERM_TRIP until a power cycle (R465). -/
  tripped   : Bool := false
  inOk      : Bool := false
  uvWarn    : Bool := false
  ov        : Bool := false
  ocxoWarm  : Bool := false
  thermWarn : Bool := false
  thermTrip : Bool := false
  cageLimit : Bool := false
  tjMax     : Byte := 0
  pIn       : BitVec 16 := 0
  vIn       : BitVec 16 := 0
  domFault  : BitVec 4 := 0
  octetOn   : BitVec 36 := 0
  sliceOn   : BitVec 8 := 0
  hmOn      : BitVec 4 := 0
  refOn     : Bool := false
  deriving DecidableEq, Repr

/-- Start-up, topology and membership of the distributor (R398-R403, R426-R435, R439, R440). -/
structure DBoot where
  unitId    : BitVec 64 := 0
  fver      : Byte := 0
  fuseDone  : Bool := false
  fwBooted  : Bool := false
  catLoaded : Bool := false
  /-- HM_SPARE entries in use: (spare, row), of the fuses and of the self-test. -/
  spares    : List (Nat × Nat) := []
  hmUnrepaired : List Nat := []
  hmReady   : Bool := false
  draining  : Bool := false
  shadow    : Bool := false
  shadowAt  : Tick := 0
  /-- SHADOW has been entered since power-up (R440). -/
  shadowDone : Bool := false
  unexpected : BitVec 16 := 0
  earlyDrop : BitVec 32 := 0
  /-- Downward lanes found unexpected (R402). -/
  badDown   : List (Nat × Bool) := []
  reports   : List (Nat × Option (TopoReport × BitVec 32)) := []
  /-- The last TOPO_SUM of each child lane, and the sum last sent. -/
  sums      : List (Nat × BitVec 32) := []
  ep        : BitVec 32 := 0
  prev      : BitVec 32 := 0
  adoptAt   : Tick := 0
  stored    : Option FenceMsg := none
  /-- Fenced ports with their fence epoch. -/
  fencedPorts : List (Nat × Option (BitVec 32)) := []
  fenceDrop : BitVec 32 := 0
  mapDiff   : BitVec 32 := 0
  deriving DecidableEq, Repr

/-- The Curator's scores and the congestion flag (R442-R449). Channels 0 to 23 are the uplink lanes, 24 to 29 the root
candidates. -/
structure Curator where
  buckets  : List (Nat × BitVec 32) := []
  predict  : BitVec 30 := 0
  refRes   : List (Nat × BitVec 16) := []
  refSt    : List (Nat × BitVec 2) := []
  refRun   : List (Nat × Nat) := []
  congested : Bool := false
  below    : Nat := 0
  where_   : BitVec 16 := 0
  deriving DecidableEq, Repr

/-- A cache slot of image blocks, with the delivery that uses it (R412-R419). -/
structure ImgSlot where
  used    : Bool := false
  group   : BitVec 16 := 0
  start   : ImgStart := ⟨0, 0, 0, 0, 0, []⟩
  blocks  : List (Nat × Bytes) := []
  /-- Requests that wait for a block: (block, lane). -/
  waiters : List (Nat × Nat) := []
  ended   : Bool := false
  closed  : Bool := false
  okn     : BitVec 32 := 0
  failn   : BitVec 32 := 0
  actn    : BitVec 32 := 0
  missn   : BitVec 32 := 0
  /-- Last counts of each child lane: OKN, FAILN, ACTN, MISSN. -/
  childs  : List (Nat × (BitVec 32 × BitVec 32 × BitVec 32 × BitVec 32)) := []
  deriving DecidableEq, Repr

/-- A root's image transmission (R412, R417, R422). -/
structure ImgTx where
  active   : Bool := false
  startAt  : Tick := 0
  next     : Nat := 0
  interval : BitVec 16 := 128
  deriving DecidableEq, Repr
/-- Who holds a subscription (R325): a local world, a unit address over the tree with its entry tag and W, or a UDP
source with whether it authenticated. -/
inductive SubWho where
  | world (secure : Bool)
  | tree (csf : BitVec 48) (w : Bool)
  | udp (src : UdpSource) (auth : Bool)
  deriving DecidableEq, Repr

/-- A subscription (R325). -/
structure Sub where
  who      : SubWho
  entry    : EntryId
  minInt   : BitVec 16
  lifetime : BitVec 16
  since    : Tick
  sampled  : Tick
  last     : Option Bytes
  nseq     : BitVec 32
  deriving DecidableEq, Repr

/-- A forwarded Rysaob message that awaits its response (R321): its source, its header, its SEQ if it passed R323, the
LIFETIME of a SUBSCRIBE, and the tick of forwarding. -/
structure Fwd where
  src   : UdpSource
  head  : Bytes
  seq   : Option Bytes
  life  : Option (BitVec 16)
  at_   : Tick
  deriving DecidableEq, Repr

/-- A subscriber whose NOTIFYs come over the tree and are relayed (R325): its source, the header's bytes 8 to 15, whether
it authenticated, and the subscription's lifetime. -/
structure Relay where
  src   : UdpSource
  key   : Bytes
  auth  : Bool
  since : Tick
  life  : BitVec 16
  deriving DecidableEq, Repr

/-- One world's copy of the Catalogue access block (R326). -/
structure CatPort where
  op     : BitVec 4 := 0
  last   : Bool := false
  staged : Bool := false
  vtype  : Byte := 0
  sub    : Byte := 0
  index  : BitVec 16 := 0
  count  : BitVec 11 := 0
  offset : BitVec 32 := 0
  busy   : Bool := false
  status : Byte := 0
  rcount : BitVec 11 := 0
  subn   : BitVec 4 := 0
  total  : BitVec 32 := 0
  pend   : BitVec 16 := 0
  irqEn  : Bool := false
  /-- The bytes of the data buffer that are not zero. -/
  data   : List (Nat × Byte) := []
  deriving DecidableEq, Repr

/-- The Catalogue of a unit (R308-R332). -/
structure CatSt where
  /-- Applied values at 256 index + sub-index, in the image's encoding; the empty string stands for the default. -/
  vals    : List (Nat × Bytes) := []
  /-- Staging copies, secure and non-secure (R312), and the buffers of open WRITE_BLOCK sequences (R318), each after one
  marking byte. -/
  stageS  : List (Nat × Bytes) := []
  stageN  : List (Nat × Bytes) := []
  openS   : List (Nat × Bytes) := []
  openN   : List (Nat × Bytes) := []
  subs    : List (Nat × Option Sub) := []
  portS   : CatPort := {}
  portN   : CatPort := {}
  imgAddr : BitVec 64 := 0
  imgLen  : BitVec 19 := 0
  /-- 0 WAITING, 1 LOADING, 2 LOADED, 3 DEFAULTED (R331). -/
  lstate  : BitVec 2 := 0
  defaulted : Bool := false
  reason  : BitVec 4 := 0
  skipped : BitVec 16 := 0
  check   : BitVec 32 := 0
  /-- At a distributor: the flash slots, the one in use, GEN, a save in progress, the authentication state and the
  forwarded messages (R321-R324, R332). -/
  flash0  : Bytes := []
  flash1  : Bytes := []
  inUse   : Nat := 0
  generation : BitVec 32 := 0
  imageId : BitVec 64 := 0
  saving  : Option Bytes := none
  macLast : BitVec 64 := 0
  authFail : BitVec 32 := 0
  fwds    : List (Nat × Option Fwd) := []
  fwdTag  : Nat := 0
  relays  : List (Nat × Option Relay) := []
  deriving DecidableEq, Repr

/-- A reference input REFn with its time-of-day line (R97-R100). -/
structure RefIn where
  /-- The last accepted edge, as a count of TDC units on TIME. -/
  lastEdge : Option Int := none
  miss     : Nat := 0
  good     : Bool := false
  goodRun  : Nat := 0
  label    : Option (BitVec 48) := none
  prevSec  : Option (BitVec 48) := none
  todGood  : Bool := false
  todRun   : Nat := 0
  todBad   : Nat := 0
  ql       : BitVec 4 := 15
  tenGood  : Bool := false
  hist     : List Int := []
  deriving DecidableEq, Repr

/-- A PTP port of a root with its SyncE line (R101-R103). -/
structure PtpPort where
  announced : Bool := false
  ql        : BitVec 4 := 15
  syncE     : BitVec 4 := 15
  hist      : List Int := []
  deriving DecidableEq, Repr

/-- References, selection and tie of a root (R93-R112). -/
structure Root where
  refs     : List (Nat × RefIn) := []
  ptps     : List (Nat × PtpPort) := []
  selected : Option (BitVec 3) := none
  /-- The candidate whose hold-off runs (R105). -/
  holdoff  : Option (BitVec 3) := none
  /-- Candidates in their wait-to-restore, and those that have been lost once. -/
  wtr      : BitVec 6 := 0
  refLost  : Bool := false
  /-- tie.role: 0 none, 1 master, 2 follower; TLK, M and the runs of windows (R93). -/
  role     : BitVec 2 := 0
  tlk      : Bool := false
  mean     : BitVec 32 := 0
  /-- The sums of the last window, as sent upward (R61). -/
  sumD     : BitVec 48 := 0
  sumN     : BitVec 16 := 0
  tieValid : Bool := false
  small    : Nat := 0
  large    : Nat := 0
  tieWins  : Nat := 0
  tieHist  : List Int := []
  rsrc     : BitVec 3 := 0
  /-- F_TRACK samples for the ageing estimate are the model's free value; the estimate last made (R107). -/
  ageingEst : BitVec 32 := 0
  deriving DecidableEq, Repr
/-- What a stream channel's enable has come to (R304, R306); OPEN is read off its bursts. -/
inductive StrSt where
  | off | on | stopping
  deriving DecidableEq, Repr

/-- An input burst: its bytes, its beats, how many of them lie in the input buffer, whether it has ended, and whether its
consumer treats it as corrupt (R191, R297, R300). -/
structure InBurst where
  data    : Bytes := []
  beats   : Nat := 0
  held    : Nat := 0
  closed  : Bool := false
  corrupt : Bool := false
  deriving DecidableEq, Repr

/-- A stream channel (R299-R306). -/
structure StrCh where
  st       : StrSt := .off
  enPend   : Bool := false
  dir      : Bool := false
  world    : Bool := true
  trunc    : Bool := false
  crcErr   : Bool := false
  drop     : Bool := false
  disc     : Bool := false
  truncCnt : BitVec 32 := 0
  discBeats : BitVec 32 := 0
  crcCnt   : BitVec 32 := 0
  dropCnt  : BitVec 32 := 0
  /-- Bursts received and not yet consumed, oldest first; the last may be open. -/
  inq      : List InBurst := []
  /-- The open burst belongs to a cancelled slot: its beats are discarded (R305). -/
  skip     : Bool := false
  lastBeat : Tick := 0
  /-- The next burst belongs to an operation that has ended, and is discarded (R187). -/
  late     : Bool := false
  deriving DecidableEq, Repr

/-- A burst that a producer presents (R302): its bytes are whole beats. -/
structure OutBurst where
  prod  : Producer
  ch    : Nat
  data  : Bytes
  since : Tick
  deriving DecidableEq, Repr

/-- The stream port (R296-R307): bursts that wait for room, admitted bursts with the beats already sent, the credits held
against the host, the credits the host holds, and the channel served last. -/
structure Str where
  stallLimit : BitVec 16 := 4096
  outWait : BitVec 32 := 65536
  clkOk   : Bool := false
  chs     : List (Nat × StrCh) := []
  waits   : List OutBurst := []
  outq    : List (OutBurst × Nat) := []
  credits : Nat := 0
  hostCr  : Nat := 0
  /-- The tick on which the host's last credit was used: stall counts stand still until one returns (R300). -/
  zeroAt  : Tick := 0
  rr      : Nat := 63
  deriving DecidableEq, Repr

/-- States of a data-mover channel (R295). -/
inductive DmSt where
  | off | idle | run | pausing | paused | haltErr | stopping
  deriving DecidableEq, Repr

/-- Bytes 0 to 55 of a descriptor as the seven set registers hold them (R285, R295). -/
structure DmSet where
  src    : BitVec 64 := 0
  dst    : BitVec 64 := 0
  stride : BitVec 64 := 0
  len    : BitVec 64 := 0
  ctrl   : BitVec 64 := 0
  sig    : BitVec 64 := 0
  tag    : BitVec 64 := 0
  deriving DecidableEq, Repr

/-- What an outstanding write of a channel is (R288, R289): a unit of the transfer at a stream offset, a unit of an earlier
transfer, or the first or second part of a status write-back. -/
inductive DmWr where
  | unit (k : Nat)
  | old (addr : BitVec 64)
  | stat
  | own
  deriving DecidableEq, Repr

/-- Where the current transfer stands. -/
inductive DmStep where
  /-- No transfer. -/
  | none
  /-- Data moves. -/
  | move
  /-- All data is written; its signal waits for ENGINE. -/
  | signal
  /-- The status is being written back. -/
  | status
  deriving DecidableEq, Repr

/-- A data-mover channel (R279-R295). -/
structure DmCh where
  st       : DmSt := .off
  enPend   : Bool := false
  ctx      : Ctx6 := 0
  priv     : BitVec 2 := 0
  quota    : BitVec 7 := 8
  ring     : Bool := false
  pause    : Bool := false
  irqEn    : Bool := false
  loadLost : Bool := false
  descErr  : Bool := false
  sigErr   : Bool := false
  done     : Bool := false
  cfgRef   : Bool := false
  halted   : Bool := false
  sizeLog  : BitVec 4 := 1
  base     : BitVec 58 := 0
  head     : BitVec 15 := 0
  errAddr  : BitVec 64 := 0
  errDir   : Bool := false
  errSrc   : Bool := false
  errCode  : BitVec 3 := 0
  errValid : Bool := false
  cur      : DmSet := {}
  shadow   : DmSet := {}
  shadowValid : Bool := false
  doneCnt  : BitVec 32 := 0
  errCnt   : BitVec 32 := 0
  step     : DmStep := .none
  /-- Stream bytes whose reads have been issued, the bytes read and not yet written with the offset of the first, the
  bytes whose writes have been issued, and the bytes acknowledged. -/
  rd       : Nat := 0
  hold     : Bytes := []
  hb       : Nat := 0
  wr       : Nat := 0
  acked    : Nat := 0
  /-- Stream offsets of the reads in flight at the host fabric, and the writes in flight there, oldest first. -/
  rds      : List Nat := []
  wrs      : List DmWr := []
  /-- Hall requests in flight, oldest first: a write or a read, its offset, whether it belongs to an earlier transfer. -/
  halls    : List (Bool × Nat × Bool) := []
  /-- A descriptor fetch is in flight; the tick of the next poll; a KICK came during the fetch. -/
  fetch    : Bool := false
  poll     : Option Tick := none
  kick     : Bool := false
  /-- A bus error has been met and the writes drain: the stream offset at which data is lost. -/
  errAt    : Option Nat := none
  /-- CODE and ERR of the completion in progress. -/
  code     : BitVec 8 := 0
  err      : BitVec 8 := 0
  /-- The ring entry of the current transfer, and of the shadow. -/
  entry    : BitVec 15 := 0
  entryS   : BitVec 15 := 0
  /-- Host writes whose acknowledgement, and reads whose data, is to be discarded (R407). -/
  lostAcks : Nat := 0
  lostRds  : Nat := 0
  deriving DecidableEq, Repr

/-- The data mover. -/
structure Dm where
  pollInt : BitVec 16 := 1024
  chs     : List (Nat × DmCh) := []
  rrRead  : Nat := 7
  rrWrite : Nat := 7
  deriving DecidableEq, Repr
/-- A combining record (R197, R201, R202, R205, R207, R210). -/
inductive CRec where
  | sum (nan pinf ninf pres notnz : Bool) (a : Int)
  | val (nan pres : Bool) (v : BitVec 64)
  | pair (nan pres : Bool) (v idx : BitVec 64)
  | topk (nan : Bool) (es : List (BitVec 64 × BitVec 64))
  | ssum (nan pres : Bool) (kmax : Int) (c : Nat)
  | cnt (n : Nat)
  deriving DecidableEq, Repr

/-- States of an operation slot (R224). -/
inductive CollSt where
  | idle | gather | sent | phase2 | waitRes | output | done
  deriving DecidableEq, Repr

/-- A local source of an operation: still awaited, its burst, or corrupt (R191). -/
inductive CollSrc where
  | wait
  | data (d : Bytes)
  | corrupt
  deriving DecidableEq, Repr

/-- What one lane has delivered for an operation: the records so far, whether a frame failed CCRC, and the header of the
last frame once it has come (R214, R215). -/
structure CollAcc where
  recs : List CRec := []
  bad  : Bool := false
  last : Option CollResult := none
  deriving DecidableEq, Repr

/-- What a completion will show once STATE is DONE (R216, R218). -/
structure CDone where
  code : BitVec 3 := 0
  flags : BitVec 9 := 0
  nmiss : BitVec 16 := 0
  nempty : BitVec 13 := 0
  npres : BitVec 32 := 0
  deriving DecidableEq, Repr

/-- An operation slot (R188, R216-R224). -/
structure CollSlot where
  d0 : BitVec 64 := 0
  d1 : BitVec 64 := 0
  d2 : BitVec 64 := 0
  d3 : BitVec 64 := 0
  d4 : BitVec 64 := 0
  d5 : BitVec 64 := 0
  st : CollSt := .idle
  code : BitVec 3 := 0
  flags : BitVec 9 := 0
  issueLost : Bool := false
  nmiss : BitVec 16 := 0
  nempty : BitVec 13 := 0
  npres : BitVec 32 := 0
  srcs : List CollSrc := []
  /-- The lanes the operation uses (R215). -/
  useA : Bool := false
  useB : Bool := false
  resA : CollAcc := {}
  resB : CollAcc := {}
  /-- K of each row, as the first KDOWN gave it, and the KDOWN being received on each lane (R207). -/
  kdown : Option (List Int) := none
  kdA : List Int := []
  kdB : List Int := []
  kbadA : Bool := false
  kbadB : Bool := false
  /-- The result delivered, for comparison with the other plane's, and that plane. -/
  given : Option (CollResult × List CRec) := none
  givenB : Bool := false
  /-- The completion in progress. -/
  fin : CDone := {}
  deriving DecidableEq, Repr

/-- The collective engine of the TSU. -/
structure Coll where
  slots    : List (Nat × CollSlot) := []
  resGrace : BitVec 16 := 8192
  cutTsu   : BitVec 16 := 6144
  diff     : BitVec 32 := 0
  late     : BitVec 32 := 0
  ops      : BitVec 32 := 0
  notOk    : BitVec 32 := 0
  ccrcErr  : BitVec 32 := 0
  deriving DecidableEq, Repr

/-- States of a generator slot (R250). -/
inductive GenSt where
  | idle | run | done
  deriving DecidableEq, Repr

/-- A generator slot (R231-R236, R250). -/
structure GenSlot where
  d0    : BitVec 64 := 0
  coord : BitVec 64 := 0
  step  : BitVec 48 := 0
  ncall : BitVec 20 := 0
  sig   : BitVec 64 := 0
  st    : GenSt := .idle
  code  : BitVec 3 := 0
  outDrop : Bool := false
  issueLost : Bool := false
  used  : BitVec 48 := 0
  /-- The key latched at issue, the calls formed so far, and a CANCEL in force. -/
  key   : BitVec 128 := 0
  formed : Nat := 0
  cancel : Bool := false
  deriving DecidableEq, Repr

/-- The generator (R231-R237, R250); the keys stand with the contexts. -/
structure Gen where
  slots  : List (Nat × GenSlot) := []
  tkey   : BitVec 128 := 0
  tctr   : BitVec 128 := 0
  tout   : BitVec 128 := 0
  stOk   : Bool := false
  stDone : Bool := false
  keyRef : Bool := false
  calls  : BitVec 64 := 0
  deriving DecidableEq, Repr
/-- A TAKE that waits at a hall semaphore (R160). -/
structure TakeWait where
  pda   : BitVec 16
  tag   : BitVec 16
  count : Nat
  w     : Bool
  deriving DecidableEq, Repr

/-- A hall barrier object (R152, R160, R433, R434, R441). -/
structure HBar where
  kind   : BitVec 2 := 0
  scope  : BitVec 2 := 1
  expect : BitVec 20 := 1
  group  : BitVec 16 := 0
  world  : Bool := true
  sense  : Bool := false
  c0     : Nat := 0
  c1     : Nat := 0
  sent   : Bool := false
  sat0   : Bool := false
  sat1   : Bool := false
  /-- Combined step fields of each phase. -/
  f0     : Option StepFields := none
  f1     : Option StepFields := none
  /-- Arrival maps, RSHARE, the removed ports, and whether a phase carries FSEEN. -/
  map0   : BitVec 256 := 0
  map1   : BitVec 256 := 0
  rshare : Nat := 0
  removed : BitVec 256 := 0
  takes  : List TakeWait := []
  dormant : Bool := false
  deriving DecidableEq, Repr

/-- A child's contribution to an operation: phase, the records so far, the frames' fields, ended, and bad CCRC. -/
structure CKid where
  recs : List CRec := []
  last : Bool := false
  bad  : Bool := false
  /-- Listed as missing (R220, R430). -/
  gone : Bool := false
  deriving DecidableEq, Repr

/-- An operation open at a collective object (R190, R207, R219). -/
structure COp where
  seq     : BitVec 16
  hdr     : Contrib
  phase2  : Bool := false
  kids    : List (Nat × CKid) := []
  /-- Records combined from complete contributions, what they include, and what they lack. -/
  recs    : Option (List CRec) := none
  npres   : Nat := 0
  nmiss   : Nat := 0
  missing : List (BitVec 32) := []
  mixed   : Bool := false
  /-- Sent upward: a later contribution of the phase is late. -/
  sent    : Bool := false
  /-- The phase-1 records at the completing point of an SSUM. -/
  one     : List CRec := []
  deriving DecidableEq, Repr

/-- A collective object (R225, R441). -/
structure CObj where
  scope  : BitVec 2 := 0
  group  : BitVec 16 := 0
  expect : BitVec 32 := 1
  world  : Bool := true
  ops    : List COp := []
  dormant : Bool := false
  deriving DecidableEq, Repr

/-- A region of hall memory (R263). -/
structure HRegion where
  world  : Bool := true
  ledger : Bool := false
  deriving DecidableEq, Repr

/-- A hall request at its owner: its frame and W. -/
structure HWait where
  p : HReq
  w : Bool
  deriving DecidableEq, Repr

/-- Hall memory of a distributor (R253-R268, R276). -/
structure HMem where
  regions : List (Nat × HRegion) := []
  words   : List (Nat × TWord) := []
  /-- Regions whose unlisted words carry W = 0. -/
  fillN   : List (Nat × Bool) := []
  waits   : List HWait := []
  /-- The regions being scrubbed, and the requests held meanwhile. -/
  scrub   : List Nat := []
  held    : List HWait := []
  ce      : BitVec 32 := 0
  ue      : BitVec 32 := 0
  denied  : BitVec 32 := 0
  refused : BitVec 32 := 0
  expired : BitVec 32 := 0
  deriving DecidableEq, Repr

/-- A job at a distributor (R136): its group, T_START, the counts its children have confirmed, and at a root its state
0 none, 1 arming, 2 committed, 3 aborted. -/
structure Job where
  group  : BitVec 16 := 0
  tStart : Tick := 0
  kids   : List (Nat × Nat) := []
  state  : BitVec 2 := 0
  deriving DecidableEq, Repr

/-- The objects of a distributor. -/
structure Objs where
  bars    : List (Nat × HBar) := []
  groups  : List (Nat × BitVec 288) := []
  overCount : BitVec 32 := 0
  semRefused : BitVec 32 := 0
  dropCount : BitVec 32 := 0
  cobjs   : List (Nat × CObj) := []
  ccrcErr : BitVec 32 := 0
  lateCount : BitVec 32 := 0
  bypassCount : BitVec 32 := 0
  mixedCount : BitVec 32 := 0
  jobs    : List (Nat × Option Job) := []
  /-- The job last commanded at a root. -/
  job     : Option (BitVec 32) := none
  hmem    : HMem := {}
  deriving DecidableEq, Repr
/-- What the block drives out, in the order driven. -/
inductive Out where
  /-- A frame on a lane, with its LSEQ (0 in TIME frames) and whether it is sent again (R40, R46). -/
  | frame (l : LaneRef) (lseq : BitVec 12) (again : Bool) (f : TxFrame)
  /-- Spine commands (R368). -/
  | load (v l : Tick)
  | restart (ep : Nat) (t : Tick) (bank : Bool)
  | rtrim (ep : Nat) (v : BitVec 12)
  | snap (ep : Nat)
  /-- LNCH_PULSE (R373). -/
  | lnchPulse (c : Nat)
  /-- A register-port or debug-port response (R359, R385). -/
  | reg (tag : Option Byte) (err : BitVec 2) (data : BitVec 64)
  | dbg (tag : Byte) (err : BitVec 2) (data : BitVec 64)
  /-- Master-port requests (R363). -/
  | hmRead (addr : BitVec 64) (len id : Nat) (secure : Bool) (priv : BitVec 2)
  | hmWrite (addr : BitVec 64) (data : Bytes) (id : Nat) (secure : Bool) (priv : BitVec 2)
  /-- Credits and beats of the stream port (R296, R298). -/
  | strCredit (n : Nat)
  | strBeat (b : Beat)
  /-- A Catalogue answer to a local request, or through the management network (R317, R321). -/
  | cat (u : UnitRef) (src : CatSource) (tid : BitVec 16) (status : Byte) (payload : Bytes)
  | udp (dest : UdpSource) (msg : Bytes)
  /-- A write of the management flash (R332, R411). -/
  | flash (slot : Nat) (data : Bytes)
  deriving DecidableEq, Repr

/-- The TSU of a die. -/
structure Tsu where
  time   : TimeSt := {}
  spine  : Spine := {}
  tdc    : Tdc := {}
  servo  : Servo := {}
  laneA  : Lane := {}
  laneB  : Lane := {}
  abDiff : BitVec 32 := 0
  ctxs   : List (Nat × Ctx) := []
  lctl   : LaunchCtl := {}
  bar    : BarSt := {}
  /-- Wait slot k of context c stands at 8c + k. -/
  ws     : List (Nat × WSlot) := []
  wseq   : Nat := 0
  tm     : TagMem := {}
  hall   : HallReq := {}
  timers : Timers := {}
  gnt    : Gnt := {}
  dbg    : Dbg := {}
  pwr    : Pwr := {}
  boot   : Boot := {}
  img    : ImgRx := {}
  tel    : Tel := {}
  hlth   : Hlth := {}
  cat    : CatSt := {}
  str    : Str := {}
  dm     : Dm := {}
  coll   : Coll := {}
  gen    : Gen := {}
  heldReads : List HeldRead := []
  /-- Operations held for ENGINE, INIT_DONE or a scrub, in issue order (R162, R163, R346). -/
  held   : List EngOp := []
  deriving DecidableEq, Repr

/-- An HZD-288 distributor on its HZM-288 module. -/
structure Dist where
  time    : TimeSt := {}
  tdc     : Tdc := {}
  servo   : Servo := { bw := 8 }
  lanes   : List (Nat × Lane) := []
  mod     : Module := {}
  boot    : DBoot := {}
  root    : Root := {}
  curator : Curator := {}
  img     : ImgRx := {}
  slots   : List (Nat × ImgSlot) := []
  /-- A root's transmissions, by image handle. -/
  tx      : List (Nat × ImgTx) := []
  cat     : CatSt := {}
  objs    : Objs := {}
  /-- The two firmware slots of the flash, and the one booted (R398, R411). -/
  fw0     : Bytes := []
  fw1     : Bytes := []
  fwUse   : Nat := 0
  deriving DecidableEq, Repr

/-- Everything but the queue of commands. -/
structure Block where
  tsu  : Tsu := {}
  dist : Dist := {}
  out  : List Out := []
  /-- The model's own counter: how many free values have been drawn. -/
  free : Nat := 0
  deriving DecidableEq, Repr

/-- The machine: the block, and the commands that wait, oldest first. -/
structure State where
  blk     : Block := {}
  pending : List Instr := []
  deriving DecidableEq, Repr

/-- Why the machine stops. -/
inductive Fault where
  /-- Raised by a command that names a lane or port the distributor does not have (R1, R454): no such command can
  come. Safe. -/
  | noSuchLane (n : Nat)
  deriving DecidableEq, Repr

/-- Why the model gives no meaning. -/
inductive Refusal where
  /-- Raised by exec's arm of a command that has no meaning yet. Safe. -/
  | notModelled (mnemonic : String)
  deriving DecidableEq, Repr

/-- Right after reset: both resets asserted, the module unpowered, every register at its reset value, nothing waiting. -/
def State.reset : State := {}

end Sys2Proof.Machine
end

