-- ==== Sys2Proof/Machine/Ops.lean ====
section
/-! DEFINITION. The named operations over the block: access to its parts, applied Catalogue values, free values, sending
and receiving of frames (R40-R48, R67, R404, R427-R430, R445-R447). -/

namespace Sys2Proof.Machine

open Sys2Proof

/-- A command's effect on the block; the queue is not touched. -/
def State.run (f : Block → Block) (s : State) : Host.Outcome State Fault Refusal :=
  .next { s with blk := f s.blk }


/-- A command that names a lane. -/
def State.runLane (l : LaneRef) (f : Block → Block) (s : State) : Host.Outcome State Fault Refusal :=
  match l with
  | .tsu _ => s.run f
  | .dist n => if n < 312 then s.run f else .fault (.noSuchLane n)

/-! ### Parts of the block -/

def Block.emit (b : Block) (o : Out) : Block := { b with out := b.out ++ [o] }

def Block.mTsu (b : Block) (f : Tsu → Tsu) : Block := { b with tsu := f b.tsu }
def Block.mDist (b : Block) (f : Dist → Dist) : Block := { b with dist := f b.dist }

/-- The n-th free value, and the counter moved on (log entry 3). -/
def Block.draw (b : Block) : BitVec 64 × Block := (Config.freeValue b.free, { b with free := b.free + 1 })

/-- The TSU's tick count. -/
def Block.tc (b : Block) : Tick := b.tsu.time.tc64

/-- The tick count of a unit. -/
def Block.tcOf (b : Block) (u : UnitRef) : Tick :=
  match u with | .tsu => b.tsu.time.tc64 | .dist => b.dist.time.tc64

/-- The TSU's count has reached `t` (R13). -/
def Block.due (b : Block) (t : Tick) : Bool := Tick.le t b.tc

def Block.timeOf (b : Block) (u : UnitRef) : TimeSt := match u with | .tsu => b.tsu.time | .dist => b.dist.time
def Block.mTime (b : Block) (u : UnitRef) (f : TimeSt → TimeSt) : Block :=
  match u with
  | .tsu => { b with tsu.time := f b.tsu.time }
  | .dist => { b with dist.time := f b.dist.time }

def Block.servoOf (b : Block) (u : UnitRef) : Servo := match u with | .tsu => b.tsu.servo | .dist => b.dist.servo
def Block.mServo (b : Block) (u : UnitRef) (f : Servo → Servo) : Block :=
  match u with
  | .tsu => { b with tsu.servo := f b.tsu.servo }
  | .dist => { b with dist.servo := f b.dist.servo }

def Block.tdcOf (b : Block) (u : UnitRef) : Tdc := match u with | .tsu => b.tsu.tdc | .dist => b.dist.tdc
def Block.mTdc (b : Block) (u : UnitRef) (f : Tdc → Tdc) : Block :=
  match u with
  | .tsu => { b with tsu.tdc := f b.tsu.tdc }
  | .dist => { b with dist.tdc := f b.dist.tdc }

def Block.catOf (b : Block) (u : UnitRef) : CatSt := match u with | .tsu => b.tsu.cat | .dist => b.dist.cat
def Block.mCat (b : Block) (u : UnitRef) (f : CatSt → CatSt) : Block :=
  match u with
  | .tsu => { b with tsu.cat := f b.tsu.cat }
  | .dist => { b with dist.cat := f b.dist.cat }

def Block.imgOf (b : Block) (u : UnitRef) : ImgRx := match u with | .tsu => b.tsu.img | .dist => b.dist.img
def Block.mImg (b : Block) (u : UnitRef) (f : ImgRx → ImgRx) : Block :=
  match u with
  | .tsu => { b with tsu.img := f b.tsu.img }
  | .dist => { b with dist.img := f b.dist.img }

/-- The unit of a lane. -/
def laneUnit : LaneRef → UnitRef
  | .tsu _ => .tsu
  | .dist _ => .dist

def Block.lane (b : Block) (l : LaneRef) : Lane :=
  match l with
  | .tsu .A => b.tsu.laneA
  | .tsu .B => b.tsu.laneB
  | .dist n => smGet {} b.dist.lanes n

def Block.mLane (b : Block) (l : LaneRef) (f : Lane → Lane) : Block :=
  match l with
  | .tsu .A => { b with tsu.laneA := f b.tsu.laneA }
  | .tsu .B => { b with tsu.laneB := f b.tsu.laneB }
  | .dist n => { b with dist.lanes := smMod {} b.dist.lanes n f }

def Block.mReg (b : Block) (l : LaneRef) (f : LaneReg → LaneReg) : Block := b.mLane l fun x => { x with reg := f x.reg }
def Block.mLink (b : Block) (l : LaneRef) (f : LaneLink → LaneLink) : Block :=
  b.mLane l fun x => { x with link := f x.link }
def Block.mSync (b : Block) (l : LaneRef) (f : LaneSync → LaneSync) : Block :=
  b.mLane l fun x => { x with sync := f x.sync }
def Block.mCnt (b : Block) (l : LaneRef) (f : LaneCnt → LaneCnt) : Block :=
  b.mLink l fun x => { x with cnt := f x.cnt }

def Block.ctx (b : Block) (c : Nat) : Ctx := smGet {} b.tsu.ctxs c
def Block.mCtx (b : Block) (c : Nat) (f : Ctx → Ctx) : Block := { b with tsu.ctxs := smMod {} b.tsu.ctxs c f }
def Block.mCtxReg (b : Block) (c : Nat) (f : CtxReg → CtxReg) : Block := b.mCtx c fun x => { x with reg := f x.reg }
def Block.mCtxRun (b : Block) (c : Nat) (f : CtxRun → CtxRun) : Block := b.mCtx c fun x => { x with run := f x.run }
def Block.mFlags (b : Block) (c : Nat) (f : CtxFlags → CtxFlags) : Block :=
  b.mCtxReg c fun x => { x with flags := f x.flags }

def Block.mBoot (b : Block) (f : Boot → Boot) : Block := { b with tsu.boot := f b.tsu.boot }
def Block.mDBoot (b : Block) (f : DBoot → DBoot) : Block := { b with dist.boot := f b.dist.boot }
def Block.mPwr (b : Block) (f : Pwr → Pwr) : Block := { b with tsu.pwr := f b.tsu.pwr }
def Block.mDbg (b : Block) (f : Dbg → Dbg) : Block := { b with tsu.dbg := f b.tsu.dbg }
def Block.mGnt (b : Block) (f : Gnt → Gnt) : Block := { b with tsu.gnt := f b.tsu.gnt }
def Block.mMod (b : Block) (f : Module → Module) : Block := { b with dist.mod := f b.dist.mod }
def Block.mSpine (b : Block) (f : Spine → Spine) : Block := { b with tsu.spine := f b.tsu.spine }
def Block.ep (b : Block) (n : Nat) : Endpoint := smGet {} b.tsu.spine.eps n
def Block.mEp (b : Block) (n : Nat) (f : Endpoint → Endpoint) : Block :=
  b.mSpine fun x => { x with eps := smMod {} x.eps n f }
def Block.mLctl (b : Block) (f : LaunchCtl → LaunchCtl) : Block := { b with tsu.lctl := f b.tsu.lctl }

/-- Applies `f` for each element in order. -/
def Block.each {α : Type} (b : Block) (l : List α) (f : Block → α → Block) : Block := l.foldl f b

/-! ### Applied Catalogue values -/

/-- The row of an entry, without regard to who holds it. -/
def catRow (idx sub : Nat) : Option CatEnt :=
  let i := if 0xA000 ≤ idx ∧ idx < 0xA000 + 312 then 0xA000 else idx
  catRows.find? fun e => e.index == i && decide (e.subLo ≤ sub) && decide (sub ≤ e.subHi)

/-- The key of an entry in `CatSt.vals`. -/
def catKey (idx sub : Nat) : Nat := 256 * idx + sub

/-- The plane of a distributor's record 0x7110, before any mirror is read. -/
def CatSt.num (c : CatSt) (idx sub dflt : Nat) : Nat :=
  match smGet [] c.vals (catKey idx sub) with
  | [] => dflt
  | v => ofLE v

/-- topo.role and topo.plane of the distributor (R402). -/
def Block.dRole (b : Block) : Nat := b.dist.cat.num 0x7110 1 0
def Block.dPlane (b : Block) : Plane := if b.dist.cat.num 0x7110 2 0 = 1 then .B else .A

/-- The default of an entry at a unit, in the image's encoding; some defaults differ by unit (R111, R333). -/
def Block.catDefault (b : Block) (u : UnitRef) (e : CatEnt) : Bytes :=
  let n : Nat :=
    match e.index, u with
    | 0x1002, .tsu => 0x5553542D4E455A584548
    | 0x1002, .dist => 0x3838322D445A48
    | 0x1003, .tsu => 0x3043
    | 0x1003, .dist => 0x3142
    | 0x2104, .dist => if e.subLo = 2 then (if b.dRole = 3 then 2 else 8) else e.dflt
    | 0x2120, .dist => if e.subLo = 1 then (if b.dPlane = .B then 1 else 0) else e.dflt
    | _, _ => e.dflt
  if e.index = 0x7120 ∧ e.subLo = 1 then List.replicate e.size 0xFF else toLE e.size n

/-- The applied value of an entry that is not a mirror. -/
def Block.catVal (b : Block) (u : UnitRef) (idx sub : Nat) : Bytes :=
  match smGet [] (b.catOf u).vals (catKey idx sub) with
  | [] => match catRow idx sub with
    | some e => b.catDefault u e
    | none => []
  | v => v

/-- The applied value as an unsigned number. -/
def Block.catNat (b : Block) (u : UnitRef) (idx sub : Nat) : Nat := ofLE (b.catVal u idx sub)

/-- The applied value as a signed 32-bit number. -/
def Block.catInt (b : Block) (u : UnitRef) (idx sub : Nat) : Int := (BitVec.ofNat 32 (b.catNat u idx sub)).toInt

/-- Sets the applied value. -/
def Block.catSet (b : Block) (u : UnitRef) (idx sub : Nat) (v : Bytes) : Block :=
  b.mCat u fun c => { c with vals := smPut [] c.vals (catKey idx sub) v }

/-- Sets the applied value of a numeric entry of the row's size. -/
def Block.catSetNat (b : Block) (u : UnitRef) (idx sub n : Nat) : Block :=
  match catRow idx sub with
  | some e => b.catSet u idx sub (toLE e.size n)
  | none => b

/-! ### Lanes -/

def Block.up (b : Block) (l : LaneRef) : Bool := (b.lane l).reg.state == .up

/-- The distributor's uplink bundle lanes, U0 first (R455). -/
def uplinks : List Nat := (List.range 24).map (· + 288)

/-- The distributor's downward lanes by role (R455). -/
def Block.downLanes (b : Block) : List Nat := if b.dRole = 1 then List.range 256 else List.range 288

/-- The lanes of child `c` of a distributor: one die port at a T1, 24 lanes at a T2 or root (R455). -/
def Block.childLanes (b : Block) (c : Nat) : List Nat :=
  if b.dRole = 1 then [c] else (List.range 24).map (· + 24 * c)

/-- The child that a downward lane belongs to. -/
def Block.childOf (b : Block) (n : Nat) : Nat := if b.dRole = 1 then n else n / 24

/-- Whether a lane's topology result lets it carry class `cls` (R401, R402). -/
def Block.topoCarries (b : Block) (l : LaneRef) (cls : Nat) : Bool :=
  match l with
  | .tsu _ => (b.lane l).reg.topoRes != 2 || cls == 0 || cls == 5 || cls == 6
  | .dist n =>
    let bad := if n < 288 then smGet false b.dist.boot.badDown n else (b.lane l).reg.topoRes == 2
    !bad || cls == 0 || cls == 5

/-- A lane is usable for a frame of class `cls` that needs feature `feat`: UP, the feature in its effective set (R67),
the topology result in order (R401, R402), and at a TSU admission for classes 1 to 4 (R404). -/
def Block.usable (b : Block) (l : LaneRef) (cls feat : Nat) : Bool :=
  b.up l && (b.lane l).reg.featEff.getLsbD feat && b.topoCarries l cls &&
    (match l with
     | .tsu _ => b.tsu.boot.admitted || cls == 0 || cls == 5 || cls == 6
     | .dist _ => true)

/-- The MEPOCH a unit sends (R404, R427). -/
def Block.epochOf (b : Block) (u : UnitRef) : BitVec 32 :=
  match u with
  | .tsu => if b.tsu.boot.admitted then b.tsu.boot.ep else 0
  | .dist => b.dist.boot.ep

def Cred.get (c : Cred) : Nat → BitVec 16
  | 2 => c.c2 | 3 => c.c3 | 4 => c.c4 | 5 => c.c5 | 6 => c.c6 | _ => 0

def Cred.inc (c : Cred) : Nat → Cred
  | 2 => { c with c2 := c.c2 + 1 } | 3 => { c with c3 := c.c3 + 1 } | 4 => { c with c4 := c.c4 + 1 }
  | 5 => { c with c5 := c.c5 + 1 } | 6 => { c with c6 := c.c6 + 1 } | _ => c

/-- A class may send: classes 0 and 1 are not credited, the others send while (i16)(CRED - sent) > 0 (R446). -/
def LaneLink.credit (k : LaneLink) (cls : Nat) : Bool :=
  cls < 2 || decide (0 < ((k.credTx.get cls) - (k.sent.get cls)).toInt)

/-- The weight of a class in the deficit round robin (R447). -/
def Block.weight (b : Block) (cls : Nat) : Nat := ((b.catVal .dist 0x7140 1).getD (cls - 2) 1).toNat

/-- Takes the first waiting frame that meets `p` out of the list. -/
def takeFirst (p : TxFrame → Bool) : List TxFrame → Option (TxFrame × List TxFrame)
  | [] => none
  | f :: t => if p f then some (f, t) else (takeFirst p t).map fun r => (r.1, f :: r.2)

/-- Sends one waiting frame of class `cls` if the replay buffer has room (R46) and the class has credit (R446). -/
def Block.sendOne (b : Block) (l : LaneRef) (cls : Nat) : Option (Nat × Block) :=
  let k := (b.lane l).link
  if k.replay.length < 256 ∧ k.credit cls then
    (takeFirst (fun f => f.cls == cls) k.txq).map fun (f, rest) =>
      (frameBytes f.body,
        (b.mLink l fun k => { k with
          txq := rest, txSeq := k.txSeq + 1, sent := k.sent.inc cls,
          replay := k.replay ++ [⟨k.txSeq, 0, f⟩] }).emit (.frame l k.txSeq false f))
  else none

/-- Sends class `cls` while it may and its deficit lasts; `n` bounds the frames. -/
def Block.sendRun (l : LaneRef) (cls : Nat) : Nat → Nat → Block → Block
  | 0, _, b => b
  | n + 1, d, b =>
    match takeFirst (fun f => f.cls == cls) (b.lane l).link.txq with
    | none => b
    | some (f, _) =>
      if d < frameBytes f.body then b
      else match b.sendOne l cls with
        | none => b
        | some (used, b') => Block.sendRun l cls n (d - used) b'

/-- Sends what waits: class 1 in order, then classes 2 to 6 by deficit round robin (R42, R447); `n` bounds the rounds. -/
def Block.pump (l : LaneRef) : Nat → Block → Block
  | 0, b => b
  | n + 1, b =>
    if b.up l then
      let b1 := Block.sendRun l 1 256 (256 * 4096) b
      let b2 := [2, 3, 4, 5, 6].foldl (fun b c => Block.sendRun l c 256 (2048 * b.weight c + 2068) b) b1
      if (b2.lane l).link.txq.length < (b.lane l).link.txq.length then Block.pump l n b2 else b2
    else b

/-- Queues a frame on a lane and sends what may be sent. A TIME frame is sent at once, with LSEQ 0. A frame the lane
cannot carry is not sent (R67, R401, R402, R404). -/
def Block.send (b : Block) (l : LaneRef) (w : Bool) (body : FrameBody) : Block :=
  let cls := frameCls body
  let f : TxFrame := ⟨cls, w, b.epochOf (laneUnit l), body⟩
  if cls = 0 then b.emit (.frame l 0 false f)
  else if b.usable l cls (frameFeature body) then
    Block.pump l 64 (b.mLink l fun k => { k with txq := k.txq ++ [f] })
  else b

/-- Sends on both lanes of the TSU. -/
def Block.sendBoth (b : Block) (w : Bool) (body : FrameBody) : Block :=
  (b.send (.tsu .A) w body).send (.tsu .B) w body

/-- The lowest-numbered uplink lane that is UP (R403). -/
def Block.upLane (b : Block) : Option Nat := uplinks.find? fun n => b.up (.dist n)

/-- The lowest-numbered UP lane of a child (R156). -/
def Block.childLane (b : Block) (c : Nat) : Option Nat := (b.childLanes c).find? fun n => b.up (.dist n)

/-- Sends upward from a distributor. -/
def Block.sendUp (b : Block) (w : Bool) (body : FrameBody) : Block :=
  match b.upLane with
  | some n => b.send (.dist n) w body
  | none => b

/-- Sends to a child of a distributor. -/
def Block.sendChild (b : Block) (c : Nat) (w : Bool) (body : FrameBody) : Block :=
  match b.childLane c with
  | some n => b.send (.dist n) w body
  | none => b

/-! ### The Curator's buckets (R444) -/

/-- The privileged channel of a lane: uplink lane j of a distributor is channel j. -/
def laneChan : LaneRef → Option Nat
  | .dist n => if 288 ≤ n then some (n - 288) else none
  | .tsu _ => none

/-- A measure of the channel is FAIL, or the junction is above 100 °C for an uplink lane (R444, R465). -/
def Block.channelFail (b : Block) (ch : Nat) : Bool :=
  if ch < 24 then
    let h := (b.lane (.dist (288 + ch))).health
    b.dist.mod.thermWarn || h.eyeSt == 2 || h.resSt == 2 || h.optSt == 2
  else smGet 0 b.dist.curator.refSt (ch - 24) == 2

/-- PREDICT_FAIL follows the bucket and the measures of the channel (R444). -/
def Block.predict (b : Block) (ch : Nat) : Block :=
  let thr := b.catNat .dist 0x7002 7
  let v := (smGet 0 b.dist.curator.buckets ch).toNat
  let cur := b.dist.curator.predict.getLsbD ch
  let new := if b.channelFail ch ∨ thr ≤ v then true else if 2 * v < thr then false else cur
  b.mDist fun d => { d with curator := { d.curator with
    predict := if new then d.curator.predict ||| (1#30 <<< ch) else d.curator.predict &&& ~~~(1#30 <<< ch) } }

/-- Adds weight `sub` of health.w (1 corrected symbol, 2 replay, 3 retrain, 4 candidate lost, 5 edge) times `k`. -/
def Block.bucket (b : Block) (ch : Option Nat) (sub k : Nat) : Block :=
  match ch with
  | none => b
  | some c =>
    if k = 0 then b else
    (b.mDist fun d => { d with curator := { d.curator with
      buckets := smMod 0 d.curator.buckets c fun x => satAdd x (k * b.catNat .dist 0x7002 sub) } }).predict c

/-! ### Leaving UP (R48, R396, R397, R406) -/

/-- Everything that a lane's loss of UP does to the lane itself: REFINED clears, received bits read 0, the exchange
starts afresh; A_REF, d2_ref and the replay buffer stay (R48, R63, R69). -/
def Lane.leaveUp (x : Lane) : Lane :=
  { x with
    reg := { x.reg with refined := false, pcalRx := false, tvRx := false, posValid := false, helloSeen := false,
                        ackRx := false, ackTx := false, topoRes := 0, topoReason := 0 }
    sync := { x.sync with prevTx := none, rxTs := none, sseqTx := 0, answer := false, accN := 0, periods := [],
                          winSum := 0, winN := 0, winClean := false, smallRun := 0, largeRun := 0, pmv := false,
                          th2s := [] }
    link := { x.link with replay := x.link.replay.map fun s => { s with tries := 0 }, uncs := [] } }

/-- A failed start: after three in a row the lane waits 1 s before each further start (R397). -/
def Lane.failStart (x : Lane) : Lane :=
  { x with reg := { x.reg with failStarts := x.reg.failStarts + 1, backoff := decide (3 ≤ x.reg.failStarts + 1) } }

/-- Starts training: from the saved settings when FAST_START is 1 and they are not all zero (R396). -/
def Lane.train (x : Lane) (saved : Bytes) : Lane :=
  { x with reg := { x.reg with state := .training, fullTrain := !x.reg.fastStart || allZero saved } }

/-- link.x.eq_saved of a lane (R73, R467). -/
def eqIndex : LaneRef → Nat
  | .tsu .A => 0x1101
  | .tsu .B => 0x1102
  | .dist n => 0xA000 + n

def Block.eqSaved (b : Block) (l : LaneRef) : Bytes := b.catVal (laneUnit l) (eqIndex l) 5

/-- Sends the replay buffer again from the frame after `ack` (R46), counting REPLAY. -/
def Block.resend (b : Block) (l : LaneRef) : Block :=
  let k := (b.lane l).link
  let b1 := b.mLink l fun k => { k with
    replay := k.replay.map fun s => { s with tries := s.tries + 1 },
    resent := k.resent + k.replay.length,
    cnt := { k.cnt with replay := satAdd k.cnt.replay k.replay.length } }
  let b2 := k.replay.foldl (fun b s => b.emit (.frame l s.lseq true s.frame)) b1
  b2.bucket (laneChan l) 2 k.replay.length

/-! ### Receiving -/

/-- a is newer than b modulo 2^32 (R427). -/
def newer (a b : BitVec 32) : Bool := decide (0 < (a - b).toInt)

/-- Whether MEPOCH passes the table of R428 against EP, PREV and the tick of adoption. -/
def epochOk (m ep prev : BitVec 32) (adoptAt now : Tick) (grace : Nat) : Bool :=
  m == ep || (m == prev && decide (Tick.diff now adoptAt ≤ grace))

def Block.dropEpoch (b : Block) (l : LaneRef) : Block := b.mCnt l fun c => { c with epochDrop := sat1 c.epochDrop }
def Block.dropProto (b : Block) (l : LaneRef) : Block := b.mCnt l fun c => { c with protoErr := sat1 c.protoErr }

/-- Sends a FENCE on a lane of the distributor, at most once per 2^20 ticks (R428, R430). -/
def Block.fenceOn (b : Block) (n : Nat) (f : FenceMsg) : Block :=
  let now := b.dist.time.tc64
  match (b.lane (.dist n)).link.fenceAt with
  | some t => if Tick.diff now t < 2 ^ 20 then b else
      (b.mLink (.dist n) fun k => { k with fenceAt := some now }).send (.dist n) true (.fence f)
  | none => (b.mLink (.dist n) fun k => { k with fenceAt := some now }).send (.dist n) true (.fence f)

/-- The latest report of a T1 port says ADMITTED (R403, R404). -/
def Block.portAdmitted (b : Block) (n : Nat) : Bool :=
  match smGet none b.dist.boot.reports n with
  | some (r, _) => r.admitted
  | none => false

/-- Entry L of ldi.map (R426), 0xFFFF where unmapped. -/
def Block.ldiMap (b : Block) (l : Nat) : Nat :=
  match smGet [] b.dist.cat.vals (catKey 0x7120 1) with
  | [] => 0xFFFF
  | v => leAt v (2 * l) 2

/-- The T2 and T1 indices of a distributor, and the PDA of a T1's port (R425). -/
def Block.t2idx (b : Block) : Nat := b.dist.cat.num 0x7110 3 0
def Block.t1idx (b : Block) : Nat := b.dist.cat.num 0x7110 4 0
def Block.portPda (b : Block) (n : Nat) : Nat := b.t2idx * 4096 + b.t1idx * 256 + n

/-- The lowest L of the map whose entry is the PDA, searching the entries from the list `ls`. -/
def findLdi (ls : Bytes) (pda : Nat) : Nat → Nat → Option Nat
  | 0, _ => none
  | n + 1, i =>
    match ls with
    | a :: c :: t => if a.toNat + 256 * c.toNat = pda then some i else findLdi t pda n (i + 1)
    | _ => none

/-- The LDI of a T1's port: the map, the latest report, or 0xFFFF, in that order (R426). -/
def Block.portLdi (b : Block) (n : Nat) : BitVec 16 :=
  let m := smGet [] b.dist.cat.vals (catKey 0x7120 1)
  match findLdi m (b.portPda n) 65535 0 with
  | some i => BitVec.ofNat 16 i
  | none => match smGet none b.dist.boot.reports n with
    | some (r, _) => r.ldi
    | none => 0xFFFF

/-- topo.ok (R402). -/
def Block.topoOk (b : Block) : Bool :=
  (b.dRole == 1 || b.dRole == 2 || b.dRole == 3) &&
    (b.dRole == 3 || uplinks.any fun n => (b.lane (.dist n)).reg.topoRes == 1)

/-- dist.ready (R399, R439, R440). A root has acquired once its TIME_VALID is set (R94). -/
def Block.distReady (b : Block) : Bool :=
  let d := b.dist
  d.boot.hmReady && d.mod.ocxoWarm && b.topoOk && !d.boot.draining && !d.boot.shadow &&
    (d.servo.state == .locked || (b.dRole == 3 && d.time.timeValid))

/-- The membership, admission, topology and readiness checks of a received frame of class `cls` (R399, R401, R402, R404,
R428-R430): whether it passes, and the block with its drop counted. FENCE is never judged by its epoch. -/
def Block.admitRx (b : Block) (l : LaneRef) (cls : Nat) (m : BitVec 32) (fence : Bool) : Bool × Block :=
  if cls = 0 then (true, b)
  else if !b.topoCarries l cls then (false, b.dropEpoch l)
  else match l with
  | .tsu _ =>
    let t := b.tsu.boot
    if !t.admitted then
      if cls ≤ 4 then (false, b.dropEpoch l) else (true, b)
    else if fence || epochOk m t.ep t.prev t.adoptAt b.tc (b.catNat .tsu 0x7131 3) then (true, b)
    else (false, b.dropEpoch l)
  | .dist n =>
    let d := b.dist.boot
    let port := b.dRole == 1 && n < 256
    let fenced := port && (smGet none d.fencedPorts n).isSome
    if fenced then
      if cls ≤ 4 then
        (false, (b.mDBoot fun d => { d with fenceDrop := sat1 d.fenceDrop }).fenceOn n
          ⟨d.ep, true, [b.portLdi n]⟩)
      else (true, b)
    else if port && !b.portAdmitted n then
      if cls ≤ 4 then (false, b.dropEpoch l) else (true, b)
    else if !fence && cls ≤ 4 && !b.distReady && !d.draining then
      (false, b.mDBoot fun d => { d with earlyDrop := sat1 d.earlyDrop })
    else if fence || epochOk m d.ep d.prev d.adoptAt b.dist.time.tc64 (b.catNat .dist 0x7131 3) then (true, b)
    else
      let b1 := b.dropEpoch l
      if newer m d.ep then (false, b1)
      else match d.stored with
        | some f => (false, b1.fenceOn n f)
        | none => (false, b1)

/-- Counts the symbols the decoder corrected (R45, R70, R444). -/
def Block.corrected (b : Block) (l : LaneRef) (k : Nat) : Block :=
  (b.mCnt l fun c => { c with fecCorr := satAdd c.fecCorr k }).bucket (laneChan l) 1 k

/-- Receipt of a frame of class `cls` that needs feature `feat`. The checks run in this order: FMT and CLASS (R40, R41),
LSEQ order for classes 1 to 6 (R46), the feature (R67), then membership, admission, topology and readiness. Where all
pass, `k` acts on the frame; a class 2 to 6 frame grants its credit back (R446). -/
def Block.rx (b : Block) (l : LaneRef) (h : Hdr) (cls feat : Nat) (fence : Bool) (k : Block → Block) : Block :=
  if !b.up l then b else
  let b := b.corrected l h.corr
  if h.fmt != 1 || 7 ≤ h.cls.toNat then b.dropProto l
  else if h.cls.toNat != cls then b
  else if cls ≠ 0 ∧ h.lseq ≠ (b.lane l).link.rxSeq then b
  else
    let b := if cls = 0 then b else
      b.mLink l fun x => { x with rxSeq := x.rxSeq + 1, rxDiscard := false, credRx := x.credRx.inc cls }
    if !(b.lane l).reg.featEff.getLsbD feat then b.dropProto l
    else
      let (ok, b) := b.admitRx l cls h.mepoch fence
      if ok then k b else b

end Sys2Proof.Machine
end

