-- ==== Sys2Proof/Machine/Operands.lean ====
section
/-! DEFINITION. Who makes an access and how it is checked: debug level, Gauntlet, power (R334-R342, R352, R358, R359),
and the merge of written data under the access codes (R10, R359). -/

namespace Sys2Proof.Machine

open Sys2Proof

/-- The attributes an access is performed with (R334). -/
structure Req where
  secure : Bool
  priv   : BitVec 2
  dbg    : Bool
  deriving DecidableEq, Repr

/-- The source code of R355 for an access: 0 register port, 8 debug. -/
def Req.src (q : Req) : BitVec 4 := if q.dbg then 8 else 0

/-- WORLD = 1 and PRIV = 3 (R337). -/
def Req.monitor (q : Req) : Bool := q.secure && q.priv == 3

def portReq (a : Access) : Req := ⟨a.secure, a.priv, false⟩

/-- A Gauntlet violation (R339): counted, and latched when VALID is 0. -/
def Block.violate (b : Block) (src : BitVec 4) (q : Req) (write : Bool) (addr : BitVec 64) : Block :=
  b.mGnt fun g =>
    let g := { g with vCnt := sat1 g.vCnt }
    if g.vValid then g else
      { g with vValid := true, vSrc := src, vWorld := q.secure, vPriv := q.priv, vDbg := q.dbg, vWrite := write,
               vGen := g.gen, vAddr := addr }

/-- Nibble b of TSU_GNT_BLK; nibble 13 reads 0x7 (R337). -/
def Gnt.nibble (g : Gnt) (b : Nat) : BitVec 4 := if b = 13 then 7 else fld g.blk (4 * b) 4

/-- The block check of R336, for offsets below 0x01_0000. -/
def Block.nibbleOk (b : Block) (q : Req) (addr : Nat) : Bool :=
  if addr < 0x10000 then
    let n := b.tsu.gnt.nibble (addr / 0x1000)
    !(n.getLsbD 2 && !q.secure) && decide ((n.setWidth 2).toNat ≤ q.priv.toNat)
  else true

/-- The domain of a target is on (R344, R352): AON for blocks 0xD and 0xE, MEM for the tagged-memory window, TIME for
the rest. -/
def Block.targetOn (b : Block) (addr : Nat) : Bool :=
  if 0x400000 ≤ addr then b.tsu.pwr.on.mem
  else if addr < 0x10000 ∧ (addr / 0x1000 = 13 ∨ addr / 0x1000 = 14) then true
  else b.tsu.pwr.on.time

/-- How a register-port access resolves (R352). -/
inductive AccRes where
  /-- The TSU is in reset: no response (R379, R352). -/
  | none
  | violation
  | power
  | ok
  deriving DecidableEq, Repr

/-- The checks in the order of R352 for an access whose level is settled; `res` is the check against the world of the
resource reached (R336). -/
def Block.check (b : Block) (q : Req) (addr : Nat) (res : Bool) : AccRes :=
  if b.tsu.boot.tsuRst then .none
  else if !b.nibbleOk q addr || !res then .violation
  else if !b.targetOn addr then .power
  else .ok

/-- An access met a powered-off target (R352). -/
def Block.powerErr (b : Block) (q : Req) : Block :=
  if q.dbg then b.mDbg fun d => { d with dbgPwr := true } else b.mPwr fun p => { p with pwrAcc := true }

/-- What a read returns of a register: all of it, bits 31 to 0, or bits 63 to 32 (R359). -/
def partOf (part : Nat) (v : BitVec 64) : BitVec 64 :=
  match part with
  | 1 => v &&& 0xFFFFFFFF
  | 2 => v >>> 32
  | _ => v

/-- Answers an access at the port that made it. -/
def Block.answer (b : Block) (dbg : Bool) (tag : Option Byte) (err : BitVec 2) (data : BitVec 64) : Block :=
  if dbg then b.emit (.dbg (tag.getD 0) err data) else b.emit (.reg tag err data)

/-- Performs `f` when the access passes, and answers at the register port (R359): ERR 0, or ERR 2 for a power error. -/
def Block.regCmd (b : Block) (q : Req) (addr : Nat) (res : Bool) (f : Block → Block) : Block :=
  match b.check q addr res with
  | .none => b
  | .violation => (b.violate q.src q true (BitVec.ofNat 64 addr)).emit (.reg none 0 0)
  | .power => (b.powerErr q).emit (.reg none 2 0)
  | .ok => (f b).emit (.reg none 0 0)

/-- How a debug access resolves by level (R342): refused, a violation, or performed with these attributes; `free` waives
the block check. -/
inductive DbgRes where
  | refused
  | violation
  | perform (q : Req) (free : Bool)
  deriving DecidableEq, Repr

/-- TSU_DBG_CTRL, TSU_DBG_CHAL and TSU_DBG_RESP (R342). -/
def isUnlockReg (addr : Nat) : Bool := decide (0xE100 ≤ addr ∧ addr < 0xE120)

/-- R342 and the matrix of R353. -/
def Block.dbgResolve (b : Block) (secure write : Bool) (addr : Nat) : DbgRes :=
  if isUnlockReg addr || (addr < 0x1000 && !write) then .perform ⟨secure, 2, true⟩ true
  else if b.tsu.dbg.level = 0 then .refused
  else
    let gnt := decide (0xD000 ≤ addr ∧ addr < 0xE000)
    if b.tsu.dbg.level = 1 then
      if secure || gnt then .violation else .perform ⟨false, 2, true⟩ false
    else if gnt then (if write then .refused else .perform ⟨secure, 2, true⟩ true)
    else .perform ⟨secure, 2, true⟩ false

/-- A debug action was refused (R342). -/
def Block.dbgRefused (b : Block) : Block := b.mDbg fun d => { d with dbgRef := true }

/-- An access of a row that the register port and the debug port share. -/
def Block.anyCmd (b : Block) (a : AnyAccess) (addr : Nat) (f : Req → Block → Block) : Block :=
  match a with
  | .port a => b.regCmd (portReq a) addr true (f (portReq a))
  | .debug s =>
    if b.tsu.boot.tsuRst then b else
    match b.dbgResolve s true addr with
    | .refused => b.dbgRefused.emit (.dbg 0 0 0)
    | .violation => (b.violate 8 ⟨s, 2, true⟩ true (BitVec.ofNat 64 addr)).emit (.dbg 0 0 0)
    | .perform q free =>
      if !free && !b.nibbleOk q addr then (b.violate 8 q true (BitVec.ofNat 64 addr)).emit (.dbg 0 0 0)
      else if !b.targetOn addr then (b.powerErr q).emit (.dbg 0 2 0)
      else (f q b).emit (.dbg 0 0 0)

/-- The written bits replace the register's, the others stay (R359). -/
def mrg (old data mask : BitVec 64) : BitVec 64 := (old &&& ~~~mask) ||| (data &&& mask)

/-- A write to a register that holds RW-S bits (R10): a non-secure access leaves the bits of `s` as they are, and is a
violation when it would change one. Answers the register's new bits and whether there was a violation. -/
def writeS (q : Req) (s old data mask : BitVec 64) : BitVec 64 × Bool :=
  let new := mrg old data mask
  if q.secure then (new, false) else ((new &&& ~~~s) ||| (old &&& s), (new ^^^ old) &&& s != 0)

/-- The world of a context. -/
def Block.ctxWorld (b : Block) (c : Nat) : Bool := (b.ctx c).world

/-- The world check of R336: a non-secure access does not reach a resource of the secure world. -/
def worldOk (q : Req) (resource : Bool) : Bool := q.secure || !resource

/-- A Catalogue requester's attributes, for a violation. -/
def catReqAttr (q : CatReq) : Req := ⟨q.secure, q.priv, false⟩

/-- TC64 operands are accepted only once TIME_VALID is 1 (R14). -/
def Block.timeOk (b : Block) : Bool := b.tsu.time.timeValid

end Sys2Proof.Machine
end

