-- ==== Sys2Proof/Machine/TimeBase.lean ====
section
/-! DEFINITION. Hall time: conversions (R21, R22), LOAD (R28), the vitrine (R36-R38), the promise (R23-R26) and the time
spine's calibration and tracking (R29-R32). -/

namespace Sys2Proof.Machine

open Sys2Proof

/-- Fine units of 2^-16 ns of an instant (R21). -/
def htFine (h : Ht96) : Nat := (h.sec.toNat * 1000000000 + h.ns.toNat) * 65536 + h.frac.toNat

/-- The instant of a count of fine units. -/
def fineHt (d : Nat) : Ht96 :=
  ⟨BitVec.ofNat 48 (d / 65536 / 1000000000), BitVec.ofNat 32 (d / 65536 % 1000000000), BitVec.ofNat 16 d⟩

/-- Ticks to fine units, rounded up (R21). -/
def ticksToFine (t : Nat) : Nat := (t * 262144 + 4) / 5

/-- Fine units to ticks, rounded down (R21). -/
def fineToTicks (d : Nat) : Nat := d * 5 / 262144

/-- HT96 of tick t (R21). -/
def tc64ToHt96 (epoch : Ht96) (t : Tick) : Ht96 := fineHt (htFine epoch + ticksToFine t.toNat)

/-- An HT96 value is malformed (R16). -/
def htBad (h : Ht96) : Bool := decide (999999999 < h.ns.toNat)

/-- TC64 of instant h; none where it is malformed, before the epoch, or 2^64 ticks or more after it (R16, R22). -/
def ht96ToTc64 (epoch h : Ht96) : Option Tick :=
  if htBad h ∨ htFine h < htFine epoch then none
  else
    let n := fineToTicks (htFine h - htFine epoch)
    if n < 2 ^ 64 then some (BitVec.ofNat 64 n) else none

/-! ### LOAD -/

/-- Sends LOAD with L 32 ticks ahead and V that many ticks plus `delta` on (R28). A pending LOAD is replaced; the jump
that it would have made is carried into V. -/
def Block.sendLoad (b : Block) (delta : BitVec 64) (step : Bool) : Block :=
  let l := b.tc + 32
  let base := match b.tsu.spine.load with
    | some (v0, l0) => v0 + (l - l0)
    | none => l
  let carried := step || (b.tsu.spine.load.isSome && b.tsu.spine.loadStep)
  (b.mSpine fun s => { s with load := some (base + delta, l), loadStep := carried }).emit (.load (base + delta) l)

/-! ### The vitrine -/

def Block.vit (b : Block) (secure : Bool) : VitBank := if secure then b.tsu.time.vitS else b.tsu.time.vitN
def Block.mVit (b : Block) (secure : Bool) (f : VitBank → VitBank) : Block :=
  b.mTime .tsu fun t => if secure then { t with vitS := f t.vitS } else { t with vitN := f t.vitN }

/-- One capture: every field of the bank, and SEQ (R37). -/
def Block.vitCap (b : Block) (secure : Bool) : Block :=
  let t := b.tsu.time
  let h : Ht96 := if t.timeValid then tc64ToHt96 t.epoch t.tc64 else ⟨0, 0, 0⟩
  b.mVit secure fun v => { v with
    seq := v.seq + 1, vTc64 := t.tc64, vSec := h.sec, vNs := h.ns, vFrac := h.frac,
    vOffA := satI 32 b.tsu.laneA.sync.est, vOffB := satI 32 b.tsu.laneB.sync.est, vFfo := b.tsu.servo.ffo,
    vSel := t.selB, vValid := t.timeValid, vPromise := t.promise }

/-- A capture for a tick that had passed (R36, R38). -/
def Block.vitPast (b : Block) (secure : Bool) : Block :=
  (b.vitCap secure).mVit secure fun v => { v with armAt := false, past := true }

/-- Setting ARM_AT, or writing AT; both are ignored while TIME_VALID is 0 (R14). -/
def Block.vitArm (b : Block) (secure : Bool) (w : VitArm) : Block :=
  if !b.timeOk then b else
  let b := match w with
    | .setArm => b.mVit secure fun v => { v with armAt := true }
    | .writeAt t => b.mVit secure fun v => { v with at_ := t }
  let v := b.vit secure
  if v.armAt && v.at_ != b.tc && b.due v.at_ then b.vitPast secure else b

/-- TC64 has reached AT (R38). -/
def Block.vitReached (b : Block) (secure : Bool) : Block :=
  let v := b.vit secure
  if v.armAt && b.due v.at_ then (b.vitCap secure).mVit secure fun v => { v with armAt := false } else b

/-- What an authorised step does to a bank: one capture where ON_DISC is set or the step jumped over AT, with PAST in
the latter case (R36, R38); `t0` is the count the tick would have had. -/
def Block.vitStep (b : Block) (t0 : Tick) (secure : Bool) : Block :=
  let v := b.vit secure
  let jumped := v.armAt && !Tick.le v.at_ t0 && b.due v.at_ && v.at_ != b.tc
  if jumped then b.vitPast secure
  else if v.onDisc then
    let b := b.vitCap secure
    if v.armAt && v.at_ == b.tc then b.mVit secure fun v => { v with armAt := false } else b
  else b

/-- VIT_CAPTURE: the write of CAPTURE captures into the bank of the access's world (R36). -/
def execVitCapture (a : Access) (s : State) : Host.Outcome State Fault Refusal :=
  s.run fun b => b.regCmd (portReq a) 0x1040 true fun b => b.vitCap a.secure

/-- VIT_ARM_AT (R38). -/
def execVitArmAt (a : Access) (w : VitArm) (s : State) : Host.Outcome State Fault Refusal :=
  s.run fun b => b.regCmd (portReq a) (match w with | .setArm => 0x1040 | .writeAt _ => 0x1048) true
    fun b => b.vitArm a.secure w

/-- VIT_AT_REACHED (R38). -/
def execVitAtReached (secure : Bool) (s : State) : Host.Outcome State Fault Refusal :=
  s.run fun b => b.vitReached secure

/-! ### The promise -/

/-- The lane of the selected plane. -/
def Block.selPlane (b : Block) : Plane := if b.tsu.time.selB then .B else .A
def Block.selLane (b : Block) : Lane := b.lane (.tsu b.selPlane)

/-- Every condition of R23 holds. -/
def Block.promiseHolds (b : Block) : Bool :=
  b.tsu.time.timeValid && b.tsu.spine.calDone && b.selLane.reg.refined && b.selLane.reg.pcalRx &&
    decide (750000000000 ≤ b.tsu.time.lockAge.toNat)

/-- PROMISE follows the conditions of R23. -/
def Block.promise (b : Block) : Block := b.mTime .tsu fun t => { t with promise := b.promiseHolds }

/-- The events of R26. -/
def Block.clearAge (b : Block) : Block := b.mTime .tsu fun t => { t with lockAge := 0, promise := false }

/-- LOCK_AGE_TEN_MINUTES: the last condition of R23 is met. -/
def execLockAgeTenMinutes (s : State) : Host.Outcome State Fault Refusal := s.run Block.promise

/-! ### Spine calibration and tracking -/

/-- A context is armed while it is ARMED, RUN or CLOSE (R114). -/
def CtxSt.isArmed : CtxSt → Bool
  | .armed | .run | .close => true
  | _ => false

/-- ARMED_ANY (R141). -/
def Block.armedAny (b : Block) : Bool := b.tsu.ctxs.any fun e => e.2.st.isArmed

/-- MAX_DEV: the largest absolute residual of the endpoints in effect (R35). -/
def Block.maxDev (b : Block) : Nat :=
  b.tsu.spine.eps.foldl (fun m e => if e.2.enAtCal then max m e.2.resid.toInt.natAbs else m) 0

/-- N_EN: the endpoints in effect. -/
def Block.nEn (b : Block) : Nat := (b.tsu.spine.eps.filter fun e => e.2.enAtCal).length

/-- A full calibration starts: EN takes effect, and after TIME_VALID the age and PROMISE clear (R26, R29, R35). -/
def Block.calBegin (b : Block) : Block :=
  let b := b.mSpine fun s => { s with
    calBusy := true, calDone := false
    eps := smMap {} (fun e => { e with enAtCal := e.en }) s.eps }
  if b.timeOk then b.clearAge else b

/-- The write of CAL_START (R29, R30, R348). -/
def Block.calStart (b : Block) : Block :=
  if b.tsu.spine.calBusy || b.tsu.pwr.st == .entering then b
  else if b.armedAny then b.mSpine fun s => { s with calFail := true }
  else (b.mSpine fun s => { s with calStart := true }).calBegin

/-- CAL_START (R29). -/
def execCalStart (a : Access) (s : State) : Host.Outcome State Fault Refusal :=
  s.run fun b => b.regCmd (portReq a) 0x1100 true Block.calStart

/-- Whether a measured endpoint passes: its echo was seen and its residual lies within ±8 TDC units (R29). -/
def epPass (m : EpMeas) : Bool := m.echo && decide (m.resid.toInt.natAbs ≤ 8)

/-- What calibration leaves at an endpoint in effect: the one-way delay is half the mean round trip, LAT_TICKS the whole
ticks that cover it, and TRIM the rest (R29). -/
def Endpoint.calibrate (e : Endpoint) (m : Option EpMeas) : Endpoint :=
  if !e.enAtCal then { e with calOk := false }
  else match m with
    | none => { e with calOk := false, fault := true, badRun := 0 }
    | some m =>
      let ow := m.roundTrip / 2
      let lat := (ow + 639) / 640
      { e with
        calOk := epPass m, fault := e.fault || !epPass m, badRun := 0, resid := m.resid,
        lat := BitVec.ofNat 4 lat, trim := BitVec.ofNat 10 (640 * lat - ow) }

/-- Full calibration ends (R29): LOAD is sent, CAL_DONE is set, and CAL_FAIL if any endpoint failed. -/
def Block.calEnd (b : Block) (ms : List EpMeas) : Block :=
  let b := b.mSpine fun s => { s with
    eps := (List.range 64).foldl (fun l n =>
      smMod {} l n fun e => e.calibrate (ms.find? fun m => m.ep.toNat == n)) s.eps }
  let failed := b.tsu.spine.eps.any fun e => e.2.enAtCal && !e.2.calOk
  let b := b.mSpine fun s => { s with
    calBusy := false, calStart := false, calDone := true, calFail := s.calFail || failed }
  b.sendLoad 0 false

/-- The endpoint that tracking measures next, in turn among those in effect that passed (R32). -/
def nextEp (eps : List (Nat × Endpoint)) (from_ : Nat) : Option Nat :=
  let ok := (eps.filter fun e => e.2.enAtCal && e.2.calOk).map Prod.fst
  match ok.find? fun n => from_ ≤ n with
  | some n => some n
  | none => ok.head?

/-- One tracking measurement: TRIM moves by at most one step towards zero residual, and four bad measurements in a row
set EP_FAULT (R32, R35). -/
def Endpoint.track (e : Endpoint) (echo : Bool) (resid : BitVec 8) : Endpoint :=
  let bad := !echo || decide (8 < resid.toInt.natAbs)
  let run := if bad then e.badRun + 1 else 0
  let e := { e with badRun := run, fault := e.fault || decide (4 ≤ run) }
  if !echo then e
  else
    let trim := if 0 < resid.toInt then (if e.trim = 0 then 0 else e.trim - 1)
      else if resid.toInt < 0 then (if e.trim = 639 then 639 else e.trim + 1) else e.trim
    { e with resid := resid, trim := trim }

/-- SPINE_TRACK_MEASURE (R32). -/
def Block.track (b : Block) (echo : Bool) (resid : BitVec 8) : Block :=
  if !b.tsu.spine.trackEn then b else
  match nextEp b.tsu.spine.eps b.tsu.spine.trackIdx with
  | none => b
  | some n => (b.mEp n fun e => e.track echo resid).mSpine fun s => { s with trackIdx := (n + 1) % 64 }

def execSpineTrackMeasure (echo : Bool) (resid : BitVec 8) (s : State) : Host.Outcome State Fault Refusal :=
  s.run fun b => b.track echo resid

end Sys2Proof.Machine
end

