-- ==== Sys2Proof/Machine/StrOut.lean ====
section
/-! DEFINITION. The output side of the stream port: bursts, admission, drops, credits and stopping (R296-R298, R302-R304),
and the demand for ENGINE (R346). -/

namespace Sys2Proof.Machine

open Sys2Proof

def Block.mStr (b : Block) (f : Str → Str) : Block := { b with tsu.str := f b.tsu.str }
def Block.strCh (b : Block) (n : Nat) : StrCh := smGet {} b.tsu.str.chs n
def Block.mStrCh (b : Block) (n : Nat) (f : StrCh → StrCh) : Block :=
  b.mStr fun s => { s with chs := smMod {} s.chs n f }
def Block.collSlot (b : Block) (n : Nat) : CollSlot := smGet {} b.tsu.coll.slots n
def Block.mColl (b : Block) (f : Coll → Coll) : Block := { b with tsu.coll := f b.tsu.coll }
def Block.mCollSlot (b : Block) (n : Nat) (f : CollSlot → CollSlot) : Block :=
  b.mColl fun s => { s with slots := smMod {} s.slots n f }
def Block.genSlot (b : Block) (n : Nat) : GenSlot := smGet {} b.tsu.gen.slots n
def Block.mGen (b : Block) (f : Gen → Gen) : Block := { b with tsu.gen := f b.tsu.gen }
def Block.mGenSlot (b : Block) (n : Nat) (f : GenSlot → GenSlot) : Block :=
  b.mGen fun s => { s with slots := smMod {} s.slots n f }

/-- ENGINE runs (R346). -/
def Block.engOn (b : Block) : Bool := b.tsu.pwr.on.engine

/-- A demand for ENGINE: its tick, and the request where ENGINE is stopped and the TSU is in service (R346). -/
def Block.demand (b : Block) : Block :=
  let now := b.tc
  b.mPwr fun p =>
    let p := { p with demandAt := now }
    if p.on.engine || p.st != .idle || (p.ack.engine && !p.req.engine) then { p with engWanted := p.engWanted || !p.on.engine }
    else { p with engWanted := true, req := { p.req with engine := true } }

/-- A record padded with zeros to whole beats (R296). -/
def pad64 (d : Bytes) : Bytes := d ++ List.replicate ((64 - d.length % 64) % 64) 0

/-- Beats of a burst. -/
def beatsOf (d : Bytes) : Nat := d.length / 64

/-- Beats held in the output buffer. -/
def Block.outUsed (b : Block) : Nat := b.tsu.str.outq.foldl (fun n e => n + (beatsOf e.1.data - e.2)) 0

/-- A producer learns that its burst was dropped (R216, R233). -/
def Block.outDropped (b : Block) (p : Producer) : Block :=
  match p with
  | .coll n => b.mCollSlot n.toNat fun s => { s with fin := { s.fin with flags := s.fin.flags ||| 0x100 } }
  | .gen n => b.mGenSlot n.toNat fun s => { s with outDrop := true }
  | _ => b

/-- A burst is dropped (R303, R304). -/
def Block.dropBurst (b : Block) (o : OutBurst) : Block :=
  (b.mStrCh o.ch fun c => { c with drop := true, dropCnt := sat1 c.dropCnt }).outDropped o.prod

/-- The channel takes bursts from producers: enabled and an output channel (R299, R304). -/
def StrCh.takes (c : StrCh) : Bool := c.st == .on && c.dir

/-- A producer presents a burst (R302, R304). -/
def Block.present (b : Block) (p : Producer) (ch : Nat) (data : Bytes) : Block :=
  let o : OutBurst := ⟨p, ch, pad64 data, b.tc⟩
  if (b.strCh ch).takes then (b.mStr fun s => { s with waits := s.waits ++ [o] }).demand
  else b.dropBurst o

/-- The first admitted burst of the next channel after `rr` that has one (R302). -/
def nextOut (q : List (OutBurst × Nat)) (rr : Nat) : Option Nat :=
  let chs := q.map fun e => e.1.ch
  match (List.range 64).map (fun i => (rr + 1 + i) % 64) |>.find? fun c => chs.contains c with
  | some c => some c
  | none => none

/-- Sends the next beat of the first burst of channel `c`: the beat, and the list with it marked as sent. -/
def sendBeat (c : Nat) : List (OutBurst × Nat) → Option (Beat × List (OutBurst × Nat))
  | [] => none
  | (o, k) :: t =>
    if o.ch = c then
      let eob := k + 1 == beatsOf o.data
      let beat : Beat := ⟨BitVec.ofNat 6 c, k == 0, eob, slice o.data (64 * k) 64, if eob then crc32c o.data else 0⟩
      some (beat, if eob then t else (o, k + 1) :: t)
    else (sendBeat c t).map fun r => (r.1, (o, k) :: r.2)

/-- Beats of channel c that are still to be sent of a burst in progress. -/
def Block.outBusy (b : Block) (c : Nat) : Bool := b.tsu.str.outq.any fun e => e.1.ch == c

/-- A channel whose shut-down has ended passes through OFF, and a held enable is applied then (R304, R406), outside
Cloakroom (R410). -/
def Block.strSettle (b : Block) (c : Nat) : Block :=
  if (b.strCh c).st == .stopping && !b.outBusy c then
    let go := (b.strCh c).enPend && !b.tsu.boot.inCloak
    b.mStrCh c fun x => { x with st := if go then .on else .off, enPend := x.enPend && !go }
  else b

/-- Sends beats while there are credits (R298, R302). -/
def Block.strPump : Nat → Block → Block
  | 0, b => b
  | n + 1, b =>
    if b.tsu.str.credits = 0 then b else
    match nextOut b.tsu.str.outq b.tsu.str.rr with
    | none => b
    | some c =>
      match sendBeat c b.tsu.str.outq with
      | none => b
      | some (beat, q) =>
        let b := (b.mStr fun s => { s with outq := q, credits := s.credits - 1, rr := c }).emit (.strBeat beat)
        Block.strPump n (b.strSettle c)

/-- Takes the first waiting burst of a producer. -/
def takeWait (p : Producer) : List OutBurst → Option (OutBurst × List OutBurst)
  | [] => none
  | o :: t => if o.prod = p then some (o, t) else (takeWait p t).map fun r => (r.1, o :: r.2)

/-- There is room for a burst (R302). -/
def Block.room (b : Block) (o : OutBurst) : Bool := decide (b.outUsed + beatsOf o.data ≤ 2048)

/-- The record producers never wait for room (R303). -/
def neverWaits : Producer → Bool
  | .step _ | .telemetry => true
  | _ => false

/-- The waiting burst of a producer is admitted where there is room; with none, it is dropped if its producer never waits
or if `drop`, and waits otherwise (R302, R303). -/
def Block.admitBurst (b : Block) (p : Producer) (drop : Bool) : Block :=
  match takeWait p b.tsu.str.waits with
  | none => b
  | some (o, rest) =>
    let b1 := b.mStr fun s => { s with waits := rest }
    if !(b.strCh o.ch).takes then b1.dropBurst o
    else if b.room o then Block.strPump 32 (b1.mStr fun s => { s with outq := s.outq ++ [(o, 0)] })
    else if drop || neverWaits p then b1.dropBurst o
    else b

/-- A producer has no burst left that waits or is being sent. -/
def Block.flushed (b : Block) (p : Producer) : Bool :=
  !(b.tsu.str.waits.any fun o => o.prod == p) && !(b.tsu.str.outq.any fun e => e.1.prod == p)

/-- An output channel stops: bursts that have not begun are dropped, and a burst in progress is finished (R304). -/
def Block.strStopOut (b : Block) (c : Nat) : Block :=
  let lost := (b.tsu.str.outq.filter fun e => e.1.ch == c && e.2 == 0).map Prod.fst ++
    b.tsu.str.waits.filter fun o => o.ch == c
  let b := b.mStr fun s => { s with
    outq := s.outq.filter fun e => !(e.1.ch == c && e.2 == 0)
    waits := s.waits.filter fun o => o.ch != c }
  b.each lost Block.dropBurst

/-- A credit comes back from the host: at most 32 are held (R298). -/
def Block.creditBack (b : Block) : Block :=
  Block.strPump 32 (b.mStr fun s => { s with credits := if s.credits < 32 then s.credits + 1 else 32 })

/-- STREAM_CREDIT_RETURN (R298). -/
def execStreamCreditReturn (s : State) : Host.Outcome State Fault Refusal := s.run Block.creditBack

/-- STR_CLK_START: STR_CLK runs, and with TSU_RST_N released the TSU raises STR_IN_CREDIT for 32 cycles (R365). -/
def Block.strClk (b : Block) : Block :=
  if b.tsu.str.clkOk || b.tsu.boot.tsuRst then b
  else (b.mStr fun s => { s with clkOk := true, hostCr := 32 }).emit (.strCredit 32)

def execStrClkStart (s : State) : Host.Outcome State Fault Refusal := s.run Block.strClk

end Sys2Proof.Machine
end

