-- ==== Sys2Proof/Machine/Waits.lean ====
section
/-! DEFINITION. Wait slots (R169-R175, R184): results, held reads, withdrawal, DIE semaphores (R159). -/

namespace Sys2Proof.Machine

open Sys2Proof

/-- The status codes of R171. -/
def stOK : Byte := 0x00
def stTIMEOUT : Byte := 0x01
def stREFUSED : Byte := 0x02
def stNOTREADY : Byte := 0x03
def stNOMAP : Byte := 0x04
def stDENIED : Byte := 0x05
def stECC : Byte := 0x06
def stCLEARED : Byte := 0x07
def stFENCED : Byte := 0x08
def stMISSED : Byte := 0x09
def stHALTED : Byte := 0x0A
def stUNSUPPORTED : Byte := 0x0B
def stNOPATH : Byte := 0x0C
def stBADOP : Byte := 0x0D

/-- What an operation shows in WS_WAIT and WS_RDATA (R184); a part that an operation has no value for is 0 (log entry 31). -/
structure WRes where
  status : Byte
  sat    : Bool := false
  ovr   : Bool := false
  full   : Bool := false
  w      : Bool := false
  count  : BitVec 20 := 0
  rdata  : BitVec 64 := 0
  deriving DecidableEq, Repr

/-- The index of wait slot k of context c. -/
def wsIdx (c k : Nat) : Nat := 8 * c + k

def Block.wslot (b : Block) (i : Nat) : WSlot := smGet {} b.tsu.ws i
def Block.mWslot (b : Block) (i : Nat) (f : WSlot → WSlot) : Block := b.mTsu fun t => { t with ws := smMod {} t.ws i f }

/-- WS_WAIT (R184). -/
def WSlot.waitWord (s : WSlot) : BitVec 64 :=
  put 0 s.status ||| putB 8 s.sat ||| putB 9 s.ovr ||| putB 10 s.full ||| putB 11 s.w ||| put 16 s.count

/-- Answers every read held on a wait slot with the same value (R169). -/
def Block.answerReads (b : Block) (i : Nat) : Block :=
  let v := (b.wslot i).waitWord
  let mine := b.tsu.heldReads.filter fun r => wsIdx r.c r.k == i
  (b.mTsu fun t => { t with heldReads := t.heldReads.filter fun r => wsIdx r.c r.k != i }).each mine
    fun b r => b.answer r.dbg (some r.tag) 0 (partOf r.part v)

/-- An operation completes: the slot leaves BUSY and its held reads return (R169). -/
def Block.wsDone (b : Block) (i : Nat) (r : WRes) : Block :=
  (b.mWslot i fun s => { s with
    status := r.status, sat := r.sat, ovr := r.ovr, full := r.full, w := r.w, count := r.count, rdata := r.rdata,
    op := none }).answerReads i

/-- A result that shows a status and what the arrival of an ARRIVE_WAIT showed (R150, R170). -/
def WOp.result (o : WOp) (st : Byte) : WRes :=
  { status := st, sat := o.arrived.1, ovr := o.arrived.2.1, count := o.arrived.2.2 }

/-- The wait slots with an outstanding operation that meets `p`, in issue order. -/
def Block.wsWhere (b : Block) (p : Nat → WOp → Bool) : List (Nat × WOp) :=
  let l := b.tsu.ws.filterMap fun e => match e.2.op with
    | some o => if p e.1 o then some (e.1, o) else none
    | none => none
  l.foldr (fun e acc =>
    (acc.takeWhile fun x => x.2.seq < e.2.seq) ++ e :: (acc.dropWhile fun x => x.2.seq < e.2.seq)) []

/-! ### Barrier slots -/

def Block.mBar (b : Block) (f : BarSt → BarSt) : Block := { b with tsu.bar := f b.tsu.bar }
def Block.slot (b : Block) (n : Nat) : Slot := smGet {} b.tsu.bar.slots n
def Block.mSlot (b : Block) (n : Nat) (f : Slot → Slot) : Block :=
  b.mBar fun x => { x with slots := smMod {} x.slots n f }

/-- The physical slot that a VBID of a context names (R146). -/
def Block.xlat (b : Block) (c vbid : Nat) : Option Nat :=
  let e := smGet (false, 0#12) b.tsu.bar.xlat (1024 * c + vbid)
  if e.1 then some e.2.toNat else none

/-- Some translation entry maps the slot (R145, R181). -/
def Block.mapped (b : Block) (n : Nat) : Bool := b.tsu.bar.xlat.any fun e => e.2.1 && e.2.2.toNat == n

/-- EXPECT, where 0 acts as 1 (R147). -/
def Slot.need (s : Slot) : Nat := if s.expect.toNat = 0 then 1 else s.expect.toNat
def Slot.count (s : Slot) (ph : Bool) : Nat := if ph then s.c1 else s.c0
def Slot.setCount (s : Slot) (ph : Bool) (n : Nat) : Slot := if ph then { s with c1 := n } else { s with c0 := n }
def Slot.void (s : Slot) (ph : Bool) : Bool := if ph then s.void1 else s.void0

/-- Every count saturates here (R147). -/
def cntMax : Nat := 1048575

/-- The plane of a proxy semaphore (R160). -/
def Slot.plane (s : Slot) : Plane := if s.home then .B else .A

/-- The CSF of a slot's frames (R154). -/
def Slot.addr (s : Slot) (sense : Bool) : BarAddr := ⟨s.hbid, sense, s.scope, s.group.setWidth 16⟩

/-- PDA and TAG of a wait slot's request on a lane (R154, R265). -/
def Block.myPda (b : Block) (p : Plane) : BitVec 16 := (b.lane (.tsu p)).reg.peerPos
def wsTag (i : Nat) : BitVec 16 := BitVec.ofNat 16 i

/-! ### DIE semaphores (R159) -/

/-- Serves waiting TAKEs strictly in issue order. -/
def Block.semServeList (n : Nat) : List (Nat × WOp) → Block → Block
  | [], b => b
  | (i, o) :: t, b =>
    let want := (o.wdata.setWidth 20).toNat
    let have_ := (b.slot n).c0
    if want ≤ have_ then
      Block.semServeList n t ((b.mSlot n fun s => { s with c0 := have_ - want }).wsDone i
        { status := stOK, count := BitVec.ofNat 20 (have_ - want) })
    else b

/-- The TAKEs that wait on a DIE semaphore. -/
def Block.takes (b : Block) (n : Nat) : List (Nat × WOp) :=
  b.wsWhere fun _ o => o.slot == some n && o.space == 2 && o.op == 0xC && !o.held

def Block.semServe (b : Block) (n : Nat) : Block :=
  let s := b.slot n
  if s.kind = 2 ∧ s.scope = 0 then Block.semServeList n (b.takes n) b else b

/-! ### Withdrawal -/

/-- What becomes of a hall-memory operation whose wait is withdrawn (R261, R273). -/
inductive HallEnd where
  /-- HCANCEL is sent, and a response is an orphan. -/
  | cancel
  /-- No HCANCEL, and later responses are dropped: the fence. -/
  | fence
  deriving DecidableEq, Repr

/-- The lane of a plane's hall request. -/
def Block.hallGone (b : Block) (tag : BitVec 16) (e : HallEnd) : Block :=
  match b.tsu.hall.out.find? fun h => h.tag == tag with
  | none => b
  | some h =>
    let b := b.mTsu fun t => { t with hall := { t.hall with out := t.hall.out.filter fun x => x.tag != tag } }
    match e with
    | .fence => b
    | .cancel =>
      (b.mTsu fun t => { t with hall := { t.hall with gone := t.hall.gone ++ [h] } }).send (.tsu h.plane) h.secure
        (.hcancel h.ha (b.myPda h.plane) tag)

/-- Withdraws the outstanding operation of a wait slot without effect. `cancel`: a TAKE above DIE sends CANCEL (R160,
R172, R175). -/
def Block.wsWithdraw (b : Block) (i : Nat) (st : Byte) (arr : Bool) (cancel : Bool) (e : HallEnd) : Block :=
  match (b.wslot i).op with
  | none => b
  | some o =>
    let r : WRes := if arr then o.result st else { status := st }
    let b := (b.wsDone i r).mTsu fun t => { t with held := t.held.filter fun x => x != .waitOp (i / 8) (i % 8) }
    if o.space = 1 then b.hallGone (wsTag i) e
    else if o.space = 2 ∧ o.op = 0xC ∧ !o.held then
      match o.slot with
      | none => b
      | some n =>
        let s := b.slot n
        if s.scope = 0 then b.semServe n
        else if cancel then b.send (.tsu s.plane) s.world (.cancel (s.addr false) (b.myPda s.plane) (wsTag i))
        else b
    else b

/-- Withdraws every outstanding operation of a context (R172, R173, R175). -/
def Block.wsWithdrawCtx (b : Block) (c : Nat) (st : Byte) (cancel : Bool) (e : HallEnd) : Block :=
  b.each (List.range 8) fun b k => b.wsWithdraw (wsIdx c k) st false cancel e

/-- Completes the waits that the next launch of a context releases (R158). -/
def Block.releaseAwait (b : Block) (c : Nat) (st : Byte) : Block :=
  b.each (b.wsWhere fun _ o => o.await == some c) fun b x => b.wsDone x.1 (x.2.result st)

/-- Completes the waits bound to a phase of a slot OK (R148). -/
def Block.releasePhase (b : Block) (n : Nat) (ph : Bool) : Block :=
  b.each (b.wsWhere fun _ o => o.slot == some n && o.phase == some ph && o.await.isNone && !o.held)
    fun b x => b.wsDone x.1 (x.2.result stOK)

/-- Binds the waits of a closing barrier's phase to the next launch (R158): a context's own to its launch, another's to
that of `c`. -/
def Block.bindPhase (b : Block) (n : Nat) (ph : Bool) (cs : List Nat) (c : Nat) : Block :=
  b.each (b.wsWhere fun _ o => o.slot == some n && o.phase == some ph && o.await.isNone && !o.held) fun b x =>
    let own := x.1 / 8
    b.mWslot x.1 fun s => { s with op := some { x.2 with await := some (if cs.contains own then own else c) } }

/-- A time-out (R170): the operation is withdrawn without effect, an arrival stays counted. An operation of hall memory
has its time-out at the owner (R259). -/
def Block.waitTimeout (b : Block) (i : Nat) : Block :=
  match (b.wslot i).op with
  | none => b
  | some o => match o.expiry with
    | none => b
    | some t => if b.due t then b.wsWithdraw i stTIMEOUT true true .cancel else b

/-- WAIT_TIMEOUT (R170). -/
def execWaitTimeout (c : Ctx6) (k : BitVec 3) (s : State) : Host.Outcome State Fault Refusal :=
  s.run fun b => b.waitTimeout (wsIdx c.toNat k.toNat)

/-- The address of a wait slot's register in the window (R143, R184). -/
def wsReg (c k off : Nat) : Nat := 0x100000 + 0x400 * c + 0x40 * k + off

/-- A read of WS_WAIT: held while BUSY, answered at once otherwise (R169); not taken while the register port holds 240
reads (R360). -/
def Block.readWait (b : Block) (q : Req) (c k part : Nat) (tag : BitVec 8) : Block :=
  if !q.dbg && decide (240 ≤ (b.tsu.heldReads.filter fun r => !r.dbg).length) then b else
  match b.check q (wsReg c k 0x18) (worldOk q (b.ctxWorld c)) with
  | .none => b
  | .violation => (b.violate q.src q false (BitVec.ofNat 64 (wsReg c k 0x18))).answer q.dbg (some tag) 0 0
  | .power => (b.powerErr q).answer q.dbg (some tag) 2 0
  | .ok =>
    if (b.wslot (wsIdx c k)).op.isSome then b.mTsu fun t => { t with heldReads := t.heldReads ++ [⟨tag, q.dbg, part, c, k⟩] }
    else b.answer q.dbg (some tag) 0 (partOf part (b.wslot (wsIdx c k)).waitWord)

/-- WS_WAIT_READ (R169). -/
def execWsWaitRead (a : Access) (c : Ctx6) (k : BitVec 3) (tag : BitVec 8) (s : State) :
    Host.Outcome State Fault Refusal :=
  s.run fun b => b.readWait (portReq a) c.toNat k.toNat 0 tag

/-- Takes the first element that meets `p` out of a list. -/
def dropFirst {α : Type} (p : α → Bool) : List α → List α
  | [] => []
  | x :: t => if p x then t else x :: dropFirst p t

/-- The held read with this tag is answered with ERR 3; its operation goes on (R360). -/
def Block.regAbort (b : Block) (tag : BitVec 8) : Block :=
  if b.tsu.heldReads.any fun r => !r.dbg && r.tag == tag then
    (b.mTsu fun t => { t with heldReads := dropFirst (fun r => !r.dbg && r.tag == tag) t.heldReads }).emit (.reg (some tag) 3 0)
  else b

/-- REG_ABORT (R360). -/
def execRegAbort (tag : BitVec 8) (s : State) : Host.Outcome State Fault Refusal := s.run fun b => b.regAbort tag

end Sys2Proof.Machine
end

