-- ==== Sys2Proof/Machine/Tagged.lean ====
section
/-! DEFINITION. Tagged words (R161-R168): the operations on one word, the checks of world and ECC, and the examination of
the operations that wait. Hall words use the same operations (R253). -/

namespace Sys2Proof.Machine

open Sys2Proof

/-- FILL_COUNT of n on a word (R167): the new word, SAT and COUNT. -/
def fillCount (n : BitVec 20) (rw : Bool) (w : TWord) : TWord × Bool × BitVec 20 :=
  let c := (fld w.data 0 20).toNat + n.toNat
  let sat := decide (cntMax < c)
  let c := if cntMax < c then cntMax else c
  let target := (fld w.data 32 20).toNat
  let fills := !w.fe && decide (target ≤ c)
  let c := BitVec.ofNat 20 (if fills then c - target else c)
  ({ w with data := (w.data &&& ~~~0xFFFFF#64) ||| put 0 c, fe := w.fe || fills, w := rw }, sat, c)

/-- An operation on a readable word (R166, R167): the result and the word it leaves, or none where it waits. `waits` is
false under NOWAIT and for every source other than a wait slot; `rw` is the region's world. -/
def wordOp (op : Nat) (data : BitVec 64) (waits rw : Bool) (w : TWord) : Option (WRes × TWord) :=
  let show_ (st : Byte) (x : TWord) : WRes := { status := st, full := x.fe, w := x.w }
  match op with
  | 0 => if w.fe then
      let x := { w with fe := false }
      some ({ show_ stOK x with rdata := w.data }, x)
    else if waits then none else some (show_ stNOTREADY w, w)
  | 1 => if w.fe then some ({ show_ stOK w with rdata := w.data }, w)
    else if waits then none else some (show_ stNOTREADY w, w)
  | 2 => if w.fe then (if waits then none else some (show_ stREFUSED w, w))
    else
      let x := { w with data := data, fe := true, w := rw }
      some (show_ stOK x, x)
  | 3 =>
    let x := { w with data := data, fe := true, w := rw }
    some (show_ stOK x, x)
  | 4 =>
    let r := fillCount (data.setWidth 20) rw w
    some ({ show_ stOK r.1 with sat := r.2.1, count := r.2.2, rdata := r.1.data }, r.1)
  | 5 => some ({ show_ stOK w with rdata := w.data }, w)
  | _ => some ({ status := stBADOP }, w)

/-- The operation changes its word (R355 WRITE). -/
def opWrites (op : Nat) : Bool := op == 0 || op == 2 || op == 3 || op == 4

/-! ### Tagged memory -/

def Block.mTm (b : Block) (f : TagMem → TagMem) : Block := b.mTsu fun t => { t with tm := f t.tm }

/-- The region of a word (R161). -/
def regionOf (n : Nat) : Nat := n / 8192

/-- What an unlisted word reads as: DATA 0, EMPTY, W as its region was last initialised (R162, R163). -/
def TagMem.dflt (m : TagMem) (n : Nat) : TWord := ⟨0, false, m.fillW.getLsbD (regionOf n), .good⟩

def TagMem.get (m : TagMem) (n : Nat) : TWord := smGet (m.dflt n) m.words n
def TagMem.set (m : TagMem) (n : Nat) (w : TWord) : TagMem := { m with words := smPut (m.dflt n) m.words n w }
/-- Tagged memory is in its canonical form: word numbers rise strictly and no listed word equals what an unlisted one reads as. -/
def TagMem.wf (m : TagMem) : Bool := smWf m.dflt m.words

/-- The world of a region (R335). -/
def Block.regionWorld (b : Block) (n : Nat) : Bool := b.tsu.gnt.tmw.getLsbD (regionOf n)

/-- The address a violation latches: the window offset for the register port, else the word index (R355). -/
def wordVaddr (src : BitVec 4) (n : Nat) : BitVec 64 :=
  if src = 0 ∨ src = 8 then BitVec.ofNat 64 (0x400000 + 8 * n) else BitVec.ofNat 64 n

/-- An operation met an uncorrectable word (R164). -/
def Block.wordUe (b : Block) (n : Nat) : Block :=
  b.mTm fun m => { m with ueCnt := sat1 m.ueCnt, ue := true, ueWord := BitVec.ofNat 19 n, ueValid := true }

/-- A single-bit error is corrected, written back and counted (R164). -/
def Block.wordFix (b : Block) (n : Nat) : Block :=
  let w := b.tsu.tm.get n
  if w.ecc = .ce then b.mTm fun m => { m.set n { w with ecc := .good } with ce := true, ceCnt := sat1 m.ceCnt } else b

/-- One attempt of an operation on a word: the region's world (R336), the check bits (R164), the word's W (R163), then the
operation. None: it waits. -/
def Block.wordTry (b : Block) (q : Req) (src : BitVec 4) (n op : Nat) (data : BitVec 64) (waits : Bool) :
    Option WRes × Block :=
  if !q.secure && b.regionWorld n then
    (some { status := stDENIED }, b.violate src q (opWrites op) (wordVaddr src n))
  else
    let w0 := b.tsu.tm.get n
    if w0.ecc = .ue ∨ w0.ecc = .ueHard then (some { status := stECC }, b.wordUe n)
    else
      let b := b.wordFix n
      let w := b.tsu.tm.get n
      if !q.secure && w.w then (some { status := stDENIED }, b.violate src q (opWrites op) (wordVaddr src n))
      else match wordOp op data waits (b.regionWorld n) w with
        | none => (none, b)
        | some (r, x) => (some r, if x = w then b else b.mTm fun m => m.set n x)

/-- The attributes of an engine's access for a context: the context's world and PRIV 1 (R334). -/
def Block.ctxReq (b : Block) (c : Nat) : Req := ⟨b.ctxWorld c, 1, false⟩

/-- The operations that wait on a word, in issue order. -/
def Block.wordWaiters (b : Block) (n : Nat) : List (Nat × WOp) :=
  b.wsWhere fun _ o => o.space == 0 && !o.held && o.addr.toNat % 524288 == n

/-- Examines the operations that wait on a word, each against the state left by the one before it (R168). -/
def Block.examine (b : Block) (n : Nat) : Block :=
  b.each (b.wordWaiters n) fun b x =>
    let r := b.wordTry (b.ctxReq (x.1 / 8)) 1 n x.2.op.toNat x.2.wdata true
    match r.1 with
    | none => r.2
    | some res => r.2.wsDone x.1 res

/-- An operation that does not wait, from any source: its result, with the word's waiters examined after a change. -/
def Block.wordNow (b : Block) (q : Req) (src : BitVec 4) (n op : Nat) (data : BitVec 64) : WRes × Block :=
  let r := b.wordTry q src n op data false
  let res := r.1.getD { status := stREFUSED }
  (res, if r.2.tsu.tm.get n = b.tsu.tm.get n then r.2 else r.2.examine n)

/-- An operation of a wait slot on a local word (R166, R169). -/
def Block.wordSlot (b : Block) (i : Nat) (o : WOp) : Block :=
  let n := o.addr.toNat % 524288
  let r := b.wordTry (b.ctxReq (i / 8)) 1 n o.op.toNat o.wdata (!o.flags.nowait)
  match r.1 with
  | none => r.2
  | some res =>
    let b' := r.2.wsDone i res
    if r.2.tsu.tm.get n = b.tsu.tm.get n then b' else b'.examine n

/-- Operations on a word are held now: before INIT_DONE, or while its region is scrubbed (R162, R163, R165). -/
def Block.wordHeld (b : Block) (n : Nat) : Bool :=
  !b.tsu.tm.initDone || b.tsu.tm.scrub == some (BitVec.ofNat 6 (regionOf n))

/-- A plain read of a word whatever its FE (R217, R248): its data, or the status that forbids it. -/
def Block.wordRead (b : Block) (q : Req) (src : BitVec 4) (n : Nat) : (Byte × BitVec 64) × Block :=
  let r := b.wordTry q src n 5 0 false
  match r.1 with
  | some res => ((res.status, res.rdata), r.2)
  | none => ((stDENIED, 0), r.2)

/-- Sets every word of a region to DATA 0, EMPTY, with W equal to the region's world and fresh check bits; cells that have
failed stay so (R163, R164). -/
def TagMem.clearRegion (m : TagMem) (r : Nat) (rw : Bool) : TagMem :=
  let mine := m.words.filter fun e => regionOf e.1 == r && e.2.ecc == .ueHard
  let m := { m with
    words := m.words.filter fun e => regionOf e.1 != r
    fillW := setBit64 m.fillW r rw }
  mine.foldl (fun m e => m.set e.1 ⟨0, false, rw, .ueHard⟩) m

end Sys2Proof.Machine
end

