-- ==== Sys2Proof/Machine/Launch.lean ====
section
/-! DEFINITION. The launch rule (R113-R140): step fields and STEP_GO, the brim, the launch decision, launches, counting
intervals and step records, HALT, accession records (R242, R243) and replay (R248, R249). -/

namespace Sys2Proof.Machine

open Sys2Proof

/-! ### Step fields and STEP_GO -/

/-- LKEY (R116). -/
def lkeyOf (mode : BitVec 2) (t0 : Tick) (period : BitVec 32) (tat : Tick) : BitVec 32 :=
  crc32c (toLE 1 mode.toNat ++ toLE 8 t0.toNat ++ toLE 4 period.toNat ++ toLE 8 tat.toNat)

/-- The step fields of two arrivals, combined (R116). -/
def combineFields (x y : StepFields) : StepFields :=
  { step := x.step, attempt := x.attempt, lkey := x.lkey
    mixed := x.mixed || y.mixed || x.step != y.step || x.attempt != y.attempt || x.lkey != y.lkey
    stamp := if Tick.le x.stamp y.stamp then y.stamp else x.stamp
    brim := if x.brim.toNat ≤ y.brim.toNat then y.brim else x.brim
    missed := x.missed || y.missed, voidreq := x.voidreq || y.voidreq
    swapRdy := x.swapRdy && y.swapRdy, swapAny := x.swapAny || y.swapAny
    fseen := x.fseen || y.fseen, nmiss := x.nmiss + y.nmiss }

/-- STEP_GO of the combined fields (R117, R118). -/
def stepGoOf (f : StepFields) : StepGo :=
  { step := f.step, attempt := f.attempt, brim := f.brim, lkey := f.lkey, stamp := f.stamp
    e := f.stamp + f.brim.setWidth 64, nmiss := f.nmiss, fenceSeen := f.fseen
    swap := f.swapRdy, swapDefer := f.swapAny && !f.swapRdy
    outcome := if f.mixed then 2 else if f.missed || f.voidreq || f.fseen then 1 else 0 }

/-- Two STEP_GO frames agree; with FENCE_SEEN, STAMP, BRIM, E and NMISS are not compared (R117, R119). -/
def sameGo (x y : StepGo) : Bool :=
  if x.fenceSeen && y.fenceSeen then { x with stamp := y.stamp, brim := y.brim, e := y.e, nmiss := y.nmiss } == y
  else x == y

/-! ### The brim (R123) -/

/-- WIN_LOG within 3 to 10 (R143). -/
def CtxReg.winLen (r : CtxReg) : Nat := 2 ^ (if r.winLog.toNat < 3 then 3 else if 10 < r.winLog.toNat then 10 else r.winLog.toNat)

/-- The current brim. -/
def Ctx.brimNow (x : Ctx) : BitVec 16 := if x.reg.fix || x.window.isEmpty then x.reg.brimInit else x.reg.brim

/-- A delivery of latency `l` enters the window, and the brim follows it. -/
def Ctx.deliverBrim (x : Ctx) (l : Nat) : Ctx :=
  let win := (l :: x.window).take 1024
  let m := (win.take x.reg.winLen).foldl max 0 + x.reg.margin.toNat
  let v := max m x.reg.brimMin.toNat
  let hi := x.reg.brimMax.toNat
  { x with
    window := win
    reg := { x.reg with
      brim := BitVec.ofNat 16 (min v hi)
      flags := { x.reg.flags with brimSat := x.reg.flags.brimSat || (decide (hi < v) && !x.reg.fix) } } }

/-! ### Counting intervals (R129-R132) -/

/-- The regions of a context, lowest first. -/
def CtxReg.regionList (r : CtxReg) : List Nat := (List.range 64).filter fun n => r.regions.getLsbD n

/-- Frames sent again so far on either lane. -/
def Block.resent (b : Block) : Nat := b.tsu.laneA.link.resent + b.tsu.laneB.link.resent

def clsCode : LaunchCls → Nat
  | .onTime => 0 | .late => 1 | .missed => 2

/-- The step record (R132). -/
def stepRecord (i : Interval) (retry ref : BitVec 16) (sum : BitVec 32) : Bytes :=
  toLE 8 i.step.toNat ++ [i.attempt, BitVec.ofNat 8 (clsCode i.cls), i.outcome.setWidth 8,
    ((bit i.swap) ++ (bit i.slip)).setWidth 8] ++
  toLE 2 i.lateness.toNat ++ toLE 2 i.brim.toNat ++ toLE 8 i.t.toNat ++ toLE 2 retry.toNat ++ toLE 2 ref.toNat ++
  toLE 4 sum.toNat

/-- The cells of the regions return their debt and clear it; `snap`: the TSU asks for it by SNAP (R130, R372). -/
def Block.takeDebt (b : Block) (rs : List Nat) (snap : Bool) : Block :=
  b.each rs fun b n =>
    let b := b.mEp n fun e => { e with debt := e.cell, cell := 0 }
    if snap then b.emit (.snap n) else b

/-- The region with the largest debt, and the sum, saturating. -/
def Block.debtSum (b : Block) (rs : List Nat) : BitVec 32 × Nat :=
  let r := rs.foldl (fun (acc : Nat × Nat × Nat) n =>
    let d := (b.ep n).debt.toNat
    (acc.1 + d, if acc.2.1 < d then (d, n) else acc.2)) (0, 0, rs.headD 0)
  (satAdd (0 : BitVec 32) r.1, r.2.2)

/-- The counting interval of a context ends: its counts are latched, and its step record goes out with TEL_EN = 1
(R129, R132). `restart`: a launch of the context ends it. -/
def Block.endInterval (b : Block) (c : Nat) (restart : Bool) : Block :=
  match (b.ctx c).interval with
  | none => b
  | some i =>
    let rs := (b.ctx c).reg.regionList
    let b := b.takeDebt rs (!restart)
    let (sum, mx) := b.debtSum rs
    let retry := satAdd (0 : BitVec 16) (b.resent - i.resent0)
    let b := b.mCtx c fun x => { x with
      interval := none
      reg := { x.reg with retry := retry, ref := i.ref, strSum := sum, strMaxReg := BitVec.ofNat 6 mx } }
    let x := b.ctx c
    if x.reg.telEn then b.present (.step (BitVec.ofNat 6 c)) x.reg.telCh.toNat (stepRecord i retry i.ref sum) else b

/-- A counting interval begins at a launch, or at D of a MISSED one (R129). -/
def Block.beginInterval (b : Block) (c : Nat) (s : Sched) (swap : Bool) (lateness : BitVec 16) : Block :=
  b.mCtx c fun x =>
    let i : Interval := { step := x.reg.step, attempt := x.reg.attempt, cls := s.cls, slip := s.slip, swap := swap,
                          lateness := lateness, brim := s.brim, t := s.t, resent0 := b.resent, ref := 0, outcome := 3 }
    { x with interval := some i }

/-! ### HALT -/

/-- A context enters HALT (R114): no launch, its waits are withdrawn, and those that its launch would release complete
HALTED (R158, R173). -/
def Block.halt (b : Block) (c : Nat) (why : CtxFlags → CtxFlags) (fenced : Bool) : Block :=
  let rs := (b.ctx c).reg.regionList
  let pend := (b.ctx c).sched.isSome
  let b := b.endInterval c false
  let b := b.mCtx c fun x => { x with
    st := .halt, sched := none, heldGo := none, missedWin := false
    reg := { x.reg with flags := why x.reg.flags } }
  let b := if pend then b.each rs fun b n => b.mEp n fun e => { e with quiesce := false } else b
  (b.wsWithdrawCtx c (if fenced then stFENCED else stHALTED) false (if fenced then .fence else .cancel)).releaseAwait c
    stHALTED

/-! ### Replay (R248, R249) -/

/-- Entry `step` - START_STEP of the replay table, shifted; none where it is unreadable. Past COUNT no entry exists and the
value is free (log entry 3). -/
def Block.rplEntry (b : Block) (c : Nat) (step : BitVec 64) : Option Tick × Block :=
  let u := (b.ctx c).run
  let idx := (step - u.rplStart).toNat
  if u.rplCount.toNat ≤ idx then
    let (v, b) := b.draw
    (some (u.rplShift + v), b)
  else
    let (r, b) := b.wordRead (b.ctxReq c) 1 ((u.rplBase.toNat + idx) % 524288)
    if r.1 = stOK then
      (some (u.rplShift + r.2), b.mCtxRun c fun u => { u with rplIdx := BitVec.ofNat 20 (idx + 1) })
    else (none, b)

/-- An unreadable entry halts the context (R249). -/
def Block.rplFail (b : Block) (c : Nat) : Block :=
  (b.mCtxRun c fun u => { u with rplErr := true }).halt c id false

/-! ### Arrival at the closing barrier (R116, R139, R157) -/

/-- The swap is ready (R139). -/
def CtxReg.swapReady (r : CtxReg) : Bool := r.swapArm && decide (r.swapStep.toNat ≤ (r.step + 1).toNat)

/-- A context's arrival: it enters CLOSE, and its step fields. None where a replay entry cannot be read. -/
def Block.closeCtx (b : Block) (c : Nat) (stamp : Tick) (missed void : Bool) : Option StepFields × Block :=
  let x := b.ctx c
  let (tat, b) := if x.run.rplEn then b.rplEntry c (x.reg.step + 1) else (some x.reg.tat, b)
  match tat with
  | none => (none, b.rplFail c)
  | some t =>
    let key := lkeyOf x.reg.mode x.reg.t0 x.reg.period t
    (some { step := x.reg.step, attempt := x.reg.attempt, missed := missed, voidreq := void, mixed := false,
            swapRdy := x.reg.swapReady, swapAny := x.reg.swapReady, fseen := false, brim := x.brimNow, lkey := key,
            stamp := stamp, nmiss := if missed then 1 else 0 },
      b.mCtx c fun x => { x with st := .close, lkey := key, rplTat := t })

/-- The arrivals of the contexts that close at one slot, combined. -/
def Block.closeAll (b : Block) (cs : List Nat) (stamp : Tick) (missed void : Bool) : Option StepFields × Block :=
  cs.foldl (fun acc c =>
    let (f, b) := acc.2.closeCtx c stamp missed void
    match acc.1, f with
    | some x, some y => (some (combineFields x y), b)
    | none, f => (f, b)
    | f, none => (f, b)) (none, b)

/-! ### The launch decision (R120) -/

/-- The launch tick of a mode after E (R120). -/
def launchTick (mode : BitVec 2) (t0 : Tick) (p : Nat) (tat e : Tick) : Tick :=
  if mode = 0 then
    if Tick.diff e t0 ≤ 0 then t0 else t0 + BitVec.ofNat 64 (((e - t0).toNat + p - 1) / p * p)
  else if mode = 1 then e
  else if 0 < Tick.diff tat e then tat else e

/-- Classes a launch at T by its delivery tick, 32 ticks from now, and schedules it: the context enters RUN (R120). -/
def Block.schedule (b : Block) (c : Nat) (t : Tick) (ok swap slip : Bool) (brim : BitVec 16) : Block :=
  let d := b.tc + 32
  b.mCtx c fun x =>
    let late := Tick.diff d t
    let cls : LaunchCls := if late ≤ 0 then .onTime else if late ≤ x.reg.slack.toNat then .late else .missed
    { x with
      st := .run
      sched := some ⟨t, if late ≤ 0 then t else d, cls, ok, swap, slip, brim, false⟩
      reg := { x.reg with lastT := t, lastD := d } }

/-- A context in CLOSE acts on STEP_GO, received now (R119, R120, R123, R128, R139). -/
def Block.deliver (b : Block) (c : Nat) (g : StepGo) : Block :=
  let l := (Tick.diff (b.tc + 32) g.stamp).toNat
  let b := b.mCtx c fun x => { x.deliverBrim l with firstDone := true, heldGo := none }
  let x := b.ctx c
  let mark (o : BitVec 2) (b : Block) := b.mCtx c fun x => { x with
    interval := x.interval.map fun i => { i with outcome := o } }
  let r := x.reg
  if g.outcome = 2 ∨ g.step ≠ r.step ∨ g.attempt ≠ r.attempt ∨ g.lkey ≠ x.lkey then
    (mark 2 b).halt c (fun f => { f with mismatch := true }) false
  else
    let b := mark g.outcome b
    if g.outcome = 1 then
      let b := b.mCtxReg c fun r => { r with voidCnt := sat1 r.voidCnt, flags := { r.flags with void := true } }
      if g.fenceSeen then b.halt c (fun f => { f with lostMember := true }) false
      else if r.attempt = (if r.attemptMax = 0 then 1 else r.attemptMax) then
        b.halt c (fun f => { f with exhausted := true }) false
      else
        let b := b.mCtxReg c fun r => { r with attempt := r.attempt + 1 }
        let (tat, b) := if x.run.rplEn then b.rplEntry c r.step else (some r.tat, b)
        match tat with
        | none => b.rplFail c
        | some tat => b.schedule c (launchTick r.mode r.t0 r.period.toNat tat g.e) false false false g.brim
    else
      let b := b.mCtxReg c fun r => { r with
        step := r.step + 1, attempt := 0, swapArm := r.swapArm && !g.swap
        flags := { r.flags with swapDefer := r.flags.swapDefer || g.swapDefer } }
      if x.run.rplEn ∧ x.run.rplCount.toNat ≤ (r.step + 1 - x.run.rplStart).toNat then
        (b.mCtxRun c fun u => { u with rplEnd := true }).halt c id false
      else
        let t := launchTick r.mode r.t0 r.period.toNat (if x.run.rplEn then x.rplTat else r.tat) g.e
        let ovr := Tick.diff t (r.lastT + r.period.setWidth 64)
        let slips := if r.mode = 0 ∧ 0 < ovr then (ovr / (r.period.toNat : Int)).toNat else 0
        let b := b.mCtxReg c fun r => { r with slipCnt := satAdd r.slipCnt slips }
        b.schedule c t true g.swap (decide (0 < slips)) g.brim

/-- A freeze holds this STEP_GO (R343). -/
def Ctx.freezes (x : Ctx) (g : StepGo) : Bool :=
  x.run.frzArm &&
    ((g.outcome == 0 && decide (x.run.frzAt.toNat ≤ (x.reg.step + 1).toNat)) ||
     (g.outcome == 1 && decide (x.run.frzAt.toNat ≤ x.reg.step.toNat)))

/-- A context in CLOSE takes its STEP_GO: held by a freeze, or acted on. -/
def Block.takeGo (b : Block) (c : Nat) (s : Bool) (g : StepGo) : Block :=
  let b := b.mCtx c fun x => { x with lastGo := some (g, s) }
  if (b.ctx c).freezes g then b.mCtx c fun x => { x with heldGo := some (g, s) } else b.deliver c g

/-! ### Launches -/

/-- RESTART to each region of a scheduled launch, 32 ticks ahead of it (R124, R368). -/
def Block.sendRestart (b : Block) (c : Nat) : Block :=
  match (b.ctx c).sched with
  | none => b
  | some s =>
    if s.restartSent || s.cls == .missed then b
    else
      let r := (b.ctx c).reg
      (b.mCtx c fun x => { x with sched := some { s with restartSent := true } }).each r.regionList
        fun b n => b.emit (.restart n s.at_ (r.swapSel != s.swap))

/-- RESTART_SEND (R124). -/
def execRestartSend (c : Ctx6) (s : State) : Host.Outcome State Fault Refusal :=
  s.run fun b => match (b.ctx c.toNat).sched with
    | some x => if b.due (x.at_ - 32) then b.sendRestart c.toNat else b
    | none => b

/-- RG_QUIESCE_RAISE (R370): 12 ticks ahead of a restart that the cells know of. -/
def execRgQuiesceRaise (c : Ctx6) (s : State) : Host.Outcome State Fault Refusal :=
  s.run fun b => match (b.ctx c.toNat).sched with
    | some x =>
      if x.restartSent && b.due (x.at_ - 12) then
        b.each (b.ctx c.toNat).reg.regionList fun b n => b.mEp n fun e => { e with quiesce := true }
      else b
    | none => b

/-- RTRIM follows the first edge measured at one restarting region, the regions in turn (R126). -/
def Block.trackRestart (b : Block) (rs : List Nat) (edge : BitVec 8) : Block :=
  let nxt := match rs.find? fun n => b.tsu.spine.rstIdx < n with
    | some n => some n
    | none => rs.head?
  match nxt with
  | none => b
  | some n =>
    let e := b.ep n
    let v : Nat := if edge.toInt < 0 then min (e.rtrim.toNat + 1) 4095 else if 0 < edge.toInt then e.rtrim.toNat - 1
      else e.rtrim.toNat
    let b := (b.mEp n fun e => { e with rtrim := BitVec.ofNat 12 v, rresid := edge }).mSpine fun s => { s with rstIdx := n }
    if BitVec.ofNat 12 v = e.rtrim then b else b.emit (.rtrim n (BitVec.ofNat 12 v))

/-- A launch on its tick (R120, R124, R129, R138-R140, R158, R172, R373). -/
def Block.launch (b : Block) (c : Nat) (edge : Option (BitVec 8)) : Block :=
  match (b.ctx c).sched with
  | none => b
  | some s =>
    if s.cls == .missed || !b.due s.at_ then b
    else
      let b := (b.sendRestart c).endInterval c true
      let late := s.cls == .late
      let lateness := satAdd (0 : BitVec 16) (if late then (Tick.diff s.at_ s.t).toNat else 0)
      let b := b.mCtx c fun x => { x with
        sched := none, missedWin := false
        run := { x.run with lstep := x.reg.step, lstepOk := true }
        reg := { x.reg with
          launchCnt := sat1 x.reg.launchCnt
          swapSel := x.reg.swapSel != s.swap
          lateness := if late then lateness else x.reg.lateness
          lateCnt := if late then sat1 x.reg.lateCnt else x.reg.lateCnt
          flags := { x.reg.flags with late := x.reg.flags.late || late } } }
      let r := (b.ctx c).reg
      let b := b.each r.regionList fun b n => b.mEp n fun e => { e with quiesce := false, cell := 0, bank := r.swapSel }
      let b := (b.emit (.lnchPulse c)).beginInterval c s s.swap lateness
      let b := if b.tsu.lctl.refCtx.toNat = c then b.mLctl fun l => { l with winT := some s.t } else b
      let b := match edge with
        | some v => if b.tsu.lctl.rstTrack then b.trackRestart r.regionList v else b
        | none => b
      b.releaseAwait c stOK

/-- LAUNCH (R120). -/
def execLaunch (c : Ctx6) (firstEdge : Option (BitVec 8)) (s : State) : Host.Outcome State Fault Refusal :=
  s.run fun b => b.launch c.toNat firstEdge

/-! ### The accession record (R242, R243) -/

/-- HT96 in memory (R17). -/
def htBytes (h : Ht96) : Bytes := toLE 2 h.frac.toNat ++ toLE 4 h.ns.toNat ++ toLE 6 h.sec.toNat

/-- FUSE_DIGEST (R242). -/
def Block.fuseDigest (b : Block) : Bytes := (sha256 (b.tsu.boot.hostMap.flatMap fun w => toLE 4 w.toNat)).take 8

/-- CAT_CHECK (R242). -/
def Block.catCheck (b : Block) : BitVec 32 := if b.tsu.cat.defaulted then 0 else b.tsu.cat.check

/-- Forms a context's record and freezes it. -/
def Block.formAcc (b : Block) (c : Nat) : Block :=
  let x := b.ctx c
  let rec_ := toLE 4 Config.tsuFw.toNat ++ toLE 4 (b.catNat .tsu 0x4201 1) ++ b.fuseDigest ++ toLE 4 b.catCheck.toNat ++
    toLE 2 (b.catNat .tsu 0x4201 2) ++ toLE 6 x.reg.step.toNat ++ toLE 8 x.run.modelId.toNat ++ toLE 16 x.run.key.toNat ++
    htBytes b.tsu.time.epoch
  b.mCtxRun c fun u => { u with acc := rec_, accOn := true, rplStart := x.reg.step, rplIdx := 1 }

/-! ### READY, GO, STOP, CLEAR (R114, R115, R121) -/

/-- READY, ARMED, RUN or CLOSE (R115). -/
def CtxSt.live : CtxSt → Bool
  | .ready | .armed | .run | .close => true
  | _ => false

/-- Another context holds one of these regions (R115). -/
def Block.regionsTaken (b : Block) (c : Nat) (rs : BitVec 64) : Bool :=
  b.tsu.ctxs.any fun e => e.1 != c && e.2.st.live && (e.2.reg.regions &&& rs) != 0

/-- An endpoint a context may restart (R115). -/
def Endpoint.fit (e : Endpoint) : Bool := e.enAtCal && e.calOk && e.rstOk

/-- READY = 1 (R115, R248). -/
def Block.ready (b : Block) (c : Nat) : Block :=
  let x := b.ctx c
  if x.st != .idle then b else
  let overlap := b.regionsTaken c x.reg.regions || x.reg.mode == 3 || (x.reg.mode == 0 && x.reg.period == 0) ||
    (x.run.rplEn && x.reg.mode != 2)
  let fault := x.reg.regionList.any fun n => !(b.ep n).fit
  if overlap || fault then
    b.mFlags c fun f => { f with overlap := f.overlap || overlap, regionFault := f.regionFault || fault }
  else b.mCtx c fun x => { x with
    st := .ready, window := [], firstDone := false, lastGo := none, heldGo := none, arm := none, sched := none
    reg := { x.reg with attempt := 0 }
    run := { x.run with lstepOk := false } }

/-- GO = 1 (R121, R243). -/
def Block.go (b : Block) (c : Nat) : Block :=
  if (b.ctx c).st != .ready then b
  else (b.formAcc c).schedule c (b.ctx c).reg.tat false false false (b.ctx c).brimNow

/-- STOP = 1 (R114). -/
def Block.stop (b : Block) (c : Nat) : Block := if (b.ctx c).st.live then b.halt c id false else b

/-- CLEAR = 1 (R114). -/
def Block.clear (b : Block) (c : Nat) : Block :=
  let x := b.ctx c
  if x.st == .ready || x.st == .halt then b.mCtx c fun x => { x with st := .idle, run := { x.run with accOn := false } }
  else b

/-- CNT_CLR = 1 (R140). -/
def Block.ctxCntClr (b : Block) (c : Nat) : Block :=
  b.mCtxReg c fun r => { r with launchCnt := 0, lateCnt := 0, missedCnt := 0, voidCnt := 0, slipCnt := 0 }

/-- A write of CTX_CTRL: the page is checked against the context's world (R143). -/
def State.ctxCtrl (a : Access) (c : Ctx6) (f : Block → Nat → Block) (s : State) : Host.Outcome State Fault Refusal :=
  s.run fun b => b.regCmd (portReq a) (0x100200 + 0x400 * c.toNat) (worldOk (portReq a) (b.ctxWorld c.toNat))
    fun b => f b c.toNat

/-- READY (R115). -/
def execReady (a : Access) (c : Ctx6) (s : State) : Host.Outcome State Fault Refusal := s.ctxCtrl a c Block.ready
/-- GO (R121). -/
def execGo (a : Access) (c : Ctx6) (s : State) : Host.Outcome State Fault Refusal := s.ctxCtrl a c Block.go
/-- STOP (R114). -/
def execStop (a : Access) (c : Ctx6) (s : State) : Host.Outcome State Fault Refusal := s.ctxCtrl a c Block.stop
/-- CLEAR (R114). -/
def execClear (a : Access) (c : Ctx6) (s : State) : Host.Outcome State Fault Refusal := s.ctxCtrl a c Block.clear
/-- CTX_CNT_CLR (R140). -/
def execCtxCntClr (a : Access) (c : Ctx6) (s : State) : Host.Outcome State Fault Refusal := s.ctxCtrl a c Block.ctxCntClr

/-- EN = 1 (R114, R406, R410): OFF goes to IDLE; an enable written in STOPPING or during Cloakroom is held. -/
def Block.ctxEnable (b : Block) (c : Nat) : Block :=
  b.mCtx c fun x =>
    if x.st == .stopping || (x.st == .off && b.tsu.boot.inCloak) then { x with enPend := true }
    else if x.st == .off then { x with st := .idle }
    else x

/-- EN of a context as TSU_CTX_EN shows it: set from the enable on, a held one included (R406). -/
def Ctx.en (x : Ctx) : Bool := x.enPend || (x.st != .off && x.st != .stopping)

/-- CTX_ENABLE (R114, R142). -/
def execCtxEnable (a : Access) (c : Ctx6) (s : State) : Host.Outcome State Fault Refusal :=
  s.run fun b => b.regCmd (portReq a) 0x5000 true fun b =>
    let x := b.ctx c.toNat
    if !worldOk (portReq a) x.world then (if x.en then b else b.violate 0 (portReq a) true 0x5000)
    else b.ctxEnable c.toNat

/-! ### Job start at the TSU (R134, R135, R137) -/

def Block.armUnm (b : Block) : Block := b.mLctl fun l => { l with armUnm := sat1 l.armUnm }

/-- The contexts that meet `p`, lowest first. -/
def Block.ctxsWhere (b : Block) (p : Ctx → Bool) : List Nat := (List.range 64).filter fun c => p (b.ctx c)

/-- ARM (R134). During ENTERING it is unmatched (R348). -/
def Block.arm (b : Block) (group : BitVec 16) (p : ArmMsg) : Block :=
  match b.ctxsWhere fun x => (x.st.isArmed || x.st == .halt) && x.arm.any fun a => a.job == p.job with
  | c :: _ => if (b.ctx c).arm = some p then b else b.armUnm
  | [] =>
    match b.ctxsWhere fun x => x.st == .ready && x.reg.job == p.job with
    | [] => b.armUnm
    | c :: _ =>
      if b.tsu.pwr.st == .entering || Tick.diff (p.tStart - 64) b.tc < 0 then b.armUnm
      else
        let b := (b.formAcc c).mCtx c fun x => { x with st := .armed, arm := some p }
        b.sendBoth (b.ctxWorld c) (.armed group p.job 1)

/-- COMMIT (R135): a copy for a context that it has launched already is no further event. -/
def Block.commit (b : Block) (p : CommitMsg) : Block :=
  let hit (x : Ctx) : Bool := x.reg.job == p.job && x.arm.any fun a => a.tStart == p.tStart
  match b.ctxsWhere fun x => x.st == .armed && x.reg.job == p.job with
  | c :: _ => if hit (b.ctx c) then b.schedule c p.tStart false false false ((b.ctx c).arm.elim 0 ArmMsg.brim0) else b.armUnm
  | [] => if (b.ctxsWhere fun x => (x.st == .run || x.st == .close) && hit x).isEmpty then b.armUnm else b

/-- ABORT (R135). -/
def Block.abort (b : Block) (p : AbortMsg) : Block :=
  b.each (b.ctxsWhere fun x => x.st.isArmed && x.reg.job == p.job && !x.firstDone) fun b c =>
    b.halt c (fun f => { f with aborted := true }) false

/-- NOSTART_EXPIRE (R135). -/
def execNostartExpire (c : Ctx6) (s : State) : Host.Outcome State Fault Refusal :=
  s.run fun b =>
    let x := b.ctx c.toNat
    match x.arm with
    | some a => if x.st == .armed && b.due (a.tStart + 0x40000000) then
        b.halt c.toNat (fun f => { f with nostart := true }) false else b
    | none => b

end Sys2Proof.Machine
end

