-- ==== Sys2Proof/Machine/Barrier.lean ====
section
/-! DEFINITION. Barrier slots (R145-R160): arrivals, phases, closing barriers, STEP_GO and DONE at the TSU, semaphores and
their proxies, slot configuration and translation. -/

namespace Sys2Proof.Machine

open Sys2Proof

/-- A usable lane carries SYNC (R171, R6). -/
def Block.syncPath (b : Block) : Bool := b.usable (.tsu .A) 2 1 || b.usable (.tsu .B) 2 1

/-- The contexts in RUN for which the slot is the closing barrier (R157). -/
def Block.closers (b : Block) (n : Nat) : List Nat :=
  (List.range 64).filter fun c => (b.ctx c).st == .run && b.xlat c (b.ctx c).reg.closeVbid.toNat == some n

/-- The contexts in CLOSE at a slot. -/
def Block.closing (b : Block) (n : Nat) : List Nat :=
  (List.range 64).filter fun c => (b.ctx c).st == .close && b.xlat c (b.ctx c).reg.closeVbid.toNat == some n

/-- The completion row of R148 for the phase being collected. The waits of a closing barrier's phase go to the next launch
(R158), all others are released OK. -/
def Block.phaseEnd (b : Block) (n : Nat) (cs : List Nat) : Block :=
  let s := (b.slot n).sense
  let b := b.mSlot n fun x =>
    let x := { x.setCount s 0 with sense := !s, sent := false }
    if s then { x with void1 := false } else { x with void0 := false }
  match cs with
  | [] => b.releasePhase n s
  | c :: _ => b.bindPhase n s cs c

/-- The contexts `cs`, in CLOSE at the slot, take STEP_GO for its phase. -/
def Block.goPhase (b : Block) (n : Nat) (cs : List Nat) (g : StepGo) : Block :=
  let s := (b.slot n).sense
  (b.phaseEnd n cs).each cs fun b c => b.takeGo c s g

/-- ARRIVE with count EXPECT, on both lanes (R148, R154). -/
def Block.sendArrive (b : Block) (n : Nat) (f : Option StepFields) : Block :=
  let x := b.slot n
  b.sendBoth x.world (.arrive (x.addr x.sense) ⟨BitVec.ofNat 20 x.need, x.sat, f⟩)

/-- The die's arrival has been made: SENT, with the count cleared. -/
def Slot.markSent (x : Slot) : Slot := { x.setCount x.sense 0 with sent := true }

/-- COUNT[SENSE] is tested against EXPECT, and again after each phase that completes at once (R148, R157). -/
def Block.reach : Nat → Block → Nat → Block
  | 0, b, _ => b
  | f + 1, b, n =>
    let x := b.slot n
    if x.kind = 1 ∧ !x.sent ∧ x.need ≤ x.count x.sense then
      let void := x.void x.sense
      let b := b.mSlot n fun x => { x with ovr := x.ovr || decide (x.need < x.count x.sense) }
      match b.closers n with
      | [] =>
        if x.scope = 0 then Block.reach f (b.phaseEnd n []) n
        else (b.sendArrive n none).mSlot n Slot.markSent
      | cs =>
        let (fs, b) := (b.mSlot n Slot.markSent).closeAll cs b.tc false void
        match fs with
        | none => b
        | some fs =>
          if x.scope = 0 then Block.reach f (b.goPhase n (b.closing n) (stepGoOf fs)) n
          else b.sendArrive n (some fs)
    else b

/-- How many phases can complete at once: each leaves its own count at 0. -/
def reachFuel : Nat := 4

/-- One arrival's effect on a slot (R147, R148): the slot, whether it was discarded, and what WS_WAIT shows. -/
def Slot.arrive (x : Slot) (s : Bool) (n : BitVec 20) (void : Bool) : Slot × Bool × WRes :=
  if s = x.sense ∧ x.sent then
    ({ x with ovr := true }, true, { status := stOK, ovr := true, count := BitVec.ofNat 20 (x.count s) })
  else
    let c := x.count s + (if n.toNat = 0 then 1 else n.toNat)
    let sat := decide (cntMax < c)
    let c := if cntMax < c then cntMax else c
    let ovr := s == x.sense && decide (x.need < c)
    let x' := { x.setCount s c with sat := x.sat || sat }
    let x' := if s then { x' with void1 := x'.void1 || void } else { x' with void0 := x'.void0 || void }
    (x', false, { status := stOK, sat := sat, ovr := ovr, count := BitVec.ofNat 20 (if ovr then x.need else c) })

/-- An arrival at a slot. `bind` holds the wait slot of an ARRIVE_WAIT, whose wait is bound to the phase the arrival was
counted into (R150). -/
def Block.arriveAt (b : Block) (n : Nat) (s : Bool) (cnt : BitVec 20) (void : Bool) (bind : Option Nat) : WRes × Block :=
  let x := b.slot n
  if x.kind ≠ 1 then ({ status := stBADOP }, b)
  else if x.scope ≠ 0 ∧ !b.syncPath then ({ status := stUNSUPPORTED }, b)
  else
    let (x', lost, r) := x.arrive s cnt void
    let b := b.mSlot n fun _ => x'
    let b := if lost then b.mBar fun z => { z with overCnt := sat1 z.overCnt } else b
    let b := match bind with
      | none => b
      | some i => b.mWslot i fun w => { w with op := w.op.map fun o => { o with
          phase := some s, held := false, arrived := (r.sat, r.ovr, r.count) } }
    (r, if lost then b else Block.reach reachFuel b n)

/-- An arrival that an engine or a timer makes at a VBID of a context, in the phase being collected (R176, R270). -/
def Block.arriveVbid (b : Block) (c vbid : Nat) (cnt : BitVec 20) : Byte × Block :=
  match b.xlat c vbid with
  | none => (stNOMAP, b)
  | some n =>
    let (r, b) := b.arriveAt n (b.slot n).sense cnt false none
    (r.status, b)

/-! ### Operations of wait slots (R150, R159, R160, R169) -/

/-- WAIT (R150). -/
def Block.slotWait (b : Block) (i n : Nat) (o : WOp) : Block :=
  let x := b.slot n
  if x.kind ≠ 1 then b.wsDone i { status := stBADOP }
  else if x.scope ≠ 0 ∧ !b.syncPath then b.wsDone i { status := stUNSUPPORTED }
  else if x.sense ≠ o.flags.sense then b.wsDone i { status := stOK }
  else if o.flags.nowait then b.wsDone i { status := stNOTREADY }
  else b.mWslot i fun w => { w with op := w.op.map fun o => { o with phase := some o.flags.sense, held := false } }

/-- ARRIVE and ARRIVE_WAIT. -/
def Block.slotArrive (b : Block) (i n : Nat) (o : WOp) (wait : Bool) : Block :=
  let (r, b) := b.arriveAt n o.flags.sense (o.wdata.setWidth 20) o.flags.voidreq (if wait then some i else none)
  if !wait || r.status != stOK then b.wsDone i r
  else if o.flags.nowait && (b.wslot i).op.isSome then b.wsDone i { r with status := stNOTREADY }
  else b

/-- SIGNAL n at a DIE semaphore (R159). -/
def Block.dieSignal (b : Block) (n : Nat) (cnt : Nat) : WRes × Block :=
  let c := (b.slot n).c0 + cnt
  let sat := decide (cntMax < c)
  let b := (b.mSlot n fun x => { x with c0 := if cntMax < c then cntMax else c, sat := x.sat || sat }).semServe n
  ({ status := stOK, sat := sat, count := BitVec.ofNat 20 (b.slot n).c0 }, b)

/-- The way to a proxy's object: none where its home lane carries it, else the status (R160, R171). -/
def Block.proxyStop (b : Block) (x : Slot) : Option Byte :=
  if !b.up (.tsu x.plane) then some stNOPATH
  else if !b.usable (.tsu x.plane) 2 1 then some stUNSUPPORTED else none

/-- SIGNAL, TAKE and READ_COUNT (R159, R160). -/
def Block.slotSem (b : Block) (i n : Nat) (o : WOp) : Block :=
  let x := b.slot n
  let cnt := o.wdata.setWidth 20
  let wait (b : Block) := b.mWslot i fun w => { w with op := w.op.map fun o => { o with held := false } }
  if x.kind ≠ 2 then b.wsDone i { status := stBADOP }
  else if o.op = 0xD then
    if x.scope ≠ 0 then b.wsDone i { status := stBADOP }
    else b.wsDone i { status := stOK, count := BitVec.ofNat 20 x.c0 }
  else if x.scope = 0 then
    if o.op = 0xB then
      let (r, b) := b.dieSignal n cnt.toNat
      b.wsDone i r
    else if cnt.toNat ≤ x.c0 ∧ (b.takes n).isEmpty then
      (b.mSlot n fun x => { x with c0 := x.c0 - cnt.toNat }).wsDone i
        { status := stOK, count := BitVec.ofNat 20 (x.c0 - cnt.toNat) }
    else if o.flags.nowait then b.wsDone i { status := stNOTREADY, count := BitVec.ofNat 20 x.c0 }
    else wait b
  else match b.proxyStop x with
    | some st => b.wsDone i { status := st }
    | none =>
      let l : LaneRef := .tsu x.plane
      if o.op = 0xB then
        (b.send l x.world (.signal (x.addr false) (cnt.setWidth 32))).wsDone i { status := stOK }
      else
        (wait b).send l x.world (.take (x.addr false) ⟨cnt.setWidth 32, b.myPda x.plane, wsTag i, o.flags.nowait⟩)

/-- The operation of a wait slot on the barrier slot it was issued on (R146, R169). -/
def Block.slotOp (b : Block) (i : Nat) (o : WOp) : Block :=
  match o.slot with
  | none => b.wsDone i { status := stNOMAP }
  | some n =>
    if o.op = 0x8 then b.slotArrive i n o false
    else if o.op = 0x9 then b.slotArrive i n o true
    else if o.op = 0xA then b.slotWait i n o
    else b.slotSem i n o

/-! ### Completions from the tree -/

/-- The slots that a frame's CSF addresses. -/
def Block.slotsAt (b : Block) (kind : BitVec 2) (a : BarAddr) : List Nat :=
  smKeys (fun x => x.kind == kind && x.scope != 0 && x.scope == a.scope && x.hbid == a.hbid &&
    x.group.setWidth 16 == a.group) b.tsu.bar.slots

/-- DONE at the TSU (R148): a barrier at which a context is in CLOSE completes with STEP_GO and not with DONE. -/
def Block.done (b : Block) (a : BarAddr) (sat : Bool) : Block :=
  b.each (b.slotsAt 1 a) fun b n =>
    let x := b.slot n
    if !(b.closing n).isEmpty then b
    else if x.sense ≠ a.sense then b.mBar fun z => { z with stale := sat1 z.stale }
    else Block.reach reachFuel ((b.mSlot n fun x => { x with sat := x.sat || sat }).phaseEnd n []) n

def Block.goDiff (b : Block) : Block := b.mLctl fun l => { l with goDiff := sat1 l.goDiff }

/-- The contexts whose closing barrier a STEP_GO addresses. -/
def Block.ctxsAt (b : Block) (a : BarAddr) : List Nat :=
  let ns := b.slotsAt 1 a
  (List.range 64).filter fun c => match b.xlat c (b.ctx c).reg.closeVbid.toNat with
    | some n => ns.contains n
    | none => false

/-- A copy of the context's last STEP_GO (R119). -/
def Ctx.copies (x : Ctx) (s : Bool) (g : StepGo) : Bool :=
  x.lastGo.any fun y => y.2 == s && y.1.step == g.step && y.1.attempt == g.attempt

/-- STEP_GO at the TSU (R119): a copy is compared, the first valid one is acted on, anything else is counted. -/
def Block.stepGo (b : Block) (a : BarAddr) (g : StepGo) : Block :=
  let cs := b.ctxsAt a
  match cs.find? fun c => (b.ctx c).copies a.sense g with
  | some c => if (b.ctx c).lastGo.any fun y => sameGo y.1 g then b else b.goDiff
  | none =>
    let ns := (b.slotsAt 1 a).filter fun n => (b.slot n).sense == a.sense && !(b.closing n).isEmpty
    if ns.isEmpty || g.outcome == 3 then b.goDiff
    else b.each ns fun b n => Block.reach reachFuel (b.goPhase n (b.closing n) g) n

/-- TAKE_RESP at the TSU (R160): the answer of a waiting TAKE, or a count that goes back to the object. -/
def Block.takeResp (b : Block) (l : LaneRef) (h : Hdr) (a : BarAddr) (p : TakeResp) : Block :=
  let i := p.tag.toNat
  let mine : Bool := match (b.wslot i).op with
    | some o => o.space == 2 && o.op == 0xC && !o.held && (match o.slot with
      | some n => (b.slotsAt 2 a).contains n
      | none => false)
    | none => false
  if i < 512 ∧ mine then b.wsDone i { status := p.status, count := p.count.setWidth 20 }
  else if p.status = stOK then
    (b.mBar fun z => { z with semRet := sat1 z.semRet }).send l h.w (.signal a p.count)
  else b

/-! ### A MISSED launch (R122, R157, R172) -/

/-- At D the die makes its arrival with MISSED = 1. -/
def Block.missedArrival (b : Block) (c : Nat) : Block :=
  match (b.ctx c).sched with
  | none => b
  | some s =>
    if s.cls != .missed || !b.due s.at_ then b
    else
      let b := b.endInterval c false
      let b := b.mCtx c fun x => { x with
        sched := none, missedWin := true
        reg := { x.reg with missedCnt := sat1 x.reg.missedCnt, flags := { x.reg.flags with missed := true } } }
      let b := b.beginInterval c s false 0
      let b := if b.tsu.lctl.refCtx.toNat = c then b.mLctl fun l => { l with winT := some s.t } else b
      let b := (b.wsWithdrawCtx c stMISSED true .cancel).releaseAwait c stMISSED
      if (b.ctx c).st != .run then b
      else match b.xlat c (b.ctx c).reg.closeVbid.toNat with
        | none => b.halt c (fun f => { f with closeNomap := true }) false
        | some n =>
          let x := b.slot n
          if x.kind ≠ 1 then b.halt c (fun f => { f with closeNomap := true }) false
          else
            let (fs, b) := b.closeAll (b.closers n) s.at_ true (x.void x.sense)
            match fs with
            | none => b
            | some fs =>
              if x.sent then b
              else
                let b := b.mSlot n Slot.markSent
                if x.scope = 0 then Block.reach reachFuel (b.goPhase n (b.closing n) (stepGoOf fs)) n
                else b.sendArrive n (some fs)

/-- MISSED_ARRIVAL (R122). -/
def execMissedArrival (c : Ctx6) (s : State) : Host.Outcome State Fault Refusal :=
  s.run fun b => b.missedArrival c.toNat

/-! ### Configuration (R145, R146, R181, R182) -/

/-- The slot that a write of TSU_BSLOT_CFG describes; KIND 0 and 3 free it. -/
def slotOf (d : BitVec 64) (world : Bool) : Slot :=
  let k := fld d 0 2
  if k = 0 ∨ k = 3 then {}
  else { kind := k, scope := fld d 2 2, owner := fld d 4 6, world := world, home := d.getLsbD 11,
         expect := fld d 12 20, hbid := fld d 32 16, group := fld d 48 12 }

/-- A write of TSU_BSLOT_CFG (R145). A non-secure write to a secure slot, or naming a secure OWNER, is a violation too
(R336). -/
def Block.bslotConfig (b : Block) (q : Req) (d : BitVec 64) : Block :=
  let n := b.tsu.bar.sel.toNat
  let x := b.slot n
  let world := b.ctxWorld (fld d 4 6).toNat
  let ref (b : Block) := b.mBar fun z => { z with cfgRef := true }
  if !worldOk q ((x.kind != 0 && x.world) || world) then ref (b.violate q.src q true 0x6008)
  else if b.mapped n then ref b
  else b.mSlot n fun _ => slotOf d world

/-- BSLOT_CONFIG (R145). -/
def execBslotConfig (a : Access) (data : BitVec 64) (s : State) : Host.Outcome State Fault Refusal :=
  s.run fun b => b.regCmd (portReq a) 0x6008 true fun b => b.bslotConfig (portReq a) data

/-- A write of TSU_XLAT_DATA (R146). -/
def Block.xlatWrite (b : Block) (d : BitVec 32) : Block :=
  let c := b.tsu.bar.selCtx.toNat
  let valid := d.getLsbD 15
  let p : BitVec 12 := d.setWidth 12
  let x := b.slot p.toNat
  if valid && (x.kind == 0 || x.world != b.ctxWorld c) then b.mBar fun z => { z with xlatRef := true }
  else b.mBar fun z => { z with xlat := smPut (false, 0#12) z.xlat (1024 * c + z.selVbid.toNat) (valid, p) }

/-- XLAT_WRITE (R146, R182): checked against the world of the context in TSU_XLAT_SEL. -/
def execXlatWrite (a : Access) (data : BitVec 32) (s : State) : Host.Outcome State Fault Refusal :=
  s.run fun b => b.regCmd (portReq a) 0x5028 (worldOk (portReq a) (b.ctxWorld b.tsu.bar.selCtx.toNat))
    fun b => b.xlatWrite data

/-- CNT_CLR = 1 (R181). -/
def Block.barCntClr (b : Block) : Block := b.mBar fun z => { z with overCnt := 0, stale := 0, semRet := 0 }

/-- BAR_CNT_CLR (R181). -/
def execBarCntClr (a : Access) (s : State) : Host.Outcome State Fault Refusal :=
  s.run fun b => b.regCmd (portReq a) 0x6018 true Block.barCntClr

end Sys2Proof.Machine
end

