-- ==== Sys2Proof/Machine/CollArith.lean ====
section
/-! DEFINITION. Collective arithmetic (R190-R217): formats, exact accumulators, rounding, ordering, combining records,
their encoding, operand bursts and delivery. -/

namespace Sys2Proof.Machine

open Sys2Proof

/-! ### Formats (R194) -/

/-- A row of the format table: width in bytes; for floating point p, and 149 + emin - (p - 1), the weight of the smallest
subnormal above 2^-149; emin; infinities; the canonical NaN; the largest finite encoding. -/
structure Fmt where
  width : Nat
  float : Bool
  p     : Nat
  base  : Nat
  emin  : Int
  inf   : Bool
  nan   : Nat
  top   : Nat
  deriving DecidableEq, Repr

/-- The format of a code; 7 and above are invalid. -/
def fmtOf : Nat → Option Fmt
  | 0 => some ⟨4, true, 24, 0, -126, true, 0x7FC00000, 0x7F7FFFFF⟩
  | 1 => some ⟨2, true, 8, 16, -126, true, 0x7FC0, 0x7F7F⟩
  | 2 => some ⟨2, true, 11, 125, -14, true, 0x7E00, 0x7BFF⟩
  | 3 => some ⟨1, true, 4, 140, -6, false, 0x7F, 0x7E⟩
  | 4 => some ⟨1, true, 3, 133, -14, true, 0x7E, 0x7B⟩
  | 5 => some ⟨4, false, 0, 0, 0, false, 0, 0x7FFFFFFF⟩
  | 6 => some ⟨8, false, 0, 0, 0, false, 0, 0x7FFFFFFFFFFFFFFF⟩
  | _ => none

/-- FP32, the stand-in where a code is invalid. -/
def fmtD (c : Nat) : Fmt := (fmtOf c).getD ⟨4, true, 24, 0, -126, true, 0x7FC00000, 0x7F7FFFFF⟩

def Fmt.bits (f : Fmt) : Nat := 8 * f.width
def Fmt.sign (f : Fmt) : Nat := 2 ^ (f.bits - 1)

/-- |value| × 2^149 of finite bits without sign (R196). -/
def Fmt.mag (f : Fmt) (body : Nat) : Nat :=
  let mb := f.p - 1
  let e := body / 2 ^ mb
  let m := body % 2 ^ mb
  if e = 0 then m * 2 ^ f.base else (m + 2 ^ mb) * 2 ^ (f.base + (e - 1))

/-- What an element is. -/
inductive FKind where
  | nan | pinf | ninf | negzero | num
  deriving DecidableEq, Repr

/-- The kind of an element, and its A (R196). -/
def Fmt.classify (f : Fmt) (x : Nat) : FKind × Int :=
  if !f.float then (.num, (if x < f.sign then (x : Int) else (x : Int) - 2 * f.sign))
  else
    let neg := decide (f.sign ≤ x)
    let body := x % f.sign
    let mb := f.p - 1
    let ones := 2 ^ (f.bits - f.p) - 1
    if f.inf ∧ body / 2 ^ mb = ones then (if body % 2 ^ mb ≠ 0 then (.nan, 0) else if neg then (.ninf, 0) else (.pinf, 0))
    else if !f.inf ∧ body = f.sign - 1 then (.nan, 0)
    else if body = 0 ∧ neg then (.negzero, 0)
    else (.num, if neg then -(f.mag body : Int) else f.mag body)

def Fmt.isNan (f : Fmt) (x : Nat) : Bool := (f.classify x).1 == .nan

/-- The encoding of +∞, or of the largest number where there is none (R217). -/
def Fmt.high (f : Fmt) : Nat := if f.float && f.inf then (2 ^ (f.bits - f.p) - 1) * 2 ^ (f.p - 1) else f.top
/-- The encoding of −∞, or of the least number (R217). -/
def Fmt.low (f : Fmt) : Nat := if f.float then f.sign + f.high else f.sign

/-- `round_ea` of R199: the encoding, and OFL. -/
def Fmt.round (f : Fmt) (a : Int) : Nat × Bool :=
  let neg := decide (a < 0)
  let m := a.natAbs
  if m = 0 then (0, false) else
  let e : Int := (m.log2 : Int) - 149
  let q : Int := (if e > f.emin then e else f.emin) - (f.p - 1 : Nat)
  let sh := (q + 149).toNat
  let r0 := m / 2 ^ sh
  let rem := m % 2 ^ sh
  let half := 2 ^ sh / 2
  let r := if 0 < sh ∧ (half < rem ∨ (rem = half ∧ r0 % 2 = 1)) then r0 + 1 else r0
  let s := if neg then f.sign else 0
  if f.mag f.top < r * 2 ^ sh then ((if f.inf then s + f.high else f.nan), true)
  else
    let mb := f.p - 1
    let (r, q) := if 2 ^ f.p ≤ r then (r / 2, q + 1) else (r, q)
    if r < 2 ^ mb then (s + r, false)
    else (s + (q + mb + 1 - f.emin).toNat * 2 ^ mb + r % 2 ^ mb, false)

/-- An integer clamped to the range of an integer format, and SAT (R200). -/
def Fmt.clamp (f : Fmt) (v : Int) : Nat × Bool :=
  let hi : Int := f.sign - 1
  let lo : Int := -(f.sign : Int)
  if hi < v then (hi.toNat, true)
  else if v < lo then (f.sign, true)
  else ((if v < 0 then (v + 2 * f.sign).toNat else v.toNat), false)

/-- The ordering key (R201). -/
def Fmt.key (f : Fmt) (x : Nat) : Nat :=
  if !f.float then (if x < f.sign then x + f.sign else x - f.sign)
  else if f.sign ≤ x then 2 * f.sign - 1 - x else x + f.sign

/-! ### Operations -/

/-- Operation codes (R188). -/
def opSUM : Nat := 0
def opMAX : Nat := 1
def opMIN : Nat := 2
def opAMAX : Nat := 3
def opAMIN : Nat := 4
def opTOPK : Nat := 5
def opSSUM : Nat := 6
def opBAND : Nat := 7
def opBOR : Nat := 8
def opBXOR : Nat := 9
def opCOUNT : Nat := 10
def opBCAST : Nat := 11

/-- The pairings of R195. -/
def fmtPair (op fmt ofmt : Nat) : Bool :=
  decide (fmt ≤ 6) &&
    (if op = opCOUNT then ofmt == 5
     else if op = opSSUM then fmt == 0 && ofmt == 0
     else if op = opSUM then ofmt == fmt || (ofmt == 0 && decide (1 ≤ fmt ∧ fmt ≤ 4)) || (ofmt == 6 && fmt == 5)
     else ofmt == fmt)

/-- Indices are carried or implied (R202-R204). -/
def indexed (op : Nat) : Bool := op == opAMAX || op == opAMIN || op == opTOPK

/-! ### Combining (R197, R201, R202, R205, R207, R210) -/

def int32Min : Int := -2147483648

/-- The record of no input. -/
def emptyRec (op : Nat) : CRec :=
  if op = opSUM then .sum false false false false false 0
  else if op = opAMAX ∨ op = opAMIN then .pair false false 0 0
  else if op = opTOPK then .topk false []
  else if op = opSSUM then .ssum false false int32Min 0
  else if op = opCOUNT then .cnt 0
  else .val false false 0

/-- The record of one used element with bits `v` and index `g`. -/
def elemRec (op : Nat) (f : Fmt) (v : Nat) (g : BitVec 64) : CRec :=
  let nan := f.isNan v
  let w := BitVec.ofNat 64 v
  if op = opSUM then
    let (k, a) := f.classify v
    .sum (k == .nan) (k == .pinf) (k == .ninf) true (k != .negzero) a
  else if op = opAMAX ∨ op = opAMIN then .pair nan true w g
  else if op = opTOPK then .topk nan [(w, g)]
  else if op = opCOUNT then .cnt 1
  else if op = opBAND ∨ op = opBOR ∨ op = opBXOR ∨ op = opBCAST then .val false true w
  else .val nan true w

/-- One pair ranks above another (R204). -/
def ranks (f : Fmt) (x y : BitVec 64 × BitVec 64) : Bool :=
  let kx := f.key x.1.toNat
  let ky := f.key y.1.toNat
  decide (ky < kx) || (kx == ky && decide (x.2.toNat < y.2.toNat))

/-- Puts a pair into a list in ranking order. -/
def rankIn (f : Fmt) (x : BitVec 64 × BitVec 64) : List (BitVec 64 × BitVec 64) → List (BitVec 64 × BitVec 64)
  | [] => [x]
  | y :: t => if ranks f y x then y :: rankIn f x t else x :: y :: t

/-- The best `k` of the union of two lists (R205). -/
def bestK (f : Fmt) (k : Nat) (x y : List (BitVec 64 × BitVec 64)) : List (BitVec 64 × BitVec 64) :=
  (y.foldl (fun l e => rankIn f e l) x).take k

/-- Saturating addition of C (R207). 2^32 stands for a C that has saturated, which a record shows as 0xFFFFFFFF. -/
def satC (x y : Nat) : Nat := min (x + y) 0x100000000

/-- C of a record that arrives: 0xFFFFFFFF is taken as saturated (log entry 54). -/
def rxC (c : Nat) : Nat := if c = 0xFFFFFFFF then 0x100000000 else c

/-- C as 32 bits. -/
def outC (c : Nat) : Nat := min c 0xFFFFFFFF

/-- Two records, combined; `k` is K of TOPK. -/
def combineRec (op : Nat) (f : Fmt) (k : Nat) : CRec → CRec → CRec
  | .sum n p m u z a, .sum n' p' m' u' z' a' => .sum (n || n') (p || p') (m || m') (u || u') (z || z') (a + a')
  | .cnt n, .cnt n' => .cnt (n + n')
  | .ssum n u km c, .ssum n' u' km' c' => .ssum (n || n') (u || u') (max km km') (satC c c')
  | .topk n es, .topk n' es' => .topk (n || n') (bestK f k es es')
  | .val n u v, .val n' u' v' =>
    if !u then .val (n || n') u' v'
    else if !u' then .val (n || n') u v
    else
      let kv := f.key v.toNat
      let kv' := f.key v'.toNat
      let w := if op = opMAX then (if kv' ≤ kv then v else v')
        else if op = opMIN then (if kv ≤ kv' then v else v')
        else if op = opBAND then v &&& v' else if op = opBOR then v ||| v' else if op = opBXOR then v ^^^ v' else v
      .val (n || n') true w
  | .pair n u v g, .pair n' u' v' g' =>
    if !u then .pair (n || n') u' v' g'
    else if !u' then .pair (n || n') u v g
    else
      let kv := f.key v.toNat
      let kv' := f.key v'.toNat
      let first := if kv = kv' then decide (g.toNat ≤ g'.toNat)
        else if op = opAMAX then decide (kv' < kv) else decide (kv < kv')
      if first then .pair (n || n') true v g else .pair (n || n') true v' g'
  | x, _ => x

/-- Two lists of records, combined; a BCAST participant that is not the root has none (R210). -/
def combineRecs (op : Nat) (f : Fmt) (k : Nat) (x y : List CRec) : List CRec :=
  if x.isEmpty then y else if y.isEmpty then x else List.zipWith (combineRec op f k) x y

/-! ### Encoding of records (R213) -/

def specByte (nan pinf ninf pres notnz : Bool) : Byte :=
  ((bit notnz) ++ (bit pres) ++ (bit ninf) ++ (bit pinf) ++ (bit nan)).setWidth 8

/-- LO and N of an EA-320 value in canonical form, with its limbs. -/
def limbs (a : Int) : Nat × List (BitVec 64) :=
  let v := BitVec.ofInt 320 a
  let l := (List.range 5).map fun j => v.extractLsb' (64 * j) 64
  if a = 0 then (0, [])
  else
    let lo := (l.takeWhile fun x => x == 0).length
    let n := ((List.range 5).find? fun i =>
      let top := (l.getD (lo + i) 0).getLsbD 63
      decide (lo + i < 5) && ((l.drop (lo + i + 1)).all fun x => x == if top then BitVec.allOnes 64 else 0)).getD (4 - lo)
    (lo, (l.drop lo).take (n + 1))

/-- The value of limbs `ls` from limb `lo`, sign extended from the last. -/
def unlimbs (lo : Nat) (ls : List (BitVec 64)) : Int :=
  let n : Nat := ls.foldr (fun x (acc : Nat) => x.toNat + 2 ^ 64 * acc) 0
  let w := 64 * ls.length
  let s : Int := if 0 < w ∧ 2 ^ (w - 1) ≤ n then (n : Int) - 2 ^ w else n
  s * 2 ^ (64 * lo)

/-- The bytes of a record; `w` is the width of FMT. -/
def encRec (w : Nat) : CRec → Bytes
  | .sum n p m u z a =>
    let (lo, ls) := limbs a
    [specByte n p m u z, BitVec.ofNat 8 (lo + 16 * ls.length)] ++ ls.flatMap fun x => toBE 8 x.toNat
  | .val n u v => specByte n false false u false :: toBE w v.toNat
  | .pair n u v g => specByte n false false u false :: (toBE w v.toNat ++ toBE 8 g.toNat)
  | .topk n es => specByte n false false (!es.isEmpty) false ::
      (toBE 2 es.length ++ es.flatMap fun e => toBE w e.1.toNat ++ toBE 8 e.2.toNat)
  | .ssum n u k c => specByte n false false u false :: (toBE 4 (BitVec.ofInt 32 k).toNat ++ toBE 4 (outC c))
  | .cnt n => toBE 4 n

/-- The shapes of records on the wire. -/
inductive RecKind where
  | sum | val | pair | topk | ssum | cnt
  deriving DecidableEq, Repr

/-- The phase-1 record of an operation. -/
def recKind (op : Nat) : RecKind :=
  if op = opSUM then .sum else if op = opAMAX ∨ op = opAMIN then .pair else if op = opTOPK then .topk
  else if op = opSSUM then .ssum else if op = opCOUNT then .cnt else .val

def takeEntries (w : Nat) : Nat → Bytes → List (BitVec 64 × BitVec 64)
  | 0, _ => []
  | n + 1, d => (BitVec.ofNat 64 (beAt d 0 w), BitVec.ofNat 64 (beAt d w 8)) :: takeEntries w n (d.drop (w + 8))

/-- Reads one record: it, and the bytes after it. -/
def decRec (k : RecKind) (w : Nat) (d : Bytes) : Option (CRec × Bytes) :=
  let need (n : Nat) (r : CRec) : Option (CRec × Bytes) := if n ≤ d.length then some (r, d.drop n) else none
  let s : Byte := d.headD 0
  match k with
  | .cnt => need 4 (.cnt (beAt d 0 4))
  | .val => need (1 + w) (.val (s.getLsbD 0) (s.getLsbD 3) (BitVec.ofNat 64 (beAt d 1 w)))
  | .pair => need (9 + w) (.pair (s.getLsbD 0) (s.getLsbD 3) (BitVec.ofNat 64 (beAt d 1 w)) (BitVec.ofNat 64 (beAt d (1 + w) 8)))
  | .ssum => need 9 (.ssum (s.getLsbD 0) (s.getLsbD 3) (BitVec.ofNat 32 (beAt d 1 4)).toInt (rxC (beAt d 5 4)))
  | .topk =>
    let n := beAt d 1 2
    need (3 + n * (w + 8)) (.topk (s.getLsbD 0) (takeEntries w n (d.drop 3)))
  | .sum =>
    let lim := (d.getD 1 0).toNat
    let n := lim / 16 % 8
    let ls := (List.range n).map fun i => BitVec.ofNat 64 (beAt d (2 + 8 * i) 8)
    need (2 + 8 * n) (.sum (s.getLsbD 0) (s.getLsbD 1) (s.getLsbD 2) (s.getLsbD 3) (s.getLsbD 4) (unlimbs (lim % 8) ls))

/-- Reads `n` records, the first of which has index `i`; `kind` gives the shape of each. -/
def decRecs (kind : Nat → RecKind) (w : Nat) : Nat → Nat → Bytes → Option (List CRec)
  | 0, _, _ => some []
  | n + 1, i, d => match decRec (kind i) w d with
    | none => none
    | some (r, rest) => (decRecs kind w n (i + 1) rest).map (r :: ·)

/-- Splits a TOPK record that one frame could not hold: 100 entries a record (log entry 32). -/
def splitTop (n : Bool) : Nat → List (BitVec 64 × BitVec 64) → List CRec
  | 0, es => [.topk n es]
  | f + 1, es => if es.length ≤ 100 then [.topk n es] else .topk n (es.take 100) :: splitTop n f (es.drop 100)

def splitRecs (l : List CRec) : List CRec :=
  l.flatMap fun r => match r with
    | .topk n es => splitTop n 3 es
    | r => [r]

/-- Encoded records packed into frames of at most `room` bytes: for each frame the index of its first record, how many it
holds, and their bytes. -/
def packRecs (room : Nat) : List Bytes → Nat → Nat → Nat → Bytes → List (Nat × Nat × Bytes)
  | [], first, n, _, acc => [(first, n, acc)]
  | e :: t, first, n, i, acc =>
    if 0 < n ∧ room < acc.length + e.length then (first, n, acc) :: packRecs room t i 1 (i + 1) e
    else packRecs room t first (n + 1) (i + 1) (acc ++ e)

/-- The frames of a contribution or result: `h` gives the header, the missing entries go with the last (R211, R212). -/
def framesOf (h : Contrib) (encoded : List Bytes) (missing : List (BitVec 32)) (nmiss : Nat) : List Contrib :=
  let ms := missing.take 32
  let parts := packRecs (2016 - 4 * ms.length) encoded 0 0 0 []
  let last := parts.length - 1
  (parts.zip (List.range parts.length)).map fun (p, i) =>
    { h with
      first := BitVec.ofNat 16 p.1, nel := BitVec.ofNat 16 p.2.1, recs := p.2.2, ccrc := crc32c p.2.2
      last := i == last, missing := if i = last then ms else []
      nmiss := BitVec.ofNat 16 (min nmiss 0xFFFF) }

/-- The records of a list, encoded for the wire. -/
def encAll (op fmt : Nat) (l : List CRec) : List Bytes := (if op = opTOPK then splitRecs l else l).map (encRec (fmtD fmt).width)

/-! ### Descriptors and operand bursts (R188, R191) -/

/-- An operation as its participants name it (R188, R190). -/
structure CDesc where
  op      : Nat
  fmt     : Nat
  ofmt    : Nat
  scope   : BitVec 2
  planes  : Nat
  masked  : Bool
  idxmode : Bool
  permEn  : Bool
  sigVoid : Bool
  sigKind : Nat
  vl      : Nat
  k       : Nat
  nsrc    : Nat
  ich     : Nat
  och     : Nat
  ctx     : Nat
  cobj    : BitVec 14
  group   : BitVec 12
  ibase   : BitVec 64
  deadline : Tick
  seq     : BitVec 16
  root    : BitVec 16
  permBase : Nat
  sigAddr : Nat
  sigData : BitVec 20
  deriving DecidableEq, Repr

/-- The descriptor of a slot. -/
def CollSlot.desc (s : CollSlot) : CDesc :=
  { op := (fld s.d0 0 4).toNat, fmt := (fld s.d0 4 3).toNat, ofmt := (fld s.d0 8 3).toNat, scope := fld s.d0 12 2
    planes := (fld s.d0 14 2).toNat, masked := s.d0.getLsbD 16, idxmode := s.d0.getLsbD 17, permEn := s.d0.getLsbD 18
    sigVoid := s.d0.getLsbD 19, sigKind := (fld s.d0 20 2).toNat, vl := (fld s.d0 32 13).toNat
    k := (fld s.d0 48 9).toNat, nsrc := (fld s.d0 60 4).toNat, ich := (fld s.d1 0 6).toNat, och := (fld s.d1 8 6).toNat
    ctx := (fld s.d1 16 6).toNat, cobj := fld s.d1 32 14, group := fld s.d1 48 12, ibase := s.d2, deadline := s.d3
    seq := fld s.d4 0 16, root := fld s.d4 16 16, permBase := (fld s.d4 32 19).toNat, sigAddr := (fld s.d5 0 19).toNat
    sigData := fld s.d5 32 20 }

/-- NOUT (R189). -/
def CDesc.nout (d : CDesc) : Nat := if d.op = opTOPK then d.k else d.vl

/-- Bytes of a part, padded to a beat. -/
def padded (n : Nat) : Nat := (n + 63) / 64 * 64

/-- The width of an operand element. -/
def CDesc.inWidth (d : CDesc) : Nat := if d.op = opSSUM then 16 else (fmtD d.fmt).width

def CDesc.hasIdx (d : CDesc) : Bool := d.idxmode && indexed d.op
def CDesc.maskLen (d : CDesc) : Nat := if d.masked then padded (8 * ((d.vl + 63) / 64)) else 0

/-- The length of a source's burst. -/
def CDesc.burstLen (d : CDesc) : Nat :=
  d.maskLen + padded (d.vl * d.inWidth) + (if d.hasIdx then padded (8 * d.vl) else 0)

/-- Consecutive pieces of `w` bytes. -/
def pieces (w : Nat) : Nat → Bytes → List Bytes
  | 0, _ => []
  | n + 1, d => d.take w :: pieces w n (d.drop w)

/-- The elements of a source: used, bytes, and index (R191, R203). -/
def CDesc.elems (d : CDesc) (s : Nat) (data : Bytes) : List (Bool × Bytes × BitVec 64) :=
  let used (j : Nat) : Bool := !d.masked || (data.getD (j / 8) 0).getLsbD (j % 8)
  let vs := pieces d.inWidth d.vl (data.drop d.maskLen)
  let is := pieces 8 d.vl (data.drop (d.maskLen + padded (d.vl * d.inWidth)))
  (vs.zip (List.range vs.length)).map fun (v, j) =>
    (used j, v, if d.hasIdx then BitVec.ofNat 64 (ofLE (is.getD j [])) else d.ibase + BitVec.ofNat 64 (s * d.vl + j))

/-- An SSUM element: KEXP, S, CINF, and whether it counts as a NaN or is empty (R206). -/
def ssumElem (v : Bytes) : Int × Int × Nat × Bool × Bool :=
  let k := (BitVec.ofNat 32 (leAt v 0 4)).toInt
  let (kind, a) := (fmtD 0).classify (leAt v 4 4)
  let c := leAt v 8 4
  let bad := (leAt v 12 1) % 2 == 1 || kind == .nan || kind == .pinf || kind == .ninf || decide (a < 0) ||
    (k == int32Min && a != 0)
  (k, a, c, bad, !bad && k == int32Min && c == 0)

/-- The record of one used operand element. -/
def CDesc.elem (d : CDesc) (v : Bytes) (g : BitVec 64) : CRec :=
  if d.op = opSSUM then
    let (k, _, c, bad, empty) := ssumElem v
    if empty then emptyRec opSSUM else .ssum bad true k c
  else elemRec d.op (fmtD d.fmt) (ofLE v) g

/-- The records of one source. -/
def CDesc.srcRecs (d : CDesc) (s : Nat) (data : Bytes) : List CRec :=
  let es := (d.elems s data).map fun e => if e.1 then d.elem e.2.1 e.2.2 else emptyRec d.op
  if d.op = opTOPK then [es.foldl (combineRec d.op (fmtD d.fmt) d.k) (emptyRec d.op)] else es

/-- The die's contribution from its sources' bursts (R187). `root`: a BCAST takes source 0, and none elsewhere (R210). -/
def CDesc.records (d : CDesc) (root : Bool) (srcs : List Bytes) : List CRec :=
  if d.op = opBCAST then
    if root then d.srcRecs 0 (srcs.headD []) else []
  else
    (srcs.zip (List.range srcs.length)).foldl
      (fun acc (x, s) => combineRecs d.op (fmtD d.fmt) d.k acc (d.srcRecs s x)) []

/-- A phase-2 term: s × 2^(k − K), truncated to a multiple of 2^-149 (R207). -/
def ssumTerm (kk : Int) (v : Bytes) : CRec :=
  let (k, a, _, bad, empty) := ssumElem v
  if bad || empty then .sum false false false false false 0
  else
    let t : Nat := if k ≤ kk then a.natAbs / 2 ^ (min (kk - k).toNat 320) else
      if 320 ≤ (k - kk).toNat then 0 else a.natAbs * 2 ^ (k - kk).toNat
    .sum false false false true true t

/-- The die's phase-2 records for K of each row. -/
def CDesc.records2 (d : CDesc) (ks : List Int) (srcs : List Bytes) : List CRec :=
  let one (x : Bytes) : List CRec :=
    List.zipWith (fun e k => if e.1 then ssumTerm k e.2.1 else .sum false false false false false 0) (d.elems 0 x) ks
  srcs.foldl (fun acc x => combineRecs opSUM (fmtD 0) 0 acc (one x)) []

/-- Some row needs phase 2 (R207). -/
def needsPhase2 (l : List CRec) : Bool :=
  l.any fun r => match r with
    | .ssum n u _ c => !n && u && c == 0
    | _ => false

/-- K of each row (R207). -/
def ksOf (l : List CRec) : List Int := l.map fun r => match r with | .ssum _ _ k _ => k | _ => 0

/-! ### Delivery (R198, R200, R208, R216, R217) -/

/-- The operation's flags, NEMPTY and NRES, gathered while elements are delivered. -/
structure CFlags where
  sat   : Bool := false
  ofl   : Bool := false
  nan   : Bool := false
  inf   : Bool := false
  nempty : Nat := 0
  deriving DecidableEq, Repr

def CFlags.join (x y : CFlags) : CFlags :=
  ⟨x.sat || y.sat, x.ofl || y.ofl, x.nan || y.nan, x.inf || y.inf, x.nempty + y.nempty⟩

/-- The identity that fills an empty element (R217). -/
def CDesc.ident (d : CDesc) : Bytes :=
  let f := fmtD d.fmt
  let v := if d.op = opMAX ∨ d.op = opAMAX ∨ d.op = opTOPK then f.low
    else if d.op = opMIN ∨ d.op = opAMIN then f.high
    else if d.op = opBAND then 2 ^ f.bits - 1 else 0
  if indexed d.op then List.replicate 8 0xFF ++ toLE 8 v
  else if d.op = opSSUM then toLE 4 0x80000000 ++ List.replicate 12 0
  else if d.op = opCOUNT then toLE 4 0
  else if d.op = opSUM then toLE (fmtD d.ofmt).width 0
  else toLE f.width v

/-- One element delivered from its record, and for SSUM the sum of phase 2. -/
def CDesc.deliver (d : CDesc) (r : CRec) (sum2 : Int) : Bytes × CFlags :=
  let o := fmtD d.ofmt
  let none_ : Bytes × CFlags := (d.ident, { nempty := 1 })
  match r with
  | .sum n p m u z a =>
    if !o.float then
      if !u then none_ else
      let (v, s) := o.clamp a
      (toLE o.width v, { sat := s })
    else if n then (toLE o.width o.nan, { nan := true })
    else if p && m then (toLE o.width o.nan, {})
    else if p then (toLE o.width o.high, {})
    else if m then (toLE o.width o.low, {})
    else if a = 0 then (if u && !z then (toLE o.width o.sign, {}) else if u then (toLE o.width 0, {}) else none_)
    else
      let (v, f) := o.round a
      (toLE o.width v, { ofl := f })
  | .val n u v => if u then (toLE o.width v.toNat, { nan := n }) else (d.ident, { nan := n, nempty := 1 })
  | .pair n u v g => if u then (toLE 8 g.toNat ++ toLE 8 v.toNat, { nan := n }) else (d.ident, { nan := n, nempty := 1 })
  | .cnt n => if n = 0 then none_ else (toLE 4 n, {})
  | .topk n es => ((es.flatMap fun e => toLE 8 e.2.toNat ++ toLE 8 e.1.toNat), { nan := n })
  | .ssum n u k c =>
    let full := decide (0xFFFFFFFF < c)
    let c := outC c
    if n then (toLE 4 (BitVec.ofInt 32 k).toNat ++ toLE 4 0x7FC00000 ++ toLE 4 c ++ toLE 4 1, { nan := true, sat := full })
    else if 0 < c then (toLE 4 0x7FFFFFFF ++ toLE 4 0x7F800000 ++ toLE 4 c ++ toLE 4 2, { inf := true, sat := full })
    else if !u then (toLE 4 0x80000000 ++ toLE 4 0 ++ toLE 4 0 ++ toLE 4 4, { nempty := 1 })
    else
      let (v, f) := (fmtD 0).round sum2
      (toLE 4 (BitVec.ofInt 32 k).toNat ++ toLE 4 v ++ toLE 4 0 ++ toLE 4 0, { ofl := f })

/-- The sum of a phase-2 record. -/
def sumOf : CRec → Int
  | .sum _ _ _ _ _ a => a
  | _ => 0

/-- The result elements in order, their flags, and NRES (R192, R204). -/
def CDesc.results (d : CDesc) (recs recs2 : List CRec) : List Bytes × CFlags × Nat :=
  if d.op = opTOPK then
    match recs with
    | .topk n es :: _ =>
      let real := es.map fun e => toLE 8 e.2.toNat ++ toLE 8 e.1.toNat
      (real ++ List.replicate (d.k - es.length) d.ident, { nan := n, nempty := d.k - es.length }, es.length)
    | _ => (List.replicate d.k d.ident, { nempty := d.k }, 0)
  else
    let rs := if d.op = opBCAST ∧ recs.isEmpty then List.replicate d.vl (emptyRec d.op) else recs
    let out := (rs.zip (List.range rs.length)).map fun (r, i) => d.deliver r (sumOf (recs2.getD i (.cnt 0)))
    (out.map Prod.fst, (out.map Prod.snd).foldl CFlags.join {}, d.vl)

/-- The permutation (R217): the elements at their output positions, and PERM_RANGE. -/
def CDesc.permute (d : CDesc) (es : List Bytes) (p : List Nat) : List Bytes × Bool :=
  (p.map fun i => es.getD i d.ident, p.any fun i => decide (d.nout ≤ i))

/-- FLAGS [5:0] of a completion that delivers elements. -/
def CFlags.word (f : CFlags) (empty perm : Bool) : BitVec 9 :=
  ((bit perm) ++ (bit empty) ++ (bit f.inf) ++ (bit f.nan) ++ (bit f.ofl) ++ (bit f.sat)).setWidth 9

end Sys2Proof.Machine
end

