-- ==== Sys2Proof/Machine/Issue.lean ====
section
/-! DEFINITION. Issue of wait-slot operations (R169, R178), the hall-memory requester (R254, R257-R261, R274), the direct
window (R165), and what is held for ENGINE, INIT_DONE or a scrub (R162, R163, R346). -/

namespace Sys2Proof.Machine

open Sys2Proof

/-! ### Hall-memory requests -/

def Block.mHall (b : Block) (f : HallReq → HallReq) : Block := b.mTsu fun t => { t with hall := f t.hall }

/-- An HA that keeps every rule of R254. -/
def haOk (ha : BitVec 64) : Bool :=
  let tier := fld ha 37 2
  let t2 := (fld ha 31 4).toNat
  let t1 := (fld ha 27 4).toNat
  tier != 0 && !ha.getLsbD 35 && decide (t2 ≤ 11) && decide (t1 ≤ 11) &&
    (tier != 3 || t2 == 0) && (tier == 1 || t1 == 0) && decide ((fld ha 0 27).toNat < 100663296)

/-- The plane of an HA. -/
def haPlane (ha : BitVec 64) : Plane := if ha.getLsbD 36 then .B else .A

/-- The TSU cannot send a request for this HA (R254, R257, R404): the status it completes with. -/
def Block.hallStop (b : Block) (ha : BitVec 64) : Option Byte :=
  let l : LaneRef := .tsu (haPlane ha)
  if !haOk ha then some stBADOP
  else if !b.up l || !b.tsu.boot.admitted || !b.topoCarries l 4 then some stNOPATH
  else if !(b.lane l).reg.featEff.getLsbD 10 then some stUNSUPPORTED
  else none

/-- The time-out of R170 in ticks, for codes 1 to 15. -/
def tmoTicks (n : BitVec 4) : BitVec 64 := 1#64 <<< (n.toNat + 11)

/-- X of a hall request: TMO 0 acts as code 15, and NOWAIT gives the issue tick (R259). -/
def Block.hallX (b : Block) (f : WsFlags) : Tick :=
  if f.nowait then b.tc else b.tc + tmoTicks (if f.tmo = 0 then 15 else f.tmo)

def Block.nopath (b : Block) : Block := b.mHall fun h => { h with nopath := sat1 h.nopath }

/-- Sends HREQ (R257, R265, R268). -/
def Block.hallSend (b : Block) (tag : BitVec 16) (ha : BitVec 64) (op : BitVec 4) (nowait : Bool) (x : Tick)
    (data : BitVec 64) (secure : Bool) : Block :=
  let p := haPlane ha
  let l : LaneRef := .tsu p
  (b.mHall fun h => { h with out := h.out ++ [⟨tag, ha.setWidth 39, op, x, p, secure⟩] }).send l secure
    (.hreq { ha := ha.setWidth 39, pda := b.myPda p, tag := tag, op := op, nowait := nowait,
             lcap := (b.lane l).reg.featEff.getLsbD 17, x := x, wdata := data })

/-- A wait slot's operation with SPACE 1. -/
def Block.hallIssue (b : Block) (i : Nat) (o : WOp) : Block :=
  match b.hallStop o.addr with
  | some st => (if st = stNOPATH then b.nopath else b).wsDone i { status := st }
  | none => b.hallSend (wsTag i) o.addr o.op o.flags.nowait (b.hallX o.flags) o.wdata (b.ctxWorld (i / 8))

/-- Where the answer of a request goes: its source, from its TAG (R265). -/
inductive HallSrc where
  | slot (i : Nat)
  | dm (n : Nat)
  | other
  deriving DecidableEq, Repr

def hallSrc (tag : BitVec 16) : HallSrc :=
  match (tag.extractLsb' 12 4).toNat with
  | 0 => .slot (tag.toNat % 512)
  | 1 => .dm (tag.toNat % 4096)
  | _ => .other

/-- A response that no outstanding operation awaits (R261, R274). -/
def Block.orphan (b : Block) (p : HResp) : Block :=
  let b := b.mHall fun h => { h with orphanCnt := sat1 h.orphanCnt }
  match b.tsu.hall.gone.find? fun h => h.tag == p.tag with
  | none => b
  | some g =>
    let o : Orphan := ⟨g.ha, g.op, p.status, true, p.data⟩
    b.mHall fun h =>
      let h := { h with gone := dropFirst (fun x => x.tag == p.tag) h.gone }
      if g.secure then { h with orphS := o } else { h with orphN := o }

/-- What a wait slot shows of HRESP. -/
def hrespRes (op : BitVec 4) (p : HResp) : WRes :=
  { status := p.status, sat := p.sat, full := p.full, w := p.w, rdata := p.data
    count := if op = 4 then p.data.setWidth 20 else 0 }

/-- Takes the outstanding request with this TAG: the request, and the requester without it. -/
def Block.hallTake (b : Block) (tag : BitVec 16) : Option (HOut × Block) :=
  (b.tsu.hall.out.find? fun h => h.tag == tag).map fun g =>
    (g, b.mHall fun h => { h with out := dropFirst (fun x => x.tag == tag) h.out })

/-! ### Held operations -/

/-- Operations are held for ENGINE (R346). -/
def Block.hold (b : Block) (e : EngOp) : Block := (b.mTsu fun t => { t with held := t.held ++ [e] }).demand

/-- Applies `f` when ENGINE runs and the word is not held; keeps `e` for later otherwise (R162, R163, R346). -/
def Block.onWord (b : Block) (n : Nat) (e : EngOp) (f : Block → Block) : Block :=
  if !b.engOn || b.wordHeld n then b.hold e else f b.demand

/-- Applies `f` when ENGINE runs. -/
def Block.onEngine (b : Block) (e : EngOp) (f : Block → Block) : Block := if !b.engOn then b.hold e else f b.demand

/-- Performs the outstanding operation of a wait slot, or holds it. -/
def Block.wsPerform (b : Block) (i : Nat) : Block :=
  match (b.wslot i).op with
  | none => b
  | some o =>
    let e : EngOp := .waitOp (i / 8) (i % 8)
    if o.space = 0 then
      b.onWord (o.addr.toNat % 524288) e fun b =>
        (b.mWslot i fun w => { w with op := some { o with held := false } }).wordSlot i { o with held := false }
    else b.onEngine e fun b => b.slotOp i o

/-! ### Issue -/

/-- The pairings of SPACE and OP that exist (R169). -/
def opPairs (space : BitVec 2) (op : BitVec 4) : Bool :=
  if space.toNat ≤ 1 then decide (op.toNat ≤ 5) else space == 2 && decide (8 ≤ op.toNat ∧ op.toNat ≤ 13)

/-- What a command meets before it is performed (R169, R172, R173, R175). -/
def Block.issueStop (b : Block) (c : Nat) (space : BitVec 2) (op : BitVec 4) : Option Byte :=
  let x := b.ctx c
  if x.st == .off || x.st == .stopping then some stCLEARED
  else if x.st == .halt then some stHALTED
  else if x.missedWin then some stMISSED
  else if !opPairs space op then some stBADOP
  else none

/-- A write of WS_CMD (R169). -/
def Block.wsIssue (b : Block) (c k : Nat) (space : BitVec 2) (op : BitVec 4) (f : WsFlags) : Block :=
  let i := wsIdx c k
  let w := b.wslot i
  if w.op.isSome then b.mWslot i fun w => { w with cmdLost := true }
  else match b.issueStop c space op with
    | some st => b.wsDone i { status := st }
    | none =>
      let o : WOp :=
        { space := space, op := op, addr := w.addr, wdata := w.wdata, flags := f, seq := b.tsu.wseq, issue := b.tc
          expiry := if f.tmo = 0 ∨ space = 1 then none else some (b.tc + tmoTicks f.tmo)
          slot := if space = 2 then b.xlat c (w.addr.toNat % 1024) else none
          phase := none, await := none, arrived := (false, false, 0), held := space != 1 }
      let b := (b.mWslot i fun w => { w with op := some o }).mTsu fun t => { t with wseq := t.wseq + 1 }
      if space = 1 then b.hallIssue i o
      else if space = 2 ∧ o.slot.isNone then b.wsDone i { status := stNOMAP }
      else b.wsPerform i

/-- A command at a wait slot: the access is checked against the context's world (R143). -/
def State.wsCmd (a : Access) (c : Ctx6) (k : BitVec 3) (space : BitVec 2) (op : BitVec 4) (f : WsFlags) (s : State) :
    Host.Outcome State Fault Refusal :=
  s.run fun b => b.regCmd (portReq a) (wsReg c.toNat k.toNat 0x10) (worldOk (portReq a) (b.ctxWorld c.toNat))
    fun b => b.wsIssue c.toNat k.toNat space op f

/-- WS_CONSUME (R166). -/
def execWsConsume (a : Access) (c : Ctx6) (k : BitVec 3) (f : WsFlags) (s : State) : Host.Outcome State Fault Refusal :=
  s.wsCmd a c k 0 0 f

/-- WS_READ (R166). -/
def execWsRead (a : Access) (c : Ctx6) (k : BitVec 3) (f : WsFlags) (s : State) : Host.Outcome State Fault Refusal :=
  s.wsCmd a c k 0 1 f

/-- WS_PRODUCE (R166). -/
def execWsProduce (a : Access) (c : Ctx6) (k : BitVec 3) (f : WsFlags) (s : State) : Host.Outcome State Fault Refusal :=
  s.wsCmd a c k 0 2 f

/-- WS_WRITE_FORCE (R166). -/
def execWsWriteForce (a : Access) (c : Ctx6) (k : BitVec 3) (f : WsFlags) (s : State) : Host.Outcome State Fault Refusal :=
  s.wsCmd a c k 0 3 f

/-- WS_FILL_COUNT (R167). -/
def execWsFillCount (a : Access) (c : Ctx6) (k : BitVec 3) (f : WsFlags) (s : State) : Host.Outcome State Fault Refusal :=
  s.wsCmd a c k 0 4 f

/-- WS_PROBE (R166). -/
def execWsProbe (a : Access) (c : Ctx6) (k : BitVec 3) (f : WsFlags) (s : State) : Host.Outcome State Fault Refusal :=
  s.wsCmd a c k 0 5 f

/-- HALL_CONSUME (R257). -/
def execHallConsume (a : Access) (c : Ctx6) (k : BitVec 3) (f : WsFlags) (s : State) : Host.Outcome State Fault Refusal :=
  s.wsCmd a c k 1 0 f

/-- HALL_READ (R257). -/
def execHallRead (a : Access) (c : Ctx6) (k : BitVec 3) (f : WsFlags) (s : State) : Host.Outcome State Fault Refusal :=
  s.wsCmd a c k 1 1 f

/-- HALL_PRODUCE (R257). -/
def execHallProduce (a : Access) (c : Ctx6) (k : BitVec 3) (f : WsFlags) (s : State) : Host.Outcome State Fault Refusal :=
  s.wsCmd a c k 1 2 f

/-- HALL_WRITE_FORCE (R257). -/
def execHallWriteForce (a : Access) (c : Ctx6) (k : BitVec 3) (f : WsFlags) (s : State) : Host.Outcome State Fault Refusal :=
  s.wsCmd a c k 1 3 f

/-- HALL_FILL_COUNT (R257). -/
def execHallFillCount (a : Access) (c : Ctx6) (k : BitVec 3) (f : WsFlags) (s : State) : Host.Outcome State Fault Refusal :=
  s.wsCmd a c k 1 4 f

/-- HALL_PROBE (R257). -/
def execHallProbe (a : Access) (c : Ctx6) (k : BitVec 3) (f : WsFlags) (s : State) : Host.Outcome State Fault Refusal :=
  s.wsCmd a c k 1 5 f

/-- WS_ARRIVE (R148). -/
def execWsArrive (a : Access) (c : Ctx6) (k : BitVec 3) (f : WsFlags) (s : State) : Host.Outcome State Fault Refusal :=
  s.wsCmd a c k 2 8 f

/-- WS_ARRIVE_WAIT (R150). -/
def execWsArriveWait (a : Access) (c : Ctx6) (k : BitVec 3) (f : WsFlags) (s : State) : Host.Outcome State Fault Refusal :=
  s.wsCmd a c k 2 9 f

/-- WS_WAIT (R150). -/
def execWsWait (a : Access) (c : Ctx6) (k : BitVec 3) (f : WsFlags) (s : State) : Host.Outcome State Fault Refusal :=
  s.wsCmd a c k 2 10 f

/-- WS_SIGNAL (R159). -/
def execWsSignal (a : Access) (c : Ctx6) (k : BitVec 3) (f : WsFlags) (s : State) : Host.Outcome State Fault Refusal :=
  s.wsCmd a c k 2 11 f

/-- WS_TAKE (R159). -/
def execWsTake (a : Access) (c : Ctx6) (k : BitVec 3) (f : WsFlags) (s : State) : Host.Outcome State Fault Refusal :=
  s.wsCmd a c k 2 12 f

/-- WS_READ_COUNT (R159). -/
def execWsReadCount (a : Access) (c : Ctx6) (k : BitVec 3) (f : WsFlags) (s : State) : Host.Outcome State Fault Refusal :=
  s.wsCmd a c k 2 13 f

/-! ### The direct window (R165) -/

/-- A direct-window read, performed: DATA whatever FE, and zero where it is denied or uncorrectable (R164, R165). -/
def Block.dirRead (b : Block) (q : Req) (tag : Option Byte) (n : Nat) : Block :=
  let r := b.wordTry q q.src n 5 0 false
  r.2.answer q.dbg tag 0 (match r.1 with | some x => x.rdata | none => 0)

/-- A direct-window write, performed as WRITE_FORCE. -/
def Block.dirWrite (b : Block) (q : Req) (tag : Option Byte) (n : Nat) (data : BitVec 64) : Block :=
  (b.wordNow q q.src n 3 data).2.answer q.dbg tag 0 0

/-- A direct-window access: its width, its world, power, and the hold (R165, R336, R344). -/
def Block.dirAccess (b : Block) (q : Req) (size64 : Bool) (tag : Option Byte) (n : Nat) (data : Option (BitVec 64)) :
    Block :=
  let addr := 0x400000 + 8 * n
  if b.tsu.boot.tsuRst then b
  else if !size64 then b.answer q.dbg tag 1 0
  else match b.check q addr (worldOk q (b.regionWorld n)) with
    | .none => b
    | .violation => (b.violate q.src q data.isSome (BitVec.ofNat 64 addr)).answer q.dbg tag 0 0
    | .power => (b.powerErr q).answer q.dbg tag 2 0
    | .ok => match data with
      | none => b.onWord n (.dirRead q.dbg q.secure q.priv tag n) fun b => b.dirRead q tag n
      | some d => b.onWord n (.dirWrite q.dbg q.secure q.priv tag n d) fun b => b.dirWrite q tag n d

/-- DIRECT_WINDOW_READ (R165). -/
def execDirectWindowRead (a : Access) (size64 : Bool) (word : BitVec 19) (tag : BitVec 8) (s : State) :
    Host.Outcome State Fault Refusal :=
  s.run fun b => b.dirAccess (portReq a) size64 (some tag) word.toNat none

/-- DIRECT_WINDOW_WRITE (R165). -/
def execDirectWindowWrite (a : Access) (size64 : Bool) (word : BitVec 19) (data : BitVec 64) (s : State) :
    Host.Outcome State Fault Refusal :=
  s.run fun b => b.dirAccess (portReq a) size64 none word.toNat (some data)

end Sys2Proof.Machine
end

