-- ==== Sys2Proof/Machine/Timers.lean ====
section
/-! DEFINITION. Deadline timers (R269-R272, R275). -/

namespace Sys2Proof.Machine

open Sys2Proof

/-- TSU_RST_N is released and TIME is on. -/
def Block.live (b : Block) : Bool := !b.tsu.boot.tsuRst && b.tsu.pwr.on.time

def Block.mTimers (b : Block) (f : Timers → Timers) : Block := b.mTsu fun t => { t with timers := f t.timers }
def Block.timer (b : Block) (n : Nat) : Timer := smGet {} b.tsu.timers.timers n
def Block.mTimer (b : Block) (n : Nat) (f : Timer → Timer) : Block :=
  b.mTimers fun t => { t with timers := smMod {} t.timers n f }

/-- A count operand where 0 acts as 1. -/
def orOne (n : BitVec 20) : BitVec 20 := if n = 0 then 1 else n

/-- The action of a timer, performed (R270). -/
def Block.timerAct (b : Block) (n : Nat) : Block :=
  let t := b.timer n
  let c := t.ctx.toNat
  let (st, b) : Byte × Block :=
    match t.action.toNat with
    | 0 => (stOK, b)
    | 1 =>
      let r := b.wordNow (b.ctxReq c) 5 t.addr.toNat 4 ((orOne t.data).setWidth 64)
      (r.1.status, r.2)
    | 2 =>
      let r := b.wordNow (b.ctxReq c) 5 t.addr.toNat 3 t.at_
      (r.1.status, r.2)
    | _ => b.arriveVbid c (t.addr.toNat % 1024) t.data
  if st = stDENIED ∨ st = stECC ∨ st = stNOMAP then b.mTimers fun t => { t with actErr := true } else b

/-- Performs the action of a timer, or holds it (R163, R346). -/
def Block.timerDo (b : Block) (n : Nat) : Block :=
  let t := b.timer n
  if t.action = 0 then b
  else if t.action = 3 then b.onEngine (.timer n) fun b => b.timerAct n
  else b.onWord t.addr.toNat (.timer n) fun b => b.timerAct n

/-- A timer fires (R270). -/
def Block.timerFire (b : Block) (n : Nat) (past : Bool) : Block :=
  (b.mTimer n fun t => { t with en := false, fired := true, past := t.past || past }).timerDo n

/-- AT of an armed timer has passed: it fires at once with PAST (R271). -/
def Block.timerPast (b : Block) (n : Nat) : Block :=
  let t := b.timer n
  if t.en && b.due t.at_ && t.at_ != b.tc then b.timerFire n true else b

/-- A write of TSU_DT_CFG or TSU_DT_AT for the selected timer (R269, R271, R275). -/
def Block.dtWrite (b : Block) (q : Req) (w : DtWrite) : Block :=
  let n := b.tsu.timers.sel.toNat
  let t := b.timer n
  let ref (b : Block) := b.mTimers fun t => { t with dtRef := true }
  let addr : BitVec 64 := match w with | .cfg _ => 0x7808 | .at _ => 0x7810
  let named := match w with
    | .cfg d => b.ctxWorld (fld d 4 6).toNat
    | .at _ => false
  if !worldOk q (b.ctxWorld t.ctx.toNat || named) then ref (b.violate q.src q true addr)
  else match w with
    | .cfg d =>
      if d.getLsbD 0 && !b.timeOk then ref b
      else
        (b.mTimer n fun t => { t with
          en := d.getLsbD 0, action := fld d 1 2, irq := d.getLsbD 3, ctx := fld d 4 6, addr := fld d 12 19,
          data := fld d 32 20 }).timerPast n
    | .at x => if !b.timeOk then b else (b.mTimer n fun t => { t with at_ := x }).timerPast n

/-- DT_CONFIG_WRITE (R275). -/
def execDtConfigWrite (a : Access) (w : DtWrite) (s : State) : Host.Outcome State Fault Refusal :=
  s.run fun b => b.regCmd (portReq a) (match w with | .cfg _ => 0x7808 | .at _ => 0x7810) true
    fun b => b.dtWrite (portReq a) w

/-- DT_FIRE: TC64 has reached AT (R270). -/
def execDtFire (n : BitVec 12) (s : State) : Host.Outcome State Fault Refusal :=
  s.run fun b =>
    let t := b.timer n.toNat
    if b.live && t.en && b.due t.at_ then b.timerFire n.toNat false else b

/-- What an authorised step does to the timers it jumps over, in ascending order; `t0` is the count the tick would have
had (R271). -/
def Block.timersStep (b : Block) (t0 : Tick) : Block :=
  b.each (smKeys (fun t => t.en && !Tick.le t.at_ t0 && b.due t.at_) b.tsu.timers.timers) fun b n =>
    b.timerFire n ((b.timer n).at_ != b.tc)

/-- The timers of a context that enters STOPPING (R272). -/
def Block.timersStop (b : Block) (c : Nat) : Block :=
  let mine := smKeys (fun t => t.ctx.toNat == c) b.tsu.timers.timers
  let b := b.each mine fun b n => b.mTimer n fun t => { t with en := false, fired := false }
  b.mTsu fun t => { t with held := t.held.filter fun e => match e with
    | .timer n => (b.timer n).ctx.toNat != c
    | _ => true }

end Sys2Proof.Machine
end

