-- ==== Sys2Proof/Machine/Refresh.lean ====
section
/-! DEFINITION. Refresh grants (R131, R374), restart calibration (R126) and stretch reports (R130, R372). -/

namespace Sys2Proof.Machine

open Sys2Proof

/-- Grants are confined to quiet windows (R131). -/
def Block.aligned (b : Block) : Bool :=
  b.tsu.lctl.refAlign && (b.ctx b.tsu.lctl.refCtx.toNat).st.isArmed

/-- A quiet window is open. -/
def Block.inWindow (b : Block) : Bool := b.tsu.lctl.winEnd.any fun e => decide (0 < Tick.diff e b.tc)

/-- One refresh grant; `urgent` grants do not count against REF_PAR and always count in REF (R129, R131, R374). -/
def Block.grant (b : Block) (g : Nat) (urgent : Bool) : Block :=
  let l := b.tsu.lctl
  let counted := urgent || !l.refAlign || !b.inWindow
  let b := b.mLctl fun l => { l with
    gnt := setBit64 l.gnt g true
    lastGrp := if urgent then l.lastGrp else g
    ends := (g, (b.tc + l.refDur.setWidth 64, !urgent)) :: l.ends.filter fun e => e.1 != g }
  if counted then
    b.mTsu fun t => { t with ctxs := smMap {} (fun x => { x with
      interval := x.interval.map fun i => { i with ref := sat1 i.ref } }) t.ctxs }
  else b

/-- A grant may be made now (R131). -/
def Block.mayGrant (b : Block) : Bool :=
  let l := b.tsu.lctl
  if b.aligned then
    (l.winEnd.any fun e => decide ((l.refDur.toNat : Int) ≤ Tick.diff e b.tc)) &&
      decide ((l.ends.filter fun e => e.2.2).length < l.refPar.toNat)
  else true

/-- Serves waiting requests in rotating order after the last group served (R131). -/
def Block.grantAll : Nat → Block → Block
  | 0, b => b
  | n + 1, b =>
    if !b.mayGrant then b else
    let l := b.tsu.lctl
    match ((List.range 64).map fun i => (l.lastGrp + 1 + i) % 64).find? fun g => l.req.getLsbD g && !l.gnt.getLsbD g with
    | none => b
    | some g => Block.grantAll n (b.grant g false)

/-- REFRESH_REQUEST (R374). -/
def execRefreshRequest (g : BitVec 6) (s : State) : Host.Outcome State Fault Refusal :=
  s.run fun b => if b.live then
    Block.grantAll 64 (b.mLctl fun l => { l with req := setBit64 l.req g.toNat true }) else b

/-- REFRESH_URGENT (R131): meaningful only while the group requests (R374). -/
def execRefreshUrgent (g : BitVec 6) (s : State) : Host.Outcome State Fault Refusal :=
  s.run fun b =>
    let l := b.tsu.lctl
    if b.live && l.req.getLsbD g.toNat && !l.gnt.getLsbD g.toNat then
      (b.mLctl fun l => { l with urg := setBit64 l.urg g.toNat true }).grant g.toNat true
    else b

/-- QUIET_WINDOW_OPEN (R131). -/
def execQuietWindowOpen (s : State) : Host.Outcome State Fault Refusal :=
  s.run fun b => match b.tsu.lctl.winT with
    | none => b
    | some t =>
      let o := t + b.tsu.lctl.qwOff.setWidth 64
      if b.due o then
        Block.grantAll 64 (b.mLctl fun l => { l with winT := none, winEnd := some (o + l.qwLen.setWidth 64) })
      else b

/-- REFRESH_GRANT_END: REF_DUR ticks after the grant (R374, R375). -/
def execRefreshGrantEnd (g : BitVec 6) (s : State) : Host.Outcome State Fault Refusal :=
  s.run fun b => match b.tsu.lctl.ends.find? fun e => e.1 == g.toNat with
    | none => b
    | some e =>
      if b.due e.2.1 then
        Block.grantAll 64 (b.mLctl fun l => { l with
          gnt := setBit64 l.gnt g.toNat false, req := setBit64 l.req g.toNat false, urg := setBit64 l.urg g.toNat false
          ends := l.ends.filter fun x => x.1 != g.toNat })
      else b

/-! ### Restart calibration (R126) -/

/-- An endpoint that restart calibration measures. -/
def Endpoint.restarts (e : Endpoint) : Bool := e.enAtCal && e.calOk

/-- Restart calibration begins, at RST_CAL_START or at bring-up. -/
def Block.rstBegin (b : Block) : Block :=
  (b.mLctl fun l => { l with rstStart := true, rstBusy := true }).mSpine fun s => { s with
    eps := smMap {} (fun e => if e.restarts then { e with rstOk := false } else e) s.eps }

/-- RST_CAL_START = 1 (R126, R348). -/
def Block.rstStart (b : Block) : Block :=
  if b.tsu.pwr.st == .entering then b
  else if b.armedAny then b.mLctl fun l => { l with rstFail := true }
  else if b.tsu.spine.calBusy || b.tsu.lctl.rstBusy then b
  else b.rstBegin

/-- RST_CAL_START (R126). -/
def execRstCalStart (a : Access) (s : State) : Host.Outcome State Fault Refusal :=
  s.run fun b => b.regCmd (portReq a) 0x4000 true Block.rstStart

/-- What restart calibration finds at one endpoint: RTRIM = RLAT_TGT × 640 − RL, and the residual. -/
def Endpoint.restart (e : Endpoint) (tgt : Nat) (m : Option RstMeas) : Endpoint :=
  match m with
  | none => { e with rstOk := false, rstFault := true }
  | some m =>
    let t : Int := (tgt * 640 : Nat) - m.rl
    if t < 0 ∨ 4095 < t then { e with rstOk := false, rstFault := true }
    else
      let ok := decide (-8 ≤ m.resid.toInt ∧ m.resid.toInt ≤ 8)
      { e with rtrim := BitVec.ofInt 12 t, rresid := m.resid, rstOk := ok, rstFault := e.rstFault || !ok }

/-- Restart calibration ends with these measurements. -/
def Block.rstEnd (b : Block) (ms : List RstMeas) : Block :=
  if !b.tsu.lctl.rstBusy then b else
  let ns := smKeys Endpoint.restarts b.tsu.spine.eps
  let tgt := b.tsu.lctl.rlatTgt.toNat
  let b := b.each ns fun b n =>
    let b := b.mEp n fun e => e.restart tgt (ms.find? fun m => m.ep.toNat == n)
    if (b.ep n).rstOk then b.emit (.rtrim n (b.ep n).rtrim) else b
  let fail := ns.any fun n => !(b.ep n).rstOk
  (b.mLctl fun l => { l with rstStart := false, rstBusy := false, rstDone := true, rstFail := l.rstFail || fail }).mBoot
    fun t => { t with rstEnded := true }

/-- RST_CAL_DONE (R126). -/
def execRstCalDone (ms : List RstMeas) (s : State) : Host.Outcome State Fault Refusal := s.run fun b => b.rstEnd ms

/-! ### Stretches -/

/-- STRETCH_REPORT (R130, R372): counted for regions of armed contexts only; a quiesced region gives none (R370). -/
def execStretchReport (ep : BitVec 6) (amt : BitVec 12) (s : State) : Host.Outcome State Fault Refusal :=
  s.run fun b =>
    let n := ep.toNat
    if (b.tsu.ctxs.any fun e => e.2.st.isArmed && e.2.reg.regions.getLsbD n) && !(b.ep n).quiesce then
      b.mEp n fun e => { e with cell := satAdd e.cell amt.toNat }
    else b

end Sys2Proof.Machine
end

