-- ==== Sys2Proof/Machine/Servo.lean ====
section
/-! DEFINITION. The servo: estimators, selection, TWIN, HOLD, re-acquisition, acquisition and authorised steps
(R74-R91). Offsets are kept in half TDC units, 1,280 to a tick. The gains of the loop are not in the manual, so its raw
terms are free values; the clamps and the states are as stated. -/

namespace Sys2Proof.Machine

open Sys2Proof

/-! ### Estimators -/

/-- The estimator of a lane is valid (R19, R78, R401). -/
def Block.estValid (b : Block) (l : LaneRef) : Bool :=
  let x := b.lane l
  b.up l && decide (8 ≤ (x.sync.periods.filter id).length) && x.reg.tvRx &&
    (match l with
     | .tsu p =>
       let t := b.tsu.time
       let e := match p with | .A => t.epochA | .B => t.epochB
       !(t.timeValid && (match e with | some e => e != t.epoch | none => false)) &&
         !(x.reg.topoRes == 2 && x.reg.topoReason == 3)
     | .dist _ => x.reg.topoRes != 2 && !x.reg.syncLoss)

/-- TWIN is in both lanes' effective features (R88). -/
def Block.twinEff (b : Block) : Bool :=
  b.tsu.laneA.reg.featEff.getLsbD 16 && b.tsu.laneB.reg.featEff.getLsbD 16

/-- TWIN mode in effect (R88, R110). -/
def Block.twinMode (b : Block) : Bool := b.tsu.servo.lossMode && b.twinEff

/-- R83. -/
def Block.selectable (b : Block) (p : Plane) : Bool :=
  let l := LaneRef.tsu p
  let s := b.tsu.servo
  let rx := (b.lane l).sync.rx
  b.estValid l && (!b.twinEff || rx.mst || rx.tlk) &&
    (p == b.selPlane && s.state != .hold || !s.selMade || (s.state == .hold && s.holdPlane == some p) ||
      (match p with | .A => s.wtrA | .B => s.wtrB))

/-- FORCE names the plane (R84). -/
def Servo.forces (s : Servo) (p : Plane) : Bool := s.force == (match p with | .A => 1 | .B => 2)

/-- The order of preference of R84, as a rank. -/
def Block.planeRank (b : Block) (p : Plane) : Nat :=
  (if b.tsu.servo.forces p then 4 else 0) + (if (b.lane (.tsu p)).sync.rx.mst then 2 else 0) +
    (if (p == .B) == b.tsu.servo.planePref then 1 else 0)

def flipP (p : Plane) : Plane := match p with | .A => .B | .B => .A

/-- The most preferred plane among those that meet `ok` (R84). -/
def Block.bestPlane (b : Block) (ok : Plane → Bool) : Option Plane :=
  match ok .A, ok .B with
  | false, false => none
  | true, false => some .A
  | false, true => some .B
  | true, true => some (if b.planeRank .A < b.planeRank .B then .B else .A)

/-! ### Rate -/

/-- The sum of FFO over time from `stop` to `end_`, newest entry first, with the ticks covered. -/
def ffoSum (stop : Tick) : Tick → List (Tick × BitVec 32) → Int × Int
  | _, [] => (0, 0)
  | end_, (t, f) :: r =>
    let start := if Tick.le stop t then t else stop
    let n := Tick.diff end_ start
    if Tick.le stop t && t != stop then
      let (x, k) := ffoSum stop start r
      (x + f.toInt * n, k + n)
    else (f.toInt * n, n)

/-- The mean FFO of the 2^30 ticks up to now, truncated towards zero (R86). -/
def Servo.meanFfo (s : Servo) (now : Tick) : BitVec 32 :=
  let (x, n) := ffoSum (now - 0x40000000) now s.ffoHist
  if n ≤ 0 then s.ffo else BitVec.ofInt 32 (Int.tdiv x n)

/-- Sets the FFO, keeping the history that R86 needs. -/
def Servo.setFfo (s : Servo) (now : Tick) (v : BitVec 32) : Servo :=
  let keep := s.ffoHist.takeWhile fun e => Tick.le (now - 0x40000000) e.1
  let old := (s.ffoHist.drop keep.length).take 1
  { s with ffo := v, ffoHist := (now, v) :: keep ++ old, ffoAt := now }

/-- SLEW, or REACQ_SLEW in REACQ (R75, R80). -/
def Servo.limit (s : Servo) : Nat := if s.state == .reacq then s.reacqSlew.toNat else s.slew.toNat

/-- A root's FFO moves by no more than servo.root_dfdt per second (R96). -/
def Block.rootLimit (b : Block) (u : UnitRef) (old new : Int) : Int :=
  if u == .dist && b.dRole == 3 then
    let lim : Int := b.catNat .dist 0x2107 0 * Tick.diff b.dist.time.tc64 b.dist.servo.ffoAt / 1250000000
    clampI (old - lim) (old + lim) new
  else new

/-- One update of the loop: the raw terms are free; F_STEER is clamped, the integrator stops while it is clamped, and
FFO is the sum (R75). -/
def Block.servoPi (b : Block) (u : UnitRef) : Block :=
  let s := b.servoOf u
  let (x, b) := b.draw
  let (y, b) := b.draw
  let raw := (x.setWidth 32).toInt
  let lim : Int := s.limit
  let steer := clampI (-lim) lim raw
  let clamped := decide (steer ≠ raw)
  let track := if clamped then s.fTrack else y.setWidth 32
  let ffo := b.rootLimit u s.ffo.toInt (clampI (-(2 ^ 31)) (2 ^ 31 - 1) (track.toInt + steer))
  let now := b.tcOf u
  b.mServo u fun s =>
    { s with slewClamp := clamped, fTrack := track, fSteer := BitVec.ofInt 32 steer }.setFfo now (BitVec.ofInt 32 ffo)

/-! ### Lock -/

/-- Loss of lock (R78, R26). -/
def Block.loseLock (b : Block) (u : UnitRef) : Block :=
  (b.mServo u fun s => { s with unlocked := true, lockRun := 0, unlockRun := 0 }).mTime u
    fun t => { t with lockAge := 0, promise := false }

/-- Measurement of θ under R80 begins: STATE reads REACQ and the FFO is held at F_TRACK. -/
def Block.measure (b : Block) (u : UnitRef) : Block :=
  let now := b.tcOf u
  b.mServo u fun s =>
    { s with state := .reacq, measuring := true, thHist := [], lockRun := 0, unlockRun := 0, fSteer := 0,
             slewClamp := false }.setFfo now s.fTrack

/-- HOLD (R86, R90). -/
def Block.enterHold (b : Block) (u : UnitRef) : Block :=
  let now := b.tcOf u
  let m := (b.servoOf u).meanFfo now
  let plane := if u == .tsu then some b.selPlane else none
  (b.mServo u fun s =>
    { s with state := .hold, holdFfo := m, holdEntered := true, holdPlane := plane, measuring := false, walk := 0,
             fSteer := 0, slewClamp := false }.setFfo now m).loseLock u

/-- θ within ±1 µs of zero after 16 exchanges re-acquires; otherwise LOST (R80). -/
def Block.measured (b : Block) (u : UnitRef) (th2 : Int) : Block :=
  if th2.natAbs ≤ 1600000 then b.mServo u fun s => { s with measuring := false, thHist := [] }
  else
    (b.mServo u fun s => { s with state := .lost, measuring := false, thHist := [] }).mTime u
      fun t => { t with timeLost := true, lockAge := 0, promise := false }

/-- The median of an even number of values: the mean of the middle two, rounded down. -/
def median (l : List Int) : Int :=
  let s := sortI l
  let n := s.length
  if n % 2 = 1 then s.getD (n / 2) 0 else (s.getD (n / 2 - 1) 0 + s.getD (n / 2) 0) / 2

/-! ### Steps -/

/-- Shifts the offsets already measured on a lane by a change of the unit's own count and phase. -/
def Lane.shift (d : Int) (x : Lane) : Lane := { x with sync := { x.sync with th2s := x.sync.th2s.map (· + d) } }

/-- Timestamps that a unit's own captures gave move with its count: an exchange in progress measures the offset of the
count as it stands (log entry 53). -/
def Lane.moveTs (d : Tick) (x : Lane) : Lane :=
  let m (t : Option Ts) : Option Ts := t.map fun t => { t with tick := t.tick + d }
  { x with sync := { x.sync with prevTx := m x.sync.prevTx, prev2Tx := m x.sync.prev2Tx, rxTs := m x.sync.rxTs } }

/-- Moves the count by the whole ticks of −θ and the phase by the remainder (R79, R81); at a TSU by LOAD. -/
def Block.moveBy (b : Block) (u : UnitRef) (th2 : Int) (step : Bool) : Block :=
  let ticks := Int.tdiv (-th2) 1280
  let b := b.mTime u fun t => { t with phase := t.phase + Int.tmod (-th2) 1280 }
  match u with
  | .tsu =>
    let b := b.sendLoad (BitVec.ofInt 64 ticks) step
    { b with tsu.laneA := b.tsu.laneA.shift (-th2), tsu.laneB := b.tsu.laneB.shift (-th2) }
  | .dist =>
    let b := b.mTime .dist fun t =>
      { t with tc64 := t.tc64 + BitVec.ofInt 64 ticks, timeDisc := t.timeDisc || step }
    let b := b.mDist fun d => { d with
      lanes := smMap {} (Lane.moveTs (BitVec.ofInt 64 ticks)) d.lanes
      root := { d.root with
        refs := smMap {} (fun r => { r with lastEdge := r.lastEdge.map (· + 640 * ticks) }) d.root.refs } }
    b.each uplinks fun b n => b.mLane (.dist n) (Lane.shift (-th2))

/-- The step that STEP_ARM authorised (R81): LOAD, and REACQ. -/
def Block.stepBy (b : Block) (u : UnitRef) (th2 : Int) : Block :=
  let b := b.moveBy u th2 true
  let b := b.mServo u fun s =>
    { s with stepArm := false, state := .reacq, measuring := false, thHist := [], lockRun := 0, unlockRun := 0 }
  b.mTime u fun t => { t with lockAge := 0, promise := false }

/-- Whether a step has a source: a valid estimator, or at a root a selected candidate or a valid tie input (R81). -/
def Block.stepSource (b : Block) (u : UnitRef) : Bool :=
  match u with
  | .tsu => b.estValid (.tsu .A) || b.estValid (.tsu .B)
  | .dist =>
    if b.dRole = 3 then b.dist.root.selected.isSome || (b.dist.root.role == 2 && b.dist.root.tieValid)
    else uplinks.any fun n => b.estValid (.dist n)

/-- STEP_ARM is refused in the unit's present state (R81). -/
def Block.stepRefused (b : Block) (u : UnitRef) : Bool := (u == .tsu && b.armedAny) || !b.stepSource u

/-- A write of 1 to STEP_ARM (R81). -/
def Block.armStep (b : Block) (u : UnitRef) : Block :=
  if b.stepRefused u then b.mServo u fun s => { s with stepRef := true, stepArm := false }
  else b.mServo u fun s => { s with stepArm := true }

/-- The armed step falls due at an accepted exchange: made, or refused (R81). -/
def Block.stepDue (b : Block) (u : UnitRef) (th2s : List Int) : Block :=
  if b.stepRefused u then b.mServo u fun s => { s with stepRef := true, stepArm := false }
  else b.stepBy u (median th2s)

/-! ### Selection at a TSU -/

/-- The TWIN switch to plane q (R25, R85): the input becomes θother + Δ, and Δ is walked to zero. -/
def Block.switchTo (b : Block) (q : Plane) : Block :=
  let now := b.tc
  let x := b.lane (.tsu q)
  let b := b.mServo .tsu fun s => { s with
    switched := true, switchCnt := sat1 s.switchCnt, walk := s.delta.toInt * 781250, walkAt := now,
    delta := 0 - s.delta
    wtrA := false, wtrB := false }
  b.mTime .tsu fun t => { t with selB := q == .B, promise := t.promise && x.reg.refined && x.reg.pcalRx }

/-- The wait of R83 starts afresh where its condition fails. -/
def Block.wtrKeep (b : Block) : Block :=
  let s := b.tsu.servo
  let ok (p : Plane) := b.estValid (.tsu p) && decide (s.delta.toInt.natAbs ≤ 320)
  let both := b.estValid (.tsu .A) && b.estValid (.tsu .B)
  b.mServo .tsu fun s => { s with
    wtrA := s.wtrA && ok .A, wtrB := s.wtrB && ok .B, delta := if both then s.delta else 0 }

/-- Follows the rules of R83 to R88 after a change of lanes, estimators, SERVO fields or FORCE. In TWIN mode the switch
that a lost plane calls for is the event TWIN_SWITCH. -/
def Block.reselect (b : Block) : Block :=
  let b := b.wtrKeep
  if !b.timeOk then b else
  let s := b.tsu.servo
  let sel := b.selPlane
  match s.state with
  | .lost | .free => b
  | .hold =>
    match b.bestPlane b.selectable with
    | some p => (b.mTime .tsu fun t => { t with selB := p == .B }).measure .tsu
    | none => b
  | _ =>
    if !s.selMade then
      match b.bestPlane b.selectable with
      | some p =>
        (b.mTime .tsu fun t => { t with selB := p == .B }).mServo .tsu fun s => { s with selMade := true }
      | none => b
    else if b.selectable sel then
      let q := (flipP sel)
      if b.twinMode && b.selectable q && decide (b.planeRank sel < b.planeRank q) && (s.revert || s.forces q) then
        b.switchTo q
      else b
    else if b.twinMode && b.selectable (flipP sel) then b
    else b.enterHold .tsu

/-- TWIN_SWITCH: the selected plane has stopped being selectable and the other is selectable (R85). -/
def Block.twinSwitch (b : Block) : Block :=
  let b := b.wtrKeep
  let sel := b.selPlane
  let s := b.tsu.servo
  if b.timeOk && b.twinMode && s.selMade && s.state != .hold && s.state != .lost && !b.selectable sel &&
      b.selectable (flipP sel) then b.switchTo (flipP sel)
  else b

/-- PLANE_WTR_EXPIRE: the plane's period of R83 has ended with its condition met throughout. -/
def Block.planeWtr (b : Block) (p : Plane) : Block :=
  let s := b.tsu.servo
  if (p == b.selPlane && s.state != .hold) || !b.estValid (.tsu p) || decide (320 < s.delta.toInt.natAbs) then b
  else (b.mServo .tsu fun s => match p with
    | .A => { s with wtrA := true } | .B => { s with wtrB := true }).reselect

def execTwinSwitch (s : State) : Host.Outcome State Fault Refusal := s.run Block.twinSwitch

def execPlaneWtrExpire (p : Plane) (s : State) : Host.Outcome State Fault Refusal := s.run fun b => b.planeWtr p

/-! ### An accepted exchange at the selected source -/

/-- Runs of exchanges within LOCK_THR and beyond UNLOCK_THR (R78). -/
def Block.lockCount (b : Block) (u : UnitRef) (th2 : Int) : Block :=
  let b := b.mServo u fun s => { s with
    lockRun := if th2.natAbs ≤ 2 * s.lockThr.toNat then s.lockRun + 1 else 0
    unlockRun := if 2 * s.unlockThr.toNat < th2.natAbs then s.unlockRun + 1 else 0 }
  let s := b.servoOf u
  if s.state == .locked then
    if 16 ≤ s.unlockRun then (b.loseLock u).measure u else b
  else if 1024 ≤ s.lockRun then b.mServo u fun s => { s with state := .locked }
  else b

/-- The loop's input for one accepted exchange or edge, once TIME_VALID is set (R74, R78, R80, R81). -/
def Block.servoIn (b : Block) (u : UnitRef) (th2 : Int) (th2s : List Int) : Block :=
  let s := b.servoOf u
  if s.stepArm then b.stepDue u th2s
  else match s.state with
  | .hold | .lost | .free => b
  | _ =>
    if s.measuring then
      let b := b.mServo u fun s => { s with thHist := th2 :: s.thHist }
      let h := (b.servoOf u).thHist
      if 16 ≤ h.length then b.measured u (median h) else b
    else (b.servoPi u).lockCount u th2

/-- The Δ still walked out after `now - walkAt` ticks (R85). -/
def Servo.walkNow (s : Servo) (now : Tick) : Int :=
  let d := Tick.diff now s.walkAt
  if 0 < s.walk then max 0 (s.walk - d) else min 0 (s.walk + d)

/-- Before TIME_VALID: the count follows the source, and 16 accepted exchanges from a source with TV = 1 acquire (R79). -/
def Block.acquire (b : Block) (l : LaneRef) (th2 : Int) : Block :=
  let u := laneUnit l
  let x := b.lane l
  let b := b.mServo u fun s => { s with state := .acquiring }
  if x.reg.tvRx && decide (16 ≤ x.sync.th2s.length) then
    let (y, b) := b.draw
    let b := b.moveBy u (median x.sync.th2s) false
    let now := b.tcOf u
    let b := b.mServo u fun s => { s with fTrack := y.setWidth 32, selMade := true, lockRun := 0, unlockRun := 0 }
      |>.setFfo now (y.setWidth 32)
    b.mTime u fun t => { t with timeValid := true }
  else
    let ticks := Int.tdiv (-th2) 1280
    if ticks = 0 ∨ (u = .tsu ∧ b.tsu.spine.load.isSome) then b else b.moveBy u (-(1280 * ticks)) false

/-- The source plane of a TSU before TIME_VALID: the first plane with a valid estimator, and until one is valid the
plane an exchange came from (R79). -/
def Block.acqPlane (b : Block) (p : Plane) : Plane :=
  if b.tsu.servo.selMade then b.selPlane
  else match b.bestPlane fun q => b.estValid (.tsu q) with
    | some q => q
    | none => p

/-- An exchange accepted at the TSU on plane p: the filtered estimate and Δ are free values of the filters (R82). -/
def Block.tsuExchange (b : Block) (p : Plane) (th2 : Int) : Block :=
  let l := LaneRef.tsu p
  let (e, b) := b.draw
  let b := b.mSync l fun s => { s with est := (e.setWidth 32).toInt }
  let b :=
    if b.estValid (.tsu .A) && b.estValid (.tsu .B) then
      let (d, b) := b.draw
      b.mServo .tsu fun s => { s with delta := d.setWidth 32 }
    else b.mServo .tsu fun s => { s with delta := 0 }
  if !b.timeOk then
    let q := b.acqPlane p
    if q == p then
      let b := b.mTime .tsu fun t => { t with selB := p == .B, epoch := ((match p with
        | .A => t.epochA | .B => t.epochB).getD t.epoch) }
      b.acquire l th2
    else b
  else
    let b := b.reselect
    if p == b.selPlane then
      let now := b.tc
      let w := b.tsu.servo.walkNow now
      let b := b.mServo .tsu fun s => { s with walk := w, walkAt := now }
      b.servoIn .tsu (th2 + Int.tdiv w 781250) (b.lane l).sync.th2s
    else b

/-! ### A T1 or T2 -/

/-- A lane meets the conditions of the timing lane (R90, R402). -/
def Block.timingOk (b : Block) (n : Nat) : Bool := b.estValid (.dist n)

/-- A lane of the bundle has been lost: HOLD where no lane meets the conditions of R90. -/
def Block.distLoss (b : Block) : Block :=
  if b.dRole = 3 || !b.dist.time.timeValid then b
  else if uplinks.any b.timingOk then b
  else if b.dist.servo.state == .hold || b.dist.servo.state == .lost then b
  else b.enterHold .dist

/-- SHADOW follows the timing lane's offsets (R440). -/
def Block.shadowIn (b : Block) (th2 : Int) : Block :=
  let now := b.dist.time.tc64
  if b.dRole = 3 then b
  else if b.dist.boot.shadow then
    if 320 < th2.natAbs || b.dist.servo.state != .locked then b.mDBoot fun d => { d with shadowAt := now } else b
  else if b.dist.servo.state == .locked && !b.dist.boot.shadowDone && !b.dist.boot.draining then
    b.mDBoot fun d => { d with shadow := true, shadowDone := true, shadowAt := now }
  else b

/-- An exchange accepted at a distributor on uplink lane n (R90). -/
def Block.distExchange (b : Block) (n : Nat) (th2 : Int) : Block :=
  let l := LaneRef.dist n
  if b.dRole = 3 ∨ (b.lane l).reg.topoRes = 2 then b else
  let cur := b.dist.servo.timing
  let curOk := match cur with | some t => b.timingOk t | none => false
  let first := (uplinks.find? b.timingOk).getD n
  let b := if !curOk && first == n then b.mServo .dist fun s => { s with timing := some n } else b
  if b.dist.servo.timing != some n then b
  else if !b.dist.time.timeValid then b.acquire l th2
  else
    let b := if b.dist.servo.state == .hold && b.timingOk n then b.measure .dist else b
    (b.servoIn .dist th2 (b.lane l).sync.th2s).shadowIn th2

/-- The loss of a lane or of its estimator reaches the servo (R85, R86, R90). -/
def Block.servoLoss (b : Block) (l : LaneRef) : Block :=
  match l with
  | .tsu _ => b.reselect.promise
  | .dist n => if n < 288 then b else b.distLoss

/-- STEP_ARM written in the register of a unit (R81): a non-secure write is a violation and is refused. -/
def Block.stepArmWrite (b : Block) (q : Req) (u : UnitRef) : Block :=
  if q.secure then b.armStep u
  else if (b.servoOf u).stepArm then b
  else (b.violate q.src q true 0x1400).mServo u fun s => { s with stepRef := true, stepArm := false }

/-- STEP_ARM (R81). -/
def execStepArm (a : Access) (u : UnitRef) (s : State) : Host.Outcome State Fault Refusal :=
  match u with
  | .tsu => s.run fun b => b.regCmd (portReq a) 0x1400 true fun b => b.stepArmWrite (portReq a) .tsu
  | .dist => s.run fun b => if a.secure then b.armStep .dist else
      b.mServo .dist fun s => { s with stepRef := true, stepArm := false }

end Sys2Proof.Machine
end

