-- ==== Sys2Proof/Machine/Spine.lean ====
section
/-! DEFINITION. LOAD takes effect (R28, R36, R81, R271), and the end of spine calibration (R29, R394). -/

namespace Sys2Proof.Machine

open Sys2Proof

/-- Tick L of a pending LOAD has come: the count and the replicas take V. An authorised step sets TIME_DISCONTINUITY,
captures and fires what it jumps over. -/
def Block.loadTake (b : Block) : Block :=
  match b.tsu.spine.load with
  | none => b
  | some (v, l) =>
    if !b.due l then b
    else
      let t0 := b.tc
      let new := v + (t0 - l)
      let step := b.tsu.spine.loadStep
      let b := b.mSpine fun s => { s with load := none, loadStep := false, replica := new }
      let b := b.mTime .tsu fun t => { t with tc64 := new, timeDisc := t.timeDisc || step }
      let b := b.mTsu fun t => { t with
        laneA := t.laneA.moveTs (v - l), laneB := t.laneB.moveTs (v - l) }
      if step then ((b.vitStep t0 true).vitStep t0 false).timersStep t0 else b

/-- SPINE_LOAD_TAKE (R28). -/
def execSpineLoadTake (s : State) : Host.Outcome State Fault Refusal := s.run Block.loadTake

/-- Spine calibration ends; at bring-up restart calibration follows it (R126, R394). -/
def Block.spineCalDone (b : Block) (ms : List EpMeas) : Block :=
  if !b.tsu.spine.calBusy then b
  else
    let b := ((b.calEnd ms).mBoot fun t => { t with spineEnded := true }).promise
    if b.tsu.boot.rstEnded || b.tsu.lctl.rstBusy then b else b.rstBegin

/-- SPINE_CAL_DONE (R29). -/
def execSpineCalDone (ms : List EpMeas) (s : State) : Host.Outcome State Fault Refusal := s.run fun b => b.spineCalDone ms

end Sys2Proof.Machine
end

