-- ==== Sys2Proof/Machine/CollTsu.lean ====
section
/-! DEFINITION. The collective engine of the TSU (R186-R193, R207, R209, R214-R221, R223, R224). -/

namespace Sys2Proof.Machine

open Sys2Proof

/-! ### Slots, lanes and frames -/

/-- The world of an operation slot: that of the context it names (R188). -/
def Block.collWorld (b : Block) (n : Nat) : Bool := b.ctxWorld (b.collSlot n).desc.ctx

/-- The states in which an operation is in progress (R224 BUSY). -/
def CollSt.busy : CollSt → Bool
  | .idle | .done => false
  | _ => true

/-- The states in which an operation awaits its result. -/
def CollSt.awaits : CollSt → Bool
  | .gather | .sent | .phase2 | .waitRes => true
  | _ => false

/-- The CSF of a slot's frames (R211). -/
def CDesc.addr (d : CDesc) : CollAddr := ⟨d.cobj, d.seq, d.group.setWidth 16⟩

/-- The die is the root of a BCAST (R210). -/
def Block.isRoot (b : Block) (d : CDesc) : Bool := d.scope == 0 || b.tsu.boot.ldi == d.root

/-- How many sources the die reads (R191, R210). -/
def Block.nSources (b : Block) (d : CDesc) : Nat := if d.op = opBCAST ∧ !b.isRoot d then 0 else d.nsrc

/-- The header of the die's frames (R212). -/
def Block.collHdr (b : Block) (d : CDesc) (npres : Nat) : Contrib :=
  { op := BitVec.ofNat 8 d.op, fmt := BitVec.ofNat 3 d.fmt, ofmt := BitVec.ofNat 3 d.ofmt, last := false, raw := false
    root := decide (d.op = opBCAST) && b.isRoot d, idxmode := d.idxmode, scope := d.scope, vl := BitVec.ofNat 16 d.vl
    k := BitVec.ofNat 16 d.k, first := 0, nel := 0, npres := BitVec.ofNat 32 npres, deadline := d.deadline, ccrc := 0
    rootLdi := d.root, nmiss := 0, recs := [], missing := [] }

/-- Sends frames on the lanes that the operation uses (R215). -/
def Block.collSend (b : Block) (n : Nat) (fs : List FrameBody) : Block :=
  let s := b.collSlot n
  let w := b.collWorld n
  let on (use : Bool) (p : Plane) (b : Block) := if use then b.each fs fun b f => b.send (.tsu p) w f else b
  on s.useB .B (on s.useA .A b)

/-- The die's own missing entry (R187, R220, R221). -/
def Block.ownMissing (b : Block) : BitVec 32 := b.tsu.boot.ldi.setWidth 32

/-- Sends ABSENT, listing the die's own LDI (R219-R221, R223). The sources received count no longer. -/
def Block.collAbsent (b : Block) (n : Nat) : Block :=
  let d := (b.collSlot n).desc
  let b := b.collSend n ((framesOf (b.collHdr d 0) [] [b.ownMissing] 1).map (.absent d.addr))
  b.mCollSlot n fun s => { s with
    st := .sent
    srcs := (if s.srcs.isEmpty then [.corrupt] else s.srcs).map fun x => match x with
      | .wait => .wait
      | _ => .corrupt }

/-! ### Completion (R216, R218) -/

/-- The completion record. -/
def complRec (d : CDesc) (f : CDone) (tDone : Tick) (nres : Nat) : Bytes :=
  toLE 2 d.seq.toNat ++ toLE 1 d.op ++ toLE 1 f.code.toNat ++ toLE 4 f.flags.toNat ++ toLE 2 d.cobj.toNat ++
  toLE 2 f.nmiss.toNat ++ toLE 4 f.npres.toNat ++ toLE 8 tDone.toNat ++ toLE 2 f.nempty.toNat ++ toLE 2 nres ++ toLE 4 0

/-- An operation's channel is enabled, of this direction, and of the slot's world (R189, R234). -/
def Block.chFits (b : Block) (ch : Nat) (out world : Bool) : Bool :=
  decide (ch < 64) && (b.strCh ch).st == .on && (b.strCh ch).dir == out && (b.strCh ch).world == world

/-- The channels of the sources that are still awaited. -/
def CollSlot.waitChs (s : CollSlot) : List Nat :=
  (s.srcs.zip (List.range s.srcs.length)).filterMap fun e => if e.1 = .wait then some (s.desc.ich + e.2) else none

/-- A slot's operation ends with sources still awaited: an open burst of theirs is discarded (R305), and where the
operation completed without being cancelled so is a burst that has not begun (R187). -/
def Block.collUnhook (b : Block) (n : Nat) (cancelled : Bool) : Block :=
  b.each (b.collSlot n).waitChs fun b ch =>
    let isOpen := (b.strCh ch).inq.any fun i => !i.closed
    b.mStrCh ch fun c =>
      if isOpen then { c with inq := c.inq.filter (·.closed), skip := true }
      else if cancelled then c else { c with late := true }

/-- The burst of a completion, and STATE OUTPUT: no burst where OCH itself is not configured (R216). -/
def Block.collFinish (b : Block) (n : Nat) (f : CDone) (nres : Nat) (elems : Bytes) (missing : List (BitVec 32)) : Block :=
  let d := (b.collSlot n).desc
  let b := (b.collUnhook n false).mCollSlot n fun s => { s with st := .output, fin := f, srcs := [] }
  if f.code = 4 ∧ !b.chFits d.och true (b.collWorld n) then b
  else b.present (.coll (BitVec.ofNat 4 n)) d.och
    (pad64 elems ++ complRec d f b.tc nres ++ (missing.take 32).flatMap fun m => toLE 4 m.toNat)

/-- A completion without result elements (R216). -/
def Block.collFail (b : Block) (n : Nat) (code : BitVec 3) (flags : BitVec 9) (nmiss : BitVec 16) (npres : BitVec 32)
    (missing : List (BitVec 32)) : Block :=
  b.collFinish n { code := code, flags := flags, nmiss := nmiss, nempty := 0, npres := npres } 0 [] missing

/-- STATE becomes DONE: COLL_STAT shows the completion, and it is counted (R218, R224). -/
def Block.collDone (b : Block) (n : Nat) : Block :=
  let f := (b.collSlot n).fin
  (b.mCollSlot n fun s => { s with
    st := .done, code := f.code, flags := f.flags, nmiss := f.nmiss, nempty := f.nempty, npres := f.npres }).mColl fun c =>
      { c with ops := sat1 c.ops, notOk := if f.code = 0 then c.notOk else sat1 c.notOk }

/-- The first 8 bytes of the completion record, as a word (R218). -/
def CollSlot.rec8 (s : CollSlot) : BitVec 64 := BitVec.ofNat 64 (ofLE ((complRec s.desc s.fin 0 0).take 8))

/-- Raises the slot's signal (R218), then DONE. -/
def Block.collSignal (b : Block) (n : Nat) : Block :=
  let s := b.collSlot n
  let d := s.desc
  let q := b.ctxReq d.ctx
  let b := match d.sigKind with
    | 1 => (b.wordNow q 3 d.sigAddr 4 ((orOne d.sigData).setWidth 64)).2
    | 2 => (b.wordNow q 3 d.sigAddr 3 s.rec8).2
    | 3 => match b.xlat d.ctx (d.sigAddr % 1024) with
      | none => b
      | some i => (b.arriveAt i (b.slot i).sense d.sigData
          (d.sigVoid && (s.fin.code != 0 || s.fin.flags.getLsbD 8)) none).2
    | _ => b
  b.collDone n

/-- The output burst has been written: the signal is raised, or held for ENGINE or its word (R163, R346). -/
def Block.collOutDone (b : Block) (n : Nat) : Block :=
  let s := b.collSlot n
  let e : EngOp := .collSig n
  if s.st != .output || !b.flushed (.coll (BitVec.ofNat 4 n)) || b.tsu.held.contains e then b
  else if s.desc.sigKind = 0 then b.collDone n
  else if s.desc.sigKind = 3 then b.onEngine e fun b => b.collSignal n
  else b.onWord s.desc.sigAddr e fun b => b.collSignal n

/-- COLL_OUTPUT_DONE (R218). -/
def execCollOutputDone (n : BitVec 4) (s : State) : Host.Outcome State Fault Refusal :=
  s.run fun b => b.collOutDone n.toNat

/-! ### Delivery of a result (R198-R200, R208, R217) -/

/-- Reads the permutation; none where a word's W, or its region, forbids it. -/
def Block.readPerm (b : Block) (q : Req) (base : Nat) : Nat → Nat → Option (List Nat) × Block
  | 0, _ => (some [], b)
  | m + 1, i =>
    let (r, b) := b.wordRead q 3 ((base + i) % 524288)
    if r.1 = stDENIED then (none, b)
    else
      let (rest, b) := Block.readPerm b q base m (i + 1)
      (rest.map fun l => (List.range 4).map (fun j => (fld r.2 (16 * j) 16).toNat) ++ l, b)

/-- Delivers an OK result. -/
def Block.collDeliver (b : Block) (n : Nat) (recs recs2 : List CRec) (npres : BitVec 32) (planeB : Bool) : Block :=
  let d := (b.collSlot n).desc
  let (es, fl, nres) := d.results recs recs2
  let plane : BitVec 9 := if planeB then 0x40 else 0
  let (perm, b) := if d.permEn then b.readPerm (b.ctxReq d.ctx) d.permBase ((d.nout + 3) / 4) 0 else (some [], b)
  match perm with
  | none => b.collFail n 6 plane 0 npres []
  | some p =>
    let (es, range) := if d.permEn then d.permute es (p.take d.nout) else (es, false)
    let empty := if d.op = opTOPK then nres == 0 else fl.nempty != 0
    b.collFinish n { code := 0, flags := fl.word empty range ||| plane, nmiss := 0,
                     nempty := BitVec.ofNat 13 fl.nempty, npres := npres } nres es.flatten []

/-! ### Gathering and contributing (R187, R191, R207, R219, R221) -/

/-- The bursts that the sources have sent. -/
def CollSlot.bursts (s : CollSlot) : List Bytes :=
  s.srcs.map fun x => match x with | .data d => d | _ => []

/-- Every source the operation reads has sent a whole burst. -/
def CollSlot.whole (s : CollSlot) : Bool := s.srcs.all fun x => match x with | .data _ => true | _ => false

/-- A DIE operation is complete: the TSU is its completing point (R187). -/
def Block.collDie (b : Block) (n : Nat) : Block :=
  let s := b.collSlot n
  let d := s.desc
  let r1 := d.records true s.bursts
  let r2 := if d.op = opSSUM ∧ needsPhase2 r1 then d.records2 (ksOf r1) s.bursts else []
  b.collDeliver n r1 r2 1 false

/-- Combines the sources and sends the die's contribution, sends ABSENT for a corrupt source, or completes a DIE operation;
while ENGINE is stopped the work waits (R186, R187, R219, R221). -/
def Block.collTry (b : Block) (n : Nat) : Block :=
  let s := b.collSlot n
  let d := s.desc
  if s.st != .gather then b
  else if !b.engOn then b.demand
  else if s.srcs.contains .corrupt then
    if d.scope = 0 then b.collFail n 1 0 1 0 [b.ownMissing] else b.collAbsent n
  else if !s.whole then b
  else if d.scope = 0 then b.demand.collDie n
  else
    let fs := framesOf (b.collHdr d 1) (encAll d.op d.fmt (d.records (b.isRoot d) s.bursts)) [] 0
    (b.demand.collSend n (fs.map (.contrib d.addr))).mCollSlot n fun s => { s with st := .sent }

/-- A source's burst has come: whole, or corrupt for its length, its BCRC or TRUNC (R191). After ABSENT it is discarded. -/
def Block.collSource (b : Block) (n i : Nat) (x : InBurst) : Block :=
  let s := b.collSlot n
  let src : CollSrc := if s.st != .gather || x.corrupt || x.data.length != s.desc.burstLen then .corrupt else .data x.data
  (b.mCollSlot n fun s => { s with srcs := s.srcs.set i src }).collTry n

/-- The slot and source that await a burst on a channel, lowest slot first. -/
def Block.collAwaits (b : Block) (ch : Nat) : Option (Nat × Nat) :=
  (List.range 16).findSome? fun n =>
    let s := b.collSlot n
    let i := ch - s.desc.ich
    if s.st.awaits && decide (s.desc.ich ≤ ch) && s.srcs.getD i .corrupt == .wait then some (n, i) else none

/-- The stall counts of open bursts do not count the ticks since the host's last credit was used (R300). -/
def Block.stallShift (b : Block) : Block :=
  let gap := b.tc - b.tsu.str.zeroAt
  b.mStr fun s => { s with
    chs := smMap {} (fun c => if c.inq.any (fun i => !i.closed) then { c with lastBeat := c.lastBeat + gap } else c) s.chs }

/-- Credits go back to the host as beats leave the input buffer or are discarded (R298). -/
def Block.credit (b : Block) (k : Nat) : Block :=
  if k = 0 then b
  else
    let b := if b.tsu.str.hostCr = 0 then b.stallShift else b
    (b.mStr fun s => { s with hostCr := s.hostCr + k }).emit (.strCredit k)

/-- Gives the oldest whole burst of a channel to the slot that names it, and once more for each burst that follows. -/
def Block.feed : Nat → Block → Nat → Block
  | 0, b, _ => b
  | f + 1, b, ch =>
    match (b.strCh ch).inq with
    | x :: rest =>
      if !x.closed then b
      else match b.collAwaits ch with
        | none => b
        | some (n, i) =>
          let b := (b.mStrCh ch fun c => { c with inq := rest }).credit x.held
          Block.feed f (b.collSource n i x) ch
    | [] => b

/-- At the head of a channel whose consumer has been issued lies an open burst: its beats leave the buffer. -/
def Block.drainOpen (b : Block) (ch : Nat) : Block :=
  match (b.strCh ch).inq with
  | x :: rest =>
    if !x.closed && (b.collAwaits ch).isSome then
      (b.mStrCh ch fun c => { c with inq := { x with held := 0 } :: rest }).credit x.held
    else b
  | [] => b

/-! ### Issue (R189) -/

/-- The checks of R189. -/
def Block.collBad (b : Block) (n : Nat) : Bool :=
  let d := (b.collSlot n).desc
  let w := b.collWorld n
  decide (12 ≤ d.op) || d.planes == 3 && d.scope != 0 || d.vl == 0 || decide (4096 < d.vl) || d.nsrc == 0 || decide (8 < d.nsrc) ||
    (d.op == opTOPK && (d.k == 0 || decide (256 < d.k))) || !fmtPair d.op d.fmt d.ofmt ||
    !b.chFits d.och true w || ((List.range (b.nSources d)).any fun i => !b.chFits (d.ich + i) false w) ||
    (d.permEn && decide (524288 < d.permBase + (d.nout + 3) / 4)) ||
    (d.sigKind == 3 && (b.xlat d.ctx (d.sigAddr % 1024)).isNone) || (d.scope != 0 && !b.timeOk)

/-- ISSUE (R188, R189, R215). -/
def Block.collIssue (b : Block) (n : Nat) : Block :=
  let s := b.collSlot n
  if s.st.busy then b.mCollSlot n fun s => { s with issueLost := true }
  else
    let d := s.desc
    let use (p : Plane) (k : Nat) := d.scope != 0 && d.planes != k && b.usable (.tsu p) 3 (opFeature d.op)
    let a := use .A 2
    let c := use .B 1
    let b := (b.mCollSlot n fun s => { s with
      st := .gather, useA := a, useB := c, resA := {}, resB := {}, kdown := none, kdA := [], kdB := [], kbadA := false,
      kbadB := false, given := none, givenB := false, srcs := [] }).demand
    if b.collBad n then b.collFail n 4 0 0 0 []
    else if d.scope != 0 && !a && !c then b.collFail n 2 0 0 0 []
    else
      let k := b.nSources d
      let chs := (List.range k).map (· + d.ich)
      let b := b.each chs fun b ch => b.mStrCh ch fun c => { c with late := false }
      let b := b.mCollSlot n fun s => { s with srcs := List.replicate k .wait }
      (b.each chs fun b ch => (Block.feed 8 b ch).drainOpen ch).collTry n

def collReg (n off : Nat) : Nat := 0x8000 + 0x80 * n + off

/-- A write of COLL_CMD (R188, R224). -/
def State.collCmd (a : Access) (n : BitVec 4) (f : Block → Nat → Block) (s : State) : Host.Outcome State Fault Refusal :=
  s.run fun b => b.regCmd (portReq a) (collReg n.toNat 0x30) (worldOk (portReq a) (b.collWorld n.toNat)) fun b => f b n.toNat

/-- COLL_ISSUE (R189). -/
def execCollIssue (a : Access) (n : BitVec 4) (s : State) : Host.Outcome State Fault Refusal := s.collCmd a n Block.collIssue

/-- CANCEL (R223): ABSENT where the contribution has not gone; no burst, no signal. -/
def Block.collCancel (b : Block) (n : Nat) : Block :=
  let s := b.collSlot n
  if !s.st.awaits then b
  else
    let b := if s.st = .gather ∧ s.desc.scope ≠ 0 then b.collAbsent n else b
    ((b.collUnhook n true).mCollSlot n fun s => { s with srcs := [], fin := { code := 5 } }).collDone n

/-- COLL_CANCEL (R223). -/
def execCollCancel (a : Access) (n : BitVec 4) (s : State) : Host.Outcome State Fault Refusal := s.collCmd a n Block.collCancel

/-- CNT_CLR = 1 (R224). -/
def Block.collCntClr (b : Block) : Block := b.mColl fun c => { c with diff := 0, late := 0, ops := 0, notOk := 0 }

/-- COLL_CNT_CLR (R224). -/
def execCollCntClr (a : Access) (s : State) : Host.Outcome State Fault Refusal :=
  s.run fun b => b.regCmd (portReq a) 0x8800 true Block.collCntClr

/-- The TSU's cut tick: DEADLINE itself at scope DIE (R187, R219). -/
def Block.cutTick (b : Block) (d : CDesc) : Tick :=
  if d.scope = 0 then d.deadline else d.deadline - b.tsu.coll.cutTsu.setWidth 64

/-- The cut of the TSU (R187, R219). -/
def Block.collCutTsu (b : Block) (n : Nat) : Block :=
  let s := b.collSlot n
  if s.st != .gather || !b.due (b.cutTick s.desc) || !s.srcs.contains .wait then b
  else if s.desc.scope = 0 then b.collFail n 1 0 1 0 [b.ownMissing]
  else b.collAbsent n

/-! ### KDOWN and RESULT (R207, R209, R214, R215, R221, R223) -/

/-- The slot whose operation a frame names: one in progress first, else one that has completed. -/
def Block.collFind (b : Block) (a : CollAddr) : Option Nat :=
  let hit (n : Nat) : Bool := let d := (b.collSlot n).desc; d.scope != 0 && d.cobj == a.cobj && d.seq == a.seq
  match (List.range 16).find? fun n => hit n && (b.collSlot n).st.busy with
  | some n => some n
  | none => (List.range 16).find? fun n => hit n && (b.collSlot n).st == .done

def CollSlot.uses (s : CollSlot) (p : Plane) : Bool := match p with | .A => s.useA | .B => s.useB
def CollSlot.acc (s : CollSlot) (p : Plane) : CollAcc := match p with | .A => s.resA | .B => s.resB
def CollSlot.mAcc (s : CollSlot) (p : Plane) (f : CollAcc → CollAcc) : CollSlot :=
  match p with
  | .A => { s with resA := f s.resA }
  | .B => { s with resB := f s.resB }

def Block.collCrc (b : Block) : Block := b.mColl fun c => { c with ccrcErr := sat1 c.ccrcErr }

/-- K of the rows that one KDOWN frame carries. -/
def ksOfFrame (p : Contrib) : List Int :=
  (List.range p.nel.toNat).map fun i => (BitVec.ofNat 32 (beAt p.recs (4 * i) 4)).toInt

/-- Phase 2 begins: the die's terms go up (R207). -/
def Block.collPhase2 (b : Block) (n : Nat) (ks : List Int) : Block :=
  let s := b.collSlot n
  let d := s.desc
  if !(s.st == .sent || s.st == .waitRes) || !s.whole then b
  else
    let fs := framesOf (b.collHdr d 1) (encAll opSUM 0 (d.records2 ks s.bursts)) [] 0
    (b.demand.collSend n (fs.map (.ssum2 d.addr))).mCollSlot n fun s => { s with
      st := if s.st == .sent then .phase2 else s.st }

/-- KDOWN at the TSU. -/
def Block.kdownTsu (b : Block) (pl : Plane) (a : CollAddr) (p : Contrib) : Block :=
  match b.collFind a with
  | none => b
  | some n =>
    let s := b.collSlot n
    if !s.uses pl || s.desc.op != opSSUM then b
    else
      let bad := crc32c p.recs != p.ccrc
      let b := if bad then b.collCrc else b
      let b := b.mCollSlot n fun s => match pl with
        | .A => { s with kdA := s.kdA ++ ksOfFrame p, kbadA := s.kbadA || bad }
        | .B => { s with kdB := s.kdB ++ ksOfFrame p, kbadB := s.kbadB || bad }
      let s := b.collSlot n
      let (ks, bad) := match pl with
        | .A => (s.kdA, s.kbadA)
        | .B => (s.kdB, s.kbadB)
      if !p.last || bad then b
      else match s.kdown with
        | some k0 => if k0 = ks then b else b.mColl fun c => { c with diff := sat1 c.diff }
        | none => (b.mCollSlot n fun s => { s with kdown := some ks }).collPhase2 n ks

/-- The tick to which the TSU waits for a result (R209, R215, R221). -/
def Block.graceTick (b : Block) (s : CollSlot) : Tick :=
  let window := if s.desc.op = opSSUM ∧ (s.kdown.isSome ∨ s.resA.last.isSome ∨ s.resB.last.isSome) then
    b.catNat .tsu 0x4004 0 else 0
  s.desc.deadline + BitVec.ofNat 64 window + b.tsu.coll.resGrace.setWidth 64

/-- The result's header names the operation of this die's descriptor (R190). -/
def sameOp (x y : Contrib) : Bool :=
  x.op == y.op && x.fmt == y.fmt && x.ofmt == y.ofmt && x.vl == y.vl && x.k == y.k && x.idxmode == y.idxmode &&
    x.scope == y.scope && x.deadline == y.deadline && x.rootLdi == y.rootLdi

/-- A result as it is compared with the other plane's: what frames it came in plays no part. -/
def normRes (r : CollResult) : CollResult :=
  { r with c := { r.c with first := 0, nel := 0, ccrc := 0, recs := [], last := true } }

/-- RCODE as the TSU takes it: MIXED where the header is not the die's own (R190). -/
def Block.rcode (b : Block) (n : Nat) (a : CollAddr) (r : CollResult) : CollResult :=
  let d := (b.collSlot n).desc
  if sameOp { r.c with rootLdi := d.root } (b.collHdr d 0) && a == d.addr then r else { r with rcode := 3 }

/-- The result of a lane is taken: delivered, or completed with its code. -/
def Block.collTake (b : Block) (n : Nat) (pl : Plane) (r : CollResult) : Block :=
  let s := b.collSlot n
  let isB := pl == .B
  let recs := (s.acc pl).recs
  let d := s.desc
  let b := b.mCollSlot n fun s => { s with given := some (normRes r, recs), givenB := isB }
  if r.rcode = 0 then
    let n1 := if d.op = opTOPK then 1 else d.vl
    let r1 := if d.op = opTOPK then [recs.foldl (combineRec d.op (fmtD d.fmt) d.k) (emptyRec d.op)] else recs.take n1
    b.demand.collDeliver n r1 (recs.drop n1) r.c.npres isB
  else b.collFail n (r.rcode.setWidth 3) (if isB then 0x40 else 0) r.c.nmiss r.c.npres r.c.missing

/-- A whole result has come on a lane (R215). -/
def Block.collResult (b : Block) (n : Nat) (pl : Plane) (r : CollResult) : Block :=
  let s := b.collSlot n
  if !s.st.awaits then
    match s.given with
    | some (g, recs) =>
      if s.givenB == (pl == .B) ∨ (g = normRes r ∧ recs = (s.acc pl).recs) then b
      else b.mColl fun c => { c with diff := sat1 c.diff }
    | none => b
  else if r.rcode = 0 then b.collTake n pl r
  else
    let other : Plane := match pl with | .A => .B | .B => .A
    if !s.uses other then b.collTake n pl r
    else match (s.acc other).last with
      | none => b.mCollSlot n fun s => { s with st := .waitRes }
      | some o =>
        let mine := decide (r.c.nmiss.toNat < o.c.nmiss.toNat) || (r.c.nmiss == o.c.nmiss && pl == .A)
        if mine then b.collTake n pl r else b.collTake n other o

/-- The shape of record i of a RESULT: an SSUM's sums follow its phase-1 records. -/
def resKind (op vl i : Nat) : RecKind := if op = opSSUM ∧ vl ≤ i then .sum else recKind op

/-- RESULT at the TSU. -/
def Block.resultTsu (b : Block) (pl : Plane) (a : CollAddr) (p : CollResult) : Block :=
  match b.collFind a with
  | none => b
  | some n =>
    let s := b.collSlot n
    let d := s.desc
    if !s.uses pl then b
    else if crc32c p.c.recs != p.c.ccrc then (b.mCollSlot n fun s => s.mAcc pl fun x => { x with bad := true }).collCrc
    else if !s.st.awaits && (s.fin.flags.getLsbD 7 || decide (0 < Tick.diff b.tc (b.graceTick s))) then
      if p.c.last then b.mColl fun c => { c with late := sat1 c.late } else b
    else
      let same := p.c.op.toNat == d.op && p.c.fmt.toNat == d.fmt
      let rs := if same then decRecs (resKind d.op d.vl) (fmtD d.fmt).width p.c.nel.toNat p.c.first.toNat p.c.recs else some []
      match rs with
      | none => b.mCollSlot n fun s => s.mAcc pl fun x => { x with bad := true }
      | some rs =>
        let b := b.mCollSlot n fun s => s.mAcc pl fun x => { x with recs := x.recs ++ rs }
        if !p.c.last || ((b.collSlot n).acc pl).bad then b
        else
          let r := b.rcode n a p
          (b.mCollSlot n fun s => s.mAcc pl fun x => { x with last := some r }).collResult n pl r

/-- RES_GRACE ends (R215, R221): a result that is not OK is delivered, or the operation completes with NORES. -/
def Block.graceEnd (b : Block) (n : Nat) : Block :=
  let s := b.collSlot n
  if !s.st.awaits || s.desc.scope == 0 || !b.due (b.graceTick s) then b
  else match s.resA.last, s.resB.last with
    | some r, _ => b.collTake n .A r
    | none, some r => b.collTake n .B r
    | none, none => b.collFail n 1 0x80 0 0 []

/-- RES_GRACE_EXPIRE (R221). -/
def execResGraceExpire (n : BitVec 4) (s : State) : Host.Outcome State Fault Refusal :=
  s.run fun b => b.graceEnd n.toNat

end Sys2Proof.Machine
end

