-- ==== Sys2Proof/Machine/StrIn.lean ====
section
/-! DEFINITION. The input side of the stream port, and the enables of its channels (R296-R301, R304-R306, R406). -/

namespace Sys2Proof.Machine

open Sys2Proof

/-- A beat is discarded: DISC, and its credit at once (R301). -/
def Block.discBeat (b : Block) (ch : Nat) : Block :=
  (b.mStrCh ch fun c => { c with disc := true, discBeats := sat1 c.discBeats }).credit 1

/-- The open burst of a channel, if any. -/
def StrCh.openBurst (c : StrCh) : Option InBurst := c.inq.find? fun i => !i.closed

/-- Changes the open burst. -/
def StrCh.mOpen (c : StrCh) (f : InBurst → InBurst) : StrCh :=
  { c with inq := c.inq.map fun i => if i.closed then i else f i }

/-- Closes the open burst TRUNC: its data goes, and its consumer sees a corrupt source (R300). -/
def Block.truncBurst (b : Block) (ch : Nat) : Block :=
  match (b.strCh ch).openBurst with
  | none => b
  | some i =>
    let b := b.mStrCh ch fun c =>
      { c.mOpen fun i => { i with data := [], held := 0, closed := true, corrupt := true } with
        trunc := true, truncCnt := sat1 c.truncCnt }
    Block.feed 8 (b.credit i.held) ch

/-- The beat extends the open burst of its channel, and may end it (R191, R297, R300). -/
def Block.extendBurst (b : Block) (ch : Nat) (x : Beat) : Block :=
  let b := b.mStrCh ch fun c =>
    { c.mOpen fun i => { i with data := i.data ++ x.data, beats := i.beats + 1, held := i.held + 1 } with lastBeat := b.tc }
  let b := b.drainOpen ch
  match (b.strCh ch).openBurst with
  | none => b
  | some i =>
    if x.eob then
      let bad := crc32c i.data != x.bcrc
      let b := b.mStrCh ch fun c =>
        { c.mOpen fun i => { i with closed := true, corrupt := bad } with
          crcErr := c.crcErr || bad, crcCnt := if bad then sat1 c.crcCnt else c.crcCnt }
      Block.feed 8 b ch
    else if 2048 ≤ i.beats then b.truncBurst ch
    else b

/-- A beat from the host (R296, R298, R300, R301, R305). -/
def Block.strBeat (b : Block) (x : Beat) : Block :=
  if b.tsu.boot.tsuRst || !b.tsu.str.clkOk || b.tsu.str.hostCr == 0 then b
  else
    let ch := x.ch.toNat
    let b := (b.mStr fun s => { s with
      hostCr := s.hostCr - 1, zeroAt := if s.hostCr = 1 then b.tc else s.zeroAt }).demand
    let c := b.strCh ch
    if c.st != .on || c.dir then b.discBeat ch
    else if x.sob then
      let b := b.truncBurst ch
      if (b.strCh ch).late then
        (b.mStrCh ch fun c => { c with late := false, skip := !x.eob }).credit 1
      else (b.mStrCh ch fun c => { c with skip := false, inq := c.inq ++ [{}] }).extendBurst ch x
    else if c.skip then (b.mStrCh ch fun c => { c with skip := !x.eob }).credit 1
    else match c.openBurst with
      | none => b.discBeat ch
      | some _ => b.extendBurst ch x

/-- STREAM_BEAT_RECEIVE (R296). -/
def execStreamBeatReceive (x : Beat) (s : State) : Host.Outcome State Fault Refusal := s.run fun b => b.strBeat x

/-- STALL_LIMIT, where values below 64 act as 64 (R306). -/
def Str.stall (s : Str) : Nat := if s.stallLimit.toNat < 64 then 64 else s.stallLimit.toNat

/-- BURST_STALL_TRUNC: the stall count of an open burst exceeds STALL_LIMIT, while the host holds a credit (R300). -/
def execBurstStallTrunc (ch : BitVec 6) (s : State) : Host.Outcome State Fault Refusal :=
  s.run fun b =>
    let c := b.strCh ch.toNat
    if c.openBurst.isSome && b.tsu.str.hostCr != 0 && decide ((b.tsu.str.stall : Int) < Tick.diff b.tc c.lastBeat) then
      b.truncBurst ch.toNat
    else b

/-- EN = 1: OFF is left at once; in STOPPING, or in Cloakroom, the enable is held (R304, R406, R410). -/
def Block.strEnable (b : Block) (ch : Nat) : Block :=
  b.mStrCh ch fun c =>
    if c.st == .stopping || (c.st == .off && b.tsu.boot.inCloak) then { c with enPend := true }
    else if c.st == .off then { c with st := .on }
    else c

/-- EN = 0: a held enable is cancelled; an enabled channel stops (R304, R406). -/
def Block.strDisable (b : Block) (ch : Nat) : Block :=
  let c := b.strCh ch
  let b := b.mStrCh ch fun c => { c with enPend := false }
  if c.st != .on then b
  else if c.dir then
    ((b.strStopOut ch).mStrCh ch fun c => { c with st := .stopping }).strSettle ch
  else
    let b := b.truncBurst ch
    let held := (b.strCh ch).inq.foldl (fun n i => n + i.held) 0
    ((b.mStrCh ch fun c => { c with st := .stopping, inq := [], skip := false, late := false }).credit held).strSettle ch

def strReg (ch : BitVec 6) : Nat := 0xB100 + 0x20 * ch.toNat

/-- STR_CH_ENABLE (R304, R306). -/
def execStrChEnable (a : Access) (ch : BitVec 6) (s : State) : Host.Outcome State Fault Refusal :=
  s.run fun b => b.regCmd (portReq a) (strReg ch) (worldOk (portReq a) (b.strCh ch.toNat).world) fun b => b.strEnable ch.toNat

/-- STR_CH_DISABLE (R304). -/
def execStrChDisable (a : Access) (ch : BitVec 6) (s : State) : Host.Outcome State Fault Refusal :=
  s.run fun b => b.regCmd (portReq a) (strReg ch) (worldOk (portReq a) (b.strCh ch.toNat).world) fun b => b.strDisable ch.toNat

end Sys2Proof.Machine
end

