-- ==== Sys2Proof/Machine/Gen.lean ====
section
/-! DEFINITION. CG-128 and the generator of the TSU (R226-R237, R250), and the admission of output bursts (R302, R303). -/

namespace Sys2Proof.Machine

open Sys2Proof

/-- One round of CG-128 on x0 to x3 (R227). -/
def cgRound (key : BitVec 128) (r : Nat) (x : BitVec 32 × BitVec 32 × BitVec 32 × BitVec 32) :
    BitVec 32 × BitVec 32 × BitVec 32 × BitVec 32 :=
  let k (i : Nat) : BitVec 32 := key.extractLsb' (32 * (i % 4)) 32
  let n := BitVec.ofNat 32 r
  let ka := k (2 * r) + n * 0x8E6B3C15
  let kb := k (2 * r + 1) + n * 0xB4D92A73
  let p0 : BitVec 64 := 0xCB4F6E35 * x.1.setWidth 64
  let p1 : BitVec 64 := 0xD95A1C27 * x.2.2.1.setWidth 64
  ((p0.extractLsb' 32 32 ^^^ x.2.2.2) + ka, p1.setWidth 32, (p1.extractLsb' 32 32 ^^^ x.2.1) + kb, p0.setWidth 32)

/-- CG-128 (R227, R228). -/
def cg128 (key ctr : BitVec 128) : BitVec 128 :=
  let w (i : Nat) : BitVec 32 := ctr.extractLsb' (32 * i) 32
  let x := (List.range 10).foldl (fun x r => cgRound key r x) (w 0, w 1, w 2, w 3)
  x.2.2.2 ++ x.2.2.1 ++ x.2.1 ++ x.1

/-- The counter of a call (R226). -/
def cgCtr (step : BitVec 48) (stream : BitVec 16) (coord : BitVec 64) : BitVec 128 := step ++ stream ++ coord

/-- The uniform of an output word (R229). -/
def cgUniform (w : BitVec 32) : BitVec 32 :=
  let m := w >>> 8
  if 0x00800000 ≤ m.toNat then 0x3E800000 + m
  else
    let v := 2 * m.toNat + 1
    let e := v.log2
    BitVec.ofNat 32 ((e + 102) * 2 ^ 23 + (v * 2 ^ 23 / 2 ^ e - 2 ^ 23))

/-- The 16 bytes that a call writes, by FORM (R228, R233). -/
def genBytes (form : Nat) (o : BitVec 128) : Bytes :=
  if form = 1 then (List.range 4).flatMap fun i => toLE 4 (cgUniform (o.extractLsb' (32 * i) 32)).toNat
  else toLE 16 o.toNat

/-! ### Slots (R231-R236) -/

def GenSlot.ctx (s : GenSlot) : Nat := (fld s.d0 0 6).toNat
def GenSlot.form (s : GenSlot) : Nat := (fld s.d0 9 2).toNat
def GenSlot.sigKind (s : GenSlot) : Nat := (fld s.d0 12 2).toNat
def GenSlot.och (s : GenSlot) : Nat := (fld s.d0 16 6).toNat
def GenSlot.stream (s : GenSlot) : BitVec 16 := fld s.d0 32 16
def GenSlot.sigAddr (s : GenSlot) : Nat := (fld s.sig 0 19).toNat
def GenSlot.sigData (s : GenSlot) : BitVec 20 := fld s.sig 32 20

/-- The bytes of calls `i` to `i + n - 1` (R233). -/
def GenSlot.calls (s : GenSlot) (i n : Nat) : Bytes :=
  (List.range n).flatMap fun j =>
    genBytes s.form (cg128 s.key (cgCtr s.used s.stream (s.coord + BitVec.ofNat 64 (i + j))))

def genProd (n : Nat) : Producer := .gen (BitVec.ofNat 3 n)

/-- Forms bursts of 256 calls until one waits, the calls are done or a CANCEL stops the slot (R233, R236). -/
def Block.genRun : Nat → Block → Nat → Block
  | 0, b, _ => b
  | f + 1, b, n =>
    let s := b.genSlot n
    if s.st != .run || s.cancel || s.code != 0 || s.ncall.toNat ≤ s.formed ||
        (b.tsu.str.waits.any fun o => o.prod == genProd n) then b
    else
      let k := min 256 (s.ncall.toNat - s.formed)
      let b := (b.mGenSlot n fun s => { s with formed := s.formed + k }).mGen fun g => { g with calls := satAdd g.calls k }
      Block.genRun f (b.present (genProd n) s.och (s.calls s.formed k)) n

/-- The most bursts a slot forms. -/
def genFuel : Nat := 4096

/-- The word that WRITE_FORCE signals (R234). -/
def GenSlot.sigWord (s : GenSlot) : BitVec 64 := s.used.setWidth 64 ||| put 48 s.code ||| putB 51 s.outDrop

/-- Raises the slot's signal (R234), then DONE. -/
def Block.genSignal (b : Block) (n : Nat) : Block :=
  let s := b.genSlot n
  let q := b.ctxReq s.ctx
  let b := match s.sigKind with
    | 1 => (b.wordNow q 4 s.sigAddr 4 ((orOne s.sigData).setWidth 64)).2
    | 2 => (b.wordNow q 4 s.sigAddr 3 s.sigWord).2
    | _ => b
  b.mGenSlot n fun s => { s with st := .done }

/-- A slot completes: its signal is raised, or held for ENGINE or its word, but for CANCELLED (R234, R236). -/
def Block.genEnd (b : Block) (n : Nat) (code : BitVec 3) : Block :=
  let b := b.mGenSlot n fun s => { s with code := code }
  let s := b.genSlot n
  if code = 2 ∨ (s.sigKind ≠ 1 ∧ s.sigKind ≠ 2) then b.mGenSlot n fun s => { s with st := .done }
  else b.onWord s.sigAddr (.genSig n) fun b => b.genSignal n

/-- An issued slot begins once ENGINE runs: GEN_FAULT while ST_OK is 0 (R231, R234). -/
def Block.genBegin (b : Block) (n : Nat) : Block :=
  let s := b.genSlot n
  if s.st != .run || s.formed != 0 || s.cancel || s.code != 0 || b.tsu.held.contains (.genSig n) then b
  else if !b.engOn then b.demand
  else if !b.tsu.gen.stOk then b.demand.genEnd n 3
  else Block.genRun genFuel b.demand n

/-- ISSUE (R232, R234). -/
def Block.genIssue (b : Block) (n : Nat) : Block :=
  let s := b.genSlot n
  if s.st == .run then b.mGenSlot n fun s => { s with issueLost := true }
  else
    let x := b.ctx s.ctx
    let byReg := s.d0.getLsbD 8
    let bad := s.ncall == 0 || decide (2 ≤ s.form) || s.sigKind == 3 || !b.chFits s.och true (b.ctxWorld s.ctx) ||
      (!byReg && !x.run.lstepOk)
    let b := (b.mGenSlot n fun s => { s with
      st := .run, code := 0, outDrop := false, used := if byReg then s.step else x.run.lstep.setWidth 48
      key := x.run.key, formed := 0, cancel := false }).demand
    if bad then b.genEnd n 1 else b.genBegin n

def genReg (n off : Nat) : Nat := 0x9000 + 0x40 * n + off

/-- A write of GEN_CMD (R231, R250). -/
def State.genCmd (a : Access) (n : BitVec 3) (f : Block → Nat → Block) (s : State) : Host.Outcome State Fault Refusal :=
  s.run fun b => b.regCmd (portReq a) (genReg n.toNat 0x28) (worldOk (portReq a) (b.ctxWorld (b.genSlot n.toNat).ctx))
    fun b => f b n.toNat

/-- GEN_ISSUE (R234). -/
def execGenIssue (a : Access) (n : BitVec 3) (s : State) : Host.Outcome State Fault Refusal := s.genCmd a n Block.genIssue

/-- The last burst of a slot has been written, or the one in progress at a CANCEL (R234, R236). -/
def Block.genComplete (b : Block) (n : Nat) : Block :=
  let s := b.genSlot n
  if s.st != .run || s.code != 0 || !b.flushed (genProd n) || b.tsu.held.contains (.genSig n) then b
  else if s.cancel then b.genEnd n 2
  else if s.formed = s.ncall.toNat then b.genEnd n 0
  else b

/-- GEN_COMPLETE (R234). -/
def execGenComplete (n : BitVec 3) (s : State) : Host.Outcome State Fault Refusal := s.run fun b => b.genComplete n.toNat

/-- CANCEL (R236): the slot stops after the burst in progress. A slot whose completion is under way goes on. -/
def Block.genCancel (b : Block) (n : Nat) : Block :=
  let s := b.genSlot n
  if s.st != .run || s.code != 0 || b.tsu.held.contains (.genSig n) ||
      (s.formed == s.ncall.toNat && b.flushed (genProd n)) then b
  else (b.mGenSlot n fun s => { s with cancel := true }).genComplete n

/-- GEN_CANCEL (R236). -/
def execGenCancel (a : Access) (n : BitVec 3) (s : State) : Host.Outcome State Fault Refusal := s.genCmd a n Block.genCancel

/-! ### The test call, the self-test and the keys (R235, R237, R250) -/

/-- TGO = 1 (R250). -/
def Block.genTest (b : Block) : Block := b.mGen fun g => { g with tout := cg128 g.tkey g.tctr }

/-- GEN_TEST_CALL (R250). -/
def execGenTestCall (a : Access) (s : State) : Host.Outcome State Fault Refusal :=
  s.run fun b => b.regCmd (portReq a) 0x9830 true Block.genTest

/-- The key and counter of the reference vector (R230). -/
def refKey : BitVec 128 := 0x0123456789ABCDEFFEDCBA9876543210
def refCtr : BitVec 128 := 0x00000000002A00030000000000000007

/-- The self-test (R235). The block computes R227; whether words 0 and 3 compare equal is open (log entry 6). -/
def Block.genSelfTest (b : Block) : Block :=
  let o := cg128 refKey refCtr
  let ok := o.extractLsb' 32 64 == 0x44ADFF39FCEED151 && Config.selfTestWords03
  b.mGen fun g => { g with stDone := true, stOk := ok }

/-- GEN_SELFTEST_RUN (R235). -/
def execGenSelftestRun (a : Access) (s : State) : Host.Outcome State Fault Refusal :=
  s.run fun b => b.regCmd (portReq a) 0x9830 true Block.genSelfTest

/-- A write of one half of a key (R237, R243): ignored while the context is armed or its accession record is frozen. -/
def Block.keyWrite (b : Block) (c : Nat) (hi : Bool) (data : BitVec 64) : Block :=
  let x := b.ctx c
  if x.st.isArmed || x.run.accOn then b.mGen fun g => { g with keyRef := true }
  else
    let k := x.run.key
    let new : BitVec 128 := if hi then data ++ k.extractLsb' 0 64 else k.extractLsb' 64 64 ++ data
    b.mCtxRun c fun u => { u with key := new }

/-- GEN_KEY_WRITE (R237). -/
def execGenKeyWrite (a : Access) (c : Ctx6) (hi : Bool) (data : BitVec 64) (s : State) :
    Host.Outcome State Fault Refusal :=
  s.run fun b => b.regCmd (portReq a) (0x9400 + 0x10 * c.toNat + (if hi then 8 else 0))
    (worldOk (portReq a) (b.ctxWorld c.toNat)) fun b => b.keyWrite c.toNat hi data

/-! ### Admission (R302, R303) -/

/-- A slot of the generator goes on with its next burst. -/
def Block.genNext (b : Block) (p : Producer) : Block :=
  match p with
  | .gen n => if b.engOn then Block.genRun genFuel b n.toNat else b
  | _ => b

/-- OUTPUT_BURST_ADMIT (R302). -/
def execOutputBurstAdmit (p : Producer) (s : State) : Host.Outcome State Fault Refusal :=
  s.run fun b => (b.admitBurst p false).genNext p

/-- OUT_WAIT_EXPIRE: an operation or generator slot has waited OUT_WAIT ticks; room on that tick still admits (R303,
R305). -/
def Block.outWait (b : Block) (p : Producer) : Block :=
  match takeWait p b.tsu.str.waits with
  | none => b
  | some (o, _) => if b.due (o.since + b.tsu.str.outWait.setWidth 64) then (b.admitBurst p true).genNext p else b

def execOutWaitExpire (p : Producer) (s : State) : Host.Outcome State Fault Refusal := s.run fun b => b.outWait p

end Sys2Proof.Machine
end

