-- ==== Sys2Proof/Machine/DmOps.lean ====
section
/-! DEFINITION. The data mover (R277-R295). Its engines move data as soon as they may: the commands are the answers of the
host fabric and the writes of its registers, and every command that lets a channel go on runs the engines. -/

namespace Sys2Proof.Machine

open Sys2Proof

def Block.mDm (b : Block) (f : Dm → Dm) : Block := b.mTsu fun t => { t with dm := f t.dm }
def Block.dmCh (b : Block) (n : Nat) : DmCh := smGet {} b.tsu.dm.chs n
def Block.mDmCh (b : Block) (n : Nat) (f : DmCh → DmCh) : Block := b.mDm fun d => { d with chs := smMod {} d.chs n f }

/-! ### Register sets (R280, R281, R285) -/

/-- One side of a transfer. -/
structure DmSide where
  space  : Nat
  wc     : Nat
  base   : BitVec 64
  len    : Nat
  cnt    : Nat
  stride : BitVec 32
  deriving DecidableEq, Repr

def DmSide.width (s : DmSide) : Nat := 2 ^ s.wc

/-- The address of stream byte k (R280). -/
def DmSide.addr (s : DmSide) (k : Nat) : BitVec 64 :=
  s.base + s.stride.signExtend 64 * BitVec.ofNat 64 (k / s.len) + BitVec.ofNat 64 (k % s.len)

def DmSet.srcSide (s : DmSet) : DmSide :=
  ⟨(fld s.ctrl 32 2).toNat, (fld s.ctrl 36 3).toNat, s.src, (fld s.len 0 21).toNat, (fld s.ctrl 0 16).toNat, fld s.stride 0 32⟩

def DmSet.dstSide (s : DmSet) : DmSide :=
  ⟨(fld s.ctrl 34 2).toNat, (fld s.ctrl 40 3).toNat, s.dst, (fld s.len 32 21).toNat, (fld s.ctrl 16 16).toNat, fld s.stride 32 32⟩

def DmSet.swap (s : DmSet) : Nat := (fld s.ctrl 44 3).toNat
def DmSet.waitAck (s : DmSet) : Bool := s.ctrl.getLsbD 48
def DmSet.sigKind (s : DmSet) : Nat := (fld s.ctrl 49 2).toNat
def DmSet.irq (s : DmSet) : Bool := s.ctrl.getLsbD 51
def DmSet.fence (s : DmSet) : Bool := s.ctrl.getLsbD 52
def DmSet.sigAddr (s : DmSet) : Nat := (fld s.sig 0 19).toNat
def DmSet.sigData (s : DmSet) : BitVec 20 := fld s.sig 32 20
def DmSet.total (s : DmSet) : Nat := s.srcSide.len * s.srcSide.cnt
/-- Completion waits for every acknowledgement (R288). -/
def DmSet.acks (s : DmSet) : Bool := s.waitAck || s.sigKind != 0

/-- The SWAP group, and what is exclusive-ored into a stream offset to find its byte (R282). -/
def swapGroup : Nat → Nat
  | 1 => 2 | 2 => 4 | 3 => 8 | 4 => 4 | _ => 1
def swapXor : Nat → Nat
  | 1 => 1 | 2 => 3 | 3 => 7 | 4 => 2 | _ => 0

/-- The set that 56 bytes spell (R285). -/
def dmSetOf (d : Bytes) : DmSet :=
  let w (o : Nat) : BitVec 64 := BitVec.ofNat 64 (leAt d o 8)
  ⟨w 0, w 8, w 16, w 24, w 32, w 40, w 48⟩

/-- A side breaks R283's widths or R286's multiples. -/
def DmSide.bad (s : DmSide) : Bool :=
  s.len == 0 || decide (2 ^ 20 < s.len) || s.cnt == 0 || s.space == 3 || s.wc == 7 ||
    (s.space == 1 && decide (s.wc < 3)) || (s.space == 2 && s.wc != 3) ||
    s.base.toNat % s.width != 0 || s.len % s.width != 0 || s.stride.toNat % s.width != 0

/-- The checks of R286. -/
def Block.dmBad (b : Block) (n : Nat) (s : DmSet) : Bool :=
  s.srcSide.bad || s.dstSide.bad || s.total != s.dstSide.len * s.dstSide.cnt || decide (5 ≤ s.swap) || s.sigKind == 3 ||
    s.total % swapGroup s.swap != 0 ||
    (s.sigKind == 2 && (b.xlat (b.dmCh n).ctx.toNat (s.sigAddr % 1024)).isNone)

/-! ### Bus errors (R291) -/

/-- The attributes of a channel's accesses (R279). -/
def Block.dmReq (b : Block) (n : Nat) : Req := ⟨b.ctxWorld (b.dmCh n).ctx.toNat, (b.dmCh n).priv, false⟩

/-- A bus error: the first one is latched, and nothing more is issued. `at_` is the stream offset from which data is lost. -/
def Block.dmErr (b : Block) (n : Nat) (dir src : Bool) (code : BitVec 3) (addr : BitVec 64) (at_ : Nat) : Block :=
  b.mDmCh n fun c =>
    let c := { c with errCnt := sat1 c.errCnt }
    if c.errAt.isSome || c.st == .stopping then c
    else { c with errAt := some at_, errDir := dir, errSrc := src, errCode := code, errAddr := addr, errValid := true,
                  halted := true }

/-- The bus-error code of a hall status or a tagged-word status (R291). -/
def dmCode (st : Byte) : BitVec 3 :=
  if st = stDENIED then 3 else if st = stECC then 4 else if st = stNOPATH then 5 else if st = stUNSUPPORTED then 6 else 2

/-! ### One unit -/

/-- The words of a local unit: its first word, and how many; none outside the space (R283). -/
def localWords (addr : BitVec 64) (w : Nat) : Option (Nat × Nat) :=
  if addr.toNat + w ≤ 0x400000 then some (addr.toNat / 8, w / 8) else none

/-- The HA of a hall unit; none where it is not in the distributor of the side's base (R284). -/
def hallWord (s : DmSide) (k : Nat) : Option (BitVec 64) :=
  let a := s.addr k
  if a >>> 30 = s.base >>> 30 ∧ a.toNat < 2 ^ 42 then some (a >>> 3) else none

/-- A local unit's words are held now (R162, R163). -/
def Block.dmHeld (b : Block) (s : DmSide) (k : Nat) : Bool :=
  s.space == 1 && (match localWords (s.addr k) s.width with
    | some (w, m) => (List.range m).any fun i => b.wordHeld (w + i)
    | none => false)

/-- Reads local words: their bytes, or the status that forbids one. -/
def Block.dmLocal (b : Block) (q : Req) : Nat → Nat → (Byte × Bytes) × Block
  | 0, _ => ((stOK, []), b)
  | m + 1, w =>
    let (r, b) := b.wordRead q 2 w
    if r.1 ≠ stOK then ((r.1, []), b)
    else
      let (t, b) := Block.dmLocal b q m (w + 1)
      ((t.1, toLE 8 r.2.toNat ++ t.2), b)

/-- Data of stream offset k enters the holding register; bytes already written are dropped. -/
def DmCh.take (c : DmCh) (d : Bytes) : DmCh :=
  let hold := c.hold ++ d
  let g := swapGroup c.cur.swap
  let lo := c.wr / g * g
  let k := min (lo - c.hb) hold.length
  { c with hold := hold.drop k, hb := c.hb + k }

/-- X and flags of a data mover's hall request: code 15 (R259). -/
def dmFlags : WsFlags := ⟨false, false, false, 0⟩
def dmTag (n : Nat) : BitVec 16 := BitVec.ofNat 16 (0x1000 + n)

/-- Sends a hall request of a channel, or meets a bus error (R284, R291). -/
def Block.dmHallReq (b : Block) (n : Nat) (s : DmSide) (k : Nat) (wr : Bool) (data : BitVec 64) : Block :=
  match hallWord s k with
  | none => b.dmErr n wr false 2 (s.addr k) k
  | some ha =>
    match b.hallStop ha with
    | some st => (if st = stNOPATH then b.nopath else b).dmErr n wr false (dmCode st) (s.addr k) k
    | none =>
      (b.mDmCh n fun c => { c with halls := c.halls ++ [(wr, k, false)] }).hallSend (dmTag n) ha (if wr then 3 else 5) false
        (b.hallX dmFlags) data (b.ctxWorld (b.dmCh n).ctx.toNat)

/-- The read engine reads the next unit (R280, R283). -/
def Block.dmRead (b : Block) (n : Nat) : Block :=
  let c := b.dmCh n
  let s := c.cur.srcSide
  let k := c.rd
  let w := s.width
  let q := b.dmReq n
  let b := (b.mDmCh n fun c => { c with rd := k + w }).mDm fun d => { d with rrRead := n }
  match s.space with
  | 0 => (b.mDmCh n fun c => { c with rds := c.rds ++ [k] }).emit (.hmRead (s.addr k) w n q.secure q.priv)
  | 1 => match localWords (s.addr k) w with
    | none => b.dmErr n false false 2 (s.addr k) k
    | some (i, m) =>
      let (r, b) := b.dmLocal q m i
      if r.1 = stOK then b.mDmCh n fun c => c.take r.2 else b.dmErr n false false (dmCode r.1) (s.addr k) k
  | _ => b.dmHallReq n s k false 0

/-- The bytes of the next destination unit (R281, R282). -/
def DmCh.unitBytes (c : DmCh) : Bytes :=
  (List.range c.cur.dstSide.width).map fun j => c.hold.getD (((c.wr + j) ^^^ swapXor c.cur.swap) - c.hb) 0

/-- Writes local words with WRITE_FORCE (R283). -/
def Block.dmPut (b : Block) (q : Req) : Nat → Nat → Bytes → Byte × Block
  | 0, _, _ => (stOK, b)
  | m + 1, w, d =>
    let (r, b) := b.wordNow q 2 w 3 (BitVec.ofNat 64 (leAt d 0 8))
    if r.status ≠ stOK then (r.status, b) else Block.dmPut b q m (w + 1) (d.drop 8)

/-- The write engine writes the next unit. -/
def Block.dmWrite (b : Block) (n : Nat) : Block :=
  let c := b.dmCh n
  let s := c.cur.dstSide
  let k := c.wr
  let w := s.width
  let q := b.dmReq n
  let d := c.unitBytes
  let b := (b.mDmCh n fun c => ({ c with wr := k + w }).take []).mDm fun x => { x with rrWrite := n }
  match s.space with
  | 0 => (b.mDmCh n fun c => { c with wrs := c.wrs ++ [.unit k] }).emit (.hmWrite (s.addr k) d n q.secure q.priv)
  | 1 => match localWords (s.addr k) w with
    | none => b.dmErr n true false 2 (s.addr k) k
    | some (i, m) =>
      let (st, b) := b.dmPut q m i d
      if st = stOK then b.mDmCh n fun c => { c with acked := k + w } else b.dmErr n true false (dmCode st) (s.addr k) k
  | _ => b.dmHallReq n s k true (BitVec.ofNat 64 (leAt d 0 8))

/-! ### What a channel may do -/

/-- QUOTA in bytes (R278, R295). -/
def DmCh.quotaBytes (c : DmCh) : Nat :=
  1024 * (if c.quota.toNat = 0 then 1 else if 64 < c.quota.toNat then 64 else c.quota.toNat)

/-- Bytes of the buffer a channel holds or has reserved. -/
def DmCh.reserved (c : DmCh) : Nat := if c.step = .move then c.rd - c.wr else 0
def Dm.sum (d : Dm) (f : DmCh → Nat) : Nat := d.chs.foldl (fun n e => n + f e.2) 0

/-- No write of an earlier transfer is unacknowledged (R288). -/
def DmCh.noOld (c : DmCh) : Bool :=
  (c.wrs.all fun w => match w with | .unit _ => true | _ => false) && c.halls.all fun h => !h.2.2

/-- The channel may issue its next read (R278, R284, R288, R290, R291, R363). -/
def Block.dmCanRead (b : Block) (n : Nat) : Bool :=
  let c := b.dmCh n
  let s := c.cur.srcSide
  let d := b.tsu.dm
  c.st == .run && c.step == .move && c.errAt.isNone && decide (c.rd < c.cur.total) && (!c.cur.fence || c.noOld) &&
    decide (c.reserved + s.width ≤ c.quotaBytes) && decide (d.sum DmCh.reserved + s.width ≤ 65536) &&
    (s.space != 0 || decide (d.sum (fun c => c.rds.length + (if c.fetch then 1 else 0)) < 128)) &&
    (s.space != 2 || decide (c.halls.length < 64)) && !b.dmHeld s c.rd

/-- The channel's next destination unit can leave the holding register. -/
def Block.dmCanWrite (b : Block) (n : Nat) : Bool :=
  let c := b.dmCh n
  let s := c.cur.dstSide
  let g := swapGroup c.cur.swap
  let upTo := (c.wr + s.width + g - 1) / g * g
  (c.st == .run || c.st == .pausing || c.st == .stopping) && c.step == .move && decide (upTo ≤ c.hb + c.hold.length) &&
    (match c.errAt with | some e => decide (c.wr + s.width ≤ e) | none => true) &&
    (s.space != 0 || decide (b.tsu.dm.sum (fun c => c.wrs.length) < 128)) &&
    (s.space != 2 || decide (c.halls.length < 64)) && !b.dmHeld s c.wr

/-- The channels in rotating order after the one last served. -/
def dmTurn (last : Nat) : List Nat := (List.range 8).map fun i => (last + 1 + i) % 8

/-! ### Completion (R288, R289) -/

/-- The address of a ring entry (R287). -/
def DmCh.entryAddr (c : DmCh) (e : BitVec 15) : BitVec 64 := (c.base ++ 0#6) + e.setWidth 64 * 64

/-- Entries of the ring (R295). -/
def DmCh.ringSize (c : DmCh) : Nat := 2 ^ (if c.sizeLog.toNat = 0 then 1 else c.sizeLog.toNat)
def DmCh.next (c : DmCh) (e : BitVec 15) : BitVec 15 := BitVec.ofNat 15 ((e.toNat + 1) % c.ringSize)

/-- The transfer is over: it is counted, DONE is set with IRQ = 1, and the channel looks for its next (R289, R292). -/
def Block.dmEnd (b : Block) (n : Nat) : Block :=
  b.mDmCh n fun c => { c with step := .none, doneCnt := sat1 c.doneCnt, done := c.done || c.cur.irq }

/-- The status word of a completion (R285), without OWN. -/
def DmCh.status (c : DmCh) (now : Tick) : Bytes := [c.code, c.err] ++ toLE 4 (now.toNat % 2 ^ 32) ++ [0]

/-- The status write-back of ring mode (R289), or the end. -/
def Block.dmFinish (b : Block) (n : Nat) (code err : BitVec 8) : Block :=
  let b := b.mDmCh n fun c => { c with code := code, err := err }
  let c := b.dmCh n
  let q := b.dmReq n
  if c.ring then
    (b.mDmCh n fun c => { c with step := .status, wrs := c.wrs ++ [.stat] }).emit
      (.hmWrite (c.entryAddr c.entry + 56) (c.status b.tc) n q.secure q.priv)
  else b.dmEnd n

/-- The signal of a transfer (R289). -/
def Block.dmSignal (b : Block) (n : Nat) : Block :=
  let c := b.dmCh n
  let (st, b) : Byte × Block :=
    if c.cur.sigKind = 1 then
      let r := b.wordNow (b.dmReq n) 2 c.cur.sigAddr 4 ((orOne c.cur.sigData).setWidth 64)
      (r.1.status, r.2)
    else b.arriveVbid c.ctx.toNat (c.cur.sigAddr % 1024) c.cur.sigData
  if st = stDENIED ∨ st = stNOMAP ∨ st = stECC then (b.mDmCh n fun c => { c with sigErr := true }).dmFinish n 4 0
  else b.dmFinish n 0 0

/-- The shadow moves into the current set and is checked (R286, R287). -/
def Block.dmStart (b : Block) (n : Nat) : Block :=
  let b := b.mDmCh n fun c => { c with
    st := .run, cur := c.shadow, entry := c.entryS, shadowValid := false, step := .move, rd := 0, hold := [], hb := 0,
    wr := 0, acked := 0, code := 0, err := 0 }
  if b.dmBad n (b.dmCh n).cur then (b.mDmCh n fun c => { c with descErr := true }).dmFinish n 1 0 else b

/-- Outstanding accesses. -/
def DmCh.drained (c : DmCh) : Bool := c.rds.isEmpty && c.wrs.isEmpty && c.halls.isEmpty

/-- The holding register is emptied: reading goes on from the bytes written (R290). -/
def DmCh.rewind (c : DmCh) : DmCh :=
  let m := max c.cur.srcSide.width (swapGroup c.cur.swap)
  let at_ := c.wr / m * m
  if c.step = .move then { c with rd := at_, hold := [], hb := at_ } else c

/-- The channel reaches OFF: its sets are discarded, and a held enable is applied (R293, R406). -/
def Block.dmOff (b : Block) (n : Nat) : Block :=
  b.mDmCh n fun c =>
    let go := c.enPend && !b.tsu.boot.inCloak
    { c with
      st := if !go then .off else if c.pause then .paused else .idle
      enPend := c.enPend && !go
      step := .none, cur := {}, shadow := {}, shadowValid := false, rd := 0, hold := [], hb := 0, wr := 0, acked := 0
      fetch := false, poll := none, kick := false, errAt := none }

/-- The next control action of a channel, if any (R287-R290, R293). -/
def Block.dmCtl (b : Block) (n : Nat) : Option Block :=
  let c := b.dmCh n
  let q := b.dmReq n
  let wants := c.st == .run || c.st == .idle
  if c.st == .stopping then
    if c.drained && !c.fetch then some (b.dmOff n) else none
  else if c.errAt.isSome then none
  else if c.step == .move && c.wr == c.cur.total && (c.st == .run || c.st == .pausing) &&
      (!c.cur.acks || c.acked == c.cur.total) then
    let c1 (c : DmCh) : DmCh := { c with
      wrs := c.wrs.map fun w => match w with
        | .unit k => .old (c.cur.dstSide.addr k)
        | w => w
      halls := c.halls.map fun h => (h.1, h.2.1, true) }
    some (if c.cur.sigKind = 0 then (b.mDmCh n c1).dmFinish n 0 0 else b.mDmCh n fun c => { c1 c with step := .signal })
  else if c.step == .signal && (c.st == .run || c.st == .pausing) && !(c.cur.sigKind == 1 && b.wordHeld c.cur.sigAddr) then
    some (b.dmSignal n)
  else if c.st == .pausing && c.drained && c.step != .signal then
    some (b.mDmCh n fun c => { c.rewind with st := .paused })
  else if wants && c.step == .none && c.shadowValid then some (b.dmStart n)
  else if wants && c.ring && !c.shadowValid && !c.fetch && c.poll.isNone then
    some ((b.mDmCh n fun c => { c with fetch := true }).emit (.hmRead (c.entryAddr c.head) 64 (8 + n) q.secure q.priv))
  else if c.st == .run && c.step == .none then some (b.mDmCh n fun c => { c with st := .idle })
  else none

/-- A channel has work that needs ENGINE. -/
def DmCh.ready (c : DmCh) : Bool :=
  c.st == .stopping || c.st == .pausing || ((c.st == .run || c.st == .idle) && (c.step != .none || c.shadowValid || c.ring))

/-- Runs the engines; `f` bounds the accesses. -/
def Block.dmPump : Nat → Block → Block
  | 0, b => b
  | f + 1, b =>
    if !b.engOn then (if b.tsu.dm.chs.any fun e => e.2.ready then b.demand else b)
    else match (dmTurn b.tsu.dm.rrWrite).find? b.dmCanWrite with
      | some n => Block.dmPump f (b.dmWrite n)
      | none => match (dmTurn b.tsu.dm.rrRead).find? b.dmCanRead with
        | some n => Block.dmPump f (b.dmRead n)
        | none => match (List.range 8).findSome? b.dmCtl with
          | some b => Block.dmPump f b
          | none => b

/-- The engines run as far as they can: at most 4,096 accesses a command; the rest follows with the next (log entry 33). -/
def Block.dmGo (b : Block) : Block := if b.tsu.dm.chs.isEmpty then b else Block.dmPump 4096 b

/-! ### Commands -/

def dmReg (n : BitVec 3) (off : Nat) : Nat := 0xA100 + 0x100 * n.toNat + off

/-- A write of DM_CH_CTRL (R279, R295). -/
def State.dmCmd (a : Access) (n : BitVec 3) (f : Block → Nat → Block) (s : State) : Host.Outcome State Fault Refusal :=
  s.run fun b => b.regCmd (portReq a) (dmReg n 0x08)
    (worldOk (portReq a) (b.ctxWorld (b.dmCh n.toNat).ctx.toNat)) fun b => (f b n.toNat).dmGo

/-- EN = 1 (R293, R406, R410). -/
def Block.dmEnable (b : Block) (n : Nat) : Block :=
  b.mDmCh n fun c =>
    if c.st == .stopping || (c.st == .off && b.tsu.boot.inCloak) then { c with enPend := true }
    else if c.st == .off then { c with st := if c.pause then .paused else .idle }
    else c

/-- EN = 0 (R293): a channel in HALT_ERR stops at once. -/
def Block.dmDisable (b : Block) (n : Nat) : Block :=
  let b := b.mDmCh n fun c => { c with enPend := false }
  match (b.dmCh n).st with
  | .off | .stopping => b
  | .haltErr => b.dmOff n
  | _ => b.mDmCh n fun c => { c with st := .stopping, poll := none }

/-- LOAD (R287). -/
def Block.dmLoad (b : Block) (n : Nat) : Block :=
  b.mDmCh n fun c => if c.ring || c.shadowValid then { c with loadLost := true } else { c with shadowValid := true }

/-- KICK (R287, R294). -/
def Block.dmKick (b : Block) (n : Nat) : Block :=
  b.mDmCh n fun c => if !c.ring then c else if c.fetch then { c with kick := true } else { c with poll := none }

/-- PAUSE = 1 (R290). -/
def Block.dmPause (b : Block) (n : Nat) : Block :=
  b.mDmCh n fun c => { c with
    pause := true
    st := if c.errAt.isSome then c.st else if c.st == .run then .pausing else if c.st == .idle then .paused else c.st }

/-- PAUSE = 0 (R290). -/
def Block.dmResume (b : Block) (n : Nat) : Block :=
  b.mDmCh n fun c => { c with
    pause := false
    st := if c.st == .pausing then .run else if c.st == .paused then (if c.step = .none then .idle else .run) else c.st }

/-- RESTART (R292): from the failing unit; a status write-back that failed is made again. -/
def Block.dmRestart (b : Block) (n : Nat) : Block :=
  let c := b.dmCh n
  if c.st != .haltErr then b
  else
    let b := b.mDmCh n fun c => { c with
      errAt := none, errValid := false
      st := if c.pause then .paused else if c.step = .none then .idle else .run }
    if c.step = .status then b.dmFinish n c.code c.err else b

/-- SKIP and ABORT (R292). -/
def Block.dmDrop (b : Block) (n : Nat) (abort : Bool) : Block :=
  let c := b.dmCh n
  if c.st != .haltErr then b
  else
    let head := if c.step = .none then c.next c.head else if abort then c.next c.entry else c.head
    let b := b.mDmCh n fun c => { c with
      errAt := none, errValid := false, head := if c.ring then head else c.head
      shadowValid := c.shadowValid && !abort
      st := if c.step = .none then (if c.pause then .paused else .idle) else if c.pause then .pausing else .run }
    if c.step = .none then b
    else if c.step = .status then b.dmEnd n
    else b.dmFinish n (if abort then 3 else 2) (c.errCode.setWidth 8)

def Block.dmSkip (b : Block) (n : Nat) : Block := b.dmDrop n false
def Block.dmAbort (b : Block) (n : Nat) : Block := b.dmDrop n true

/-- DM_ENABLE (R293). -/
def execDmEnable (a : Access) (n : BitVec 3) (s : State) : Host.Outcome State Fault Refusal := s.dmCmd a n Block.dmEnable
/-- DM_DISABLE (R293). -/
def execDmDisable (a : Access) (n : BitVec 3) (s : State) : Host.Outcome State Fault Refusal := s.dmCmd a n Block.dmDisable
/-- DM_LOAD (R287). -/
def execDmLoad (a : Access) (n : BitVec 3) (s : State) : Host.Outcome State Fault Refusal := s.dmCmd a n Block.dmLoad
/-- DM_KICK (R287). -/
def execDmKick (a : Access) (n : BitVec 3) (s : State) : Host.Outcome State Fault Refusal := s.dmCmd a n Block.dmKick
/-- DM_PAUSE (R290). -/
def execDmPause (a : Access) (n : BitVec 3) (s : State) : Host.Outcome State Fault Refusal := s.dmCmd a n Block.dmPause
/-- DM_RESUME (R290). -/
def execDmResume (a : Access) (n : BitVec 3) (s : State) : Host.Outcome State Fault Refusal := s.dmCmd a n Block.dmResume
/-- DM_RESTART (R292). -/
def execDmRestart (a : Access) (n : BitVec 3) (s : State) : Host.Outcome State Fault Refusal := s.dmCmd a n Block.dmRestart
/-- DM_SKIP (R292). -/
def execDmSkip (a : Access) (n : BitVec 3) (s : State) : Host.Outcome State Fault Refusal := s.dmCmd a n Block.dmSkip
/-- DM_ABORT (R292). -/
def execDmAbort (a : Access) (n : BitVec 3) (s : State) : Host.Outcome State Fault Refusal := s.dmCmd a n Block.dmAbort

/-- A descriptor has been read (R287, R291, R294). -/
def Block.dmFetched (b : Block) (n : Nat) (resp : BitVec 2) (d : Bytes) : Block :=
  let c := b.dmCh n
  if !c.fetch then b
  else
    let b := b.mDmCh n fun c => { c with fetch := false, kick := false }
    if resp ≠ 0 then b.dmErr n false true (resp.setWidth 3) (c.entryAddr c.head) c.rd
    else if c.st == .stopping then b
    else if (d.getD 63 0).getLsbD 7 then
      b.mDmCh n fun c => { c with shadow := dmSetOf d, shadowValid := true, entryS := c.head, head := c.next c.head }
    else if c.kick then b
    else b.mDmCh n fun c => { c with poll := some (b.tc + b.tsu.dm.pollInt.setWidth 64) }

/-- DM_DESC_FETCH_DONE (R287). -/
def execDmDescFetchDone (n : BitVec 3) (resp : BitVec 2) (desc : Bytes) (s : State) : Host.Outcome State Fault Refusal :=
  s.run fun b => (b.dmFetched n.toNat resp desc).dmGo

/-- DM_POLL_EXPIRE (R287). -/
def execDmPollExpire (n : BitVec 3) (s : State) : Host.Outcome State Fault Refusal :=
  s.run fun b => match (b.dmCh n.toNat).poll with
    | some t => if b.due t then (b.mDmCh n.toNat fun c => { c with poll := none }).dmGo else b
    | none => b

/-- Read data: kept where it lies before the failing unit (R281, R291). -/
def Block.dmData (b : Block) (n k : Nat) (d : Bytes) : Block :=
  b.mDmCh n fun c => if c.errAt.any fun e => e ≤ k then c else c.take d

/-- Data from the host fabric (R277, R363). -/
def Block.dmReadData (b : Block) (n : Nat) (resp : BitVec 2) (d : Bytes) : Block :=
  let c := b.dmCh n
  if 0 < c.lostRds then b.mDmCh n fun c => { c with lostRds := c.lostRds - 1 }
  else match c.rds with
    | [] => b
    | k :: rest =>
      let b := b.mDmCh n fun c => { c with rds := rest }
      let s := c.cur.srcSide
      if resp ≠ 0 then b.dmErr n false false (resp.setWidth 3) (s.addr k) k else b.dmData n k (slice d 0 s.width)

/-- DM_READ_DATA (R277). -/
def execDmReadData (n : BitVec 3) (resp : BitVec 2) (data : Bytes) (s : State) : Host.Outcome State Fault Refusal :=
  s.run fun b => (b.dmReadData n.toNat resp data).dmGo

/-- An acknowledgement from the host fabric (R288, R289, R291, R363, R407). -/
def Block.dmWriteAck (b : Block) (n : Nat) (resp : BitVec 2) : Block :=
  let c := b.dmCh n
  if 0 < c.lostAcks then
    (b.mDmCh n fun c => { c with lostAcks := c.lostAcks - 1 }).mBoot fun t => { t with lostAck := true }
  else match c.wrs with
    | [] => b
    | w :: rest =>
      let b := b.mDmCh n fun c => { c with wrs := rest }
      let s := c.cur.dstSide
      let code := resp.setWidth 3
      let q := b.dmReq n
      let entry := c.entryAddr c.entry
      match w with
      | .unit k =>
        if resp ≠ 0 then b.dmErr n true false code (s.addr k) k else b.mDmCh n fun c => { c with acked := k + s.width }
      | .old a => if resp ≠ 0 then b.dmErr n true false code a c.rd else b
      | .stat =>
        if resp ≠ 0 then b.dmErr n true true code (entry + 56) c.wr
        else if c.st == .stopping || c.errAt.isSome then b
        else (b.mDmCh n fun c => { c with wrs := c.wrs ++ [.own] }).emit (.hmWrite (entry + 63) [0] n q.secure q.priv)
      | .own =>
        if resp ≠ 0 then b.dmErr n true true code (entry + 63) c.wr
        else
          let aborted := c.code == 3
          let b := b.dmEnd n
          if aborted && c.st == .run then b.mDmCh n fun c => { c with st := .idle } else b

/-- DM_WRITE_ACK (R288). -/
def execDmWriteAck (n : BitVec 3) (resp : BitVec 2) (s : State) : Host.Outcome State Fault Refusal :=
  s.run fun b => (b.dmWriteAck n.toNat resp).dmGo

/-- The answer of a channel's oldest hall request (R284, R288, R291). -/
def Block.dmHallDone (b : Block) (n : Nat) (ha : BitVec 39) (st : Byte) (data : BitVec 64) : Block :=
  let c := b.dmCh n
  match c.halls with
  | [] => b
  | (wr, k, old) :: rest =>
    let b := b.mDmCh n fun c => { c with halls := rest }
    if st ≠ stOK then b.dmErr n wr false (dmCode st) (ha.setWidth 64 <<< 3) (if old then c.rd else k)
    else if old then b
    else if wr then b.mDmCh n fun c => { c with acked := k + 8 }
    else b.dmData n k (toLE 8 data.toNat)

/-- The writes have drained: HALT_ERR, positioned at the failing unit (R291). -/
def Block.dmHalt (b : Block) (n : Nat) : Block :=
  let c := b.dmCh n
  match c.errAt with
  | none => b
  | some k =>
    if c.st == .stopping || c.st == .haltErr || !c.drained || b.dmCanWrite n then b
    else b.mDmCh n fun c =>
      let c := { c with st := .haltErr }
      if c.step ≠ .move ∨ c.errSrc then c
      else if c.errDir ∧ k < c.wr then ({ c with wr := k, acked := k }).rewind
      else { c with rd := if k < c.rd then k else c.rd }

/-- DM_HALT_DRAINED (R291). -/
def execDmHaltDrained (n : BitVec 3) (s : State) : Host.Outcome State Fault Refusal := s.run fun b => b.dmHalt n.toNat

end Sys2Proof.Machine
end

