-- ==== Sys2Proof/Machine/Engine.lean ====
section
/-! DEFINITION. ENGINE on demand (R346), tagged-memory initialisation and scrub (R162, R163), and the work they hold. -/

namespace Sys2Proof.Machine

open Sys2Proof

/-- A held operation is taken up again; what still has to wait is held again, in order. -/
def Block.redo (b : Block) (e : EngOp) : Block :=
  match e with
  | .dirRead dbg secure priv tag n => b.onWord n e fun b => b.dirRead ⟨secure, priv, dbg⟩ tag n
  | .dirWrite dbg secure priv tag n d => b.onWord n e fun b => b.dirWrite ⟨secure, priv, dbg⟩ tag n d
  | .timer n => b.timerDo n
  | .collSig n => b.collOutDone n
  | .genSig n => b.onWord (b.genSlot n).sigAddr e fun b => b.genSignal n
  | .dmSig _ => b
  | .waitOp c k => b.wsPerform (wsIdx c k)

/-- Everything that waited is taken up: held operations in issue order, then the engines (R162, R163, R346). -/
def Block.runHeld (b : Block) : Block :=
  let l := b.tsu.held
  let b := (b.mTsu fun t => { t with held := [] }).each l Block.redo
  let b := b.each (List.range 16) Block.collTry
  let b := b.each (List.range 8) Block.genBegin
  let b := b.each (List.range 8) fun b n => if (b.genSlot n).formed = 0 then b else b.genNext (.gen (BitVec.ofNat 3 n))
  b.dmGo

/-! ### ENGINE -/

/-- A demand for ENGINE. Where ENGINE is stopped its start is requested, once the last stop has ended (R346, R406). -/
def execEngineDemand (s : State) : Host.Outcome State Fault Refusal := s.run fun b => if b.live then b.demand else b

/-- ENGINE_STARTED: its first cycle (R346). -/
def Block.engStarted (b : Block) : Block :=
  let p := b.tsu.pwr
  if !b.live || !p.req.engine || !p.ack.engine || p.on.engine || p.st != .idle || !p.on.mem then b
  else
    (b.mPwr fun p => { p with
      on := { p.on with engine := true }, st := .on, engStarts := sat1 p.engStarts, engWanted := false
      demandAt := b.tc }).runHeld

def execEngineStarted (s : State) : Host.Outcome State Fault Refusal := s.run Block.engStarted

/-- ENG_LEAD, at least 2,500 ticks (R356). -/
def Pwr.lead (p : Pwr) : Nat := if p.engLead.toNat < 2500 then 2500 else p.engLead.toNat

/-- The launch tick of an ARMED context. -/
def Ctx.armedAt (x : Ctx) : Option Tick :=
  if x.st = .armed then match x.arm with
    | some a => some a.tStart
    | none => none
  else none

/-- ENG_LEAD_EXPIRE: T - ENG_LEAD of an armed context has come (R346). -/
def execEngLeadExpire (c : Ctx6) (s : State) : Host.Outcome State Fault Refusal :=
  s.run fun b => match (b.ctx c.toNat).armedAt with
    | none => b
    | some t => if b.live && b.due (t - BitVec.ofNat 64 b.tsu.pwr.lead) then b.demand else b

/-- An operation is in progress in ENGINE's care (R346): a held or waiting operation is none. -/
def Block.engBusy (b : Block) : Bool :=
  b.tsu.coll.slots.any (fun e => e.2.st.busy) || b.tsu.gen.slots.any (fun e => e.2.st == .run) ||
    b.tsu.dm.chs.any (fun e => e.2.ready && e.2.st != .idle) || !b.tsu.str.waits.isEmpty || !b.tsu.str.outq.isEmpty ||
    b.tsu.str.chs.any (fun e => e.2.inq.any fun i => !i.closed) || !b.tsu.held.isEmpty

/-- A context is in RUN or CLOSE (R346). -/
def Block.anyRuns (b : Block) : Bool := b.tsu.ctxs.any fun e => e.2.st == .run || e.2.st == .close

/-- ENG_IDLE_EXPIRE: ENG_IDLE ticks have passed with no demand, and ENGINE stops (R346). -/
def execEngIdleExpire (s : State) : Host.Outcome State Fault Refusal :=
  s.run fun b =>
    let p := b.tsu.pwr
    if b.live && p.st == .on && p.on.engine && p.engAuto && !b.engBusy && !b.anyRuns &&
        decide ((p.engIdle.toNat : Int) ≤ Tick.diff b.tc p.demandAt) then
      b.mPwr fun p => { p with on := { p.on with engine := false }, req := { p.req with engine := false }, st := .idle }
    else b

/-! ### Initialisation and scrub -/

/-- TM_INIT_DONE: every word DATA 0, EMPTY, W of its region's world; cells that have failed stay so (R162, R164). -/
def Block.tmInit (b : Block) : Block :=
  if !b.live || !b.tsu.pwr.on.mem || b.tsu.tm.initDone || (b.tsu.boot.fuseBusy && !b.tsu.boot.fuseErr) then b
  else
    ((List.range 64).foldl (fun b r => b.mTm fun m => m.clearRegion r (b.tsu.gnt.tmw.getLsbD r)) b
      |>.mTm fun m => { m with initDone := true }).runHeld

def execTmInitDone (s : State) : Host.Outcome State Fault Refusal := s.run Block.tmInit

/-- START in TSU_TM_SCRUB (R163, R183): the region's world is checked, and a scrub that runs ignores it. -/
def Block.scrubStart (b : Block) (q : Req) (region : BitVec 6) : Block :=
  if !worldOk q (b.tsu.gnt.tmw.getLsbD region.toNat) then b.violate q.src q true 0x7008
  else
    let b := b.mTm fun m => { m with scrubSel := region }
    if b.tsu.tm.scrub.isSome then b else b.mTm fun m => { m with scrub := some region }

/-- TM_SCRUB_START (R163). -/
def execTmScrubStart (a : Access) (region : BitVec 6) (s : State) : Host.Outcome State Fault Refusal :=
  s.run fun b => b.regCmd (portReq a) 0x7008 true fun b => b.scrubStart (portReq a) region

/-- The words of a region on which operations wait. -/
def Block.waitedWords (b : Block) (r : Nat) : List Nat :=
  (b.wsWhere fun _ o => o.space == 0 && !o.held && regionOf (o.addr.toNat % 524288) == r).foldl
    (fun l x => let n := x.2.addr.toNat % 524288; if l.contains n then l else l ++ [n]) []

/-- TM_SCRUB_DONE: the region's words are set, operations that waited there are examined again, and held ones proceed
(R163). -/
def Block.scrubDone (b : Block) : Block :=
  match b.tsu.tm.scrub with
  | none => b
  | some r =>
    if !b.live || !b.tsu.pwr.on.mem then b
    else
      let b := b.mTm fun m => { m.clearRegion r.toNat (b.tsu.gnt.tmw.getLsbD r.toNat) with scrub := none }
      (b.each (b.waitedWords r.toNat) Block.examine).runHeld

def execTmScrubDone (s : State) : Host.Outcome State Fault Refusal := s.run Block.scrubDone

end Sys2Proof.Machine
end

