-- ==== Sys2Proof/Machine/CtxStop.lean ====
section
/-! DEFINITION. A context's shut-down (R114, R175, R272, R406). -/

namespace Sys2Proof.Machine

open Sys2Proof

/-- The barrier slots that a context owns. -/
def Block.owned (b : Block) (c : Nat) : List Nat := smKeys (fun s => (s.kind == 1 || s.kind == 2) && s.owner.toNat == c) b.tsu.bar.slots

/-- Frees an owned slot (R175). -/
def Slot.free (s : Slot) : Slot :=
  { s with kind := 0, sense := false, sent := false, sat := false, ovr := false, c0 := 0, c1 := 0, void0 := false
           void1 := false }

/-- Invalidates the translation entries of a context, and those of any context that map a slot in `own` (R175). -/
def Block.unmap (b : Block) (c : Nat) (own : List Nat) : Block :=
  b.mBar fun x => { x with
    xlat := (x.xlat.filter fun e => e.1 / 1024 == c || own.contains e.2.2.toNat).foldl
      (fun l e => smMod (false, 0) l e.1 fun v => (false, v.2)) x.xlat }

/-- The wait slots of a context after its clearing: CLEARED where an operation was withdrawn, IDLE elsewhere (R175). -/
def Block.wsClear (b : Block) (c : Nat) : Block :=
  b.each (List.range 8) fun b k =>
    let i := wsIdx c k
    if (b.wslot i).op.isSome then b.wsWithdraw i stCLEARED false true .cancel
    else b.mWslot i fun w => { w with status := 0xFF, sat := false, ovr := false, full := false, w := false, count := 0 }

/-- The clearing of R175. -/
def Block.clearing (b : Block) (c : Nat) : Block :=
  let own := b.owned c
  let b := b.unmap c own
  let b := b.each own fun b n => b.mSlot n Slot.free
  let b := b.wsClear c
  let b := b.each (b.wsWhere fun i o => i / 8 != c && o.space == 2 && o.slot.any own.contains) fun b x =>
    b.wsWithdraw x.1 stNOMAP false true .cancel
  b.releaseAwait c stHALTED

/-- A context that is not OFF enters STOPPING: no launch, its barrier, wait and translation state cleared, its timers
disabled, its slots completed as under CANCEL (R114, R175, R223, R236, R272). -/
def Block.ctxStop (b : Block) (c : Nat) : Block :=
  let x := b.ctx c
  if x.st == .off || x.st == .stopping then b
  else
    let b := if x.sched.isSome then b.each x.reg.regionList fun b n => b.mEp n fun e => { e with quiesce := false } else b
    let b := b.mCtx c fun x => { x with
      st := .stopping, enPend := false, sched := none, heldGo := none, missedWin := false, interval := none, arm := none
      run := { x.run with accOn := false } }
    let b := (b.clearing c).timersStop c
    let b := b.each (List.range 16) fun b n => if (b.collSlot n).desc.ctx = c then b.collCancel n else b
    b.each (List.range 8) fun b n => if (b.genSlot n).ctx = c then b.genCancel n else b

/-- EN = 0 (R114, R406): a held enable is cancelled, and a context that is not OFF stops. -/
def Block.ctxDisable (b : Block) (c : Nat) : Block := (b.mCtx c fun x => { x with enPend := false }).ctxStop c

/-- CTX_DISABLE (R114, R142). -/
def execCtxDisable (a : Access) (c : Ctx6) (s : State) : Host.Outcome State Fault Refusal :=
  s.run fun b => b.regCmd (portReq a) 0x5000 true fun b =>
    let x := b.ctx c.toNat
    if !worldOk (portReq a) x.world then (if x.en then b.violate 0 (portReq a) true 0x5000 else b)
    else b.ctxDisable c.toNat

/-- CTX_CLEARING_DONE: OFF for one cycle, and a held enable is applied (R114, R406), outside Cloakroom (R410). -/
def execCtxClearingDone (c : Ctx6) (s : State) : Host.Outcome State Fault Refusal :=
  s.run fun b => b.mCtx c.toNat fun x =>
    if x.st == .stopping then
      let go := x.enPend && !b.tsu.boot.inCloak
      { x with st := if go then .idle else .off, enPend := x.enPend && !go }
    else x

end Sys2Proof.Machine
end

