-- ==== Sys2Proof/Machine/Refs.lean ====
section
/-! DEFINITION. A root's references, selection, tie roles and free run (R92-R109). -/

namespace Sys2Proof.Machine

open Sys2Proof

def Block.mRoot (b : Block) (f : Root → Root) : Block := { b with dist.root := f b.dist.root }
def Block.ref (b : Block) (n : Nat) : RefIn := smGet {} b.dist.root.refs n
def Block.mRef (b : Block) (n : Nat) (f : RefIn → RefIn) : Block :=
  b.mRoot fun r => { r with refs := smMod {} r.refs n f }
def Block.ptp (b : Block) (n : Nat) : PtpPort := smGet {} b.dist.root.ptps n
def Block.mPtp (b : Block) (n : Nat) (f : PtpPort → PtpPort) : Block :=
  b.mRoot fun r => { r with ptps := smMod {} r.ptps n f }

/-! ### Candidates -/

/-- ref.inN.type of input n (R112). -/
def Block.refType (b : Block) (n : Nat) : Nat := b.catNat .dist (0x2201 + n) 1

/-- A candidate is valid: a good 1PPS input with a good ToD line, or an enabled port with announcements (R97-R101). -/
def Block.candValid (b : Block) (c : Nat) : Bool :=
  if c < 4 then b.refType c == 1 && (b.ref c).good && (b.ref c).todGood
  else b.catNat .dist (0x2201 + c) 1 == 1 && (b.ptp (c - 4)).announced

/-- The present QL of a 1PPS input or a port; a lost one has 15 (R98, R100, R102). -/
def Block.candQl (b : Block) (c : Nat) : Nat :=
  if c < 4 then
    if b.refType c = 2 then
      if (b.ref c).tenGood then
        let q := b.catNat .dist (0x2201 + c) 7
        if q ≤ 15 then q
        else
          let p := b.catNat .dist (0x2201 + c) 4
          if p < 4 && b.candValid p then (b.ref p).ql.toNat else 15
      else 15
    else if b.candValid c then (b.ref c).ql.toNat else 15
  else if b.candValid c then (b.ptp (c - 4)).ql.toNat else 15

def Block.candPrio (b : Block) (c : Nat) : Nat := b.catNat .dist (0x2201 + c) 5

/-- Eligibility apart from the wait-to-restore (R104). -/
def Block.candFit (b : Block) (c : Nat) : Bool :=
  b.candValid c && decide (1 ≤ b.candPrio c ∧ b.candPrio c ≤ 8) && decide (b.candQl c ≤ b.catNat .dist 0x2213 0)

def Block.candEligible (b : Block) (c : Nat) : Bool := b.candFit c && !b.dist.root.wtr.getLsbD c

/-- Candidate c goes before d: lower QL, then lower priority value, then lower index (R104). -/
def Block.candBefore (b : Block) (c d : Nat) : Bool :=
  let qc := b.candQl c
  let qd := b.candQl d
  qc < qd || (qc == qd && (b.candPrio c < b.candPrio d || (b.candPrio c == b.candPrio d && c < d)))

/-- The candidate that selection picks. -/
def Block.candBest (b : Block) : Option Nat :=
  (List.range 6).foldl (fun m c =>
    if b.candEligible c then
      match m with
      | none => some c
      | some d => if b.candBefore c d then some c else some d
    else m) none

/-! ### Free run at nominal (R107) -/

/-- The FFO at nominal: cal_ffo − ageing × days since cal_sec, truncated towards zero. -/
def Block.nominalFfo (b : Block) : Int :=
  let t := b.dist.time
  let secs : Int := if t.timeValid then ((tc64ToHt96 t.epoch t.tc64).sec.toNat : Int) - Config.calSec.toNat else 0
  let ageing := b.catInt .dist 0x2220 3
  Config.calFfo.toInt - Int.tdiv (ageing * secs * 2 ^ 40) (86400 * 10 ^ 15)

/-- Runs at nominal, within the limit of R96. -/
def Block.runNominal (b : Block) : Block :=
  let now := b.dist.time.tc64
  let v := b.rootLimit .dist b.dist.servo.ffo.toInt b.nominalFfo
  b.mServo .dist fun s => { s with fSteer := 0, slewClamp := false }.setFfo now (BitVec.ofInt 32 v)

/-- RSRC of a selected candidate (R92). -/
def rsrcOf (c : Nat) : BitVec 3 := if c < 4 then 1 else 2

/-- A candidate is selected, or none and the root runs at nominal (R104, R105, R109). -/
def Block.selectCand (b : Block) (m : Option Nat) : Block :=
  match m with
  | some c => b.mRoot fun r => { r with
      selected := some (BitVec.ofNat 3 c), holdoff := none, refLost := false
      rsrc := if b.dist.time.timeValid then rsrcOf c else r.rsrc }
  | none =>
    (b.mRoot fun r => { r with
      selected := none, holdoff := none, refLost := true
      rsrc := if b.dist.time.timeValid then 4 else r.rsrc }).runNominal

/-- Reference selection after a change (R104, R105). A follower does not select. -/
def Block.refsChange (b : Block) : Block :=
  let r := b.dist.root
  if b.dRole ≠ 3 ∨ r.role = 2 then b else
  match r.selected with
  | some c =>
    if b.candEligible c.toNat then
      match b.candBest with
      | some d => if d ≠ c.toNat ∧ b.catNat .dist 0x2212 0 = 1 then b.selectCand (some d) else b
      | none => b
    else (b.mRoot fun r => { r with selected := none, holdoff := some c }).runNominal
  | none =>
    match r.holdoff with
    | some c =>
      if b.candFit c.toNat then
        (b.mRoot fun r => { r with wtr := r.wtr &&& ~~~(1#6 <<< c.toNat) }).selectCand (some c.toNat)
      else b
    | none => match b.candBest with
      | some d => b.selectCand (some d)
      | none => b

/-- A candidate is lost: its wait-to-restore starts and its bucket takes the weight (R105, R444). -/
def Block.candLost (b : Block) (c : Nat) : Block :=
  ((b.mRoot fun r => { r with wtr := r.wtr ||| (1#6 <<< c) }).bucket (some (24 + c)) 4 1).refsChange

/-- REF_HOLDOFF_EXPIRE (R105). -/
def execRefHoldoffExpire (s : State) : Host.Outcome State Fault Refusal :=
  s.run fun b => if b.dist.root.holdoff.isSome then b.selectCand b.candBest else b

/-- REF_WTR_EXPIRE: the candidate has been valid throughout its wait (R105). -/
def execRefWtrExpire (cand : BitVec 3) (s : State) : Host.Outcome State Fault Refusal :=
  s.run fun b =>
    if b.candValid cand.toNat then
      (b.mRoot fun r => { r with wtr := r.wtr &&& ~~~(1#6 <<< cand.toNat) }).refsChange
    else b

/-! ### Roles (R94) -/

/-- XMST is received: the OR over the downward lanes (R92). -/
def Block.xmst (b : Block) : Bool := b.dist.lanes.any fun e => e.1 < 288 && e.2.reg.state == .up && e.2.sync.rx.xmst

/-- A root that has not acquired takes the master role when it may: tie.role_pref 0, or already made master, and no XMST. -/
def Block.mayMaster (b : Block) : Bool :=
  !b.xmst && (b.dist.root.role == 1 || (b.dist.root.role == 0 && b.catNat .dist 0x2120 1 == 0))

/-- Acquisition of a root as master (R79, R94). -/
def Block.rootAcquire (b : Block) (th2 : Int) (rsrc : BitVec 3) : Block :=
  let b := b.moveBy .dist th2 false
  let b := b.mTime .dist fun t => { t with timeValid := true }
  let b := b.mServo .dist fun s => { s with state := .acquiring, lockRun := 0, unlockRun := 0 }
  b.mRoot fun r => { r with role := 1, rsrc := rsrc }

/-- A root becomes follower: it stops its own selection and takes the tie (R94). -/
def Block.follow (b : Block) : Block :=
  b.mRoot fun r => { r with
    role := 2, tlk := false, small := 0, large := 0, tieWins := 0, tieHist := [], selected := none, holdoff := none
    rsrc := if b.dist.time.timeValid then 3 else 0 }

/-- A root becomes master: it selects its own references, or free-runs at nominal. -/
def Block.lead (b : Block) : Block :=
  (b.mRoot fun r => { r with role := 1, tlk := false, holdoff := none }).selectCand b.candBest

/-- The offset of a candidate's edge or exchange reaches the loop of a master (R74, R94, R100). -/
def Block.rootIn (b : Block) (c : Nat) (th2 : Int) (hist : List Int) : Block :=
  let r := b.dist.root
  if !b.dist.time.timeValid then
    if r.selected = some (BitVec.ofNat 3 c) && b.mayMaster then b.rootAcquire th2 (rsrcOf c)
    else if r.role = 2 && b.candBest == some c then b.moveBy .dist th2 false
    else b
  else if r.role = 1 && r.selected == some (BitVec.ofNat 3 c) then b.servoIn .dist th2 hist
  else b

/-- TIE_HOLDOFF_EXPIRE: tie.holdoff seconds have passed in one of the situations of R94. -/
def Block.tieHoldoff (b : Block) : Block :=
  let r := b.dist.root
  let pref := b.catNat .dist 0x2120 1
  if b.dRole ≠ 3 then b
  else if r.role = 0 && !b.dist.time.timeValid && !b.xmst && !r.tieValid then
    b.mRoot fun r => { r with role := 1 }
  else if r.role = 2 && !b.xmst && !r.tieValid then b.lead
  else if r.role = 1 && b.xmst then
    let yields := if pref = Config.otherRolePref then b.dPlane == .B else pref == 1
    if yields then (b.follow).measure .dist else b
  else b

def execTieHoldoffExpire (s : State) : Host.Outcome State Fault Refusal := s.run Block.tieHoldoff

/-- TIE_SWITCH_AT: the planned role switch (R94). Both roles change by rate only. -/
def Block.tieSwitch (b : Block) : Block :=
  let t := BitVec.ofNat 64 (b.catNat .dist 0x2120 2)
  if b.dRole ≠ 3 ∨ t = 0 ∨ !Tick.le t b.dist.time.tc64 then b
  else if b.dist.root.role = 1 then b.follow
  else if b.dist.root.role = 2 then b.lead
  else b

def execTieSwitchAt (s : State) : Host.Outcome State Fault Refusal := s.run Block.tieSwitch

/-! ### Inputs -/

/-- An input is lost: QL 15, and four good edges bring it back (R98). -/
def Block.ppsLost (b : Block) (n : Nat) : Block :=
  if (b.ref n).good then
    (b.mRef n fun r => { r with good := false, goodRun := 0, miss := 0, lastEdge := none, hist := [] }).candLost n
  else b.mRef n fun r => { r with goodRun := 0, miss := 0, lastEdge := none }

/-- One more edge missing or rejected (R98). -/
def Block.ppsMiss (b : Block) (n : Nat) : Block :=
  let b := b.mRef n fun r => { r with miss := r.miss + 1, goodRun := 0 }
  if 2 ≤ (b.ref n).miss then b.ppsLost n else b

/-- A timestamp in TDC units. -/
def tsUnits (t : Ts) : Int := (t.tick.toNat : Int) * 640 + t.fine.toNat

/-- The offset of an edge that a label names, in half TDC units: its time, less the cable delay, minus the TC64 of SEC;
none where the instant has no TC64 (R22, R100). -/
def Block.ppsOffset (b : Block) (n : Nat) (t : Ts) (sec : BitVec 48) : Option Int :=
  (ht96ToTc64 b.dist.time.epoch ⟨sec, 0, 0⟩).map fun r =>
    2 * (Tick.diff t.tick r * 640 + t.fine.toNat - b.catInt .dist (0x2201 + n) 6)

/-- A 1PPS edge at input n (R97, R98). -/
def Block.ppsEdge (b : Block) (n : Nat) (t : Ts) : Block :=
  if b.dRole ≠ 3 ∨ b.refType n ≠ 1 ∨ t.fine = 0x3FF then b else
  let r := b.ref n
  let e := tsUnits t
  let inWin := match r.lastEdge with
    | none => true
    | some x => decide ((e - x - 800000000000).natAbs ≤ 800000)
  if !inWin then (b.bucket (some (24 + n)) 5 1).ppsMiss n
  else
    let lab := r.label
    let b := b.mRef n fun r => { r with
      lastEdge := some e, miss := 0, label := none
      goodRun := if lab.isSome then r.goodRun + 1 else 0
      good := r.good || (lab.isSome && decide (4 ≤ r.goodRun + 1)) }
    let b := b.refsChange
    match lab with
    | none => b
    | some sec => match b.ppsOffset n t sec with
      | none => b
      | some th2 =>
        let b := b.mRef n fun r => { r with hist := (th2 :: r.hist).take 16 }
        if b.candValid n then b.rootIn n th2 (b.ref n).hist else b

/-- PPS_EDGE (R98). -/
def execPpsEdge (n : BitVec 2) (t : Ts) (s : State) : Host.Outcome State Fault Refusal :=
  s.run fun b => b.ppsEdge n.toNat t

/-- PPS_EDGE_MISSING (R98). -/
def execPpsEdgeMissing (n : BitVec 2) (s : State) : Host.Outcome State Fault Refusal :=
  s.run fun b => if b.refType n.toNat = 1 then b.ppsMiss n.toNat else b

/-- The fields of a ToD message, if SYNC, VER, LEN and CRC are correct (R99, R100): SEC, QL and TFLAGS. -/
def todParse (m : Bytes) : Option (BitVec 48 × BitVec 4 × Byte) :=
  if m.length = 28 ∧ beAt m 0 2 = 0x485A ∧ beAt m 2 1 = 1 ∧ beAt m 3 1 = 28 ∧
      beAt m 24 4 = (crc32c (m.take 24)).toNat then
    some (BitVec.ofNat 48 (beAt m 4 6), BitVec.ofNat 4 (beAt m 10 1), BitVec.ofNat 8 (beAt m 11 1))
  else none

/-- The QL an input takes from a message (R100). -/
def todQl (ql : BitVec 4) (flags : Byte) : BitVec 4 :=
  if flags.getLsbD 0 || flags.getLsbD 1 then (if ql = 13 then 14 else ql) else 15

/-- A ToD message at line n: discarded outside 100 to 900 ms after the preceding edge (R99), then judged (R100). -/
def Block.todMessage (b : Block) (n : Nat) (m : Bytes) : Block :=
  if b.dRole ≠ 3 then b else
  let r := b.ref n
  let inTime := match r.lastEdge with
    | none => true
    | some e =>
      let d := (b.dist.time.tc64.toNat : Int) * 640 - e
      decide (80000000000 ≤ d ∧ d ≤ 720000000000)
  match todParse m with
  | none => b
  | some (sec, ql, fl) =>
    if !inTime || (match r.prevSec with | some p => sec != p + 1 | none => false) then b
    else
      let q := todQl ql fl
      let b := if r.prevSec.isSome && q != r.ql then b.bucket (some (24 + n)) 5 1 else b
      (b.mRef n fun r => { r with
        label := some sec, prevSec := some sec, ql := q, todRun := r.todRun + 1, todBad := 0
        todGood := r.todGood || decide (3 ≤ r.todRun + 1) }).refsChange

/-- TOD_MESSAGE_RECEIVE (R99). -/
def execTodMessageReceive (n : BitVec 2) (msg : Bytes) (s : State) : Host.Outcome State Fault Refusal :=
  s.run fun b => b.todMessage n.toNat msg

/-- TOD_TIMEOUT: two consecutive seconds without a valid message (R98). -/
def execTodTimeout (n : BitVec 2) (s : State) : Host.Outcome State Fault Refusal :=
  s.run fun b =>
    let was := b.candValid n.toNat
    let b := b.mRef n.toNat fun r => { r with todGood := false, todRun := 0, todBad := 0, prevSec := none, ql := 15 }
    if was then b.candLost n.toNat else b

/-- TENMHZ_LOSS (R98): the input takes QL 15, with no switch and no hold-off (R106). -/
def execTenmhzLoss (n : BitVec 2) (s : State) : Host.Outcome State Fault Refusal :=
  s.run fun b => b.mRef n.toNat fun r => { r with tenGood := false }

/-- TENMHZ_RECOVER (R98). -/
def execTenmhzRecover (n : BitVec 2) (s : State) : Host.Outcome State Fault Refusal :=
  s.run fun b => if b.refType n.toNat = 2 then b.mRef n.toNat fun r => { r with tenGood := true } else b

/-- QL of a PTP port from clockClass and clockAccuracy (R102). -/
def ptpQl (cls acc : Byte) : BitVec 4 :=
  match cls.toNat with
  | 6 => if acc.toNat ≤ 0x21 then 1 else 2
  | 13 => 3 | 7 => 4 | 14 => 5 | 135 => 6 | 140 => 7 | 150 => 8
  | 160 => 9 | 52 => 9 | 58 => 9 | 187 => 9 | 193 => 9
  | 165 => 10 | 248 => 14 | _ => 15

/-- A PTP message at port n (R101, R102). -/
def Block.ptpMessage (b : Block) (n : Nat) (m : PtpMsg) : Block :=
  let i := 0x2205 + n
  if b.dRole ≠ 3 ∨ b.catNat .dist i 1 ≠ 1 then b else
  match m with
  | .announce dom cls acc ts =>
    if dom.toNat ≠ b.catNat .dist i 2 then b
    else
      let q : BitVec 4 := if ts then ptpQl cls acc else 15
      let was := b.candValid (4 + n)
      let b := if was && q != (b.ptp n).ql then b.bucket (some (28 + n)) 5 1 else b
      let b := b.mPtp n fun p => { p with announced := ts, ql := q }
      if was && !ts then b.candLost (4 + n) else b.refsChange
  | .exchange dom off =>
    if dom.toNat ≠ b.catNat .dist i 2 || !b.candValid (4 + n) then b
    else
      let th2 := 2 * (off - b.catInt .dist i 7)
      let b := b.mPtp n fun p => { p with hist := (th2 :: p.hist).take 16 }
      b.rootIn (4 + n) th2 (b.ptp n).hist

/-- PTP_MESSAGE_RECEIVE (R101). -/
def execPtpMessageReceive (n : Bool) (m : PtpMsg) (s : State) : Host.Outcome State Fault Refusal :=
  s.run fun b => b.ptpMessage n.toNat m

/-- PTP_ANNOUNCE_TIMEOUT (R101). -/
def execPtpAnnounceTimeout (n : Bool) (s : State) : Host.Outcome State Fault Refusal :=
  s.run fun b =>
    let was := b.candValid (4 + n.toNat)
    let b := b.mPtp n.toNat fun p => { p with announced := false }
    if was then b.candLost (4 + n.toNat) else b

/-- The SyncE QL of an ESMC PDU (R103). -/
def esmcQl (opt : Nat) (code : BitVec 4) (ext : EsmcTlv) : BitVec 4 :=
  if opt = 1 then
    match ext with
    | .ePRC => 1
    | .eEEC => 9
    | .none => match code.toNat with | 2 => 2 | 4 => 5 | 8 => 7 | 11 => 10 | _ => 15
  else if opt = 2 then
    match code.toNat with
    | 1 => 2 | 7 => 5 | 4 => 6 | 13 => 7 | 10 => 10 | 12 => 11 | 14 => 12 | 0 => 14 | _ => 15
  else 15

/-- ESMC_RECEIVE (R103). -/
def execEsmcReceive (n : Bool) (code : BitVec 4) (ext : EsmcTlv) (s : State) : Host.Outcome State Fault Refusal :=
  s.run fun b => b.mPtp n.toNat fun p => { p with syncE := esmcQl (b.catNat .dist (0x2205 + n.toNat) 6) code ext }

/-- ESMC_TIMEOUT: no PDU for 5 s (R103). -/
def execEsmcTimeout (n : Bool) (s : State) : Host.Outcome State Fault Refusal :=
  s.run fun b => b.mPtp n.toNat fun p => { p with syncE := 15 }

/-- AGEING_LEARN: while the root follows a reference its ageing estimate is renewed, a free value; with ageing_learn = 1
it becomes the ageing in use (R107). -/
def Block.ageingLearn (b : Block) : Block :=
  if b.dRole ≠ 3 then b else
  let b :=
    if b.dist.root.selected.isSome then
      let (x, b) := b.draw
      b.mRoot fun r => { r with ageingEst := x.setWidth 32 }
    else b
  if b.catNat .dist 0x2220 4 = 1 then b.catSetNat .dist 0x2220 3 b.dist.root.ageingEst.toNat else b

def execAgeingLearn (s : State) : Host.Outcome State Fault Refusal := s.run Block.ageingLearn

/-- AON_CLOCK_LOSS (R109). -/
def execAonClockLoss (u : UnitRef) (s : State) : Host.Outcome State Fault Refusal :=
  s.run fun b => (b.mTdc u fun t => { t with aonLost := true }).mServo u fun x => { x with refLost := true }

/-- AON_CLOCK_RECOVER: 16 good windows (R109). -/
def execAonClockRecover (u : UnitRef) (s : State) : Host.Outcome State Fault Refusal :=
  s.run fun b => b.mTdc u fun t => { t with aonLost := false }

/-! ### The downward SERVO field (R92) -/

/-- RQL: the selected candidate's QL, 13 while the root runs without one, 15 before it has acquired. -/
def Block.rootRql (b : Block) : BitVec 4 :=
  if !b.dist.time.timeValid then 15
  else match b.dist.root.selected with
    | some c => BitVec.ofNat 4 (b.candQl c.toNat)
    | none => 13

/-- The field a root originates. -/
def Block.rootField (b : Block) : BitVec 64 :=
  let r := b.dist.root
  put 60 b.rootRql ||| put 57 r.rsrc ||| putB 56 (r.role == 1) ||| putB 55 r.tlk |||
    put 52 (r.selected.getD 7)

/-- The field decoded at a child. -/
def servoRxOf (w : BitVec 64) : ServoRx :=
  { rql := fld w 60 4, rsrc := fld w 57 3, mst := w.getLsbD 56, tlk := w.getLsbD 55, ridx := fld w 52 3,
    xmst := w.getLsbD 63 }

/-- The field of a ServoRx, as a T1 or T2 copies it from its timing lane. -/
def servoRxField (r : ServoRx) : BitVec 64 :=
  put 60 r.rql ||| put 57 r.rsrc ||| putB 56 r.mst ||| putB 55 r.tlk ||| put 52 r.ridx

end Sys2Proof.Machine
end

