-- ==== Sys2Proof/Machine/Sync.lean ====
section
/-! DEFINITION. The sync exchange (R49-R57), the TDC (R53-R55, R72) and asymmetry refinement (R58-R63, R71, R93). -/

namespace Sys2Proof.Machine

open Sys2Proof

/-- A timestamp that exists (R52). -/
def tsSome (t : Ts) : Option Ts := if t.fine = 0x3FF then none else some t

/-- An absent timestamp (R52). -/
def tsAbsent : Ts := ⟨0, 0x3FF⟩

/-- A capture of a channel whose delay line is not locked is absent (R53). -/
def Lane.capture (x : Lane) (t : Ts) : Option Ts := if x.sync.dllLock then tsSome t else none

/-- A compressed timestamp extended to the unique tick within −2^23 to 2^23 − 1 of the receiver's own count (R52). -/
def extendTs (own : Tick) (t : Ts) : Ts :=
  let d := (t.tick.setWidth 24 - own.setWidth 24 : BitVec 24)
  ⟨own + BitVec.ofInt 64 d.toInt, t.fine⟩

/-- The difference of two timestamps in TDC units. -/
def tsDiff (x y : Ts) : Int := Tick.diff x.tick y.tick * 640 + (x.fine.toNat : Int) - y.fine.toNat

/-- A_CLASS in half TDC units (R58). -/
def aClass (c : BitVec 4) : Int := if c = 2 then 8 else if c = 3 ∨ c = 4 then 16 else 0

/-- The class's bound before refinement in half TDC units; class 0 and the reserved classes have none (R58). -/
def aBound (c : BitVec 4) : Option Int :=
  if c = 1 then some 96 else if c = 2 then some 192 else if c = 3 then some 240 else if c = 4 then some 320 else none

/-- d2 and th2 of an exchange (R56). -/
def exchange (t1 t2 t3 t4 : Ts) (asym2 : Int) : Int × Int :=
  let a := tsDiff t2 t1
  let b := tsDiff t4 t3
  (a + b, a - b - asym2)

/-- The acceptance check of R57. The first 16 exchanges after link-up build d2_ref and are not held against it. -/
def Lane.accepts (x : Lane) (d2 : Int) : Bool :=
  decide (0 ≤ d2) && (decide (x.sync.accN < 16) ||
    decide ((d2 - median x.sync.d2s).natAbs ≤ 2 * x.reg.delayWin.toNat))

/-- An exchange of the lane is accepted. -/
def Lane.accept (x : Lane) (d2 th2 : Int) : Lane :=
  { x with
    reg := { x.reg with delay2 := BitVec.ofInt 32 d2, offset2 := BitVec.ofInt 64 th2 }
    sync := { x.sync with
      accN := x.sync.accN + 1, d2s := (d2 :: x.sync.d2s).take 15, th2s := (th2 :: x.sync.th2s).take 16
      periods := (true :: x.sync.periods).take 16, winSum := x.sync.winSum + th2, winN := x.sync.winN + 1 } }

/-- An exchange period of the lane ends with no accepted exchange. -/
def Lane.period (x : Lane) : Lane := { x with sync := { x.sync with periods := (false :: x.sync.periods).take 16 } }

/-- The exchange that arrival of frame f completes at a child, if it does (R50): t1, t2, t3, t4. -/
def Lane.childTimes (x : Lane) (f : SyncFrame) : Option (Ts × Ts × Ts × Ts) :=
  let k := x.sync.rxSeq
  if f.sseq = k + 1 ∧ f.rxSeq = k ∧ x.sync.prevTxSeq = k then
    match tsSome f.txPrev, x.sync.rxTs, x.sync.prevTx, tsSome f.rxTs with
    | some t1, some t2, some t3, some t4 => some (t1, t2, t3, t4)
    | _, _, _, _ => none
  else none

/-- The exchange that arrival of frame f completes at a parent, if it does (R50). -/
def Lane.parentTimes (x : Lane) (f : SyncFrame) : Option (Ts × Ts × Ts × Ts) :=
  let k := x.sync.rxSeq
  if f.sseq = k + 1 ∧ x.sync.prevTxSeq = k + 1 then
    match x.sync.prev2Tx, x.sync.peerRx, tsSome f.txPrev, x.sync.rxTs with
    | some t1, some t2, some t3, some t4 => some (t1, t2, t3, t4)
    | _, _, _, _ => none
  else none

/-- EPOCH_DIFF (R19). -/
def Block.epochDiff (b : Block) : Block :=
  b.mTime .tsu fun t => { t with epochDiff :=
    match t.epochA, t.epochB with
    | some x, some y => t.timeValid && x != y
    | _, _ => false }

/-- What a sync frame carries besides its timestamps is taken (R18, R51, R61, R92). -/
def Lane.takeFields (x : Lane) (f : SyncFrame) (rx : Option Ts) (now : Tick) : Lane :=
  { x with
    reg := { x.reg with
      pcalRx := f.pcal, tvRx := f.tv, refined := x.reg.refined && f.pcal,
      pmean := if f.pmv && !f.dir then f.pmean else x.reg.pmean }
    sync := { x.sync with
      rxSeq := f.sseq, rxTs := rx, answer := true, lastRxAt := now, pmv := f.pmv
      dsum := if f.dir then f.dsum else x.sync.dsum, dcnt := if f.dir then f.dcnt else x.sync.dcnt
      peerRx := tsSome f.rxTs
      rx := if x.reg.featEff.getLsbD 16 then servoRxOf f.servo else {} } }

/-- The epoch replica that a downward frame carries (R18, R19). -/
def Block.takeEpoch (b : Block) (l : LaneRef) (f : SyncFrame) : Block :=
  match l with
  | .tsu .A =>
    (b.mTime .tsu fun t => { t with
      epochA := some f.epoch, epoch := if !t.selB && b.tsu.servo.selMade then f.epoch else t.epoch }).epochDiff
  | .tsu .B =>
    (b.mTime .tsu fun t => { t with
      epochB := some f.epoch, epoch := if t.selB && b.tsu.servo.selMade then f.epoch else t.epoch }).epochDiff
  | .dist n =>
    if 288 ≤ n && (b.dist.servo.timing == some n || b.dist.servo.timing == none) then
      b.mTime .dist fun t => { t with epoch := f.epoch }
    else b

/-- A received sync frame (R50, R57, R74): a compressed frame is extended, the frame's fields are taken, and the
exchange it completes is computed and accepted or counted in SYNC_DROP. -/
def Block.syncRx (b : Block) (l : LaneRef) (f0 : SyncFrame) (rx : Ts) : Block :=
  let own := b.tcOf (laneUnit l)
  let f := if f0.cmp then { f0 with txPrev := extendTs own f0.txPrev, rxTs := extendTs own f0.rxTs } else f0
  let down := match l with | .tsu _ => true | .dist n => decide (288 ≤ n)
  if f.dir == down then b else
  let x := b.lane l
  let ex := if down then x.childTimes f else x.parentTimes f
  let asym := aClass x.reg.cableClass + x.reg.aRef.toInt
  let b := b.mLane l fun x => x.takeFields f (x.capture rx) own
  let b := if down then b.takeEpoch l f else b
  match ex with
  | none => (b.mLane l Lane.period).servoLoss l
  | some (t1, t2, t3, t4) =>
    let (d2, th2) := exchange t1 t2 t3 t4 asym
    if (b.lane l).accepts d2 then
      let b := b.mLane l fun x => x.accept d2 th2
      match l with
      | .tsu p => (b.tsuExchange p th2).promise
      | .dist n => if down then b.distExchange n th2 else b
    else ((b.mLane l Lane.period).mCnt l fun c => { c with syncDrop := sat1 c.syncDrop }).servoLoss l

/-- XMST received before a root acquires makes it follower (R94). -/
def Block.xmstFollow (b : Block) : Block :=
  if b.dRole = 3 && !b.dist.time.timeValid && b.dist.root.role != 2 && b.xmst then b.follow else b

/-- SYNC_FRAME_RECEIVE (R50). TIME frames are accepted whatever their MEPOCH (R44). -/
def execSyncFrameReceive (l : LaneRef) (h : Hdr) (f : SyncFrame) (rx : Ts) (s : State) :
    Host.Outcome State Fault Refusal :=
  s.runLane l fun b => b.rx l h 0 0 false fun b => (b.syncRx l f rx).xmstFollow

/-- SYNC_LOSS_DETECT: 16 exchange periods in a row without an accepted exchange (R57); where no frame came in them
either, PCAL_RX and TV_RX read 0 (R69). -/
def Block.syncLoss (b : Block) (l : LaneRef) : Block :=
  if !b.up l then b else
  let own := b.tcOf (laneUnit l)
  (b.mLane l fun x =>
    let silent := decide (16 * 4096 ≤ Tick.diff own x.sync.lastRxAt)
    { x with
      reg := { x.reg with
        syncLoss := true, pcalRx := x.reg.pcalRx && !silent, tvRx := x.reg.tvRx && !silent
        refined := x.reg.refined && !silent }
      sync := { x.sync with periods := List.replicate 16 false } }).servoLoss l

def execSyncLossDetect (l : LaneRef) (s : State) : Host.Outcome State Fault Refusal :=
  s.runLane l fun b => b.syncLoss l

/-! ### Sending -/

/-- Compressed form is used only with TSC, TIME_VALID and the partner's TV (R52). -/
def Block.compress (b : Block) (l : LaneRef) : Bool :=
  (b.lane l).reg.featEff.getLsbD 18 && (b.timeOf (laneUnit l)).timeValid && (b.lane l).reg.tvRx

/-- The frame common to both directions. -/
def Block.syncFrame (b : Block) (l : LaneRef) (dir : Bool) (sseq : BitVec 16) : SyncFrame :=
  let x := b.lane l
  { cmp := b.compress l, sseq := sseq, tv := (b.timeOf (laneUnit l)).timeValid, pcal := false, dir := dir, pmv := false
    txPrev := x.sync.prevTx.getD tsAbsent, rxSeq := x.sync.rxSeq, rxTs := x.sync.rxTs.getD tsAbsent
    epoch := ⟨0, 0, 0⟩, pmean := 0, dsum := 0, dcnt := 0, servo := 0 }

/-- The sent frame's own timestamp is kept for the next frame (R50, R53). -/
def Block.sentAt (b : Block) (l : LaneRef) (sseq : BitVec 16) (tx : Ts) : Block :=
  b.mLane l fun x => { x with sync := { x.sync with
    prev2Tx := x.sync.prevTx, prevTx := x.capture tx, prevTxSeq := sseq } }

/-- Whether a distributor sends downward sync frames now (R91, R439). -/
def Block.sendsDown (b : Block) : Bool :=
  !b.dist.boot.draining &&
    (b.dRole == 3 || !b.dist.time.timeValid || b.dist.servo.state == .locked)

/-- PCAL downward: 1 at a root, otherwise received PCAL and REFINED of the timing lane; 0 in SHADOW (R63, R440). -/
def Block.pcalDown (b : Block) : Bool :=
  !b.dist.boot.shadow && (b.dRole == 3 ||
    (match b.dist.servo.timing with
     | some n => (b.lane (.dist n)).reg.pcalRx && (b.lane (.dist n)).reg.refined
     | none => false))

/-- The SERVO field downward: originated by a root, copied from the timing lane elsewhere (R92). -/
def Block.servoDown (b : Block) : BitVec 64 :=
  if b.dRole = 3 then b.rootField
  else match b.dist.servo.timing with
    | some n => servoRxField (b.lane (.dist n)).sync.rx
    | none => 0

/-- SYNC_SEND_DOWN: the downward frame of lane n, at a tick count that is a multiple of 4,096 (R49, R91). -/
def Block.syncDown (b : Block) (n : Nat) (tx : Ts) : Block :=
  let l := LaneRef.dist n
  if !b.up l || 288 ≤ n || !b.sendsDown then b else
  let x := b.lane l
  let sseq := x.sync.sseqTx
  let f := { b.syncFrame l false sseq with
    pcal := b.pcalDown, pmv := b.dist.root.tieValid, pmean := b.dist.root.mean, epoch := b.dist.time.epoch
    servo := if x.reg.featEff.getLsbD 16 then b.servoDown else 0 }
  ((b.send l false (.sync f)).sentAt l sseq tx).mSync l fun s => { s with sseqTx := sseq + 1 }

def execSyncSendDown (n : Nat) (tx : Ts) (s : State) : Host.Outcome State Fault Refusal :=
  s.runLane (.dist n) fun b => b.syncDown n tx

/-- XMST upward: at a die, the other lane has no SYNC_LOSS and last received MST = 1; at a distributor, the OR over its
downward lanes (R92). -/
def Block.xmstUp (b : Block) (l : LaneRef) : Bool :=
  match l with
  | .tsu p =>
    let o := b.lane (.tsu (flipP p))
    !o.reg.syncLoss && o.sync.rx.mst
  | .dist _ => b.xmst

/-- DSUM and DCNT upward: a die's own, or a distributor's sums on its timing lane (R61). -/
def Block.sumsUp (b : Block) (l : LaneRef) : BitVec 48 × BitVec 16 :=
  match l with
  | .tsu _ => ((b.lane l).sync.dsum, (b.lane l).sync.dcnt)
  | .dist n => if b.dist.servo.timing == some n then (b.dist.root.sumD, b.dist.root.sumN) else (0, 0)

/-- SYNC_SEND_UP: the answer to the last downward frame, with its SSEQ (R49). -/
def Block.syncUp (b : Block) (l : LaneRef) (tx : Ts) : Block :=
  let x := b.lane l
  if !b.up l || !x.sync.answer then b else
  let (d, n) := b.sumsUp l
  let f := { b.syncFrame l true x.sync.rxSeq with
    dsum := d, dcnt := n
    servo := if x.reg.featEff.getLsbD 16 then putB 63 (b.xmstUp l) else 0 }
  ((b.send l false (.sync f)).sentAt l x.sync.rxSeq tx).mSync l fun s => { s with answer := false }

def execSyncSendUp (l : LaneRef) (tx : Ts) (s : State) : Host.Outcome State Fault Refusal :=
  s.runLane l fun b => b.syncUp l tx

/-! ### Refinement windows -/

/-- The mean of th2 over the window, truncated towards zero. -/
def Lane.winMean (x : Lane) : Int := if x.sync.winN = 0 then 0 else Int.tdiv x.sync.winSum x.sync.winN

/-- A correction of A_REF by `d`, limited to the class's bound (R62): the new value and whether it was clamped. -/
def clampRef (c : BitVec 4) (a : BitVec 16) (d : Int) : BitVec 16 × Bool :=
  match aBound c with
  | none => (a, false)
  | some m =>
    let v := a.toInt + d
    (BitVec.ofInt 16 (clampI (-m) m v), decide (m < v.natAbs))

/-- The update of one lane at the end of a window (R62, R63): `own` is the unit's own mean where valid, `planeB` tells
the side. -/
def Lane.refine (x : Lane) (own : Option Int) (planeB : Bool) : Lane :=
  let clean := x.sync.winClean
  let x := { x with sync := { x.sync with winSum := 0, winN := 0, winClean := decide (x.reg.state = LaneSt.up) } }
  match own with
  | some m =>
    if x.reg.refineEn && x.reg.pcalRx && x.sync.pmv && (aBound x.reg.cableClass).isSome then
      let e := m - x.reg.pmean.toInt
      let step := Int.tdiv e (if x.reg.refined then 32 else 4)
      let (a, lim) := clampRef x.reg.cableClass x.reg.aRef (if planeB then -step else step)
      let small := if clean && !lim && decide (e.natAbs ≤ 8) then x.sync.smallRun + 1 else 0
      let large := if decide (64 < e.natAbs) then x.sync.largeRun + 1 else 0
      let ref := if 4 ≤ large then false else x.reg.refined || (decide (8 ≤ small) && !lim)
      { x with
        reg := { x.reg with aRef := a, asymLimit := x.reg.asymLimit || lim, refined := ref }
        sync := { x.sync with smallRun := small, largeRun := large } }
    else { x with sync := { x.sync with smallRun := 0 } }
  | none => { x with sync := { x.sync with smallRun := 0 } }

/-- D of the window at a die, in half TDC units, where R61 lets it count. -/
def Block.dieD (b : Block) : Option Int :=
  let x := b.tsu.laneA
  let y := b.tsu.laneB
  let bad (z : Lane) := z.sync.winN == 0 || (aBound z.reg.cableClass).isNone ||
    (z.reg.topoRes == 2 && z.reg.topoReason == 3)
  if bad x || bad y || b.tsu.time.epochDiff then none else some (x.winMean - y.winMean)

/-- A window ends at the TSU (R61-R63, R71). -/
def Block.tsuWindow (b : Block) : Block :=
  let d := b.dieD
  let v := d.getD 0
  let rep (x : Lane) : Lane := { x with sync := { x.sync with
    dsum := BitVec.ofInt 48 v, dcnt := if d.isSome then 1 else 0 } }
  { b with
    tsu.abDiff := BitVec.ofInt 32 v
    tsu.laneA := rep (b.tsu.laneA.refine d false)
    tsu.laneB := rep (b.tsu.laneB.refine d true) }.promise

/-- Lane j's A_REF takes the difference of its average from the timing lane's (R60). -/
def Block.alignBundle (b : Block) (t : Nat) : Block :=
  let m := (b.lane (.dist t)).winMean
  b.each uplinks fun b n =>
    let x := b.lane (.dist n)
    if n = t ∨ x.sync.winN = 0 ∨ (aBound x.reg.cableClass).isNone then b
    else
      let (a, lim) := clampRef x.reg.cableClass x.reg.aRef (x.winMean - m)
      b.mReg (.dist n) fun r => { r with aRef := a, asymLimit := r.asymLimit || lim }

/-- TLK after a window (R93). -/
def Root.tieWindow (r : Root) (m : Int) (valid : Bool) : Root :=
  let small := if valid && decide (m.natAbs ≤ 16) then r.small + 1 else 0
  let large := if valid then (if 64 < m.natAbs then r.large + 1 else 0) else r.large
  { r with
    small := small, large := large
    tlk := if 4 ≤ large then false else r.tlk || (r.role == 2 && decide (8 ≤ small))
    tieWins := if valid then r.tieWins + 1 else 0
    tieHist := if valid then (m :: r.tieHist).take 16 else r.tieHist }

/-- The tie input reaches a follower root (R93, R94). -/
def Block.tieIn (b : Block) (m : Int) : Block :=
  let r := b.dist.root
  if b.dRole ≠ 3 ∨ r.role ≠ 2 ∨ !r.tieValid then b
  else
    let th2 := if b.dPlane = .B then m else -m
    let hist := r.tieHist.map fun x => if b.dPlane = .B then x else -x
    if b.dist.time.timeValid then b.servoIn .dist th2 hist
    else if 8 ≤ r.tieWins then
      let b := b.moveBy .dist th2 false
      let b := b.mTime .dist fun t => { t with timeValid := true }
      (b.mServo .dist fun s => { s with state := .acquiring }).mRoot fun r => { r with rsrc := 3 }
    else b

/-- A window ends at a distributor (R61-R63, R93). -/
def Block.distWindow (b : Block) : Block :=
  let ch := b.dist.lanes.filter fun e => e.1 < 288 && e.2.reg.state == .up
  let n : Nat := ch.foldl (fun a e => a + e.2.sync.dcnt.toNat) 0
  let d : Int := ch.foldl (fun a e => a + e.2.sync.dsum.toInt) 0
  let m := if n = 0 then 0 else Int.tdiv d n
  let valid := decide (8 ≤ n)
  let b := b.mRoot fun r => { r with
    sumD := BitVec.ofInt 48 d, sumN := BitVec.ofNat 16 n, mean := satI 32 m, tieValid := valid }
  let b := match b.dist.servo.timing with | some t => b.alignBundle t | none => b
  let b := b.each uplinks fun b k => b.mLane (.dist k) fun x =>
    x.refine (if valid then some m else none) (b.dPlane == .B)
  let b := b.mRoot fun r => r.tieWindow m valid
  b.tieIn m

/-- REFINE_WINDOW_END (R61). -/
def execRefineWindowEnd (u : UnitRef) (s : State) : Host.Outcome State Fault Refusal :=
  s.run fun b => match u with | .tsu => b.tsuWindow | .dist => b.distWindow

/-! ### The TDC -/

/-- DLL_LOCK: every channel's delay line is locked (R72). -/
def Block.dllLock (b : Block) : Bool :=
  b.tsu.laneA.sync.dllLock && b.tsu.laneB.sync.dllLock && b.tsu.tdc.spineLock

/-- The lane that a TDC channel serves; none for SPINE. -/
def chLane : TdcCh → Option LaneRef
  | .laneA => some (.tsu .A)
  | .laneB => some (.tsu .B)
  | .spine => none
  | .dist n => some (.dist n)

def Block.setLock (b : Block) (ch : TdcCh) (v : Bool) : Block :=
  match chLane ch with
  | some l => b.mSync l fun s => { s with dllLock := v }
  | none => b.mTdc .tsu fun t => { t with spineLock := v }

/-- A command that names a TDC channel. -/
def State.runCh (ch : TdcCh) (f : Block → Block) (s : State) : Host.Outcome State Fault Refusal :=
  match chLane ch with
  | some l => s.runLane l f
  | none => s.run f

/-- DLL_UNLOCK (R53, R72). -/
def execDllUnlock (ch : TdcCh) (s : State) : Host.Outcome State Fault Refusal :=
  s.runCh ch fun b =>
    let u := match chLane ch with | some l => laneUnit l | none => .tsu
    (b.setLock ch false).mTdc u fun t => { t with dllUnlock := true }

/-- DLL_LOCK_REGAIN (R53). -/
def execDllLockRegain (ch : TdcCh) (s : State) : Host.Outcome State Fault Refusal :=
  s.runCh ch fun b => b.setLock ch true

/-- TDC_CAPTURE_DISCARD: TDC_OVF, and the exchange that needed the capture does not complete (R54). -/
def execTdcCaptureDiscard (ch : TdcCh) (s : State) : Host.Outcome State Fault Refusal :=
  s.runCh ch fun b =>
    match chLane ch with
    | some l => b.mSync l fun x => { x with tdcOvf := true, prevTx := none, rxTs := none }
    | none => b.mTdc .tsu fun t => { t with spineOvf := true }

/-- Code-density calibration starts, unless one runs, the TSU is entering MITTEN, or the AON clock is lost (R55, R72,
R109, R348). -/
def Block.cdcStart (b : Block) (u : UnitRef) : Block :=
  let t := b.tdcOf u
  if t.busy || t.aonLost || (u == .tsu && b.tsu.pwr.st == .entering) then b
  else b.mTdc u fun t => { t with busy := true }

/-- CDC_START (R55). -/
def execCdcStart (a : Access) (u : UnitRef) (s : State) : Host.Outcome State Fault Refusal :=
  match u with
  | .tsu => s.run fun b => b.regCmd (portReq a) 0x3000 true fun b => b.cdcStart .tsu
  | .dist => s.run fun b => b.cdcStart .dist

/-- A calibration ends: the new table takes effect and INL_MAX is reported (R55). At bring-up, spine calibration
follows (R394). -/
def Block.cdcDone (b : Block) (u : UnitRef) (inl : BitVec 8) : Block :=
  if !(b.tdcOf u).busy then b else
  let b := b.mTdc u fun t => { t with busy := false, done := true, inlMax := inl, table := t.table + 1 }
  if u == .tsu && !b.tsu.boot.cdcEnded then
    (b.mBoot fun t => { t with cdcEnded := true }).calBegin
  else b

/-- CDC_DONE (R55). -/
def execCdcDone (u : UnitRef) (inlMax : BitVec 8) (s : State) : Host.Outcome State Fault Refusal :=
  s.run fun b => b.cdcDone u inlMax

end Sys2Proof.Machine
end

