-- ==== Sys2Proof/Machine/Lanes.lean ====
section
/-! DEFINITION. Lanes: training, negotiation, UP and its loss, replay and link control, topology results (R45-R48,
R64-R70, R396, R397, R400-R402, R406, R445, R448, R455, R456, R458). -/

namespace Sys2Proof.Machine

open Sys2Proof

/-! ### What a unit advertises (R65, R66) -/

/-- The features of version `v` or lower. -/
def vmask (v : BitVec 16) : BitVec 64 :=
  (if v.toNat < 0x100 then 0 else 0xF) ||| (if v.toNat < 0x101 then 0 else 0x700) |||
    (if v.toNat < 0x200 then 0 else 0x70000)

/-- The advertised version. -/
def Block.advVer (b : Block) (u : UnitRef) : BitVec 16 :=
  let cap := b.catNat u 0x1113 0
  let top := b.catNat u 0x1110 0
  let c := if 0x200 ≤ cap then 0x200 else if 0x101 ≤ cap then 0x101 else 0x100
  BitVec.ofNat 16 (if top < c then top else c)

/-- The advertised features. -/
def Block.advFeat (b : Block) (u : UnitRef) : BitVec 64 :=
  BitVec.ofNat 64 (b.catNat u 0x1111 0) &&& BitVec.ofNat 64 (b.catNat u 0x1112 0) &&& vmask (b.advVer u)

/-- ROLE of a unit in HELLO (R64). -/
def Block.roleOf (b : Block) (u : UnitRef) : Nat := match u with | .tsu => 0 | .dist => b.dRole

/-- POS of a HELLO on a lane (R64): zero upward. -/
def Block.helloPos (b : Block) (l : LaneRef) : Nat :=
  match l with
  | .tsu _ => 0
  | .dist n => if 288 ≤ n then 0 else if b.dRole = 1 then b.portPda n else b.t2idx * 4096 + n / 24 * 256 + n % 24

/-- The HELLO of a lane. -/
def Block.helloOf (b : Block) (l : LaneRef) : Hello :=
  let u := laneUnit l
  { ver := b.advVer u, step := match u with | .tsu => 0x4330 | .dist => 0x4231
    feat := b.advFeat u, role := BitVec.ofNat 8 (b.roleOf u)
    plane := match u with | .tsu => 0xFF | .dist => (if b.dPlane = .B then 1 else 0)
    pos := BitVec.ofNat 16 (b.helloPos l)
    unitId := match u with | .tsu => b.tsu.boot.unitId | .dist => b.dist.boot.unitId
    ack := (b.lane l).reg.helloSeen }

/-! ### Topology results -/

/-- The result and reason of R400 for a TSU lane. -/
def Block.topoOf (b : Block) (p : Plane) : BitVec 2 × BitVec 4 :=
  let r := (b.lane (.tsu p)).reg
  let expect := b.catNat .tsu 0x7101 0
  if r.state ≠ .up then (0, 0)
  else if expect = 0xFFFF then (2, 1)
  else if r.peerPos.toNat ≠ expect then (2, 2)
  else if r.peerPlane ≠ (match p with | .A => 0 | .B => 1) then (2, 3)
  else if r.peerRole ≠ 1 then (2, 4)
  else (1, 0)

/-- The check passes (R400). -/
def Block.topoPass (b : Block) : Bool :=
  (b.tsu.laneA.reg.topoRes == 1 || b.tsu.laneB.reg.topoRes == 1) && b.tsu.laneA.reg.topoRes != 2 &&
    b.tsu.laneB.reg.topoRes != 2

/-- Runs the TSU's topology check (R400). -/
def Block.tsuTopo (b : Block) : Block :=
  let set (b : Block) (p : Plane) : Block :=
    let r := b.topoOf p
    b.mReg (.tsu p) fun x => { x with topoRes := r.1, topoReason := r.2 }
  let b := set (set b .A) .B
  b.mBoot fun t => { t with topoMismatch := !b.topoPass }

/-- What an uplink lane's POS must be (R402). -/
def Block.uplinkPos (b : Block) (n : Nat) : Nat :=
  if b.dRole = 1 then b.t2idx * 4096 + b.t1idx * 256 + (n - 288) else b.t2idx * 256 + (n - 288)

/-- The check of R402 on one UP lane of the distributor. -/
def Block.distTopo (b : Block) (n : Nat) : Block :=
  let r := (b.lane (.dist n)).reg
  let plane : Byte := if b.dPlane = .B then 1 else 0
  if r.state ≠ .up then b
  else if 288 ≤ n then
    let ok := r.peerPlane == plane && r.peerRole.toNat == b.dRole + 1 && r.peerPos.toNat == b.uplinkPos n
    b.mReg (.dist n) fun x => { x with topoRes := if ok then 1 else 2 }
  else
    let listed := (BitVec.ofNat 288 (ofLE (b.catVal .dist 0x7110 5))).getLsbD n
    let planeOk := r.peerPlane == plane || (r.peerPlane == 0xFF && r.peerRole == 0)
    let bad := !listed || r.peerRole.toNat + 1 != b.dRole || !planeOk
    b.mDBoot fun d => { d with
      badDown := smPut false d.badDown n bad
      unexpected := if bad then sat1 d.unexpected else d.unexpected }

/-! ### Training and loss -/

/-- The role uses the lane (R455). A defaulted distributor, of role 0, keeps every lane (R467). -/
def Block.roleUses (b : Block) (n : Nat) : Bool :=
  match b.dRole with
  | 1 => decide (n < 256) || decide (288 ≤ n)
  | 3 => decide (n < 288)
  | _ => true

/-- Domain LINK_A or LINK_B is on (R344). -/
def Block.linkOn (b : Block) (p : Plane) : Bool :=
  match p with | .A => b.tsu.pwr.on.linkA | .B => b.tsu.pwr.on.linkB

/-- An enabled lane may train: its domain is on, it is not fused bad or in a disabled cage, and its role uses it. -/
def Block.canTrain (b : Block) (l : LaneRef) : Bool :=
  let r := (b.lane l).reg
  r.enable && !r.shutting && match l with
    | .tsu p => b.live && b.linkOn p && b.tsu.pwr.st != .entering && b.tsu.pwr.st != .mitten
    | .dist n => b.dist.mod.powered && !r.bad && !r.cageOff && b.roleUses n

/-- A port octet is on while any of its lanes is enabled, is not fused bad and is used by the role (R458). -/
def Block.octets (b : Block) : Block :=
  let used := smKeys (fun x => x.reg.enable && !x.reg.bad) b.dist.lanes
  let on := used.foldl (fun (m : BitVec 36) n =>
    if n < 288 ∧ b.roleUses n then m ||| (1#36 <<< (n / 8)) else m) 0
  b.mMod fun m => { m with octetOn := if m.powered then on else 0 }

/-- Starts training, or leaves the lane DOWN where it may not train. -/
def Block.startTrain (b : Block) (l : LaneRef) : Block :=
  let saved := b.eqSaved l
  if b.canTrain l then b.mLane l fun x => let x := x.train saved; { x with reg := { x.reg with backoff := false } }
  else b.mReg l fun r => { r with state := .down, backoff := false, retrainReq := false }

/-- A lane leaves UP: what it received reads as absent, the servo and the topology check follow (R63, R69, R86, R400). -/
def Block.leave (b : Block) (l : LaneRef) (st : LaneSt) : Block :=
  let wasUp := b.up l
  let b := b.mLane l fun x => let x := if wasUp then x.leaveUp else x; { x with reg := { x.reg with state := st } }
  if !wasUp then b
  else
    let b := match l with
      | .tsu _ => b.tsuTopo
      | .dist n => b.mDBoot fun d => { d with badDown := smPut false d.badDown n false }
    b.servoLoss l

/-- A retrain, counted (R48, R70, R444). -/
def Block.retrainLane (b : Block) (l : LaneRef) : Block :=
  let b := (b.leave l .training).mCnt l fun c => { c with retrain := sat1 c.retrain }
  (b.bucket (laneChan l) 3 1).startTrain l

/-- A failed start: the lane starts again, after three in a row only when it has waited 1 s (R64, R397). While it waits,
STATE reads TRAINING. -/
def Block.startFailed (b : Block) (l : LaneRef) : Block :=
  let b := (b.leave l .training).mLane l Lane.failStart
  if (b.lane l).reg.backoff then b else b.retrainLane l

/-- Hall operations outstanding on a plane complete with `st`; later responses are orphans (R261, R68). -/
def Block.hallEndAll (b : Block) (p : Plane) (st : Byte) : Block :=
  let mine := b.tsu.hall.out.filter fun h => h.plane == p
  let b := b.mHall fun h => { h with out := h.out.filter fun x => x.plane != p, gone := h.gone ++ mine }
  (b.each mine fun b h =>
    let b := if st = stNOPATH then b.nopath else b
    match hallSrc h.tag with
    | .slot i => b.wsDone i { status := st }
    | .dm n => b.dmHallDone n h.ha st 0
    | .other => b).dmGo

/-- A lane goes DOWN: hall operations outstanding on it complete NOPATH (R261). -/
def Block.laneDown (b : Block) (l : LaneRef) : Block :=
  let b := (b.leave l .down).mReg l fun r => { r with retrainReq := false, backoff := false, failStarts := 0 }
  match l with
  | .tsu p => b.hallEndAll p stNOPATH
  | .dist _ => b.octets

/-- ENABLE = 1 (R406): held while the shut-down runs. -/
def Block.laneEnable (b : Block) (l : LaneRef) : Block :=
  let r := (b.lane l).reg
  if r.shutting then b.mReg l fun r => { r with enPend := true }
  else if r.enable then b
  else
    let b := (b.mReg l fun r => { r with enable := true }).startTrain l
    match l with
    | .tsu _ => b
    | .dist _ => b.octets

/-- ENABLE = 0 (R406): a held enable is cancelled; an enabled lane shuts down. -/
def Block.laneDisable (b : Block) (l : LaneRef) : Block :=
  let b := b.mReg l fun r => { r with enPend := false }
  if !(b.lane l).reg.enable then b
  else (b.mReg l fun r => { r with enable := false, shutting := true }).laneDown l

/-- The link state after a shut-down: the replay buffer is discarded, counters stay (R406). -/
def LaneLink.discard (k : LaneLink) : LaneLink :=
  { k with
    txSeq := 0, rxSeq := 0, rxDiscard := false, nakDue := false, replay := [], txq := [], credRx := {}, sent := {}
    credTx := {}, bypRx := false, bypTx := false, uncs := [] }

/-- The shut-down ends; a held enable is applied (R406). -/
def Block.laneShut (b : Block) (l : LaneRef) : Block :=
  if !(b.lane l).reg.shutting then b
  else
    let go := (b.lane l).reg.enPend
    let b := (b.mReg l fun r => { r with shutting := false, enPend := false }).mLink l LaneLink.discard
    if go then b.laneEnable l else b

/-- The register window of a TSU lane. -/
def lnkReg (p : Plane) (off : Nat) : Nat := (match p with | .A => 0x2000 | .B => 0x2100) + off

/-- A write of TSU_LNK_CTRL at the register port, or of a distributor lane's register by its management core (R466). -/
def State.laneCmd (a : Access) (l : LaneRef) (f : Block → Block) (s : State) : Host.Outcome State Fault Refusal :=
  s.runLane l fun b => match l with
    | .tsu p => b.regCmd (portReq a) (lnkReg p 0) true f
    | .dist _ => f b

/-- LANE_ENABLE (R406). -/
def execLaneEnable (a : Access) (l : LaneRef) (s : State) : Host.Outcome State Fault Refusal :=
  s.laneCmd a l fun b => b.laneEnable l

/-- LANE_DISABLE (R406). -/
def execLaneDisable (a : Access) (l : LaneRef) (s : State) : Host.Outcome State Fault Refusal :=
  s.laneCmd a l fun b => b.laneDisable l

/-- LANE_SHUTDOWN_DONE (R406). -/
def execLaneShutdownDone (l : LaneRef) (s : State) : Host.Outcome State Fault Refusal := s.runLane l fun b => b.laneShut l

/-- RETRAIN = 1 (R48, R69): a lane that is DOWN or listening has nothing to retrain. -/
def Block.retrainWrite (b : Block) (l : LaneRef) : Block :=
  match (b.lane l).reg.state with
  | .down | .listen => b
  | _ => (b.mReg l fun r => { r with retrainReq := true }).retrainLane l

/-- RETRAIN (R48). -/
def execRetrain (a : Access) (l : LaneRef) (s : State) : Host.Outcome State Fault Refusal :=
  s.laneCmd a l fun b => b.retrainWrite l

/-- CNT_CLR = 1 (R69, R70): the next telemetry record counts from zero. -/
def Block.laneCntClr (b : Block) (l : LaneRef) : Block :=
  b.mLink l fun k => { k with cnt := {}, telCorr := 0, telReplay := 0, telDrop := 0 }

/-- LANE_CNT_CLR (R69, R70). -/
def execLaneCntClr (a : Access) (l : LaneRef) (s : State) : Host.Outcome State Fault Refusal :=
  s.laneCmd a l fun b => b.laneCntClr l

/-- health.eye_fail of a unit (R396, R443). -/
def Block.eyeFail (b : Block) (u : UnitRef) : Nat :=
  match u with | .tsu => b.tsu.hlth.eyeFail.toNat | .dist => b.catNat .dist 0x7001 2

/-- TRAINING_DONE: a fast start whose eye is too small falls back to full training (R396). -/
def Block.trained (b : Block) (l : LaneRef) (eye : BitVec 8) (settings : Bytes) : Block :=
  let r := (b.lane l).reg
  if r.state ≠ .training ∨ r.backoff then b
  else if !r.fullTrain ∧ eye.toNat < b.eyeFail (laneUnit l) then b.mReg l fun r => { r with fullTrain := true }
  else b.mReg l fun r => { r with state := .aligning, settings := slice settings 0 64 }

def execTrainingDone (l : LaneRef) (eye : BitVec 8) (settings : Bytes) (s : State) : Host.Outcome State Fault Refusal :=
  s.runLane l fun b => b.trained l eye settings

/-- CODEWORD_LOCK: 64 codewords in a row decode (R396). The exchange of HELLO begins anew (R64, log entry 28). -/
def execCodewordLock (l : LaneRef) (s : State) : Host.Outcome State Fault Refusal :=
  s.runLane l fun b => b.mReg l fun r => if r.state = .aligning then
    { r with state := .negotiating, helloSeen := false, ackRx := false, ackTx := false } else r

/-- TRAINING_TIMEOUT: 1 s without reaching UP (R397). -/
def execTrainingTimeout (l : LaneRef) (s : State) : Host.Outcome State Fault Refusal :=
  s.runLane l fun b =>
    let r := (b.lane l).reg
    match r.state with
    | .training | .aligning | .negotiating => if r.backoff then b else b.startFailed l
    | _ => b

/-- RETRAIN_BACKOFF_EXPIRE: the wait of 1 s has ended (R397). -/
def execRetrainBackoffExpire (l : LaneRef) (s : State) : Host.Outcome State Fault Refusal :=
  s.runLane l fun b => if (b.lane l).reg.backoff then b.retrainLane l else b

/-- NEG_TIMEOUT: 1 ms of negotiation has not led to UP, or the partner can never be accepted (R64). -/
def Block.negFail (b : Block) (l : LaneRef) : Block :=
  if (b.lane l).reg.state = .negotiating then (b.mReg l fun r => { r with negFail := true }).startFailed l else b

def execNegTimeout (l : LaneRef) (s : State) : Host.Outcome State Fault Refusal := s.runLane l fun b => b.negFail l

/-! ### Negotiation and UP -/

/-- Operations in flight that need a feature which a retrain removed from a TSU lane complete UNSUPPORTED (R6, R68,
R215). -/
def Block.featLoss (b : Block) (p : Plane) : Block :=
  let has (k : Nat) := (b.lane (.tsu p)).reg.featEff.getLsbD k
  let b := if has 10 then b else b.hallEndAll p stUNSUPPORTED
  let b := if has 1 then b else
    b.each (b.wsWhere fun _ o => o.space == 2 && (o.op == 0xC || o.op == 0xB || o.op == 0xD) && !o.held &&
        o.slot.any fun n => (b.slot n).scope != 0 && (b.slot n).plane == p) fun b x =>
      b.wsDone x.1 { status := stUNSUPPORTED }
  b.each (List.range 16) fun b n =>
    let s := b.collSlot n
    if !s.st.awaits || s.desc.scope == 0 || !s.uses p || has (opFeature s.desc.op) then b
    else
      let b := b.mCollSlot n fun s => match p with
        | .A => { s with useA := false }
        | .B => { s with useB := false }
      let s := b.collSlot n
      if s.useA || s.useB then b else b.collFail n 2 0 0 0 []

/-- A lane goes UP: effective version and features, saved settings, the replay buffer sent again, the topology check;
a distributor sends its stored FENCE downward (R48, R64, R65, R68, R396, R400, R402, R429). -/
def Block.goUp (b : Block) (l : LaneRef) : Block :=
  let u := laneUnit l
  let r := (b.lane l).reg
  let adv := b.advVer u
  let eff := if r.verPartner.toNat < adv.toNat then r.verPartner else adv
  let feat := r.featAdv &&& r.featPartner &&& vmask eff
  let change := r.verEff != 0 && (r.verEff != eff || r.featEff != feat)
  let b := if r.fullTrain then b.catSet u (eqIndex l) 5 r.settings else b
  let b := b.mReg l fun r => { r with
    state := .up, verEff := eff, featEff := feat, negChange := r.negChange || change, failStarts := 0
    backoff := false, retrainReq := false, fullTrain := false }
  let b := match l with
    | .tsu p =>
      let b := b.tsuTopo
      if change then b.featLoss p else b
    | .dist n => b.distTopo n
  let b := b.resend l
  let b := match l, b.dist.boot.stored with
    | .dist n, some f => if n < 288 then b.send (.dist n) true (.fence f) else b
    | _, _ => b
  Block.pump l 64 (b.servoLoss l)

/-- UP needs ACK = 1 both sent and received (R64). -/
def Block.tryUp (b : Block) (l : LaneRef) : Block :=
  let r := (b.lane l).reg
  if r.state = .negotiating ∧ r.ackRx ∧ r.ackTx then b.goUp l else b

/-- HELLO_SEND (R64). -/
def Block.helloSend (b : Block) (l : LaneRef) : Block :=
  if (b.lane l).reg.state ≠ .negotiating then b
  else
    let h := b.helloOf l
    ((b.mReg l fun r => { r with featAdv := h.feat, ackTx := r.ackTx || h.ack }).emit
      (.frame l 0 false ⟨0, true, b.epochOf (laneUnit l), .hello h⟩)).tryUp l

def execHelloSend (l : LaneRef) (s : State) : Host.Outcome State Fault Refusal := s.runLane l fun b => b.helloSend l

/-- HELLO_RECEIVE (R64). A partner below version 1.0, or of the local ROLE, is refused. -/
def Block.helloRx (b : Block) (l : LaneRef) (h : Hdr) (p : Hello) : Block :=
  if (b.lane l).reg.state ≠ .negotiating then b
  else
    let b := b.corrected l h.corr
    if h.fmt != 1 || 7 ≤ h.cls.toNat then b.dropProto l
    else if h.cls != 0 then b
    else
      let b := b.mReg l fun r => { r with
        verPartner := p.ver, featPartner := p.feat, peerPos := p.pos, peerPlane := p.plane, peerRole := p.role
        peerUnit := p.unitId, posValid := true }
      if p.ver.toNat < 0x100 || p.role.toNat == b.roleOf (laneUnit l) then b.negFail l
      else (b.mReg l fun r => { r with helloSeen := true, ackRx := r.ackRx || p.ack }).tryUp l

def execHelloReceive (l : LaneRef) (h : Hdr) (p : Hello) (s : State) : Host.Outcome State Fault Refusal :=
  s.runLane l fun b => b.helloRx l h p

/-! ### Errors, replay and link control -/

/-- CDR_LOCK_LOSS: no CDR lock for 1,250 ticks (R48). A lane that listens does not run R48 (R456). -/
def execCdrLockLoss (l : LaneRef) (s : State) : Host.Outcome State Fault Refusal :=
  s.runLane l fun b => match (b.lane l).reg.state with
    | .down | .training | .listen => b
    | _ => (b.mReg l fun r => { r with refLost := true }).retrainLane l

/-- FRAME_CORRUPT: a dropped TIME frame is lost, another is asked for again by NAK; more than 16 uncorrectable codewords
within 2^20 ticks retrain the lane (R45, R46, R48). -/
def Block.corrupt (b : Block) (l : LaneRef) (e : FrameErr) (time : Bool) : Block :=
  if !b.up l then b
  else
    let now := b.tcOf (laneUnit l)
    let k := match e with | .unc n => n | .crc => 0
    let b := b.mLink l fun x => { x with
      cnt := { x.cnt with
        fecUnc := satAdd x.cnt.fecUnc k
        crcErr := if e = .crc then sat1 x.cnt.crcErr else x.cnt.crcErr
        syncDrop := if time then sat1 x.cnt.syncDrop else x.cnt.syncDrop }
      rxDiscard := x.rxDiscard || !time
      nakDue := x.nakDue || !time
      uncs := (if k = 0 then x.uncs else (now, k) :: x.uncs).filter fun u => decide (Tick.diff now u.1 < 2 ^ 20) }
    if 16 < ((b.lane l).link.uncs.foldl (fun n u => n + u.2) 0) then b.retrainLane l else b

def execFrameCorrupt (l : LaneRef) (e : FrameErr) (time : Bool) (s : State) : Host.Outcome State Fault Refusal :=
  s.runLane l fun b => b.corrupt l e time

/-- The credits granted so far: the pools of R446 and what has been granted back. -/
def LaneLink.granted (k : LaneLink) : List (BitVec 16) :=
  [64 + k.credRx.c2, 128 + k.credRx.c3, 64 + k.credRx.c4, 16 + k.credRx.c5, 32 + k.credRx.c6]

/-- LINKCTL_SEND (R46, R445). -/
def Block.linkctlSend (b : Block) (l : LaneRef) : Block :=
  if !b.up l then b
  else
    let k := (b.lane l).link
    (b.mLink l fun k => { k with nakDue := false }).send l true
      (.linkctl ⟨k.rxSeq - 1, k.nakDue, k.granted, k.bypTx⟩)

def execLinkctlSend (l : LaneRef) (s : State) : Host.Outcome State Fault Refusal := s.runLane l fun b => b.linkctlSend l

/-- The replay buffer without the frames up to LSEQ `ack`; an acknowledgement of no frame in it changes nothing. -/
def ackTo (ack : BitVec 12) (l : List Sent) : List Sent :=
  match l.dropWhile fun s => s.lseq != ack with
  | [] => l
  | _ :: t => t

/-- LINKCTL_RECEIVE: acknowledgement, credits, bypass, and NAK (R46, R48, R445, R448). -/
def Block.linkctlRx (b : Block) (l : LaneRef) (p : LinkCtl) : Block :=
  let c (i : Nat) := p.cred.getD i 0
  let b := b.mLink l fun k => { k with
    replay := ackTo p.ack k.replay, credTx := ⟨c 0, c 1, c 2, c 3, c 4⟩, bypRx := p.byp }
  let b := if p.nak then b.resend l else b
  if (b.lane l).link.replay.any fun s => 8 ≤ s.tries then b.retrainLane l else Block.pump l 64 b

def execLinkctlReceive (l : LaneRef) (h : Hdr) (p : LinkCtl) (s : State) : Host.Outcome State Fault Refusal :=
  s.runLane l fun b => b.rx l h 0 0 false fun b => b.linkctlRx l p

/-! ### Listening (R456) -/

/-- PORT_LISTEN: the partner's transmitter has been in electrical idle for 1,250 ticks. -/
def execPortListen (n : Nat) (s : State) : Host.Outcome State Fault Refusal :=
  s.runLane (.dist n) fun b =>
    if decide (288 ≤ n) || (b.lane (.dist n)).reg.state == .down || (b.lane (.dist n)).reg.state == .listen then b
    else (b.leave (.dist n) .listen).mReg (.dist n) fun r => { r with backoff := false, failStarts := 0, retrainReq := false }

/-- Training resumes. -/
def Block.wakePort (b : Block) (n : Nat) : Block :=
  if (b.lane (.dist n)).reg.state = .listen then b.startTrain (.dist n) else b

/-- PORT_ENERGY_DETECT: energy has been held for 10 µs. -/
def execPortEnergyDetect (n : Nat) (s : State) : Host.Outcome State Fault Refusal :=
  s.runLane (.dist n) fun b => b.wakePort n

end Sys2Proof.Machine
end

