-- ==== Sys2Proof/Machine/Boot.lean ====
section
/-! DEFINITION. Resets and fuses of the TSU (R340, R379, R384, R390-R394), the fuse words of a distributor, TSU_READY and
TOPO_REPORT (R395, R403). -/

namespace Sys2Proof.Machine

open Sys2Proof

/-! ### Resets (R379) -/

/-- A TSU in reset that keeps LOCKOUT, FAIL_CNT and the AON clock monitor. -/
def Tsu.fresh (t : Tsu) : Tsu :=
  { boot := { aonRst := t.boot.aonRst }
    dbg := { lockout := t.dbg.lockout, failCnt := t.dbg.failCnt }
    tdc := { aonLost := t.tdc.aonLost } }

/-- LEVEL becomes dbg.start_level, and a new challenge is drawn (R340, R341). -/
def Block.dbgStart (b : Block) : Block :=
  let (x, b) := b.draw
  let lvl := BitVec.ofNat 2 (b.catNat .tsu 0x6102 0)
  b.mDbg fun d => { d with level := lvl, chal := x }

/-- AON_RESET_ASSERT: the whole TSU, LOCKOUT and FAIL_CNT included. -/
def execAonResetAssert (s : State) : Host.Outcome State Fault Refusal := s.run fun b => b.mTsu fun _ => {}

/-- AON_RESET_RELEASE. -/
def execAonResetRelease (s : State) : Host.Outcome State Fault Refusal :=
  s.run fun b => if b.tsu.boot.aonRst then (b.mTsu fun _ => { boot := { aonRst := false } }).dbgStart else b

/-- TSU_RESET_ASSERT. -/
def execTsuResetAssert (s : State) : Host.Outcome State Fault Refusal :=
  s.run fun b => if b.tsu.boot.tsuRst then b else b.mTsu Tsu.fresh

/-- TSU_RESET_RELEASE: start-up begins with every domain on; the first start of ENGINE runs the generator's self-test
(R235, R356, R379, R382, R394). -/
def Block.tsuRelease (b : Block) : Block :=
  if b.tsu.boot.aonRst || !b.tsu.boot.tsuRst then b
  else
    let b := b.mTsu fun t => { t.fresh with
      boot := { aonRst := false, tsuRst := false, fuseBusy := true }
      pwr := { req := ⟨true, true, true, true, true⟩ } }
    b.dbgStart.genSelfTest

def execTsuResetRelease (s : State) : Host.Outcome State Fault Refusal := s.run Block.tsuRelease

/-! ### Fuses (R384, R390-R393) -/

/-- A fuse word; a word that is not listed reads zero. -/
def fuse (ws : List (Nat × BitVec 32)) (n : Nat) : BitVec 32 :=
  match ws.find? fun e => e.1 == n with
  | some e => e.2
  | none => 0

/-- The spare entries in use, lowest number first, and whether two VALID entries named one row (R391). -/
def spareEntries (ws : List (Nat × BitVec 32)) : List (Nat × Nat) × Bool :=
  (List.range 32).foldl (fun (acc : List (Nat × Nat) × Bool) n =>
    let w := fuse ws (0x10 + n)
    let row := (w.extractLsb' 0 11).toNat
    if !w.getLsbD 31 then acc
    else if acc.1.any fun e => e.2 == row then (acc.1, true)
    else (acc.1 ++ [(n, row)], acc.2)) ([], false)

/-- The TSU's fuse words take effect. -/
def Block.tsuFuses (b : Block) (ws : List (Nat × BitVec 32)) : Block :=
  let sp := spareEntries ws
  let n := (fuse ws 0x100).toNat
  (b.mBoot fun t => { t with
    fuseBusy := false, fuseDone := true, unitId := fuse ws 1 ++ fuse ws 0, fver := (fuse ws 2).extractLsb' 8 8
    spares := sp.1, spareDup := sp.2
    hostMap := (List.range (if 255 < n then 255 else n)).map fun i => fuse ws (0x101 + i) }).mDbg fun d => { d with
      dkey := (List.range 8).flatMap fun i => toLE 4 (fuse ws (8 + i)).toNat
      fullDis := (fuse ws 2).getLsbD 0 }

/-- The HM_SPARE entries in use: (spare, row), rows and spares counted over the four groups (R392, R393). -/
def hmSpares (ws : List (Nat × BitVec 32)) : List (Nat × Nat) :=
  (ws.filter fun e => decide (0x100 ≤ e.1 ∧ e.1 < 0x500) && e.2.getLsbD 31 &&
    decide ((e.2.extractLsb' 0 13).toNat < 6144)).map fun e =>
      (e.1 - 0x100, (e.1 - 0x100) / 256 * 6144 + (e.2.extractLsb' 0 13).toNat)

/-- Lanes fused bad: words 0x010 to 0x018, and word 0x019 for the uplink group (R392, R454). -/
def badLanes (ws : List (Nat × BitVec 32)) : List Nat :=
  (ws.filter fun e => decide (0x10 ≤ e.1 ∧ e.1 ≤ 0x19)).flatMap fun e =>
    ((List.range 32).filter fun j => e.2.getLsbD j).map fun j => 32 * (e.1 - 0x10) + j

/-- A distributor's fuse words take effect; step 5 of R398 begins, with its domains on (R458). -/
def Block.distFuses (b : Block) (ws : List (Nat × BitVec 32)) : Block :=
  let b := b.mDBoot fun d => { d with
    fuseDone := true, unitId := fuse ws 1 ++ fuse ws 0, fver := (fuse ws 2).extractLsb' 8 8, spares := hmSpares ws }
  let b := b.mMod fun m => { m with sliceOn := 0xFF, hmOn := 0xF }
  b.each ((badLanes ws).filter fun n => decide (n < 312)) fun b n => b.mReg (.dist n) fun r => { r with bad := true }

/-- FUSE_READ_DONE. Words after the time limit are ignored (R389). -/
def execFuseReadDone (u : UnitRef) (words : List (Nat × BitVec 32)) (s : State) : Host.Outcome State Fault Refusal :=
  s.run fun b => match u with
    | .tsu => if b.tsu.boot.fuseBusy then b.tsuFuses words else b
    | .dist => if b.dist.mod.powered && !b.dist.boot.fuseDone then b.distFuses words else b

/-- FUSE_TIMEOUT: every word is taken as zero (R384). -/
def execFuseTimeout (s : State) : Host.Outcome State Fault Refusal :=
  s.run fun b =>
    if b.tsu.boot.fuseBusy then
      (b.tsuFuses []).mBoot fun t => { t with fuseErr := true, fuseDone := false }
    else b

/-! ### Readiness and TOPO_REPORT -/

/-- TSU_READY (R395). -/
def Block.tsuReady (b : Block) : Bool :=
  let t := b.tsu.boot
  b.tsu.tm.initDone && t.cdcEnded && t.spineEnded && t.rstEnded && b.tsu.servo.state == .locked && b.topoPass

/-- TOPO_REPORT of a lane (R403). -/
def Block.topoReport (b : Block) (p : Plane) : TopoReport :=
  let r := (b.lane (.tsu p)).reg
  let t := b.tsu.boot
  { unitId := t.unitId, pda := r.peerPos, topoOk := b.topoPass, hostReady := t.hostReady, admitted := t.admitted
    cloak := t.inCloak, catDefaulted := b.tsu.cat.defaulted, timeValid := b.timeOk, tsuReady := b.tsuReady
    reason := r.topoReason, result := r.topoRes, ldi := t.ldi }

/-- Sends TOPO_REPORT on each UP lane. -/
def Block.sendTopo (b : Block) : Block :=
  b.each [.A, .B] fun b p => if b.up (.tsu p) then b.send (.tsu p) true (.topoReport (b.topoReport p)) else b

/-- TOPO_REPORT_SEND: a field has changed, or 2^30 ticks have passed (R403). -/
def execTopoReportSend (s : State) : Host.Outcome State Fault Refusal := s.run Block.sendTopo

end Sys2Proof.Machine
end

