-- ==== Sys2Proof/Machine/Flags.lean ====
section
/-! DEFINITION. The interrupt lines of the TSU, by register block (R381, R386): each is high while a source that drives it
is set. -/

namespace Sys2Proof.Machine

open Sys2Proof

/-- STATE as TSU_SERVO_STATUS numbers it (R110). -/
def ServoState.code : ServoState → BitVec 3
  | .free => 0 | .acquiring => 1 | .locked => 2 | .hold => 3 | .reacq => 4 | .lost => 5

/-- Bits 8 to 13 of TSU_SERVO_STATUS, which EN selects (R110). -/
def Block.servoBits (b : Block) : BitVec 6 :=
  let s := b.tsu.servo
  let twin := b.tsu.laneA.reg.featEff.getLsbD 16 && b.tsu.laneB.reg.featEff.getLsbD 16
  bit s.unlocked ++ bit twin ++ bit s.refLost ++ bit s.stepRef ++ bit s.holdEntered ++ bit s.switched

/-- The blocks that drive IRQ_S or IRQ_NS: the servo, deadline timers, the data mover, the Catalogue access block and
health (R110, R270, R289, R326, R452). -/
def Block.irqBlocks (b : Block) (secure : Bool) : BitVec 16 :=
  let servo := secure && (b.servoBits &&& b.tsu.servo.irqEn != 0)
  let dt := b.tsu.timers.timers.any fun e => e.2.irq && e.2.fired && (b.ctxWorld e.2.ctx.toNat == secure)
  let dm := b.tsu.dm.chs.any fun e => e.2.irqEn && e.2.done && (b.ctxWorld e.2.ctx.toNat == secure)
  let p := if secure then b.tsu.cat.portS else b.tsu.cat.portN
  let cat := p.irqEn && p.pend != 0
  let hl := secure && b.tsu.hlth.irqEn && (b.tsu.laneA.health.warn || b.tsu.laneA.health.fail ||
    b.tsu.laneB.health.warn || b.tsu.laneB.health.fail)
  bit hl ++ 0#2 ++ bit cat ++ 0#1 ++ bit dm ++ 0#2 ++ bit dt ++ 0#5 ++ bit servo ++ 0#1

/-- The blocks that drive IRQ_FAULT (R381). -/
def Block.faultBlocks (b : Block) : BitVec 16 :=
  let ctx := b.tsu.ctxs.any fun e => e.2.reg.flags.mismatch || e.2.reg.flags.closeNomap || e.2.run.rplErr
  let dm := b.tsu.dm.chs.any fun e => e.2.halted
  let gen := b.tsu.gen.stDone && !b.tsu.gen.stOk
  let gnt := b.tsu.gnt.vValid && b.tsu.gnt.violIrq
  bit false ++ bit b.tsu.pwr.pwrLost ++ bit gnt ++ 0#2 ++ bit dm ++ bit gen ++ 0#1 ++ bit b.tsu.tm.ue ++ 0#1 ++
    bit ctx ++ 0#5

/-- IRQ_S and IRQ_NS: 0 while the TIME domain is off (R381). -/
def Block.irq (b : Block) (secure : Bool) : Bool := b.tsu.pwr.on.time && b.irqBlocks secure != 0

/-- IRQ_FAULT, live in MITTEN. -/
def Block.irqFault (b : Block) : Bool := b.faultBlocks != 0

end Sys2Proof.Machine
end

