-- ==== Sys2Proof/Machine/Power.lean ====
section
/-! DEFINITION. The power handshake (R344, R382, R383) and MITTEN (R345-R351). -/

namespace Sys2Proof.Machine

open Sys2Proof

def Doms.get (d : Doms) : PwrDomain → Bool
  | .time => d.time | .mem => d.mem | .engine => d.engine | .linkA => d.linkA | .linkB => d.linkB

def Doms.set (d : Doms) (x : PwrDomain) (v : Bool) : Doms :=
  match x with
  | .time => { d with time := v } | .mem => { d with mem := v } | .engine => { d with engine := v }
  | .linkA => { d with linkA := v } | .linkB => { d with linkB := v }

/-- Every domain off. -/
def Doms.none : Doms := ⟨false, false, false, false, false⟩

/-! ### MITTEN -/

/-- A spine, restart or code-density calibration runs. -/
def Block.calRuns (b : Block) : Bool := b.tsu.spine.calBusy || b.tsu.lctl.rstBusy || b.tsu.tdc.busy

/-- A stream channel's STATE is OPEN: a burst is open or being sent (R306). -/
def Block.strOpen (b : Block) (n : Nat) : Bool := (b.strCh n).openBurst.isSome || b.outBusy n

/-- MIT_REASON of a request (R347), 0 where it is accepted. -/
def Block.mitReason (b : Block) : BitVec 3 :=
  let t := b.tsu
  if b.armedAny then 1
  else if t.coll.slots.any (fun e => e.2.st.busy) || t.gen.slots.any (fun e => e.2.st == .run) ||
      t.dm.chs.any (fun e => e.2.st != .off && e.2.st != .idle) || (List.range 64).any b.strOpen then 2
  else if t.timers.timers.any fun e => e.2.en then 3
  else if b.calRuns then 4
  else if t.tdc.aonLost then 5
  else 0

/-- MITTEN_REQ = 1 acts in ON or IDLE (R347, R348 step 1). -/
def Block.mitEnter (b : Block) : Block :=
  let r := b.mitReason
  if r = 0 then b.mPwr fun p => { p with st := .entering, mittenReq := true, incDone := false, heldCause := 0, enPend := false }
  else b.mPwr fun p => { p with mitRef := true, mitReason := r, mittenReq := false }

/-- MITTEN_REQ = 1, by the power state (R347, R351). -/
def Block.mitWrite (b : Block) : Block :=
  match b.tsu.pwr.st with
  | .on | .idle => b.mitEnter
  | .entering => b.mPwr fun p => { p with enPend := false, heldCause := 0 }
  | .mitten => b
  | .exiting => b.mPwr fun p => { p with mittenReq := true }

/-- MITTEN_REQUEST: MITTEN_REQ is RW-S (R10, R356). -/
def execMittenRequest (a : Access) (s : State) : Host.Outcome State Fault Refusal :=
  s.run fun b => b.regCmd (portReq a) 0xE000 true fun b =>
    if a.secure then b.mitWrite
    else if b.tsu.pwr.mittenReq then b
    else b.violate 0 (portReq a) true 0xE000

/-- Every data-mover channel and every stream channel stops (R293, R304). -/
def Block.stopChannels (b : Block) : Block :=
  let b := b.each (smKeys (fun c => c.st != .off) b.tsu.dm.chs) Block.dmDisable
  (b.each (smKeys (fun c => c.st != .off) b.tsu.str.chs) Block.strDisable).dmGo

/-- MITTEN_INC_MEASURED: contexts and channels stop, the lanes go to electrical idle, LOCK_AGE and PROMISE clear (R348
steps 2 to 4). -/
def Block.mitMeasured (b : Block) (inc : BitVec 64) : Block :=
  if b.tsu.pwr.st != .entering || b.tsu.pwr.incDone then b
  else
    let drop := b.ctxsWhere fun x => x.st != .off
    let b := b.mPwr fun p => { p with inc := inc, incDone := true, ctxDropped := p.ctxDropped || !drop.isEmpty }
    let b := (b.each drop Block.ctxStop).stopChannels
    ((b.laneDown (.tsu .A)).laneDown (.tsu .B)).clearAge

def execMittenIncMeasured (inc : BitVec 64) (s : State) : Host.Outcome State Fault Refusal := s.run fun b => b.mitMeasured inc

/-- No shut-down that R348 began is still under way. -/
def Block.quiet (b : Block) : Bool :=
  (b.ctxsWhere fun x => x.st == .stopping).isEmpty && b.tsu.dm.chs.all (fun e => e.2.st != .stopping) &&
    b.tsu.str.chs.all fun e => e.2.st != .stopping

/-- What is lost with MEM (R344, R348): tagged memory, barrier slots and translation tables. -/
def Block.memLost (b : Block) : Block :=
  (b.mTm fun m => { m with initDone := false, scrub := none, words := m.words.filter fun e => e.2.ecc == .ueHard }).mBar fun x =>
    { x with slots := [], xlat := [] }

/-- Exit begins with TIME (R344, R350). -/
def Block.mitExit (b : Block) (cause : BitVec 6) : Block :=
  b.mPwr fun p => { p with
    st := .exiting, mittenReq := false, enPend := false, heldCause := 0, wakeCause := p.wakeCause ||| cause
    req := { p.req with time := true } }

/-- MITTEN_ENTRY_COMPLETE: the count moves into the accumulator, the domains switch off (R348 step 5), and a held wake
starts the exit (R351). -/
def Block.mitDone (b : Block) : Block :=
  if b.tsu.pwr.st != .entering || !b.tsu.pwr.incDone || !b.quiet then b
  else
    let cause := b.tsu.pwr.heldCause
    let wake := b.tsu.pwr.enPend
    let acc : BitVec 96 := b.tc ++ (0 : BitVec 32)
    let b := b.each (b.ctxsWhere fun x => x.st != .off) Block.ctxStop
    let b := b.memLost.mPwr fun p => { p with
      st := .mitten, acc := acc, on := .none, req := .none, mitCnt := sat1 p.mitCnt, engWanted := false }
    if wake then b.mitExit cause else b

def execMittenEntryComplete (s : State) : Host.Outcome State Fault Refusal := s.run Block.mitDone

/-- The whole ticks of the accumulator. -/
def Pwr.mitTc (p : Pwr) : Tick := p.acc.extractLsb' 32 64

/-- One AON edge in MITTEN (R349). -/
def Pwr.edge (p : Pwr) : Pwr := { p with acc := p.acc + p.inc.setWidth 96 }

/-- A wake (R350); during entry it is held (R351). -/
def Block.wake (b : Block) (cause : BitVec 6) : Block :=
  match b.tsu.pwr.st with
  | .mitten => b.mitExit cause
  | .entering => b.mPwr fun p => { p with enPend := true, heldCause := p.heldCause ||| cause }
  | _ => b

/-- WAKE_AT_REACHED (R349). -/
def execWakeAtReached (s : State) : Host.Outcome State Fault Refusal :=
  s.run fun b =>
    let p := b.tsu.pwr
    let now := if p.st = .mitten then p.mitTc else b.tc
    if p.wakeAtEn && Tick.le p.wakeAt now then b.wake 2 else b

/-- HOST_WAKE_REQUEST (R350, R382). -/
def execHostWakeRequest (s : State) : Host.Outcome State Fault Refusal := s.run fun b => b.wake 1

/-- LANE_ENERGY_WAKE: energy has been held for 10 µs on a lane whose LISTEN bit is 1. -/
def execLaneEnergyWake (p : Plane) (s : State) : Host.Outcome State Fault Refusal :=
  s.run fun b => match p with
    | .A => if b.tsu.pwr.listenA then b.wake 4 else b
    | .B => if b.tsu.pwr.listenB then b.wake 8 else b

/-- DBG_WAKE = 1 at DBG_NS or DBG_FULL; at DBG_OFF it is refused (R350, R353). -/
def Block.dbgWake (b : Block) : Block := if b.tsu.dbg.level = 0 then b.dbgRefused else b.wake 16

/-- DBG_WAKE (R350). -/
def execDbgWake (a : AnyAccess) (s : State) : Host.Outcome State Fault Refusal :=
  s.run fun b => b.anyCmd a 0xE100 fun _ b => b.dbgWake

/-- MITTEN_REQ = 0: a wake; during exit it cancels a held request (R350, R351, R406). -/
def Block.unwant (b : Block) : Block :=
  match b.tsu.pwr.st with
  | .mitten | .entering => b.wake 32
  | _ => b.mPwr fun p => { p with mittenReq := false }

/-- SOFTWARE_WAKE: a write of MITTEN_REQ = 0, which is RW-S (R350). -/
def execSoftwareWake (a : Access) (s : State) : Host.Outcome State Fault Refusal :=
  s.run fun b => b.regCmd (portReq a) 0xE000 true fun b =>
    if a.secure then b.unwant
    else if b.tsu.pwr.mittenReq then b.violate 0 (portReq a) true 0xE000 else b

/-! ### Domains -/

/-- TIME comes on in an exit: the count is loaded from the accumulator, LOAD is sent, contexts and channels stand at their
reset values, and the unit re-acquires (R28, R80, R83, R350). -/
def Block.timeOn (b : Block) : Block :=
  let t := b.tsu.pwr.mitTc
  let b := b.mTsu fun x => { x with
    time := { x.time with tc64 := t }, ctxs := [], ws := [], heldReads := [], held := []
    dm := { x.dm with chs := [] }, str := { x.str with chs := [], waits := [], outq := [] } }
  let b := (b.sendLoad 0 false).mServo .tsu fun s => { s with selMade := false }
  let b := if b.timeOk then b.measure .tsu else b
  b.mPwr fun p => { p with acc := 0, req := { p.req with
    mem := true, linkA := b.catNat .tsu 0x1101 1 = 1, linkB := b.catNat .tsu 0x1102 1 = 1 } }

/-- A lane's domain comes on in an exit: a lane whose link.x.enable is 1 is enabled and trains (R350). -/
def Block.linkOnDo (b : Block) (p : Plane) : Block :=
  let l : LaneRef := .tsu p
  if b.catNat .tsu (eqIndex l) 1 = 1 then (b.mReg l fun r => { r with enable := true, shutting := false, enPend := false }).startTrain l
  else b

/-- Acknowledged: the domain is on (R344). -/
def Block.domOn (b : Block) (d : PwrDomain) : Block :=
  let p := b.tsu.pwr
  if !p.req.get d || p.on.get d then b
  else match d with
  | .engine => b
  | .time =>
    let b := b.mPwr fun p => { p with on := p.on.set .time true }
    if p.st = .exiting then b.timeOn
    else
      let b := b.mPwr fun p => { p with on := { p.on with mem := p.on.mem || (p.req.mem && p.ack.mem) } }
      let back (b : Block) (x : Plane) : Block :=
        let p := b.tsu.pwr
        match x with
        | .A => if p.req.linkA && p.ack.linkA then (b.mPwr fun p => { p with on := p.on.set .linkA true }).linkOnDo .A else b
        | .B => if p.req.linkB && p.ack.linkB then (b.mPwr fun p => { p with on := p.on.set .linkB true }).linkOnDo .B else b
      back (back b .A) .B
  | .mem => b.mPwr fun p => { p with on := p.on.set .mem true }
  | .linkA => (b.mPwr fun p => { p with on := p.on.set .linkA true }).linkOnDo .A
  | .linkB => (b.mPwr fun p => { p with on := p.on.set .linkB true }).linkOnDo .B

/-- The wait-slot operations of MEM complete as for STOPPING (R175, R383). -/
def Block.opsLost (b : Block) : Block :=
  b.each (b.wsWhere fun _ o => o.space != 1) fun b x => b.wsWithdraw x.1 stCLEARED false false .cancel

/-- A TSU whose TIME domain has lost its state: what AON holds stays (R344, R383). -/
def Tsu.timeLost (t : Tsu) : Tsu :=
  { gnt := t.gnt, dbg := t.dbg, pwr := t.pwr, boot := t.boot, img := t.img, cat := t.cat, hlth := t.hlth
    tdc := { aonLost := t.tdc.aonLost } }

/-- A domain's state is treated as reset (R344, R383). A domain that needs it goes with it. -/
def Block.domLost (b : Block) (d : PwrDomain) : Block :=
  match d with
  | .engine => b.mPwr fun p => { p with on := { p.on with engine := false }, st := if p.st = .on then .idle else p.st }
  | .mem =>
    let b := b.opsLost.memLost.mPwr fun p => { p with
      on := { p.on with mem := false, engine := false }, st := if p.st = .on then .idle else p.st }
    b.mTsu fun t => { t with
      dm := { t.dm with chs := [] }, str := { t.str with chs := [], waits := [], outq := [] }, held := [] }
  | .time =>
    let b := b.opsLost
    let b := b.each (b.wsWhere fun _ _ => true) fun b x => b.wsDone x.1 { status := stCLEARED }
    b.mTsu fun t => { t.timeLost with pwr := { t.pwr with
      on := .none, st := if t.pwr.st = .on then .idle else t.pwr.st } }
  | .linkA => ((b.laneDown (.tsu .A)).mLane (.tsu .A) fun _ => {}).mPwr fun p => { p with on := { p.on with linkA := false } }
  | .linkB => ((b.laneDown (.tsu .B)).mLane (.tsu .B) fun _ => {}).mPwr fun p => { p with on := { p.on with linkB := false } }

/-- ACK falls while REQ is 1 (R383). -/
def Block.ackLoss (b : Block) (d : PwrDomain) : Block :=
  let p := b.tsu.pwr
  if b.tsu.boot.aonRst || !p.req.get d || !p.ack.get d then b
  else (b.mPwr fun p => { p with pwrLost := true, ack := p.ack.set d false }).domLost d

/-- PWR_ACK_LOSS (R383). -/
def execPwrAckLoss (d : PwrDomain) (s : State) : Host.Outcome State Fault Refusal := s.run fun b => b.ackLoss d

/-- POWER_ACK (R382). A demand that was held while ENGINE's stop ended now requests it (R406). -/
def Block.powerAck (b : Block) (d : PwrDomain) (level : Bool) : Block :=
  let p := b.tsu.pwr
  if b.tsu.boot.aonRst || p.ack.get d == level then b
  else if level then (b.mPwr fun p => { p with ack := p.ack.set d true }).domOn d
  else if p.req.get d then b.ackLoss d
  else
    let b := b.mPwr fun p => { p with ack := p.ack.set d false }
    if d = .engine ∧ b.tsu.pwr.engWanted then b.demand else b

def execPowerAck (d : PwrDomain) (level : Bool) (s : State) : Host.Outcome State Fault Refusal :=
  s.run fun b => b.powerAck d level

/-- MITTEN_EXIT_DONE: TIME, MEM, initialised, and every enabled lane are on; a held request is applied, and without
ENG_AUTO ENGINE is asked for (R346, R350, R351). -/
def Block.mitExitDone (b : Block) : Block :=
  let p := b.tsu.pwr
  let lane (x : Plane) := b.linkOn x || !(match x with | .A => p.req.linkA | .B => p.req.linkB)
  if p.st != .exiting || !p.on.time || !p.on.mem || !b.tsu.tm.initDone || !lane .A || !lane .B then b
  else
    let held := p.mittenReq
    let b := b.mPwr fun p => { p with st := .idle }
    let b := if held then b.mitEnter else b
    if !p.engAuto && b.tsu.pwr.st == .idle then b.demand else b

def execMittenExitDone (s : State) : Host.Outcome State Fault Refusal := s.run Block.mitExitDone

end Sys2Proof.Machine
end

