-- ==== Sys2Proof/Machine/Cloak.lean ====
section
/-! DEFINITION. Cloakroom (R380, R389, R406-R410). -/

namespace Sys2Proof.Machine

open Sys2Proof

/-- CLOAKROOM_ENTRY: COMPUTE_RST is synchronised (R407). Where the TSU is in Cloakroom already, a held exit is cancelled
(R406). -/
def Block.cloakEnter (b : Block) : Block :=
  if !b.live then b
  else if b.tsu.boot.inCloak then b.mBoot fun t => { t with computeRst := true, exitPend := false }
  else
    let b := b.mBoot fun t => { t with
      inCloak := true, hostReady := false, computeRst := true, exitPend := false, crCnt := sat1 t.crCnt, cloakAt := b.tc }
    let b := b.each (b.ctxsWhere fun x => x.st != .off) fun b c => (b.mFlags c fun f => { f with withdrawn := true }).ctxStop c
    b.stopChannels

def execCloakroomEntry (s : State) : Host.Outcome State Fault Refusal := s.run Block.cloakEnter

/-- CLOAKROOM_FORCED_STOP: 1 ms after entry a channel whose writes are unacknowledged is forced to OFF; what arrives later
is discarded (R407). -/
def Block.cloakForce (b : Block) (n : Nat) : Block :=
  let c := b.dmCh n
  if !b.tsu.boot.inCloak || c.st != .stopping || Tick.diff b.tc b.tsu.boot.cloakAt < 1250000 then b
  else
    let mine := b.tsu.hall.out.filter fun h => hallSrc h.tag == .dm n
    let b := b.mHall fun h => { h with out := h.out.filter fun x => hallSrc x.tag != .dm n, gone := h.gone ++ mine }
    let b := b.mDmCh n fun c => { c with
      lostAcks := c.lostAcks + c.wrs.length, lostRds := c.lostRds + c.rds.length
      rds := [], wrs := [], halls := [] }
    (b.mBoot fun t => { t with lostAck := true }).dmOff n

def execCloakroomForcedStop (n : BitVec 3) (s : State) : Host.Outcome State Fault Refusal :=
  s.run fun b => b.cloakForce n.toNat

/-- Exit: held enables are applied, IN_CLOAK and CR_ACK fall, TOPO_REPORT goes out (R410). -/
def Block.cloakExit (b : Block) : Block :=
  let b := b.mBoot fun t => { t with inCloak := false, crAck := false, exitPend := false, computeRst := false }
  let b := b.each (b.ctxsWhere fun x => x.enPend) fun b c => b.mCtx c fun x => { x with enPend := false, st := .idle }
  let b := b.each (smKeys (fun c => c.enPend && c.st == .off) b.tsu.dm.chs) fun b n =>
    (b.mDmCh n fun c => { c with enPend := false }).dmEnable n
  let b := b.each (smKeys (fun c => c.enPend && c.st == .off) b.tsu.str.chs) fun b n =>
    (b.mStrCh n fun c => { c with enPend := false }).strEnable n
  b.sendTopo.dmGo

/-- CLOAKROOM_EXIT: COMPUTE_RST has fallen; before CR_ACK rises the exit is held (R406, R410). -/
def execCloakroomExit (s : State) : Host.Outcome State Fault Refusal :=
  s.run fun b =>
    if !b.tsu.boot.inCloak then b
    else if b.tsu.boot.crAck then b.cloakExit
    else b.mBoot fun t => { t with exitPend := true, computeRst := false }

/-- Everything has reached OFF or IDLE (R407 step 4). -/
def Block.cloakDrained (b : Block) : Bool :=
  (b.ctxsWhere fun x => x.st != .off).isEmpty && b.tsu.dm.chs.all (fun e => e.2.st == .off) &&
    b.tsu.str.chs.all (fun e => e.2.st == .off) && b.tsu.coll.slots.all (fun e => !e.2.st.busy) &&
    b.tsu.gen.slots.all fun e => e.2.st != .run

/-- CLOAKROOM_DRAIN_DONE: CR_ACK rises and TOPO_REPORT with CLOAK = 1 goes out; a held exit follows (R407, R410). -/
def Block.cloakDone (b : Block) : Block :=
  if !b.tsu.boot.inCloak || b.tsu.boot.crAck || !b.cloakDrained then b
  else
    let b := (b.mBoot fun t => { t with crAck := true }).sendTopo
    if b.tsu.boot.exitPend then b.cloakExit else b

def execCloakroomDrainDone (s : State) : Host.Outcome State Fault Refusal := s.run Block.cloakDone

end Sys2Proof.Machine
end

