-- ==== Sys2Proof/Machine/DistBar.lean ====
section
/-! DEFINITION. Hall barrier objects of a distributor (R152-R160): arrivals, completions, semaphores, group tables, and the
removal, purge and seed records (R433-R436, R441). A record's own check and effect take the staged values `v` by
sub-index and answer a Catalogue status (R319). -/

namespace Sys2Proof.Machine

open Sys2Proof

/-! ### Catalogue statuses (R319) -/

def caOK : Byte := 0x00
def caNOOBJ : Byte := 0x01
def caNOSUB : Byte := 0x02
def caREADONLY : Byte := 0x03
def caWRITEONLY : Byte := 0x04
def caDENIED : Byte := 0x05
def caTYPE : Byte := 0x06
def caRANGE : Byte := 0x07
def caSTATE : Byte := 0x08
def caRECORD : Byte := 0x09
def caTOOBIG : Byte := 0x0A
def caAUTH : Byte := 0x0B
def caREPLAY : Byte := 0x0C
def caBUSY : Byte := 0x0D
def caNOROUTE : Byte := 0x0E
def caTIMEOUT : Byte := 0x0F
def caBADMSG : Byte := 0x10
def caNOSUBSCR : Byte := 0x11
def caUNSUPPORTED : Byte := 0x12
def caVERSION : Byte := 0x13

/-- A record's values by sub-index, as a commit takes them. -/
abbrev RecVals := Nat → Bytes

/-! ### Objects, groups and routes -/

def Block.mObjs (b : Block) (f : Objs → Objs) : Block := b.mDist fun d => { d with objs := f d.objs }
def Block.hbar (b : Block) (n : Nat) : HBar := smGet {} b.dist.objs.bars n
def Block.mHbar (b : Block) (n : Nat) (f : HBar → HBar) : Block := b.mObjs fun o => { o with bars := smMod {} o.bars n f }

def HBar.count (x : HBar) (s : Bool) : Nat := if s then x.c1 else x.c0
def HBar.setCount (x : HBar) (s : Bool) (n : Nat) : HBar := if s then { x with c1 := n } else { x with c0 := n }
def HBar.sat (x : HBar) (s : Bool) : Bool := if s then x.sat1 else x.sat0
def HBar.orSat (x : HBar) (s v : Bool) : HBar :=
  if s then { x with sat1 := x.sat1 || v } else { x with sat0 := x.sat0 || v }
def HBar.fields (x : HBar) (s : Bool) : Option StepFields := if s then x.f1 else x.f0
def HBar.setFields (x : HBar) (s : Bool) (f : Option StepFields) : HBar :=
  if s then { x with f1 := f } else { x with f0 := f }
def HBar.map (x : HBar) (s : Bool) : BitVec 256 := if s then x.map1 else x.map0
def HBar.setMap (x : HBar) (s : Bool) (m : BitVec 256) : HBar := if s then { x with map1 := m } else { x with map0 := m }

/-- The threshold: EXPECT less the shares removed (R434), and one arrival at least (log entry 40). -/
def HBar.need (x : HBar) : Nat := max 1 (x.expect.toNat - x.rshare)

/-- A phase with its count, SAT, fields and arrival map cleared. -/
def HBar.clearPhase (x : HBar) (s : Bool) : HBar :=
  ((if s then { x with sat1 := false } else { x with sat0 := false }).setCount s 0).setFields s none |>.setMap s 0

/-- The completion row of R148. -/
def HBar.complete (x : HBar) : HBar := { x.clearPhase x.sense with sense := !x.sense, sent := false }

/-- The CSF of the object's frames (R154). -/
def HBar.addr (x : HBar) (n : Nat) (s : Bool) : BarAddr := ⟨BitVec.ofNat 16 n, s, x.scope, x.group⟩

/-- This distributor is the completing point of the object (R152). -/
def Block.isHome (b : Block) (scope : BitVec 2) : Bool := scope.toNat == b.dRole

/-- The ports or children of a group (R156). -/
def Block.groupPorts (b : Block) (g : Nat) : List Nat :=
  let m := smGet (0#288) b.dist.objs.groups g
  (List.range (if b.dRole = 1 then 256 else 12)).filter fun i => m.getLsbD i

/-- Sends to every port of a group. -/
def Block.sendGroup (b : Block) (g : Nat) (w : Bool) (body : FrameBody) : Block :=
  b.each (b.groupPorts g) fun b c => b.sendChild c w body

/-- The child on the way to a PDA (R425). -/
def Block.childFor (b : Block) (pda : Nat) : Nat :=
  match b.dRole with
  | 1 => pda % 256
  | 2 => pda / 256 % 16
  | _ => pda / 4096

/-- A frame dropped under R156. -/
def Block.dropBar (b : Block) : Block := b.mObjs fun o => { o with dropCount := sat1 o.dropCount }

/-- R156, R441: the group number, a configured object that is not dormant, SCOPE and W. -/
def Block.barOk (b : Block) (a : BarAddr) (w : Bool) (kind : BitVec 2) : Bool :=
  let x := b.hbar a.hbid.toNat
  decide (a.group.toNat < 4096) && x.kind == kind && x.scope == a.scope && x.world == w && !x.dormant

/-- A port of a T1 is removed at the object (R434). -/
def Block.isRemoved (b : Block) (x : HBar) (n : Nat) : Bool := b.dRole == 1 && decide (n < 256) && x.removed.getLsbD n

/-! ### Barriers (R153) -/

/-- The step fields that leave the distributor: FSEEN is set while a removal lasts (R434). -/
def HBar.outFields (x : HBar) : Option StepFields :=
  (x.fields x.sense).map fun f => { f with fseen := f.fseen || x.removed != 0 }

/-- A count above the threshold is discarded and counted (R153). -/
def Block.overCount (b : Block) : Block := b.mObjs fun o => { o with overCount := sat1 o.overCount }

/-- COUNT[SENSE] is tested against the threshold, and again after a phase completes. -/
def Block.hbarReach : Nat → Block → Nat → Block
  | 0, b, _ => b
  | f + 1, b, n =>
    let x := b.hbar n
    if x.kind = 1 ∧ !x.sent ∧ x.need ≤ x.count x.sense then
      let b := if x.need < x.count x.sense then b.overCount else b
      if b.isHome x.scope then
        let body := match x.outFields with
          | some fs => FrameBody.stepGo (x.addr n x.sense) (stepGoOf fs)
          | none => .done (x.addr n x.sense) (x.sat x.sense)
        Block.hbarReach f ((b.sendGroup x.group.toNat x.world body).mHbar n HBar.complete) n
      else
        (b.sendUp x.world (.arrive (x.addr n x.sense) ⟨x.expect, x.sat x.sense, x.outFields⟩)).mHbar n fun x =>
          { x.setCount x.sense 0 with sent := true }
    else b

/-- One ARRIVE's effect on an object (R153, R148). -/
def HBar.arrive (x : HBar) (s : Bool) (p : ArriveMsg) : HBar :=
  let c := x.count s + (if p.count = 0 then 1 else p.count.toNat)
  let sat := p.sat || decide (0xFFFFF < c)
  let x := (x.setCount s (min c 0xFFFFF)).orSat s sat
  match p.closing with
  | none => x
  | some f => x.setFields s (some (match x.fields s with | some g => combineFields g f | none => f))

/-- ARRIVE at a distributor's downward lane. -/
def Block.arriveRx (b : Block) (n : Nat) (h : Hdr) (a : BarAddr) (p : ArriveMsg) : Block :=
  let i := a.hbid.toNat
  let x := b.hbar i
  if 288 ≤ n then b
  else if !b.barOk a h.w 1 || b.isRemoved x n then b.dropBar
  else if a.sense = x.sense ∧ x.sent then b.overCount
  else
    let b := b.mHbar i fun x =>
      let x := x.arrive a.sense p
      if b.dRole = 1 then x.setMap a.sense (x.map a.sense ||| (1#256 <<< n)) else x
    Block.hbarReach 4 b i

/-- ARRIVE_RECEIVE (R153). -/
def execArriveReceive (n : Nat) (h : Hdr) (a : BarAddr) (p : ArriveMsg) (s : State) : Host.Outcome State Fault Refusal :=
  s.runLane (.dist n) fun b => b.rx (.dist n) h 2 1 false fun b => b.arriveRx n h a p

/-- DONE or STEP_GO at a distributor's uplink: the completion row, and the frame on to the group's ports (R153). -/
def Block.completeRx (b : Block) (n : Nat) (h : Hdr) (a : BarAddr) (body : FrameBody) : Block :=
  let i := a.hbid.toNat
  if n < 288 then b
  else if !b.barOk a h.w 1 then b.dropBar
  else
    let b := b.mHbar i fun x => if a.sense = x.sense then x.complete else x
    Block.hbarReach 4 (b.sendGroup a.group.toNat h.w body) i

/-- DONE_RECEIVE (R148, R153). -/
def execDoneReceive (l : LaneRef) (h : Hdr) (a : BarAddr) (sat : Bool) (s : State) : Host.Outcome State Fault Refusal :=
  s.runLane l fun b => b.rx l h 2 1 false fun b =>
    match l with
    | .tsu _ => b.done a sat
    | .dist n => b.completeRx n h a (.done a sat)

/-- STEP_GO_RECEIVE (R119, R153). -/
def execStepGoReceive (l : LaneRef) (h : Hdr) (a : BarAddr) (p : StepGo) (s : State) : Host.Outcome State Fault Refusal :=
  s.runLane l fun b => b.rx l h 1 0 false fun b =>
    match l with
    | .tsu _ => b.stepGo a p
    | .dist n => b.completeRx n h a (.stepGo a p)

/-! ### Semaphores (R159, R160) -/

/-- TAKE_RESP on its way to a PDA. At a T1, an OK answer to a fenced port becomes a SIGNAL upward (R430). -/
def Block.takeRespDown (b : Block) (a : BarAddr) (w : Bool) (p : TakeResp) : Block :=
  let c := b.childFor p.pda.toNat
  if b.dRole = 1 ∧ (smGet none b.dist.boot.fencedPorts c).isSome then
    if p.status = stOK then b.sendUp w (.signal a p.count) else b
  else b.sendChild c w (.takeResp a p)

/-- Waiting TAKEs are served first in, first out. A TAKE of a fenced port of this T1 takes nothing: its count would come
straight back (R430). -/
def Block.hsemServe : Nat → Block → Nat → Block
  | 0, b, _ => b
  | f + 1, b, n =>
    let x := b.hbar n
    match x.takes with
    | [] => b
    | t :: rest =>
      if t.count ≤ x.c0 then
        let fenced := b.dRole = 1 ∧ (smGet none b.dist.boot.fencedPorts (b.childFor t.pda.toNat)).isSome
        let b := b.mHbar n fun x => { x with takes := rest, c0 := if fenced then x.c0 else x.c0 - t.count }
        let b := if fenced then b
          else b.takeRespDown (x.addr n false) x.world ⟨t.pda, t.tag, stOK, BitVec.ofNat 32 t.count⟩
        Block.hsemServe f b n
      else b

/-- SIGNAL at the object. -/
def Block.hsemSignal (b : Block) (n cnt : Nat) : Block :=
  let b := b.mHbar n fun x =>
    { x with c0 := min (x.c0 + cnt) 0xFFFFF, sat0 := x.sat0 || decide (0xFFFFF < x.c0 + cnt) }
  Block.hsemServe 257 b n

/-- TAKE at the object. -/
def Block.hsemTake (b : Block) (n : Nat) (a : BarAddr) (w : Bool) (p : TakeMsg) : Block :=
  let x := b.hbar n
  let resp (st : Byte) (c : BitVec 32) (b : Block) := b.takeRespDown a w ⟨p.pda, p.tag, st, c⟩
  if p.count.toNat ≤ x.c0 ∧ x.takes = [] then
    resp stOK p.count (b.mHbar n fun x => { x with c0 := x.c0 - p.count.toNat })
  else if p.nowait then resp stNOTREADY 0 b
  else if x.takes.length < 256 then
    b.mHbar n fun x => { x with takes := x.takes ++ [⟨p.pda, p.tag, p.count.toNat, w⟩] }
  else resp stREFUSED 0 (b.mObjs fun o => { o with semRefused := sat1 o.semRefused })

/-- A SIGNAL, TAKE or CANCEL at a downward lane: forwarded up below the object, else applied by `f`. -/
def Block.hsemRx (b : Block) (n : Nat) (h : Hdr) (a : BarAddr) (body : FrameBody) (f : Block → Block) : Block :=
  if 288 ≤ n then b
  else if !b.barOk a h.w 2 then b.dropBar
  else if b.isHome a.scope then f b
  else b.sendUp h.w body

/-- SIGNAL_RECEIVE (R160). -/
def execSignalReceive (n : Nat) (h : Hdr) (a : BarAddr) (count : BitVec 32) (s : State) : Host.Outcome State Fault Refusal :=
  s.runLane (.dist n) fun b => b.rx (.dist n) h 2 1 false fun b =>
    b.hsemRx n h a (.signal a count) fun b => b.hsemSignal a.hbid.toNat count.toNat

/-- TAKE_RECEIVE (R160). -/
def execTakeReceive (n : Nat) (h : Hdr) (a : BarAddr) (p : TakeMsg) (s : State) : Host.Outcome State Fault Refusal :=
  s.runLane (.dist n) fun b => b.rx (.dist n) h 2 1 false fun b =>
    b.hsemRx n h a (.take a p) fun b => b.hsemTake a.hbid.toNat a h.w p

/-- CANCEL_RECEIVE (R160): the waiting TAKE is withdrawn; TAKEs behind it are then served. -/
def execCancelReceive (n : Nat) (h : Hdr) (a : BarAddr) (pda tag : BitVec 16) (s : State) : Host.Outcome State Fault Refusal :=
  s.runLane (.dist n) fun b => b.rx (.dist n) h 2 1 false fun b =>
    b.hsemRx n h a (.cancel a pda tag) fun b =>
      Block.hsemServe 257 (b.mHbar a.hbid.toNat fun x =>
        { x with takes := x.takes.filter fun t => !(t.pda == pda && t.tag == tag) }) a.hbid.toNat

/-- TAKE_RESP_RECEIVE (R160). -/
def execTakeRespReceive (l : LaneRef) (h : Hdr) (a : BarAddr) (p : TakeResp) (s : State) : Host.Outcome State Fault Refusal :=
  s.runLane l fun b => b.rx l h 2 1 false fun b =>
    match l with
    | .tsu _ => b.takeResp l h a p
    | .dist n =>
      if n < 288 then b
      else if !b.barOk a h.w 2 then b.dropBar
      else b.takeRespDown a h.w p

/-! ### Records -/

/-- The hbar record (R152): refused while a count is non-zero or a request is queued; a removal stays in force. -/
def Block.hbarApply (b : Block) (v : RecVals) : Byte × Block :=
  let n := ofLE (v 1)
  let x := b.hbar n
  if x.c0 ≠ 0 ∨ x.c1 ≠ 0 ∨ x.takes ≠ [] then (caSTATE, b)
  else
    (caOK, b.mHbar n fun x =>
      { kind := BitVec.ofNat 2 (ofLE (v 2)), scope := BitVec.ofNat 2 (ofLE (v 3)), expect := BitVec.ofNat 20 (ofLE (v 4)),
        group := BitVec.ofNat 16 (ofLE (v 5)), world := ofLE (v 6) != 0, rshare := x.rshare, removed := x.removed })

/-- The group record (R156). -/
def Block.groupApply (b : Block) (v : RecVals) : Byte × Block :=
  (caOK, b.mObjs fun o => { o with groups := smPut 0 o.groups (ofLE (v 1)) (BitVec.ofNat 288 (ofLE (v 2))) })

/-- One entry of the removal record (R434). -/
def HBar.remove (x : HBar) (p share : Nat) : HBar :=
  let cut (x : HBar) (s : Bool) : HBar :=
    if (x.map s).getLsbD p then (x.setCount s (x.count s - share)).setMap s (x.map s &&& ~~~(1#256 <<< p)) else x
  let x := cut (cut x false) true
  { x with rshare := x.rshare + share, removed := x.removed ||| (1#256 <<< p) }

/-- The port is fenced, or its latest report says that its die is in Cloakroom (R434). -/
def Block.portOut (b : Block) (p : Nat) : Bool :=
  (smGet none b.dist.boot.fencedPorts p).isSome ||
    (match smGet none b.dist.boot.reports p with | some (r, _) => r.cloak | none => false)

/-- The removal record (R434). An entry of SHARE 0 is unused, and one of a free object is passed over (log entry 40). -/
def Block.rmApply (b : Block) (v : RecVals) : Byte × Block :=
  let p := ofLE (v 1)
  if !b.portOut p then (caSTATE, b)
  else
    (caOK, b.each (List.range 512) fun b i =>
      let n := leAt (v 2) (8 * i) 2
      let share := leAt (v 2) (8 * i + 4) 4 % 2 ^ 20
      if share = 0 ∨ (b.hbar n).kind = 0 then b
      else Block.hbarReach 4 (b.mHbar n fun x => x.remove p share) n)

/-- A purge of a hall barrier object (R435): waiting TAKEs are answered REFUSED. -/
def Block.hbarPurge (b : Block) (n : Nat) : Block :=
  let x := b.hbar n
  let b := b.each x.takes fun b t => b.takeRespDown (x.addr n false) t.w ⟨t.pda, t.tag, stREFUSED, 0⟩
  b.mHbar n fun x =>
    { kind := x.kind, scope := x.scope, expect := x.expect, group := x.group, world := x.world, dormant := x.dormant }

/-- The seed record (R436). -/
def Block.seedApply (b : Block) (v : RecVals) : Byte × Block :=
  let n := ofLE (v 1)
  let x := b.hbar n
  if x.kind ≠ 2 ∨ x.c0 ≠ 0 ∨ x.c1 ≠ 0 ∨ x.takes ≠ [] then (caSTATE, b)
  else (caOK, b.mHbar n fun x => { x with c0 := ofLE (v 2) % 2 ^ 20 })

end Sys2Proof.Machine
end

