-- ==== Sys2Proof/Machine/DistColl.lean ====
section
/-! DEFINITION. Collective objects of a distributor: combining, cuts, missing parties, the two phases of SSUM, results and
the cobj record (R190, R205-R225, R430, R435, R441). -/

namespace Sys2Proof.Machine

open Sys2Proof

/-! ### Objects and operations -/

def Block.cobj (b : Block) (n : Nat) : CObj := smGet {} b.dist.objs.cobjs n
def Block.mCobj (b : Block) (n : Nat) (f : CObj → CObj) : Block :=
  b.mObjs fun o => { o with cobjs := smMod {} o.cobjs n f }

def Block.cop (b : Block) (n : Nat) (seq : BitVec 16) : Option COp := (b.cobj n).ops.find? fun o => o.seq == seq
def Block.mCop (b : Block) (n : Nat) (seq : BitVec 16) (f : COp → COp) : Block :=
  b.mCobj n fun c => { c with ops := c.ops.map fun o => if o.seq = seq then f o else o }
def Block.dropCop (b : Block) (n : Nat) (seq : BitVec 16) : Block :=
  b.mCobj n fun c => { c with ops := c.ops.filter fun o => o.seq != seq }

def COp.kid (o : COp) (c : Nat) : CKid := smGet {} o.kids c
def COp.mKid (o : COp) (c : Nat) (f : CKid → CKid) : COp := { o with kids := smMod {} o.kids c f }

def Block.dCrc (b : Block) : Block := b.mObjs fun o => { o with ccrcErr := sat1 o.ccrcErr }
def Block.dLate (b : Block) : Block := b.mObjs fun o => { o with lateCount := sat1 o.lateCount }
def Block.dMixed (b : Block) : Block := b.mObjs fun o => { o with mixedCount := sat1 o.mixedCount }

/-- R225, R441: a configured object that is not dormant, SCOPE and W. -/
def Block.cobjOk (b : Block) (a : CollAddr) (scope : BitVec 2) (w : Bool) : Bool :=
  let x := b.cobj a.cobj.toNat
  x.scope != 0 && x.scope == scope && x.world == w && !x.dormant

/-- The entry of a downward port or child that is missing (R220, R426). -/
def Block.missEntry (b : Block) (c : Nat) : BitVec 32 :=
  match b.dRole with
  | 1 => (b.portLdi c).setWidth 32
  | 2 => BitVec.ofNat 32 (2 ^ 30 + b.t2idx * 4096 + c * 256)
  | _ => BitVec.ofNat 32 (2 ^ 31 + c * 4096)

/-- Adds missing entries to a list, lowest first, at most 32 (R220). -/
def addMiss (l m : List (BitVec 32)) : List (BitVec 32) :=
  ((sortI ((l ++ m).map fun x => (x.toNat : Int))).map fun x => BitVec.ofInt 32 x).take 32

def COp.miss (o : COp) (m : List (BitVec 32)) (n : Nat) : COp := { o with missing := addMiss o.missing m, nmiss := o.nmiss + n }

/-- A child is listed as missing, once. -/
def COp.missKid (o : COp) (c : Nat) (e : BitVec 32) : COp :=
  if (o.kid c).gone then o else (o.miss [e] 1).mKid c fun k => { k with gone := true }

/-- The cut tick of an operation here (R209, R219). -/
def Block.dCut (b : Block) (home phase2 : Bool) (deadline : Tick) : Tick :=
  let off := if home then 0 else if b.dRole = 1 then b.catNat .dist 0x4003 1 else b.catNat .dist 0x4003 2
  let win := if phase2 then b.catNat .dist 0x4004 0 else 0
  deadline + BitVec.ofNat 64 win - BitVec.ofNat 64 off

/-- The count of the unit is past an operation's cut: a contribution is late (R219). -/
def Block.pastCut (b : Block) (home phase2 : Bool) (deadline : Tick) : Bool :=
  decide (0 < Tick.diff b.dist.time.tc64 (b.dCut home phase2 deadline))

/-- The ports of the object's group (R156). -/
def Block.cobjPorts (b : Block) (n : Nat) : List Nat := b.groupPorts (b.cobj n).group.toNat

/-- A port of this T1 is fenced. -/
def Block.portFenced (b : Block) (c : Nat) : Bool := b.dRole == 1 && (smGet none b.dist.boot.fencedPorts c).isSome

/-- Fenced ports of the group are missing at once, and nothing waits for them (R430). -/
def Block.copFenced (b : Block) (n : Nat) (o : COp) : COp :=
  ((b.cobjPorts n).filter b.portFenced).foldl (fun o c =>
    if (o.kid c).last then o else (o.missKid c (b.missEntry c)).mKid c fun k => { k with last := true }) o

/-- Opens an operation for a frame (R190): none where SEQ is 4 or more ahead of one that is open, or four are open. -/
def Block.copOpen (b : Block) (n : Nat) (seq : BitVec 16) (p : Contrib) : Option Block :=
  let ops := (b.cobj n).ops
  if ops.any (fun o => o.seq == seq) then some b
  else if decide (4 ≤ ops.length) || ops.any (fun o => decide (4 ≤ (seq - o.seq).toInt)) then none
  else
    let o : COp := { seq := seq, hdr := { p with first := 0, nel := 0, recs := [], ccrc := 0, missing := [], nmiss := 0, npres := 0,
                                                 raw := false, last := false, root := false } }
    some (b.mCobj n fun c => { c with ops := c.ops ++ [b.copFenced n o] })

/-! ### Sending on (R211, R212, R219) -/

/-- The shape of an operation's records in its present phase. -/
def COp.kind (o : COp) : RecKind := if o.phase2 then .sum else recKind o.hdr.op.toNat

def COp.enc (o : COp) (l : List CRec) : List Bytes :=
  if o.phase2 then l.map (encRec 4) else encAll o.hdr.op.toNat o.hdr.fmt.toNat l

/-- What a point below the completing point holds goes up: its record, or ABSENT where it holds none. An SSUM stays open
for its second phase. -/
def Block.copUp (b : Block) (n : Nat) (o : COp) : Block :=
  let x := b.cobj n
  let a : CollAddr := ⟨BitVec.ofNat 14 n, o.seq, x.group⟩
  let h := { o.hdr with npres := BitVec.ofNat 32 o.npres }
  let fs : List FrameBody := match o.recs with
    | none => (framesOf { h with npres := 0 } [] o.missing o.nmiss).map (.absent a)
    | some rs => (framesOf h (o.enc rs) o.missing o.nmiss).map (if o.phase2 then .ssum2 a else .contrib a)
  let b := b.each fs fun b f => b.sendUp x.world f
  if o.hdr.op.toNat = opSSUM ∧ !o.phase2 then b.mCop n o.seq fun o => { o with sent := true } else b.dropCop n o.seq

/-- RFLAGS of a RESULT (R212). -/
def rflagsOf (l : List CRec) : BitVec 16 :=
  let f (r : CRec) : Bool × Bool × Bool × Bool := match r with
    | .ssum n u _ c => (n, !n && decide (0 < c), !n && c == 0 && !u, decide (0xFFFFFFFF < c))
    | .sum n _ _ u _ _ => (n, false, !u, false)
    | .val n u _ => (n, false, !u, false)
    | .pair n u _ _ => (n, false, !u, false)
    | .topk n es => (n, false, es.isEmpty, false)
    | .cnt n => (false, false, n == 0, false)
  (bit (l.any fun r => (f r).2.2.2) ++ bit (l.any fun r => (f r).2.2.1) ++ bit (l.any fun r => (f r).2.1) ++
    bit (l.any fun r => (f r).1)).setWidth 16

/-- A BCAST that has no record of its root lists ROOT_LDI (R210). -/
def COp.rootMiss (o : COp) : COp :=
  if o.hdr.op.toNat = opBCAST ∧ !o.hdr.root ∧ !o.missing.contains (o.hdr.rootLdi.setWidth 32) then
    o.miss [o.hdr.rootLdi.setWidth 32] 1
  else o

/-- The outcome at the completing point (R190, R220). -/
def COp.rcode (o : COp) (expect : Nat) : Byte :=
  if o.mixed then 3 else if o.npres < expect ∨ o.nmiss ≠ 0 ∨ o.recs.isNone then 1 else 0

/-- The completing point completes with what it holds: RESULT to the group, or KDOWN where phase 2 is needed (R207). -/
def Block.copEnd (b : Block) (n : Nat) (o : COp) : Block :=
  let x := b.cobj n
  let a : CollAddr := ⟨BitVec.ofNat 14 n, o.seq, x.group⟩
  let o := if o.phase2 then o else o.rootMiss
  let rc := o.rcode x.expect.toNat
  let rs := o.recs.getD []
  let h := { o.hdr with npres := BitVec.ofNat 32 o.npres, rootLdi := 0 }
  if rc = 0 ∧ !o.phase2 ∧ o.hdr.op.toNat = opSSUM ∧ needsPhase2 rs then
    let ks := (ksOf rs).map fun k => toBE 4 (BitVec.ofInt 32 k).toNat
    let fs := (framesOf { h with rootLdi := o.hdr.rootLdi } ks [] 0).map (.kdown a)
    let b := b.each fs fun b f => b.sendGroup x.group.toNat x.world f
    b.mCop n o.seq fun o => b.copFenced n { seq := o.seq, hdr := o.hdr, phase2 := true, one := rs }
  else
    let enc := if rc ≠ 0 then [] else
      (if o.phase2 then encAll o.hdr.op.toNat o.hdr.fmt.toNat o.one else []) ++ o.enc rs
    let rf := if rc ≠ 0 then 0 else rflagsOf (if o.phase2 then o.one else rs)
    let fs := (framesOf h enc o.missing o.nmiss).map fun c => FrameBody.result a ⟨c, rc, rf⟩
    (b.each fs fun b f => b.sendGroup x.group.toNat x.world f).dropCop n o.seq

/-- Forwards an operation: every expected party has contributed, or the cut has come (R219). -/
def Block.copFwd (b : Block) (n : Nat) (o : COp) : Block := if b.isHome (b.cobj n).scope then b.copEnd n o else b.copUp n o

/-- Every party has contributed, or is fenced (R219, R430); uncombined frames count by NPRES (R222). -/
def Block.copFull (b : Block) (n : Nat) (o : COp) : Bool :=
  let ps := b.cobjPorts n
  (!ps.isEmpty && ps.all fun c => (o.kid c).last) || decide ((b.cobj n).expect.toNat ≤ o.npres)

/-- Forwards if nothing is awaited; a phase 2 with every party fenced ends at once. -/
def Block.copTry : Nat → Block → Nat → BitVec 16 → Block
  | 0, b, _, _ => b
  | f + 1, b, n, seq =>
    match b.cop n seq with
    | some o => if !o.sent && b.copFull n o then Block.copTry f (b.copFwd n o) n seq else b
    | none => b

/-! ### Contributions -/

/-- A whole contribution enters the operation. -/
def COp.take (o : COp) (rs : List CRec) (p : Contrib) : COp :=
  let op := if o.phase2 then opSUM else o.hdr.op.toNat
  let one := if op = opTOPK then [rs.foldl (combineRec op (fmtD o.hdr.fmt.toNat) o.hdr.k.toNat) (emptyRec op)] else rs
  let all := match o.recs with
    | none => one
    | some x => combineRecs op (fmtD o.hdr.fmt.toNat) o.hdr.k.toNat x one
  ({ o with recs := some all, npres := o.npres + p.npres.toNat, hdr := { o.hdr with root := o.hdr.root || p.root } }).miss
    p.missing p.nmiss.toNat

/-- The records of an uncombined frame enter at their places (R222). -/
def COp.takeRaw (o : COp) (rs : List CRec) (p : Contrib) : COp :=
  let op := if o.phase2 then opSUM else o.hdr.op.toNat
  let f := fmtD o.hdr.fmt.toNat
  let base := match o.recs with
    | some x => if x.isEmpty then List.replicate o.hdr.vl.toNat (emptyRec op) else x
    | none => List.replicate (if op = opTOPK then 1 else o.hdr.vl.toNat) (emptyRec op)
  let all := if rs.isEmpty then o.recs.getD [] else if op = opTOPK then
      [rs.foldl (combineRec op f o.hdr.k.toNat) (base.headD (emptyRec op))]
    else base.take p.first.toNat ++ List.zipWith (combineRec op f o.hdr.k.toNat) (base.drop p.first.toNat) rs ++
      base.drop (p.first.toNat + rs.length)
  let o := { o with recs := some all, hdr := { o.hdr with root := o.hdr.root || p.root } }
  if p.last then { o with npres := o.npres + p.npres.toNat }.miss p.missing p.nmiss.toNat else o

/-- One frame of a child's contribution in an open operation (R190, R205, R207, R214, R222). A record that differs is not
combined; below the completing point it goes up as it came, marked RAW, so that the operation is MIXED there too. -/
def Block.copFrame (b : Block) (n : Nat) (a : CollAddr) (w : Bool) (c : Nat) (p : Contrib) (body : Contrib → FrameBody)
    (o : COp) : Block :=
  let bad := crc32c p.recs != p.ccrc
  if bad then
    let b := b.dCrc
    if p.raw then b.mCop n a.seq fun o => o.missKid c (b.missEntry c)
    else b.mCop n a.seq fun o =>
      let o := o.mKid c fun k => { k with bad := true, recs := [] }
      if p.last then o.missKid c (b.missEntry c) else o
  else if !sameOp p o.hdr || a.group != (b.cobj n).group then
    let b := if p.last then b.dMixed else b
    let b := b.mCop n a.seq fun o =>
      let o := { o with mixed := true }
      if p.last && !p.raw then o.mKid c fun k => { k with last := true } else o
    if b.isHome (b.cobj n).scope then b
    else (b.mObjs fun x => { x with bypassCount := sat1 x.bypassCount }).sendUp w (body { p with raw := true })
  else
    match decRecs (fun _ => o.kind) (fmtD p.fmt.toNat).width p.nel.toNat p.first.toNat p.recs with
    | none => b.mCop n a.seq fun o => (o.mKid c fun k => { k with bad := true, recs := [] }).missKid c (b.missEntry c)
    | some rs =>
      b.mCop n a.seq fun o =>
        if p.raw then o.takeRaw rs p
        else
          let k := o.kid c
          let o := o.mKid c fun k => { k with recs := if k.bad then [] else k.recs ++ rs }
          if !p.last then o
          else if k.bad then o.missKid c (b.missEntry c)
          else (o.take (k.recs ++ rs) p).mKid c fun k => { k with last := true, recs := [] }

/-- CONTRIB or SSUM2 at a downward lane. -/
def Block.contribRx (b : Block) (l : Nat) (h : Hdr) (a : CollAddr) (p : Contrib) (phase2 : Bool) : Block :=
  let n := a.cobj.toNat
  let home := b.isHome (b.cobj n).scope
  let c := b.childOf l
  if 288 ≤ l then b
  else if !b.cobjOk a p.scope h.w then b.dropBar
  else if b.pastCut home phase2 p.deadline then b.dLate
  else match (if phase2 then (if (b.cop n a.seq).any fun o => o.phase2 then some b else none) else b.copOpen n a.seq p) with
    | none => b.dLate
    | some b =>
      match b.cop n a.seq with
      | none => b
      | some o =>
        if o.sent || o.phase2 != phase2 || (!p.raw && (o.kid c).last) then b.dLate
        else Block.copTry 2 (b.copFrame n a h.w c p (if phase2 then .ssum2 a else .contrib a) o) n a.seq

/-- CONTRIB_RECEIVE (R219). -/
def execContribReceive (n : Nat) (h : Hdr) (a : CollAddr) (p : Contrib) (s : State) : Host.Outcome State Fault Refusal :=
  s.runLane (.dist n) fun b => b.rx (.dist n) h 3 (opFeature p.op.toNat) false fun b => b.contribRx n h a p false

/-- SSUM2_RECEIVE (R207). -/
def execSsum2Receive (n : Nat) (h : Hdr) (a : CollAddr) (p : Contrib) (s : State) : Host.Outcome State Fault Refusal :=
  s.runLane (.dist n) fun b => b.rx (.dist n) h 3 (opFeature p.op.toNat) false fun b => b.contribRx n h a p true

/-- ABSENT at a downward lane: its entries are listed, in the phase being collected; the point goes on waiting for its cut
(R219-R221). -/
def Block.absentRx (b : Block) (l : Nat) (h : Hdr) (a : CollAddr) (p : Contrib) : Block :=
  let n := a.cobj.toNat
  let c := b.childOf l
  let phase2 := (b.cop n a.seq).any fun o => o.phase2
  if 288 ≤ l then b
  else if !b.cobjOk a p.scope h.w then b.dropBar
  else if b.pastCut (b.isHome (b.cobj n).scope) phase2 p.deadline then b.dLate
  else match b.copOpen n a.seq p with
    | none => b.dLate
    | some b =>
      match b.cop n a.seq with
      | none => b
      | some o =>
        if o.sent || (!p.raw && ((o.kid c).last || (o.kid c).gone)) then b.dLate
        else if !sameOp p o.hdr || a.group != (b.cobj n).group then
          b.copFrame n a h.w c p (.absent a) o
        else b.mCop n a.seq fun o =>
          let o := o.miss p.missing p.nmiss.toNat
          if p.raw then o else o.mKid c fun k => { k with gone := true }

/-- ABSENT_RECEIVE (R220). -/
def execAbsentReceive (n : Nat) (h : Hdr) (a : CollAddr) (p : Contrib) (s : State) : Host.Outcome State Fault Refusal :=
  s.runLane (.dist n) fun b => b.rx (.dist n) h 3 2 false fun b => b.absentRx n h a p

/-! ### Cuts (R219) -/

/-- The cut tick of an operation at the distributor: parties that have not contributed are listed, and it is forwarded. -/
def Block.collCutDist (b : Block) (n : Nat) (seq : BitVec 16) : Block :=
  match b.cop n seq with
  | none => b
  | some o =>
    let home := b.isHome (b.cobj n).scope
    if !Tick.le (b.dCut home o.phase2 o.hdr.deadline) b.dist.time.tc64 then b
    else if o.sent then
      if Tick.le (b.dCut home true o.hdr.deadline) b.dist.time.tc64 then b.dropCop n seq else b
    else
      let o := (b.cobjPorts n).foldl (fun o c => if (o.kid c).last then o else o.missKid c (b.missEntry c)) o
      (b.mCop n seq fun _ => o).copFwd n o

/-- COLL_CUT (R219). -/
def execCollCut (w : CutPoint) (s : State) : Host.Outcome State Fault Refusal :=
  s.run fun b => match w with
    | .tsu n => b.collCutTsu n.toNat
    | .dist n seq => b.collCutDist n.toNat seq

/-! ### KDOWN and RESULT on their way down (R207, R214) -/

/-- A frame from the uplink: its CCRC is checked and counted, it is forwarded unchanged, and the operation follows it. -/
def Block.collDown (b : Block) (l : Nat) (h : Hdr) (a : CollAddr) (c : Contrib) (body : FrameBody) (f : Block → COp → Block) :
    Block :=
  let n := a.cobj.toNat
  if l < 288 then b
  else if !b.cobjOk a c.scope h.w then b.dropBar
  else
    let b := if crc32c c.recs != c.ccrc then b.dCrc else b
    let b := b.sendGroup a.group.toNat h.w body
    match b.cop n a.seq with
    | none => b
    | some o => f b o

/-- KDOWN_RECEIVE (R207). -/
def execKdownReceive (l : LaneRef) (h : Hdr) (a : CollAddr) (p : Contrib) (s : State) : Host.Outcome State Fault Refusal :=
  s.runLane l fun b => b.rx l h 3 (opFeature p.op.toNat) false fun b =>
    match l with
    | .tsu pl => b.kdownTsu pl a p
    | .dist m => b.collDown m h a p (.kdown a p) fun b o =>
      if o.phase2 then b
      else Block.copTry 2 (b.mCop a.cobj.toNat a.seq fun o =>
        b.copFenced a.cobj.toNat { seq := o.seq, hdr := { o.hdr with root := false }, phase2 := true }) a.cobj.toNat a.seq

/-- RESULT_RECEIVE (R215). -/
def execResultReceive (l : LaneRef) (h : Hdr) (a : CollAddr) (p : CollResult) (s : State) : Host.Outcome State Fault Refusal :=
  s.runLane l fun b => b.rx l h 3 (opFeature p.c.op.toNat) false fun b =>
    match l with
    | .tsu pl => b.resultTsu pl a p
    | .dist m => b.collDown m h a p.c (.result a p) fun b _ => if p.c.last then b.dropCop a.cobj.toNat a.seq else b

/-! ### Fencing, records and purge -/

/-- A port of this T1 has been fenced: it is missing at once in every open operation (R430). -/
def Block.collFencePort (b : Block) : Block :=
  b.each (b.dist.objs.cobjs.flatMap fun e => e.2.ops.map fun o => (e.1, o.seq)) fun b x =>
    Block.copTry 2 (b.mCop x.1 x.2 fun o => if o.sent then o else b.copFenced x.1 o) x.1 x.2

/-- The cobj record (R225): refused while an operation is open. -/
def Block.cobjApply (b : Block) (v : RecVals) : Byte × Block :=
  let n := ofLE (v 1)
  if (b.cobj n).ops ≠ [] then (caSTATE, b)
  else
    (caOK, b.mCobj n fun _ =>
      { scope := BitVec.ofNat 2 (ofLE (v 2)), group := BitVec.ofNat 16 (ofLE (v 3)), expect := BitVec.ofNat 32 (ofLE (v 4))
        world := ofLE (v 5) != 0 })

/-- A purge of a collective object (R435): nothing is completed. -/
def Block.cobjPurge (b : Block) (n : Nat) : Block := b.mCobj n fun c => { c with ops := [] }

/-- The purge record (R435). A zero entry is unused (log entry 40). -/
def Block.purgeApply (b : Block) (v : RecVals) : Byte × Block :=
  (caOK, b.each (List.range 1024) fun b i =>
    let e := leAt (v 1) (4 * i) 4
    if e = 0 then b
    else if e / 65536 % 2 = 1 then b.cobjPurge (e % 16384) else b.hbarPurge (e % 65536))

end Sys2Proof.Machine
end

