-- ==== Sys2Proof/Machine/HallMem.lean ====
section
/-! DEFINITION. Hall memory: its words at the owner, regions, the ledger, routing of requests and responses, and the answer at
the TSU (R253-R268, R276). -/

namespace Sys2Proof.Machine

open Sys2Proof

/-! ### Words, rows and regions -/

def Block.hm (b : Block) : HMem := b.dist.objs.hmem
def Block.mHm (b : Block) (f : HMem → HMem) : Block := b.mObjs fun o => { o with hmem := f o.hmem }

def hmWords : Nat := 100663296
/-- The region of a hall word (R263). -/
def hmRegion (n : Nat) : Nat := n / 98304
def HMem.region (m : HMem) (r : Nat) : HRegion := smGet {} m.regions r
/-- What an unlisted word reads as (R256, R264). -/
def HMem.dflt (m : HMem) (n : Nat) : TWord := ⟨0, false, !smGet false m.fillN (hmRegion n), .good⟩
def HMem.get (m : HMem) (n : Nat) : TWord := smGet (m.dflt n) m.words n
def HMem.set (m : HMem) (n : Nat) (w : TWord) : HMem := { m with words := smPut (m.dflt n) m.words n w }
/-- Hall memory is in its canonical form. -/
def HMem.wf (m : HMem) : Bool := smWf m.dflt m.words

/-- Sets every word of a region to DATA 0, EMPTY, with W equal to the region's world; failed cells stay failed (R256, R264,
R164). -/
def HMem.clearRegion (m : HMem) (r : Nat) : HMem :=
  let w := (m.region r).world
  let hard := m.words.filter fun e => hmRegion e.1 == r && e.2.ecc == .ueHard
  let m := { m with words := m.words.filter fun e => hmRegion e.1 != r, fillN := smPut false m.fillN r (!w) }
  hard.foldl (fun m e => m.set e.1 ⟨0, false, w, .ueHard⟩) m

/-- A row that failed and found no spare (R393). -/
def Block.hmBadRow (b : Block) (n : Nat) : Bool := b.dist.boot.hmUnrepaired.contains (n / 4096)

/-! ### One request (R166, R253, R259, R263, R267, R268) -/

/-- STATE of a ledger word 1 made EXPIRED where it is OPEN: the word, and whether it was marked (R266, R267). -/
def ledgerMark (late : Bool) (d : BitVec 64) : BitVec 64 × Bool :=
  if late && fld d 24 3 == 1 then ((d &&& ~~~(7#64 <<< 24)) ||| (4#64 <<< 24), true) else (d, false)

/-- The owner's tick has reached DEADLINE, read from word 0 of the entry; the data of an uncorrectable word 0 is a free
value (log entry 41). -/
def Block.ledgerLate (b : Block) (n : Nat) : Bool × Block :=
  let w := b.hm.get (n - 1)
  if w.ecc == .ue || w.ecc == .ueHard || b.hmBadRow (n - 1) then
    let (v, b) := b.draw
    (Tick.le v b.dist.time.tc64, b)
  else (Tick.le w.data b.dist.time.tc64, b)

/-- One attempt of a request on its word: none where it waits. -/
def Block.hmTry (b : Block) (q : HWait) : Option HResp × Block :=
  let n := (q.p.ha.extractLsb' 0 27).toNat
  let rg := b.hm.region (hmRegion n)
  let resp (st : Byte) : HResp := ⟨q.p.pda, q.p.tag, st, false, false, false, false, 0⟩
  let denied (b : Block) := b.mHm fun m => { m with denied := sat1 m.denied }
  if !q.w && rg.world then (some (resp stDENIED), denied b)
  else if rg.ledger && !q.p.lcap then (some (resp stUNSUPPORTED), b)
  else
    let w0 := b.hm.get n
    if w0.ecc = .ue ∨ w0.ecc = .ueHard ∨ b.hmBadRow n then
      (some (resp stECC), b.mHm fun m => { m with ue := sat1 m.ue })
    else
      let b := if w0.ecc = .ce then b.mHm fun m => { m.set n { w0 with ecc := .good } with ce := sat1 m.ce } else b
      let w := { w0 with ecc := .good }
      if !q.w && w.w then (some (resp stDENIED), denied b)
      else
        let op := q.p.op.toNat
        let waits := !q.p.nowait && q.p.tag.extractLsb' 12 4 == 0
        if (wordOp op q.p.wdata waits rg.world w).isNone then (none, b)
        else
          let (late, b) := if rg.ledger && n % 2 == 1 then b.ledgerLate n else (false, b)
          let (d1, m1) := ledgerMark late w.data
          match wordOp op q.p.wdata waits rg.world { w with data := d1 } with
          | none => (none, b)
          | some (r, x) =>
            let (d2, m2) := ledgerMark late x.data
            let r := if m2 then { r with rdata := if op = 4 then d2 else r.rdata } else r
            let k := (if m1 then 1 else 0) + (if m2 then 1 else 0)
            let b := b.mHm fun m => { m.set n { x with data := d2 } with expired := satAdd m.expired k }
            (some ⟨q.p.pda, q.p.tag, r.status, r.full, r.w, r.sat, m1 || m2, r.rdata⟩, b)

/-! ### Routes (R254, R257) -/

/-- The PDA lies beneath this distributor (R425). -/
def Block.pdaBelow (b : Block) (pda : Nat) : Bool :=
  match b.dRole with
  | 1 => pda / 256 == b.t2idx * 16 + b.t1idx
  | 2 => pda / 4096 == b.t2idx
  | _ => true

/-- HRESP towards the requester. -/
def Block.hrespSend (b : Block) (w : Bool) (p : HResp) : Block :=
  if b.pdaBelow p.pda.toNat then b.sendChild (b.childFor p.pda.toNat) w (.hresp p) else b.sendUp w (.hresp p)

/-- Where a request goes next. -/
inductive HmWay where
  | here | down (c : Nat) | up
  deriving DecidableEq, Repr

def Block.hmWay (b : Block) (ha : BitVec 39) : HmWay :=
  let tier := (ha.extractLsb' 37 2).toNat
  let mine := (ha.extractLsb' 36 1 == 1#1) == (b.dPlane == .B)
  let t2 := (ha.extractLsb' 31 4).toNat
  let t1 := (ha.extractLsb' 27 4).toNat
  if !mine then .up
  else match b.dRole with
    | 1 => if tier = 1 ∧ t2 = b.t2idx ∧ t1 = b.t1idx then .here else .up
    | 2 => if tier = 2 ∧ t2 = b.t2idx then .here else if tier = 1 ∧ t2 = b.t2idx then .down t1 else .up
    | _ => if tier = 3 then .here else .down t2

/-- The lane towards the owner. -/
def Block.hmLane (b : Block) (ha : BitVec 39) : Option Nat :=
  match b.hmWay ha with
  | .here => none
  | .down c => b.childLane c
  | .up => if b.dRole = 3 then none else b.upLane

/-- Passes a request on: NOPATH where no lane is UP, UNSUPPORTED where the lane lacks HMEM; LCAP is cleared where it lacks
LEDGER (R6, R257, R268). -/
def Block.hmForward (b : Block) (w : Bool) (p : HReq) : Block :=
  match b.hmLane p.ha with
  | none => b.hrespSend w ⟨p.pda, p.tag, stNOPATH, false, false, false, false, 0⟩
  | some n =>
    let f := (b.lane (.dist n)).reg.featEff
    if !f.getLsbD 10 then b.hrespSend w ⟨p.pda, p.tag, stUNSUPPORTED, false, false, false, false, 0⟩
    else b.send (.dist n) w (.hreq { p with lcap := p.lcap && f.getLsbD 17 })

/-! ### The owner (R256, R258-R260, R264) -/

/-- The word a request names. -/
def HWait.word (q : HWait) : Nat := (q.p.ha.extractLsb' 0 27).toNat

/-- Examines the requests that wait on a word, in order, each against the state left by the one before it (R258, R168). -/
def Block.hmExamine (b : Block) (n : Nat) : Block :=
  b.each (b.hm.waits.filter fun q => q.word == n) fun b q =>
    match b.hmTry q with
    | (none, b) => b
    | (some r, b) => (b.mHm fun m => { m with waits := m.waits.filter fun x => x != q }).hrespSend q.w r

/-- A request reaches its word. -/
def Block.hmServe (b : Block) (q : HWait) : Block :=
  let n := q.word
  match b.hmTry q with
  | (some r, b') =>
    let b' := b'.hrespSend q.w r
    if b'.hm.get n = b.hm.get n then b' else b'.hmExamine n
  | (none, b) =>
    if b.hm.waits.length < 65536 then b.mHm fun m => { m with waits := m.waits ++ [q] }
    else (b.mHm fun m => { m with refused := sat1 m.refused }).hrespSend q.w
      ⟨q.p.pda, q.p.tag, stREFUSED, false, false, false, false, 0⟩

/-- A request at its owner: NOPATH before hmem.ready, held while its region is scrubbed. -/
def Block.hmOwner (b : Block) (q : HWait) : Block :=
  let resp (st : Byte) : HResp := ⟨q.p.pda, q.p.tag, st, false, false, false, false, 0⟩
  if !b.dist.boot.hmReady then b.hrespSend q.w (resp stNOPATH)
  else if hmWords ≤ q.word then b.hrespSend q.w (resp stBADOP)
  else if b.hm.scrub.contains (hmRegion q.word) then b.mHm fun m => { m with held := m.held ++ [q] }
  else b.hmServe q

/-- HREQ_RECEIVE (R257, R258). A TSU serves no request. -/
def execHreqReceive (l : LaneRef) (h : Hdr) (p : HReq) (s : State) : Host.Outcome State Fault Refusal :=
  s.runLane l fun b => b.rx l h 4 10 false fun b =>
    match l with
    | .tsu _ => b
    | .dist _ => if b.hmWay p.ha = .here then b.hmOwner ⟨p, h.w⟩ else b.hmForward h.w p

/-- HREQ_EXPIRY (R259): at X the request is withdrawn, unless it can be satisfied now (R273). -/
def Block.hmExpire (b : Block) (pda tag : BitVec 16) : Block :=
  match b.hm.waits.find? fun q => q.p.pda == pda && q.p.tag == tag with
  | none => b
  | some q =>
    if !Tick.le q.p.x b.dist.time.tc64 then b
    else (b.mHm fun m => { m with waits := m.waits.filter fun x => x != q }).hrespSend q.w
      ⟨pda, tag, stTIMEOUT, false, false, false, false, 0⟩

/-- HREQ_EXPIRY (R259). -/
def execHreqExpiry (pda tag : BitVec 16) (s : State) : Host.Outcome State Fault Refusal := s.run fun b => b.hmExpire pda tag

/-- HCANCEL at a distributor: withdrawn at the owner while it waits, else passed on (R261). -/
def Block.hmCancel (b : Block) (w : Bool) (ha : BitVec 39) (pda tag : BitVec 16) : Block :=
  let out (q : HWait) : Bool := !(q.p.pda == pda && q.p.tag == tag && q.p.ha == ha)
  if b.hmWay ha = .here then b.mHm fun m => { m with waits := m.waits.filter out, held := m.held.filter out }
  else match b.hmLane ha with
    | some n => b.send (.dist n) w (.hcancel ha pda tag)
    | none => b

/-- HCANCEL_RECEIVE (R261). -/
def execHcancelReceive (l : LaneRef) (h : Hdr) (ha : BitVec 39) (pda tag : BitVec 16) (s : State) :
    Host.Outcome State Fault Refusal :=
  s.runLane l fun b => b.rx l h 4 10 false fun b =>
    match l with
    | .tsu _ => b
    | .dist _ => b.hmCancel h.w ha pda tag

/-! ### The answer at the TSU (R261) -/

/-- A hall operation of the TSU ends with a status and data. -/
def Block.hallDone (b : Block) (g : HOut) (p : HResp) : Block :=
  let b := if p.status = stNOPATH then b.nopath else b
  match hallSrc g.tag with
  | .slot i => b.wsDone i (hrespRes g.op p)
  | .dm n => (b.dmHallDone (n % 8) g.ha p.status p.data).dmGo
  | .other => b

/-- HRESP at the TSU: the outstanding operation ends, or the response is an orphan. -/
def Block.hrespTsu (b : Block) (p : HResp) : Block :=
  match b.hallTake p.tag with
  | some (g, b) => b.hallDone g p
  | none => b.orphan p

/-- HRESP_RECEIVE (R261). -/
def execHrespReceive (l : LaneRef) (h : Hdr) (p : HResp) (s : State) : Host.Outcome State Fault Refusal :=
  s.runLane l fun b => b.rx l h 4 10 false fun b =>
    match l with
    | .tsu _ => b.hrespTsu p
    | .dist _ => b.hrespSend h.w p

/-- No response by X + GRACE: NOPATH; a response that comes later is an orphan (R261). -/
def Block.hmGrace (b : Block) (tag : BitVec 16) : Block :=
  match b.hallTake tag with
  | none => b
  | some (g, b') =>
    if !b.due (g.x + b.tsu.hall.grace.setWidth 64) then b
    else
      let b := b'.mHall fun h => { h with gone := h.gone ++ [g] }
      b.hallDone g ⟨0, tag, stNOPATH, false, false, false, false, 0⟩

/-- HM_GRACE_EXPIRE (R261). -/
def execHmGraceExpire (tag : BitVec 16) (s : State) : Host.Outcome State Fault Refusal := s.run fun b => b.hmGrace tag

/-! ### Regions and self-test (R256, R263, R264, R393) -/

/-- The hmem.region record (R264): waiting requests that can no longer reach their word are answered DENIED; with SCRUB = 1
the region is being scrubbed until HMEM_SCRUB_DONE. -/
def Block.hregionApply (b : Block) (v : RecVals) : Byte × Block :=
  let r := ofLE (v 1)
  let world := ofLE (v 2) != 0
  let scrub := ofLE (v 4) != 0
  let b := b.mHm fun m => { m with
    regions := smPut {} m.regions r ⟨world, ofLE (v 3) != 0⟩
    scrub := if scrub && !m.scrub.contains r then m.scrub ++ [r] else m.scrub }
  let bad := b.hm.waits.filter fun q => hmRegion q.word == r && !q.w && (world || (b.hm.get q.word).w)
  (caOK, b.each bad fun b q =>
    (b.mHm fun m => { m with waits := m.waits.filter fun x => x != q, denied := sat1 m.denied }).hrespSend q.w
      ⟨q.p.pda, q.p.tag, stDENIED, false, false, false, false, 0⟩)

/-- HMEM_SCRUB_DONE: the words are cleared, waiting requests examined, and held requests served in their order (R264). -/
def Block.hmScrubDone (b : Block) (r : Nat) : Block :=
  if !b.hm.scrub.contains r then b
  else
    let held := b.hm.held.filter fun q => hmRegion q.word == r
    let b := b.mHm fun m => { (m.clearRegion r) with
      scrub := m.scrub.filter fun x => x != r, held := m.held.filter fun q => hmRegion q.word != r }
    let ns := (b.hm.waits.filter fun q => hmRegion q.word == r).map (·.word)
    (b.each ns.eraseDups Block.hmExamine).each held fun b q => b.hmServe q

/-- HMEM_SCRUB_DONE (R264). -/
def execHmemScrubDone (region : BitVec 10) (s : State) : Host.Outcome State Fault Refusal :=
  s.run fun b => b.hmScrubDone region.toNat

/-- Maps failing rows that no fuse entry covers to unused spares of their group: the spares in use, and the rows left
(R393). -/
def hmRepair (sp : List (Nat × Nat)) (bad : List Nat) : List Nat → List (Nat × Nat) × List Nat
  | [] => (sp, bad)
  | r :: t =>
    if sp.any fun e => e.2 == r then hmRepair sp bad t
    else match (List.range 256).find? fun i => !(sp.any fun e => e.1 == 256 * (r / 6144) + i) with
      | some i => hmRepair (sp ++ [(256 * (r / 6144) + i, r)]) bad t
      | none => hmRepair sp (bad ++ [r]) t

/-- HMEM_SELFTEST_DONE: every word is set to DATA 0, EMPTY, with W equal to its region's world; then hmem.ready (R256,
R393). -/
def Block.hmSelftest (b : Block) (failing : List Nat) : Block :=
  let d := b.dist.boot
  if !b.dist.mod.powered || !d.fuseDone || d.hmReady then b
  else
    let (sp, bad) := hmRepair d.spares [] (failing.filter fun r => decide (r < 24576))
    (b.mHm fun m => { m with
      words := [], fillN := ((m.regions.filter fun e => !e.2.world).map fun e => (e.1, true)) }).mDBoot fun d =>
        { d with spares := sp, hmUnrepaired := bad, hmReady := true }

/-- HMEM_SELFTEST_DONE (R256). -/
def execHmemSelftestDone (failing : List Nat) (s : State) : Host.Outcome State Fault Refusal :=
  s.run fun b => b.hmSelftest failing

end Sys2Proof.Machine
end

