-- ==== Sys2Proof/Machine/Jobs.lean ====
section
/-! DEFINITION. Job start at the distributors: ARM, COMMIT and ABORT on their way down, ARMED sums, and the job record of a
root (R133-R137, R144). -/

namespace Sys2Proof.Machine

open Sys2Proof

def Block.jobOf (b : Block) (j : BitVec 32) : Option Job := smGet none b.dist.objs.jobs j.toNat
def Block.mJob (b : Block) (j : BitVec 32) (f : Job → Job) : Block :=
  b.mObjs fun o => { o with jobs := smMod none o.jobs j.toNat fun x => some (f (x.getD {})) }

/-- ARMED received for a job on this plane. -/
def Job.armed (x : Job) : Nat := (x.kids.map (·.2)).foldl (· + ·) 0

/-- A job-start frame from the uplink goes to the group's ports (R156). -/
def Block.jobDown (b : Block) (n : Nat) (group : BitVec 16) (w : Bool) (body : FrameBody) (f : Block → Block) : Block :=
  if n < 288 then b
  else if 4096 ≤ group.toNat then b.dropBar
  else (f b).sendGroup group.toNat w body

/-- ARM_RECEIVE (R134): at a distributor it starts a new map of ports (R136). -/
def execArmReceive (l : LaneRef) (h : Hdr) (group : BitVec 16) (p : ArmMsg) (s : State) : Host.Outcome State Fault Refusal :=
  s.runLane l fun b => b.rx l h 1 0 false fun b =>
    match l with
    | .tsu _ => b.arm group p
    | .dist n => b.jobDown n group h.w (.arm group p) fun b =>
      b.mJob p.job fun _ => { group := group, tStart := p.tStart }

/-- COMMIT_RECEIVE (R135). -/
def execCommitReceive (l : LaneRef) (h : Hdr) (group : BitVec 16) (p : CommitMsg) (s : State) :
    Host.Outcome State Fault Refusal :=
  s.runLane l fun b => b.rx l h 1 0 false fun b =>
    match l with
    | .tsu _ => b.commit p
    | .dist n => b.jobDown n group h.w (.commit group p) fun b => b

/-- ABORT_RECEIVE (R135). -/
def execAbortReceive (l : LaneRef) (h : Hdr) (group : BitVec 16) (p : AbortMsg) (s : State) :
    Host.Outcome State Fault Refusal :=
  s.runLane l fun b => b.rx l h 1 0 false fun b =>
    match l with
    | .tsu _ => b.abort p
    | .dist n => b.jobDown n group h.w (.abort group p) fun b => b

/-- ARMED at a downward lane (R136): each port of a T1 counts once, each count is passed up as it comes, and a root sums. -/
def Block.armedRx (b : Block) (n : Nat) (h : Hdr) (group : BitVec 16) (job count : BitVec 32) : Block :=
  let c := b.childOf n
  let x := (b.jobOf job).getD {}
  if 288 ≤ n then b
  else if 4096 ≤ group.toNat then b.dropBar
  else if b.dRole = 1 ∧ smGet 0 x.kids c ≠ 0 then b
  else
    let b := b.mJob job fun x => { x with kids := smMod 0 x.kids c fun k => k + count.toNat }
    if b.dRole = 3 then b else b.sendUp h.w (.armed group job count)

/-- ARMED_RECEIVE (R136). -/
def execArmedReceive (n : Nat) (h : Hdr) (group : BitVec 16) (job count : BitVec 32) (s : State) :
    Host.Outcome State Fault Refusal :=
  s.runLane (.dist n) fun b => b.rx (.dist n) h 1 0 false fun b => b.armedRx n h group job count

/-- The LDIs of job.abort_list or mem.fence_list: N, then N entries of 2 bytes (R144, R429). -/
def ldiList (d : Bytes) : List (BitVec 16) :=
  (List.range (min (leAt d 0 2) 1016)).map fun i => BitVec.ofNat 16 (leAt d (2 + 2 * i) 2)

/-- The job record with command `cmd` (R136): a second ARM, and a second COMMIT or ABORT, of a job are ignored. -/
def Block.jobApply (b : Block) (cmd : Nat) (v : RecVals) : Byte × Block :=
  let id := BitVec.ofNat 32 (ofLE (v 1))
  let g := BitVec.ofNat 16 (ofLE (v 2))
  let t := BitVec.ofNat 64 (ofLE (v 3))
  let st := ((b.jobOf id).getD {}).state
  let b1 := b.mObjs fun o => { o with job := some id }
  if cmd = 1 then
    if (b.jobOf id).isSome then (caOK, b)
    else (caOK, (b1.mJob id fun _ => { group := g, tStart := t, state := 1 }).sendGroup g.toNat true
      (.arm g ⟨id, t, BitVec.ofNat 16 (ofLE (v 4))⟩))
  else if st = 2 ∨ st = 3 then (caOK, b)
  else if cmd = 2 then
    (caOK, (b1.mJob id fun x => { x with group := g, state := 2 }).sendGroup g.toNat true (.commit g ⟨id, t⟩))
  else
    (caOK, (b1.mJob id fun x => { x with group := g, state := 3 }).sendGroup g.toNat true (.abort g ⟨id, false, ldiList (v 6)⟩))

end Sys2Proof.Machine
end

