-- ==== Sys2Proof/Machine/Member.lean ====
section
/-! DEFINITION. Topology reports, admission, the membership epoch, fencing, and the distributor's draining and shadow
(R400-R405, R427-R431, R439, R440). -/

namespace Sys2Proof.Machine

open Sys2Proof

/-! ### Topology reports (R403) -/

/-- A TOPO_REPORT at a T1's port: kept, compared with the map (R426), and a fence of the port may clear (R430). -/
def Block.reportRx (b : Block) (n : Nat) (h : Hdr) (r : TopoReport) : Block :=
  if b.dRole ≠ 1 ∨ 256 ≤ n then b
  else
    let mapped : Bool := r.ldi != 0xFFFF && b.ldiMap r.ldi.toNat == b.portPda n
    b.mDBoot fun d =>
      let d := { d with
        reports := smPut none d.reports n (some (r, h.mepoch))
        mapDiff := if r.ldi != 0xFFFF && !mapped then sat1 d.mapDiff else d.mapDiff }
      match smGet none d.fencedPorts n with
      | some e => if r.admitted && newer h.mepoch e && mapped then { d with fencedPorts := smPut none d.fencedPorts n none } else d
      | none => d

/-- TOPO_REPORT_RECEIVE (R403). -/
def execTopoReportReceive (n : Nat) (h : Hdr) (r : TopoReport) (s : State) : Host.Outcome State Fault Refusal :=
  s.runLane (.dist n) fun b => b.rx (.dist n) h 5 3 false fun b => b.reportRx n h r

/-- topo.admitted_count (R403). -/
def Block.admittedCount (b : Block) : BitVec 32 :=
  if b.dRole = 1 then
    BitVec.ofNat 32 (b.dist.boot.reports.filter fun e => e.2.any fun x => x.1.admitted).length
  else BitVec.ofNat 32 ((b.dist.boot.sums.map fun e => e.2.toNat).foldl (· + ·) 0)

/-- TOPO_SUM_RECEIVE (R403): the last sum of each child. -/
def execTopoSumReceive (n : Nat) (h : Hdr) (admitted : BitVec 32) (s : State) : Host.Outcome State Fault Refusal :=
  s.runLane (.dist n) fun b => b.rx (.dist n) h 5 3 false fun b =>
    if b.dRole = 1 ∨ 288 ≤ n then b
    else b.mDBoot fun d => { d with sums := smPut 0 d.sums (b.childOf n) admitted }

/-- TOPO_SUM_SEND: the sum has changed, or 2^30 ticks have passed (R403). A root has no uplink. -/
def execTopoSumSend (s : State) : Host.Outcome State Fault Refusal :=
  s.run fun b => if b.dRole = 3 then b else b.sendUp true (.topoSum b.admittedCount)

/-! ### Epochs (R427-R431) -/

/-- A distributor adopts an epoch. -/
def Block.dAdopt (b : Block) (e : BitVec 32) : Block :=
  b.mDBoot fun d => { d with prev := d.ep, ep := e, adoptAt := b.dist.time.tc64 }

/-- A TSU adopts an epoch (R452). -/
def Block.tAdopt (b : Block) (e : BitVec 32) : Block :=
  b.mBoot fun t => { t with prev := t.ep, ep := e, adoptAt := b.tc, adoptCnt := sat1 t.adoptCnt }

/-- The ports of a T1 that a list of LDIs names, by its map or by the port's latest report (R430). -/
def Block.portsOf (b : Block) (ls : List (BitVec 16)) : List Nat :=
  (List.range 256).filter fun n =>
    ls.any fun l => b.ldiMap l.toNat == b.portPda n ||
      (match smGet none b.dist.boot.reports n with | some (r, _) => r.ldi == l && l != 0xFFFF | none => false)

/-- A FENCE is applied at a T1: its ports are fenced, and are missing at once in every open collective (R430). -/
def Block.fencePorts (b : Block) (f : FenceMsg) : Block :=
  if b.dRole ≠ 1 then b
  else
    (b.mDBoot fun d => { d with
      fencedPorts := (b.portsOf f.ldis).foldl (fun m n => smPut none m n (some f.epoch)) d.fencedPorts }).collFencePort

/-- The downward lanes that are UP. -/
def Block.upDown (b : Block) : List Nat := b.downLanes.filter fun n => b.up (.dist n)

/-- A FENCE with a newer epoch at a distributor: applied, adopted, stored and relayed (R429). -/
def Block.fenceDist (b : Block) (f : FenceMsg) : Block :=
  if !newer f.epoch b.dist.boot.ep then b
  else
    let b := ((b.fencePorts f).dAdopt f.epoch).mDBoot fun d => { d with stored := some f }
    b.each b.upDown fun b n => b.send (.dist n) true (.fence f)

/-- FENCE_RECEIVE_DIST (R429): from the uplink. -/
def execFenceReceiveDist (n : Nat) (h : Hdr) (f : FenceMsg) (s : State) : Host.Outcome State Fault Refusal :=
  s.runLane (.dist n) fun b => b.rx (.dist n) h 1 0 true fun b => if n < 288 then b else b.fenceDist f

/-- Hall operations that no wait slot awaits complete NOPATH at the fence; later responses are dropped (R273). -/
def Block.fenceHall (b : Block) : Block :=
  let mine := b.tsu.hall.out
  let b := b.mHall fun h => { h with out := [], gone := [] }
  (b.each mine fun b g => match hallSrc g.tag with
    | .dm n => (b.nopath).dmHallDone (n % 8) g.ha stNOPATH 0
    | _ => b).dmGo

/-- The die is fenced (R431). -/
def Block.fenceDie (b : Block) (e : BitVec 32) : Block :=
  let b := b.mBoot fun t => { t with fenced := true, fenceRx := true, fenceEp := e }
  let b := b.each (b.ctxsWhere fun x => x.st != .off && x.st != .stopping && x.st != .halt) fun b c =>
    b.halt c (fun f => { f with fenced := true }) true
  let b := b.each (List.range 16) Block.collCancel
  (b.fenceHall.mBoot fun t => { t with admitted := false, ldi := 0xFFFF }).sendTopo

/-- An accepted FENCE at the TSU (R431). -/
def Block.fenceTsu (b : Block) (f : FenceMsg) : Block :=
  if !newer f.epoch b.tsu.boot.ep then b
  else if f.ldis.contains b.tsu.boot.ldi then b.fenceDie f.epoch
  else b.tAdopt f.epoch

/-- FENCE_RECEIVE_TSU (R431). -/
def execFenceReceiveTsu (p : Plane) (h : Hdr) (f : FenceMsg) (s : State) : Host.Outcome State Fault Refusal :=
  s.run fun b => b.rx (.tsu p) h 1 0 true fun b => b.fenceTsu f

/-- The mem record at a root (R429): mem.command other than 1 applies nothing. -/
def Block.memApply (b : Block) (v : RecVals) : Byte × Block :=
  let e := BitVec.ofNat 32 (ofLE (v 1))
  if !newer e b.dist.boot.ep then (caRANGE, b)
  else (caOK, b.fenceDist ⟨e, false, ldiList (v 2)⟩)

/-! ### Admission (R405) -/

/-- The admit record. -/
def Block.admitApply (b : Block) (v : RecVals) : Byte × Block :=
  let t := b.tsu.boot
  let ldi := BitVec.ofNat 16 (ofLE (v 1))
  let e := BitVec.ofNat 32 (ofLE (v 2))
  if !(b.topoPass && t.hostReady && b.timeOk && !b.tsu.cat.defaulted && !t.admitted) then (caSTATE, b)
  else if ldi = 0xFFFF ∨ (t.fenced ∧ !newer e t.fenceEp) then (caRANGE, b)
  else
    (caOK, ((b.tAdopt e).mBoot fun t => { t with admitted := true, ldi := ldi, fenced := false }).sendTopo)

/-! ### Draining and shadow (R439, R440) -/

/-- A write of dist.drain. -/
def Block.drainWrite (b : Block) (v : Bool) : Block := b.mDBoot fun d => { d with draining := v }

/-- SHADOW_END: every accepted exchange has kept |θ| within its bound for dist.shadow seconds. -/
def execShadowEnd (s : State) : Host.Outcome State Fault Refusal :=
  s.run fun b =>
    let d := b.dist.boot
    if d.shadow && b.dist.servo.state == .locked &&
        decide ((1250000000 * b.catNat .dist 0x7150 2 : Int) ≤ Tick.diff b.dist.time.tc64 d.shadowAt) then
      b.mDBoot fun d => { d with shadow := false }
    else b

end Sys2Proof.Machine
end

