-- ==== Sys2Proof/Machine/Images.lean ====
section
/-! DEFINITION. Image delivery (R411-R420): a root's transmission, the cache slots of every distributor, targets, repair,
verification and two-phase activation. -/

namespace Sys2Proof.Machine

open Sys2Proof

/-! ### Images (R327, R329, R416) -/

/-- ITYPE, HVER, LEN, IMAGE_ID and GEN of a header. -/
def imgType (d : Bytes) : Nat := leAt d 4 2
def imgLen (d : Bytes) : Nat := leAt d 8 4
def imgId (d : Bytes) : BitVec 64 := BitVec.ofNat 64 (leAt d 20 8)
def imgGen (d : Bytes) : Nat := leAt d 28 4

/-- The header is in order; `dist` is what a Catalogue image must say of its unit (R329). -/
def imgHdrOk (d : Bytes) (dist : Option Bool) : Bool :=
  decide (36 ≤ d.length) && leAt d 0 4 == 0x4D495A48 && leAt d 6 2 == 1 &&
    (imgType d != 1 || match dist with | some v => ((leAt d 16 4) / 2 % 2 == 1) == v | none => true)

/-- The check word is right (R327). -/
def imgCrcOk (d : Bytes) : Bool := (crc32c (d.take (32 + imgLen d))).toNat == leAt d (32 + imgLen d) 4

/-- The first reason of R416 that an image read back gives; 0 none. -/
def imgVerify (dist : Bool) (unitId : BitVec 64) (st : ImgStart) (d : Bytes) : Nat :=
  if !imgHdrOk d (some dist) || imgType d != st.itype.toNat || imgId d != st.imageId then 2
  else if 36 + imgLen d ≠ st.total.toNat ∨ d.length ≠ st.total.toNat then 3
  else if !imgCrcOk d then 4
  else if sha256 d ≠ st.hash then 5
  else if imgType d = 1 ∧ imgId d ≠ 0 ∧ imgId d ≠ unitId then 6
  else 0

/-! ### Cache slots and ports -/

def Block.slotOf (b : Block) (i : Nat) : ImgSlot := smGet {} b.dist.slots i
def Block.mImgSlot (b : Block) (i : Nat) (f : ImgSlot → ImgSlot) : Block := b.mDist fun d => { d with slots := smMod {} d.slots i f }

/-- Block k of a cache slot. -/
def ImgSlot.blk (s : ImgSlot) (k : Nat) : Bytes := smGet [] s.blocks k

/-- The bytes of a cache slot. -/
def ImgSlot.bytes (s : ImgSlot) : Bytes := s.blocks.flatMap fun e => e.2

/-- The ports or children that a delivery goes to (R413). -/
def Block.imgPorts (b : Block) (target : Byte) (group : BitVec 16) : List Nat :=
  if target = 1 then (if b.dRole = 1 then [] else List.range 12) else b.groupPorts group.toNat

/-- Sends to a port whose lane is UP and whose replay buffer has room (R414). -/
def Block.imgPort (b : Block) (c : Nat) (body : FrameBody) : Block :=
  match b.childLane c with
  | some n => if (b.lane (.dist n)).link.replay.length < 256 then b.send (.dist n) true body else b
  | none => b

/-- Sends a frame of a delivery downward. -/
def Block.imgDown (b : Block) (s : ImgSlot) (body : FrameBody) : Block :=
  b.each (b.imgPorts s.start.target s.group) fun b c => b.imgPort c body

/-- Sends upward: a TSU on every UP lane whose plane delivered START, a distributor on its uplink, a root nowhere. -/
def Block.imgUp (b : Block) (u : UnitRef) (body : FrameBody) : Block :=
  match u with
  | .tsu =>
    let on (b : Block) (p : Plane) (y : Bool) := if y && b.up (.tsu p) then b.send (.tsu p) true body else b
    on (on b .A b.tsu.img.planeA) .B b.tsu.img.planeB
  | .dist => if b.dRole = 3 then b else b.sendUp true body

/-- Counts of a slot, summed (R413). -/
def Block.imgAdd (b : Block) (ih : Nat) (okn failn actn missn : Nat) : Block :=
  b.mImgSlot ih fun s => { s with
    okn := satAdd s.okn okn, failn := satAdd s.failn failn, actn := satAdd s.actn actn, missn := satAdd s.missn missn }

/-! ### Targets (R414-R418) -/

def ImgRx.addr (x : ImgRx) : ImgAddr := ⟨x.ih, 0, x.group, false⟩

/-- A target reports (R416, R417). -/
def Block.imgReport (b : Block) (u : UnitRef) (okn failn : Nat) : Block :=
  let x := b.imgOf u
  let b := if u = .dist then b.imgAdd x.ih.toNat okn failn 0 0 else b
  b.imgUp u (.imgReport x.addr (BitVec.ofNat 32 okn) (BitVec.ofNat 32 failn))

def Block.imgActed (b : Block) (u : UnitRef) (actn missn : Nat) : Block :=
  let x := b.imgOf u
  let b := if u = .dist then b.imgAdd x.ih.toNat 0 0 actn missn else b
  b.imgUp u (.imgActed x.addr (BitVec.ofNat 32 actn) (BitVec.ofNat 32 missn))

/-- The delivery ends FAILED. -/
def Block.imgFail (b : Block) (u : UnitRef) (reason : Byte) : Block :=
  (b.mImg u fun x => { x with st := 5, reason := reason }).imgReport u 0 1

/-- RECEIVING to CONFIRMED: a delivery in progress. -/
def ImgRx.busy (x : ImgRx) : Bool := decide (1 ≤ x.st ∧ x.st ≤ 4)

/-- ITYPEs a unit takes (R411). -/
def imgTakes (u : UnitRef) (itype : Nat) : Bool :=
  match u with
  | .tsu => itype == 1 || itype == 2 || itype == 4 || itype == 5
  | .dist => itype == 1 || itype == 3

/-- Blocks that a target still misses, lowest first. -/
def ImgRx.missing (x : ImgRx) : List Nat := (List.range x.start.nblk.toNat).filter fun k => !smGet false x.got k

/-- The unit's own identity. -/
def Block.unitIdOf (b : Block) (u : UnitRef) : BitVec 64 := match u with | .tsu => b.tsu.boot.unitId | .dist => b.dist.boot.unitId

/-- The flash slot that a distributor writes: 0 and 1 for the Catalogue, 2 and 3 for firmware (R411). -/
def Block.flashSlot (b : Block) (itype : Nat) : Nat := if itype = 3 then 3 - b.dist.fwUse else 1 - b.dist.cat.inUse

def Block.setFlash (b : Block) (slot : Nat) (d : Bytes) : Block :=
  (match slot with
   | 0 => b.mCat .dist fun c => { c with flash0 := d }
   | 1 => b.mCat .dist fun c => { c with flash1 := d }
   | 2 => b.mDist fun x => { x with fw0 := d }
   | _ => b.mDist fun x => { x with fw1 := d }).emit (.flash slot d)

/-- Every block is written and acknowledged: the image is verified. A distributor stages it in flash without its check
word; a TSU reads it back (R411, R416). -/
def Block.imgWhole (b : Block) (u : UnitRef) : Block :=
  let x := b.imgOf u
  if !(x.st == 1 || x.st == 2) || !x.missing.isEmpty || !x.writes.isEmpty then b
  else
    let b := b.mImg u fun x => { x with st := 3 }
    match u with
    | .tsu => b.emit (.hmRead (BitVec.ofNat 64 (b.catNat .tsu 0x7201 1)) x.start.total.toNat 17 true 3)
    | .dist =>
      let d := (b.slotOf x.ih.toNat).bytes
      b.setFlash (b.flashSlot x.start.itype.toNat) (d.take (d.length - 4))

/-- A new delivery begins at a target. -/
def Block.imgBegin (b : Block) (u : UnitRef) (a : ImgAddr) (p : ImgStart) (planeA planeB : Bool) : Block :=
  let b := b.mImg u fun x =>
    { ih := a.ih, group := a.group, start := p, st := 1, startAt := b.tcOf u, planeA := planeA, planeB := planeB
      dropped := x.dropped, next := x.next, prev := x.prev, taken := x.taken, untaken := x.untaken }
  if (b.imgOf u).untaken then b.imgFail u 9
  else if !imgTakes u p.itype.toNat then b.imgFail u 10
  else if u = .tsu ∧ (b.catNat .tsu 0x7201 2 = 0 ∨ b.catNat .tsu 0x7201 2 < p.total.toNat) then b.imgFail u 8
  else b.imgWhole u

/-- START at a target: another plane's copy, a replacement (reason 9), or a new delivery (R414). -/
def Block.imgStartRx (b : Block) (u : UnitRef) (a : ImgAddr) (p : ImgStart) (planeA planeB : Bool) : Block :=
  let x := b.imgOf u
  let both (b : Block) := b.mImg u fun x => { x with planeA := x.planeA || planeA, planeB := x.planeB || planeB }
  let seen := (planeA && x.planeA) || (planeB && x.planeB)
  if x.busy then
    if x.start.hash = p.hash then both b else (b.imgFail u 9).imgBegin u a p planeA planeB
  else if x.st ≠ 0 ∧ x.start = p ∧ x.ih = a.ih ∧ !seen then both b
  else b.imgBegin u a p planeA planeB

/-- A frame of the delivery in hand. -/
def ImgRx.mine (x : ImgRx) (a : ImgAddr) : Bool := x.st != 0 && x.ih == a.ih

/-- A block at a TSU: written to img.buf, at most 16 writes outstanding (R414). -/
def Block.imgBlockTsu (b : Block) (a : ImgAddr) (d : Bytes) : Block :=
  let x := b.tsu.img
  let k := a.block.toNat
  if !x.mine a || !(x.st == 1 || x.st == 2) || decide (x.start.nblk.toNat ≤ k) || smGet false x.got k then b
  else if b.tsu.boot.inCloak || decide (16 ≤ x.writes.length) then
    b.mImg .tsu fun x => { x with dropped := sat1 x.dropped }
  else
    (b.mImg .tsu fun x => { x with got := smPut false x.got k true, writes := x.writes ++ [k] }).emit
      (.hmWrite (BitVec.ofNat 64 (b.catNat .tsu 0x7201 1 + 2048 * k)) d 17 true 3)

/-- Consecutive numbers as ranges, at most 64 (R413). -/
def imgRanges (l : List Nat) : List (BitVec 16 × BitVec 16) :=
  ((l.foldl (fun (acc : List (Nat × Nat)) k => match acc with
    | (f, c) :: t => if f + c = k then (f, c + 1) :: t else (k, 1) :: acc
    | [] => [(k, 1)]) []).reverse.take 64).map fun e => (BitVec.ofNat 16 e.1, BitVec.ofNat 16 e.2)

/-- The blocks that children of a slot wait for and this distributor does not hold. -/
def ImgSlot.wanted (s : ImgSlot) : List Nat :=
  (List.range s.start.nblk.toNat).filter fun k => (s.waiters.any fun w => w.1 == k) && s.blk k == []

/-- Sends a NACK for what a unit misses, for itself and for its children, in each of its deliveries. -/
def Block.imgNack (b : Block) (u : UnitRef) : Block :=
  let x := b.imgOf u
  match u with
  | .tsu => if x.missing.isEmpty then b else b.imgUp u (.imgNack x.addr (imgRanges x.missing))
  | .dist =>
    b.each (List.range 4) fun b i =>
      let s := b.slotOf i
      let own := if x.ih.toNat = i ∧ x.st = 2 then x.missing else []
      let l := (List.range s.start.nblk.toNat).filter fun k => own.contains k || s.wanted.contains k
      if l.isEmpty then b else b.imgUp u (.imgNack ⟨BitVec.ofNat 8 i, 0, s.group, false⟩ (imgRanges l))

/-- IMG_END at a target: missing blocks are asked for at once (R415). -/
def Block.imgEndRx (b : Block) (u : UnitRef) : Block :=
  let x := b.imgOf u
  if x.st ≠ 1 ∨ x.ended then b
  else if x.missing.isEmpty then b.mImg u fun x => { x with ended := true }
  else (b.mImg u fun x => { x with ended := true, st := 2, rounds := 1, nackAt := b.tcOf u }).imgNack u

/-- IMG_NACK_TIMER: img.nack_int ticks have passed with blocks still missing; after img.nack_max rounds the target fails.
A distributor also asks for what its children wait for. -/
def Block.imgNackTimer (b : Block) (u : UnitRef) : Block :=
  let x := b.imgOf u
  if x.st = 2 then
    if Tick.diff (b.tcOf u) x.nackAt < b.catNat u 0x7220 1 ∨ x.missing.isEmpty then b
    else if b.catNat u 0x7220 2 ≤ x.rounds then b.imgFail u 1
    else (b.mImg u fun x => { x with rounds := x.rounds + 1, nackAt := b.tcOf u }).imgNack u
  else match u with
    | .tsu => b
    | .dist => b.imgNack u

def execImgNackTimer (u : UnitRef) (s : State) : Host.Outcome State Fault Refusal := s.run fun b => b.imgNackTimer u

/-- IMG_END_TIMEOUT: IMG_END never came. The interval, which no frame carries, is at least 64 ticks (R415, R422). -/
def execImgEndTimeout (u : UnitRef) (s : State) : Host.Outcome State Fault Refusal :=
  s.run fun b =>
    let x := b.imgOf u
    if Tick.diff (b.tcOf u) x.startAt < (x.start.nblk.toNat * 64 + b.catNat u 0x7220 1 : Nat) then b else b.imgEndRx u

/-- IMG_BLOCK_WRITE_ACK: the oldest block write is acknowledged; an error fails the delivery (R414, R416). -/
def execImgBlockWriteAck (resp : BitVec 2) (s : State) : Host.Outcome State Fault Refusal :=
  s.run fun b =>
    match b.tsu.img.writes with
    | [] => b
    | _ :: rest =>
      let b := b.mImg .tsu fun x => { x with writes := rest }
      if !(b.tsu.img.st == 1 || b.tsu.img.st == 2) then b
      else if resp ≠ 0 then b.imgFail .tsu 7 else b.imgWhole .tsu

/-- IMG_VERIFY_DONE (R416). -/
def execImgVerifyDone (u : UnitRef) (resp : BitVec 2) (img : Bytes) (s : State) : Host.Outcome State Fault Refusal :=
  s.run fun b =>
    let x := b.imgOf u
    if x.st ≠ 3 then b
    else if resp ≠ 0 then b.imgFail u 7
    else match imgVerify (u == .dist) (b.unitIdOf u) x.start img with
      | 0 => (b.mImg u fun x => { x with st := 4 }).imgReport u 1 0
      | r => b.imgFail u (BitVec.ofNat 8 r)

/-- COMMIT at a target (R417). -/
def Block.imgCommitRx (b : Block) (u : UnitRef) (tAct : Tick) : Block :=
  let x := b.imgOf u
  if x.st ≠ 4 ∨ x.tAct.isSome then b
  else if Tick.le (b.tcOf u) tAct then b.mImg u fun x => { x with tAct := some tAct }
  else (b.mImg u fun x => { x with st := 7 }).imgActed u 0 1

/-- IMG_ACTIVATE: at T_ACT img.next moves into img.prev and takes IMAGE_ID; a distributor writes the check word (R411,
R417). -/
def Block.imgActivate (b : Block) (u : UnitRef) : Block :=
  let x := b.imgOf u
  match x.tAct with
  | none => b
  | some t =>
    if x.st ≠ 4 ∨ !Tick.le t (b.tcOf u) then b
    else
      let i := x.start.itype.toNat
      let b := b.mImg u fun x => { x with
        st := 6, prev := smPut 0 x.prev i (smGet 0 x.next i), next := smPut 0 x.next i x.start.imageId
        taken := false, untaken := u == .tsu }
      let b := if u = .dist then b.setFlash (b.flashSlot i) (b.slotOf x.ih.toNat).bytes else b
      b.imgActed u 1 0

def execImgActivate (u : UnitRef) (s : State) : Host.Outcome State Fault Refusal := s.run fun b => b.imgActivate u

/-- ROLLBACK at a target: an activated image's img.next is restored, and a distributor clears the check word (R411, R417). -/
def Block.imgRollbackRx (b : Block) (u : UnitRef) : Block :=
  let x := b.imgOf u
  let i := x.start.itype.toNat
  if x.st = 0 ∨ x.st = 8 then b
  else if x.st = 6 then
    let d := (b.slotOf x.ih.toNat).bytes
    let b := b.mImg u fun x => { x with st := 8, tAct := none, next := smPut 0 x.next i (smGet 0 x.prev i), untaken := false }
    if u = .dist then b.setFlash (b.flashSlot i) (d.take (d.length - 4)) else b
  else b.mImg u fun x => { x with st := 8, tAct := none }

/-! ### Receiving (R413-R417) -/

/-- A distributor is itself a target of a delivery with TARGET 1. -/
def Block.imgSelf (b : Block) (ih : Nat) : Bool := (b.slotOf ih).start.target == 1

/-- A slot is free again once COMMIT or ROLLBACK has passed and every child has reported (R419). -/
def Block.imgFree (b : Block) (i : Nat) : Block :=
  let s := b.slotOf i
  let ps := b.imgPorts s.start.target s.group
  if s.closed && ps.all fun c => (smGet (0, 0, 0, 0) s.childs c) != (0, 0, 0, 0) then b.mImgSlot i fun s => { s with used := false }
  else b

/-- A frame of a delivery from the uplink: `f` keeps what the slot holds, then it goes on downward. -/
def Block.imgRelay (b : Block) (n : Nat) (a : ImgAddr) (f : Block → Block) (body : FrameBody) : Block :=
  if n < 288 ∨ 4 ≤ a.ih.toNat then b
  else
    let b := f b
    b.imgDown (b.slotOf a.ih.toNat) body

/-- IMG_START_RECEIVE (R414, R419). -/
def execImgStartReceive (l : LaneRef) (h : Hdr) (a : ImgAddr) (p : ImgStart) (s : State) : Host.Outcome State Fault Refusal :=
  s.runLane l fun b => b.rx l h 6 3 false fun b =>
    match l with
    | .tsu pl => if p.target = 0 then b.imgStartRx .tsu a p (pl == .A) (pl == .B) else b
    | .dist n =>
      if p.target ≠ 1 ∧ 4096 ≤ a.group.toNat then b.dropBar
      else
        let b := b.imgRelay n a
          (fun b => b.mImgSlot a.ih.toNat fun _ => { used := true, group := a.group, start := p }) (.imgStart a p)
        if 288 ≤ n ∧ a.ih.toNat < 4 ∧ p.target = 1 then b.imgStartRx .dist a p true false else b

/-- A block at a distributor: kept, forwarded to the group, or as a repair to the ports that wait for it; as a target it
counts it (R414, R415). -/
def Block.imgBlockDist (b : Block) (n : Nat) (a : ImgAddr) (d : Bytes) : Block :=
  let i := a.ih.toNat
  let k := a.block.toNat
  let s := b.slotOf i
  if n < 288 ∨ 4 ≤ i ∨ s.start.nblk.toNat ≤ k ∨ !s.used then b
  else
    let b := b.mImgSlot i fun s => { s with blocks := smPut [] s.blocks k d, waiters := s.waiters.filter fun w => w.1 != k }
    let b := if a.repair then
        b.each (s.waiters.filter fun w => w.1 == k) fun b w => b.send (.dist w.2) true (.imgBlock a d)
      else b.imgDown s (.imgBlock a d)
    let x := b.dist.img
    if b.imgSelf i && x.mine a && (x.st == 1 || x.st == 2) then
      (b.mImg .dist fun x => { x with got := smPut false x.got k true }).imgWhole .dist
    else b

/-- IMG_BLOCK_RECEIVE (R414). -/
def execImgBlockReceive (l : LaneRef) (h : Hdr) (a : ImgAddr) (data : Bytes) (s : State) : Host.Outcome State Fault Refusal :=
  s.runLane l fun b => b.rx l h 6 3 false fun b =>
    match l with
    | .tsu _ => b.imgBlockTsu a data
    | .dist n => b.imgBlockDist n a data

/-- IMG_END_RECEIVE (R415). -/
def execImgEndReceive (l : LaneRef) (h : Hdr) (a : ImgAddr) (nblk : BitVec 16) (s : State) : Host.Outcome State Fault Refusal :=
  s.runLane l fun b => b.rx l h 6 3 false fun b =>
    match l with
    | .tsu _ => if b.tsu.img.mine a then b.imgEndRx .tsu else b
    | .dist n =>
      let b := b.imgRelay n a (fun b => b.mImgSlot a.ih.toNat fun s => { s with ended := true }) (.imgEnd a nblk)
      if 288 ≤ n && b.imgSelf a.ih.toNat && b.dist.img.mine a then b.imgEndRx .dist else b

/-- The block numbers of a NACK's ranges, within the delivery. -/
def imgAsked (nblk : Nat) (rs : List (BitVec 16 × BitVec 16)) : List Nat :=
  (List.range nblk).filter fun k => rs.any fun r => decide (r.1.toNat ≤ k) && decide (k < r.1.toNat + r.2.toNat)

/-- IMG_NACK at a parent: what it holds goes back marked REPAIR, the rest waits (R415). -/
def Block.imgNackRx (b : Block) (n : Nat) (a : ImgAddr) (rs : List (BitVec 16 × BitVec 16)) : Block :=
  let i := a.ih.toNat
  let s := b.slotOf i
  if 288 ≤ n ∨ 4 ≤ i ∨ !s.used then b
  else b.each (imgAsked s.start.nblk.toNat rs) fun b k =>
    let d := s.blk k
    if d = [] then b.mImgSlot i fun s => { s with waiters := if s.waiters.contains (k, n) then s.waiters else s.waiters ++ [(k, n)] }
    else b.send (.dist n) true (.imgBlock ⟨a.ih, BitVec.ofNat 16 k, s.group, true⟩ d)

/-- IMG_NACK_RECEIVE (R415). -/
def execImgNackReceive (n : Nat) (h : Hdr) (a : ImgAddr) (ranges : List (BitVec 16 × BitVec 16)) (s : State) :
    Host.Outcome State Fault Refusal :=
  s.runLane (.dist n) fun b => b.rx (.dist n) h 6 3 false fun b => b.imgNackRx n a ranges

/-- Counts from a child: summed, kept by child, and passed up as they come (R413, R136). A T1 takes each port's report
once. -/
def Block.imgSum (b : Block) (n : Nat) (a : ImgAddr) (okn failn actn missn : BitVec 32) (body : FrameBody) : Block :=
  let i := a.ih.toNat
  let c := b.childOf n
  let s := b.slotOf i
  let (o, f, ac, m) := smGet (0, 0, 0, 0) s.childs c
  let again : Bool := b.dRole == 1 && (if okn != 0 || failn != 0 then o != 0 || f != 0 else ac != 0 || m != 0)
  if 288 ≤ n ∨ 4 ≤ i ∨ again then b
  else
    let b := (b.imgAdd i okn.toNat failn.toNat actn.toNat missn.toNat).mImgSlot i fun s => { s with
      childs := smPut (0, 0, 0, 0) s.childs c (o + okn, f + failn, ac + actn, m + missn) }
    ((if b.dRole = 3 then b else b.sendUp true body)).imgFree i

/-- IMG_REPORT_RECEIVE (R413). -/
def execImgReportReceive (n : Nat) (h : Hdr) (a : ImgAddr) (okn failn : BitVec 32) (s : State) :
    Host.Outcome State Fault Refusal :=
  s.runLane (.dist n) fun b => b.rx (.dist n) h 6 3 false fun b => b.imgSum n a okn failn 0 0 (.imgReport a okn failn)

/-- IMG_ACTED_RECEIVE (R413). -/
def execImgActedReceive (n : Nat) (h : Hdr) (a : ImgAddr) (actn missn : BitVec 32) (s : State) :
    Host.Outcome State Fault Refusal :=
  s.runLane (.dist n) fun b => b.rx (.dist n) h 6 3 false fun b => b.imgSum n a 0 0 actn missn (.imgActed a actn missn)

/-- IMG_COMMIT_RECEIVE (R417). -/
def execImgCommitReceive (l : LaneRef) (h : Hdr) (a : ImgAddr) (tAct : BitVec 64) (s : State) :
    Host.Outcome State Fault Refusal :=
  s.runLane l fun b => b.rx l h 6 3 false fun b =>
    match l with
    | .tsu _ => if b.tsu.img.mine a then b.imgCommitRx .tsu tAct else b
    | .dist n =>
      let b := b.imgRelay n a (fun b => (b.mImgSlot a.ih.toNat fun s => { s with closed := true }).imgFree a.ih.toNat) (.imgCommit a tAct)
      if 288 ≤ n && b.imgSelf a.ih.toNat && b.dist.img.mine a then b.imgCommitRx .dist tAct else b

/-- IMG_ROLLBACK_RECEIVE (R417). -/
def execImgRollbackReceive (l : LaneRef) (h : Hdr) (a : ImgAddr) (s : State) : Host.Outcome State Fault Refusal :=
  s.runLane l fun b => b.rx l h 6 3 false fun b =>
    match l with
    | .tsu _ => if b.tsu.img.mine a then b.imgRollbackRx .tsu else b
    | .dist n =>
      let b := b.imgRelay n a (fun b => (b.mImgSlot a.ih.toNat fun s => { s with closed := true }).imgFree a.ih.toNat) (.imgRollback a)
      if 288 ≤ n && b.imgSelf a.ih.toNat && b.dist.img.mine a then b.imgRollbackRx .dist else b

/-! ### A root's transmission (R412, R417) -/

def Block.mTx (b : Block) (i : Nat) (f : ImgTx → ImgTx) : Block := b.mDist fun d => { d with tx := smMod {} d.tx i f }

/-- Bytes in blocks of 2,048. -/
def imgBlocks : Nat → Bytes → List Bytes
  | 0, _ => []
  | n + 1, d => if d.isEmpty then [] else d.take 2048 :: imgBlocks n (d.drop 2048)

/-- img.tx with command START: the slot is checked, and IMG_START sent (R412). -/
def Block.imgTxStart (b : Block) (v : RecVals) : Byte × Block :=
  let i := ofLE (v 1)
  let s := b.slotOf i
  let all := s.bytes
  let n := 36 + imgLen all
  let d := if n ≤ 67108864 then slice all 0 n else all
  if !imgHdrOk d none || decide (67108864 < n) || !imgCrcOk d || sha256 d != slice (v 4) 0 32 then (caRECORD, b)
  else
    let bl := imgBlocks 32768 d
    let p : ImgStart := ⟨imgId d, BitVec.ofNat 32 d.length, BitVec.ofNat 16 bl.length, BitVec.ofNat 8 (imgType d),
      BitVec.ofNat 8 (ofLE (v 3)), sha256 d⟩
    let g := BitVec.ofNat 16 (ofLE (v 2))
    let a : ImgAddr := ⟨BitVec.ofNat 8 i, 0, g, false⟩
    let b := b.mImgSlot i fun _ => { used := true, group := g, start := p, blocks := (List.range bl.length).zip bl }
    let b := b.mTx i fun _ => { active := true, startAt := b.dist.time.tc64, next := 0, interval := BitVec.ofNat 16 (ofLE (v 5)) }
    let b := b.imgDown (b.slotOf i) (.imgStart a p)
    if p.target = 1 then
      let b := b.imgStartRx .dist a p true false
      (caOK, (if b.dist.img.st = 1 then b.mImg .dist fun x => { x with got := (List.range bl.length).map fun k => (k, true) } else b).imgWhole
        .dist)
    else (caOK, b)

/-- What a transmission sends next is due: block k at START + 256 + k × interval, then IMG_END one interval later (R412). -/
def Block.imgTxNext (b : Block) (i : Nat) : Block :=
  let t := smGet {} b.dist.tx i
  let s := b.slotOf i
  let n := s.start.nblk.toNat
  let at_ : Tick := t.startAt + BitVec.ofNat 64 (256 + t.next * t.interval.toNat)
  if !t.active || !Tick.le at_ b.dist.time.tc64 then b
  else if t.next < n then
    (b.mTx i fun t => { t with next := t.next + 1 }).imgDown s
      (.imgBlock ⟨BitVec.ofNat 8 i, BitVec.ofNat 16 t.next, s.group, false⟩ (s.blk t.next))
  else
    ((b.mTx i fun _ => {}).mImgSlot i fun s => { s with ended := true }).imgDown s
      (.imgEnd ⟨BitVec.ofNat 8 i, 0, s.group, false⟩ s.start.nblk)

/-- IMG_BLOCK_SEND (R412). -/
def execImgBlockSend (s : State) : Host.Outcome State Fault Refusal := s.run fun b => b.each (List.range 4) Block.imgTxNext

/-- img.tx with command COMMIT: T_ACT at least 62,500 ticks ahead (R417). -/
def Block.imgTxCommit (b : Block) (v : RecVals) : Byte × Block :=
  let i := ofLE (v 1)
  let t := BitVec.ofNat 64 (ofLE (v 6))
  let a : ImgAddr := ⟨BitVec.ofNat 8 i, 0, (b.slotOf i).group, false⟩
  if Tick.diff t b.dist.time.tc64 < 62500 then (caRANGE, b)
  else
    let b := (b.imgDown (b.slotOf i) (.imgCommit a t)).mImgSlot i fun s => { s with closed := true }
    (caOK, (if b.imgSelf i && b.dist.img.mine a then b.imgCommitRx .dist t else b).imgFree i)

/-- img.tx with command ROLLBACK (R417): a transmission in progress ends. -/
def Block.imgTxRollback (b : Block) (v : RecVals) : Byte × Block :=
  let i := ofLE (v 1)
  let a : ImgAddr := ⟨BitVec.ofNat 8 i, 0, (b.slotOf i).group, false⟩
  let b := ((b.mTx i fun _ => {}).imgDown (b.slotOf i) (.imgRollback a)).mImgSlot i fun s => { s with closed := true }
  (caOK, (if b.imgSelf i && b.dist.img.mine a then b.imgRollbackRx .dist else b).imgFree i)

/-- The img.tx record; a command other than 1, 2 and 3 applies nothing. -/
def Block.imgTxApply (b : Block) (cmd : Nat) (v : RecVals) : Byte × Block :=
  if cmd = 1 then b.imgTxStart v else if cmd = 2 then b.imgTxCommit v else b.imgTxRollback v

end Sys2Proof.Machine
end

