-- ==== Sys2Proof/Machine/ModuleOps.lean ====
section
/-! DEFINITION. The HZM-288 module and the Curator: power, thermal and cage events, start-up of the distributor, health
measures, buckets and congestion (R398, R442-R449, R456-R466). -/

namespace Sys2Proof.Machine

open Sys2Proof

/-! ### Power (R398, R463, R465) -/

/-- A distributor without power: what flash holds, and the status that AON holds, stay. -/
def Dist.dark (d : Dist) (m : Module) : Dist :=
  { mod := m
    img := { next := d.img.next, prev := d.img.prev }
    fw0 := d.fw0, fw1 := d.fw1
    cat := { flash0 := d.cat.flash0, flash1 := d.cat.flash1 } }

/-- Every rail but AON is removed (R463). -/
def Block.modShut (b : Block) (f : Module → Module) : Block :=
  let m := b.dist.mod
  b.mDist fun d => d.dark (f { uvWarn := m.uvWarn, ov := m.ov, thermWarn := m.thermWarn, thermTrip := m.thermTrip,
                               tripped := m.tripped, cageLimit := m.cageLimit, tjMax := m.tjMax, vIn := m.vIn })

/-- Start of R398: rails come up. Input power and voltage are measured: free values (log entry 42). -/
def Block.modStart (b : Block) : Block :=
  if b.dist.mod.powered || b.dist.mod.tripped then b
  else
    let (v, b) := b.draw
    let (p, b) := b.draw
    b.mMod fun m => { m with powered := true, inOk := true, vIn := v.setWidth 16, pIn := p.setWidth 16 }

/-- DIST_POWER_UP: the input rises through 39 V (R398, R463). -/
def execDistPowerUp (s : State) : Host.Outcome State Fault Refusal := s.run Block.modStart

/-- INPUT_RECOVERED: the input is back within 40 to 60 V for 100 ms (R463). -/
def execInputRecovered (s : State) : Host.Outcome State Fault Refusal := s.run fun b => b.modStart

/-- INPUT_UNDERVOLTAGE: below 40 V for 1 ms, or above 62 V (R463); `v` is in units of 10 mV. -/
def execInputUndervoltage (v : BitVec 16) (s : State) : Host.Outcome State Fault Refusal :=
  s.run fun b =>
    if !b.dist.mod.powered then b
    else if v.toNat < 4000 then b.modShut fun m => { m with uvWarn := true, vIn := v }
    else if 6200 < v.toNat then b.modShut fun m => { m with ov := true, vIn := v }
    else b.mMod fun m => { m with vIn := v }

/-- INPUT_OFF: below 38 V AON goes too, and with it a trip (R463, R465). -/
def execInputOff (s : State) : Host.Outcome State Fault Refusal := s.run fun b => b.mDist fun d => d.dark {}

/-- THERM_WARN: the junction is above 100 °C; every uplink lane counts as FAIL (R444, R465). -/
def execThermWarn (tj : BitVec 8) (s : State) : Host.Outcome State Fault Refusal :=
  s.run fun b =>
    if !b.dist.mod.powered || decide (tj.toNat ≤ 100) then b
    else (b.mMod fun m => { m with thermWarn := true, tjMax := tj }).each (List.range 24) Block.predict

/-- THERM_TRIP: above 115 °C for 1 ms; restarts only after a power cycle (R465). -/
def execThermTrip (tj : BitVec 8) (s : State) : Host.Outcome State Fault Refusal :=
  s.run fun b =>
    if !b.dist.mod.powered || decide (tj.toNat ≤ 115) then b
    else b.modShut fun m => { m with thermTrip := true, tripped := true, tjMax := tj }

/-- CAGE_LIMIT: the lanes of the disabled cages go DOWN (R464, R468). -/
def execCageLimit (lanes : List Nat) (s : State) : Host.Outcome State Fault Refusal :=
  s.run fun b =>
    if !b.dist.mod.powered then b
    else
      (b.mMod fun m => { m with cageLimit := true }).each (lanes.filter fun n => decide (n < 312)) fun b n =>
        (b.laneDown (.dist n)).mReg (.dist n) fun r => { r with cageOff := true }

/-- OCXO_WARM (R398 step 6). -/
def execOcxoWarm (s : State) : Host.Outcome State Fault Refusal :=
  s.run fun b => if b.dist.mod.powered then b.mMod fun m => { m with ocxoWarm := true } else b

/-- FIRMWARE_BOOT_DONE (R398 step 3). -/
def execFirmwareBootDone (s : State) : Host.Outcome State Fault Refusal :=
  s.run fun b => if b.dist.mod.powered && b.dist.boot.fuseDone then b.mDBoot fun d => { d with fwBooted := true } else b

/-! ### The Curator (R442-R444) -/

/-- A measure's state and its run of good updates after one more update (R443). -/
def measState (st : BitVec 2) (run : Nat) (warn fail : Bool) : BitVec 2 × Nat :=
  if fail then (2, 0) else if warn then (1, 0) else if 4 ≤ run + 1 then (0, run + 1) else (st, run + 1)

/-- The thresholds EYE_WARN, EYE_FAIL, RES_WARN and RES_FAIL of a unit (R443, R452). -/
def Block.hlthThr (b : Block) (u : UnitRef) : Nat × Nat × Nat × Nat :=
  match u with
  | .tsu => let h := b.tsu.hlth; (h.eyeWarn.toNat, h.eyeFail.toNat, h.resWarn.toNat, h.resFail.toNat)
  | .dist => (b.catNat .dist 0x7001 1, b.catNat .dist 0x7001 2, b.catNat .dist 0x7001 3, b.catNat .dist 0x7001 4)

/-- WARN and FAIL are set when a measure enters the state (R452). -/
def LaneHealth.enter (h : LaneHealth) (old new : BitVec 2) : LaneHealth :=
  { h with warn := h.warn || (new == 1 && old != 1), fail := h.fail || (new == 2 && old != 2) }

def Block.mHealth (b : Block) (l : LaneRef) (f : LaneHealth → LaneHealth) : Block := b.mLane l fun x => { x with health := f x.health }

/-- PREDICT_FAIL of a lane's privileged channel follows its measures. -/
def Block.predictLane (b : Block) (l : LaneRef) : Block := match laneChan l with | some c => b.predict c | none => b

/-- A new value of EYE. -/
def Block.eyeUpdate (b : Block) (l : LaneRef) (v : Byte) : Block :=
  let t := b.hlthThr (laneUnit l)
  (b.mHealth l fun h =>
    let r := measState h.eyeSt h.eyeRun (decide (v.toNat < t.1)) (decide (v.toNat < t.2.1))
    { (h.enter h.eyeSt r.1) with
      eye := v, eyeLow := if v.toNat < h.eyeLow.toNat then v else h.eyeLow, eyeSt := r.1, eyeRun := r.2 }).predictLane l

/-- A new value of RES. -/
def Block.resUpdate (b : Block) (l : LaneRef) (v : BitVec 16) : Block :=
  let t := b.hlthThr (laneUnit l)
  (b.mHealth l fun h =>
    let r := measState h.resSt h.resRun (decide (t.2.2.1 < v.toNat)) (decide (t.2.2.2 < v.toNat))
    { (h.enter h.resSt r.1) with res := v, resSt := r.1, resRun := r.2 }).predictLane l

/-- A new value of OPT_RX, signed. -/
def Block.optUpdate (b : Block) (n : Nat) (v : BitVec 16) : Block :=
  let thr (sub : Nat) : Int := (BitVec.ofNat 16 (b.catNat .dist 0x7001 sub)).toInt
  (b.mHealth (.dist n) fun h =>
    let r := measState h.optSt h.optRun (decide (v.toInt < thr 5)) (decide (v.toInt < thr 6))
    { (h.enter h.optSt r.1) with opt := v, optSt := r.1, optRun := r.2 }).predictLane (.dist n)

/-- A new value of REF_RES of a root's candidate. -/
def Block.refUpdate (b : Block) (c : Nat) (v : BitVec 16) : Block :=
  let t := b.hlthThr .dist
  let q := b.dist.curator
  let r := measState (smGet 0 q.refSt c) (smGet 0 q.refRun c) (decide (t.2.2.1 < v.toNat)) (decide (t.2.2.2 < v.toNat))
  (b.mDist fun d => { d with curator := { d.curator with
    refRes := smPut 0 d.curator.refRes c v, refSt := smPut 0 d.curator.refSt c r.1, refRun := smPut 0 d.curator.refRun c r.2 } }).predict
      (24 + c)

/-- OPT_RX exists on lanes with module optics, REF_RES at a root (R442, R467). -/
def Block.curate (b : Block) (m : Measure) : Block :=
  match m with
  | .eye l v => if l.ok then b.eyeUpdate l v else b
  | .res l v => if l.ok then b.resUpdate l v else b
  | .optRx n v => if n < 312 ∧ Config.media n then b.optUpdate n v else b
  | .refRes c v => if c.toNat < 6 ∧ b.dRole = 3 then b.refUpdate c.toNat v else b

/-- CURATOR_UPDATE (R442, R443). -/
def execCuratorUpdate (m : Measure) (s : State) : Host.Outcome State Fault Refusal := s.run fun b => b.curate m

/-- BUCKET_LEAK: every 2^30 ticks each bucket loses health.leak (R444). -/
def execBucketLeak (s : State) : Host.Outcome State Fault Refusal :=
  s.run fun b =>
    let leak := b.catNat .dist 0x7002 6
    (b.mDist fun d => { d with curator := { d.curator with
      buckets := smMap 0 (fun (x : BitVec 32) => BitVec.ofNat 32 (x.toNat - leak)) d.curator.buckets } }).each
        (List.range 30) Block.predict

/-! ### Congestion (R449) -/

/-- cong.where (R453). -/
def congCode : CongWhere → BitVec 16
  | .lane n c => (c ++ n).setWidth 16
  | .slice s => (s ++ (1 : BitVec 1) ++ (0 : BitVec 12)).setWidth 16

/-- CONGESTION_WINDOW (R449). -/
def execCongestionWindow (w : CongMeasure) (s : State) : Host.Outcome State Fault Refusal :=
  s.run fun b =>
    let hot := w.stalls.filter fun x => decide (b.catNat .dist 0x7140 2 * 2 ^ 20 < 256 * x.2)
    b.mDist fun d => { d with curator :=
      let q := d.curator
      match hot with
      | x :: _ => { q with congested := true, below := 0, where_ := if q.congested then q.where_ else congCode x.1 }
      | [] => if 4 ≤ q.below + 1 then { q with congested := false, below := 0 } else { q with below := q.below + 1 } }

end Sys2Proof.Machine
end

