-- ==== Sys2Proof/Machine/CatEntry.lean ====
section
/-! DEFINITION. The entries of a unit's Catalogue: which exist, who may reach them, what values they take and what they
read as (R308-R312, R316, R469, and the tables of the chapters). -/

namespace Sys2Proof.Machine

open Sys2Proof

/-! ### Which entries exist (R308, R310, R315) -/

/-- Whether a unit holds the entries of a table marked `w`. -/
def Block.catHolds (b : Block) (u : UnitRef) : CatWho → Bool
  | .both => true
  | .tsu => u == .tsu
  | .dist => u == .dist
  | .t1 => u == .dist && b.dRole == 1
  | .root => u == .dist && b.dRole == 3

/-- The table index of an index: the lanes of a distributor share one table. -/
def catIndex (idx : Nat) : Nat := if 0xA000 ≤ idx ∧ idx < 0xA000 + 312 then 0xA000 else idx

/-- The rows of an index that the unit holds. -/
def Block.catRowsOf (b : Block) (u : UnitRef) (idx : Nat) : List CatEnt :=
  catRows.filter fun e => e.index == catIndex idx && b.catHolds u e.who

/-- The commit sub-index of a record (R313). -/
def catCommitSub : Nat → Nat
  | 0x3010 => 5
  | 0x3210 => 7
  | 0x3220 => 3
  | 0x4010 => 6
  | 0x7102 => 3
  | 0x7130 => 3
  | 0x7210 => 7
  | 0x8010 => 5
  | _ => 0xFF

/-- What an index and sub-index name at a unit: nothing, sub-index 0 of a record with its highest field, a commit
sub-index of 0xFF, or an entry. -/
inductive CatFind where
  | noobj
  | nosub
  | record (hi : Nat)
  | commit
  | ent (e : CatEnt)
  deriving DecidableEq, Repr

/-- Index `idx` is a record at the unit. -/
def Block.catIsRecord (b : Block) (u : UnitRef) (idx : Nat) : Bool := (b.catRowsOf u idx).any fun e => decide (0 < e.subHi)

def Block.catFind (b : Block) (u : UnitRef) (idx sub : Nat) : CatFind :=
  let rs := b.catRowsOf u idx
  if rs.isEmpty then .noobj
  else if b.catIsRecord u idx ∧ sub = 0 then .record (rs.foldl (fun m e => max m e.subHi) 0)
  else match rs.find? fun e => decide (e.subLo ≤ sub) && decide (sub ≤ e.subHi) with
    | some e => .ent e
    | none => if b.catIsRecord u idx ∧ sub = 0xFF ∧ catCommitSub idx = 0xFF then .commit else .nosub

/-! ### Rights (R310, R338, R355) -/

/-- The Gauntlet raises this entry: a raise entry with VALID names the index, and the sub-index or ALL. -/
def Block.catRaised (b : Block) (idx sub : Nat) : Bool :=
  b.tsu.gnt.raise.any fun e =>
    let w := e.2
    w.getLsbD 31 && (w.extractLsb' 0 16).toNat == idx && (w.getLsbD 24 || (w.extractLsb' 16 8).toNat == sub)

/-- The right of an entry as it stands: raised RW acts as RWS, and timebase.epoch is RO except at a root. -/
def Block.catAcc (b : Block) (u : UnitRef) (idx sub : Nat) (e : CatEnt) : CatAcc :=
  if idx = 0x2001 ∧ !(u = .dist ∧ b.dRole = 3) then .ro
  else if e.acc = .rw ∧ u = .tsu ∧ b.catRaised idx sub then .rws
  else e.acc

/-- Why a read is refused. -/
def catNoRead (q : CatReq) (a : CatAcc) : Option Byte :=
  if q.priv = 0 then some caDENIED
  else match a with
    | .wo => some caWRITEONLY
    | .so => if q.secure then none else some caDENIED
    | _ => none

/-- Why a write is refused. -/
def catNoWrite (q : CatReq) (a : CatAcc) : Option Byte :=
  if q.priv = 0 then some caDENIED
  else match a with
    | .const => some caREADONLY
    | .ro => some caREADONLY
    | .rws => if q.secure then none else some caDENIED
    | .so => if q.secure then none else some caDENIED
    | _ => none

/-- A refused non-secure write is a Gauntlet violation, at a TSU (R310, R339). -/
def Block.catViolate (b : Block) (q : CatReq) (idx sub : Nat) : Block :=
  match q.unit with
  | .tsu => b.violate 7 (catReqAttr q) true (BitVec.ofNat 64 (256 * idx + sub))
  | .dist => b

/-! ### Values (R309 and the tables) -/

/-- The greatest and least value of an unsigned entry whose table states a range, or whose mirror is narrower than the
entry. -/
def Block.catLimits (b : Block) (u : UnitRef) (idx sub : Nat) : Option (Nat × Nat) :=
  match catIndex idx, sub with
  | 0x1113, _ => some (0x100, 0xFFFF)
  | 0x1040, 2 => some (0, 128)
  | 0x1040, 4 => some (0, 32)
  | 0x1040, 5 => some (0, 4094)
  | 0x1101, 2 => some (0, 15)
  | 0x1102, 2 => some (0, 15)
  | 0xA000, 2 => some (0, 15)
  | 0x2101, _ => some (0, 1)
  | 0x2103, _ => some (0, 1)
  | 0x2104, 1 => some (0, 219902326)
  | 0x2104, 2 => some (if u = .tsu then (6, 12) else if b.dRole = 3 then (0, 6) else (4, 11))
  | 0x2104, 5 => some (0, 219902326)
  | 0x2120, 1 => some (0, 1)
  | 0x2205, 3 => some (0, 2)
  | 0x2206, 3 => some (0, 2)
  | 0x2205, 4 => some (0, 1)
  | 0x2206, 4 => some (0, 1)
  | 0x2205, 5 => some (0, 8)
  | 0x2206, 5 => some (0, 8)
  | 0x2205, 6 => some (0, 2)
  | 0x2206, 6 => some (0, 2)
  | 0x2210, _ => some (0, 10000)
  | 0x2211, _ => some (0, 3600)
  | 0x3001, _ => some (2, 15)
  | 0x3003, 2 => some (0, 63)
  | 0x3003, 6 => some (0, 127)
  | 0x3010, 2 => some (0, 4095)
  | 0x3010, 5 => some (0, 3)
  | 0x3100, 5 => some (0, 15)
  | 0x3210, 2 => some (0, 2)
  | 0x3210, 3 => some (1, 3)
  | 0x3210, 4 => some (1, 1048575)
  | 0x3210, 5 => some (0, 4095)
  | 0x3210, 6 => some (0, 1)
  | 0x3210, 7 => some (0, 1)
  | 0x3220, 1 => some (0, 4095)
  | 0x3220, 3 => some (0, 1)
  | 0x4010, 1 => some (0, 16383)
  | 0x4010, 2 => some (0, 3)
  | 0x4010, 3 => some (0, 4095)
  | 0x4010, 5 => some (0, 1)
  | 0x4010, 6 => some (0, 1)
  | 0x5002, _ => some (0, 127)
  | 0x5103, _ => some (0, 1)
  | 0x6102, _ => some (0, 1)
  | 0x6202, _ => some (0, 3)
  | 0x7102, 3 => some (0, 1)
  | 0x7110, 1 => some (0, 3)
  | 0x7110, 2 => some (0, 1)
  | 0x7110, 3 => some (0, 11)
  | 0x7110, 4 => some (0, 11)
  | 0x7130, 3 => some (0, 1)
  | 0x7150, 2 => some (60, 3600)
  | 0x7210, 1 => some (0, 3)
  | 0x7210, 2 => some (0, 4095)
  | 0x7210, 3 => some (0, 1)
  | 0x7210, 5 => some (64, 65535)
  | 0x7210, 7 => some (0, 3)
  | 0x8010, 1 => some (0, 1023)
  | 0x8010, 2 => some (0, 1)
  | 0x8010, 5 => some (0, 1)
  | _, _ => none

/-- The ranges that are not one interval, of the reference inputs (R112). -/
def refLimits (sub n : Nat) : Bool :=
  match sub with
  | 1 => decide (n ≤ 2)
  | 2 => decide (n ≤ 245)
  | 3 => decide (n ≤ 1)
  | 4 => decide (n ≤ 3) || n == 0xFF
  | 5 => decide (n ≤ 8)
  | 7 => decide (n ≤ 15) || n == 0xFF
  | _ => true

/-- The value lies in the entry's stated range. -/
def Block.catInRange (b : Block) (u : UnitRef) (idx sub n : Nat) : Bool :=
  if 0x2201 ≤ idx ∧ idx ≤ 0x2204 then refLimits sub n
  else match b.catLimits u idx sub with
    | some (lo, hi) => decide (lo ≤ n) && decide (n ≤ hi)
    | none => true

/-- Valid for its type, whatever the unit's state (R309). -/
def typeValid (vtype : Nat) (v : Bytes) : Bool :=
  match vtype with
  | 1 => decide (ofLE v ≤ 1)
  | 9 => decide (leAt v 2 4 ≤ 999999999)
  | 11 => (v.dropWhile fun c => decide (0x20 ≤ c.toNat) && decide (c.toNat ≤ 0x7E)).all fun c => c == 0
  | _ => true

/-- The check of a value against its type, the entry's range and the unit's state (R309, R18): the failing status. -/
def Block.catBad (b : Block) (u : UnitRef) (idx sub : Nat) (e : CatEnt) (v : Bytes) : Option Byte :=
  if !typeValid e.vtype v || !b.catInRange u idx sub (ofLE v) then some caRANGE
  else if idx = 0x2001 ∧ 281460219315396 < leAt v 6 6 then some caRANGE
  else if e.vtype = 8 ∧ !(b.timeOf u).timeValid ∧ !(idx = 0x2120 ∧ ofLE v = 0) then some caSTATE
  else none

/-! ### Status words that entries and registers share -/

def PwrSt.code : PwrSt → BitVec 3
  | .on => 0 | .idle => 1 | .entering => 2 | .mitten => 3 | .exiting => 4

/-- STATE of a lane (R69, R456). -/
def LaneSt.code : LaneSt → BitVec 3
  | .down => 0 | .training => 1 | .aligning => 2 | .negotiating => 3 | .up => 4 | .listen => 5

/-- LSTATE is LOADED or DEFAULTED. -/
def CatSt.loaded (c : CatSt) : Bool := decide (2 ≤ c.lstate.toNat)

/-- TSU_BOOT (R421). -/
def Block.bootWord (b : Block) : BitVec 64 :=
  let t := b.tsu.boot
  let ra := b.tsu.laneA.reg
  let rb := b.tsu.laneB.reg
  putB 0 t.fuseDone ||| putB 1 b.tsu.cat.loaded ||| putB 2 (t.cdcEnded && t.spineEnded && t.rstEnded) |||
    putB 3 b.tsuReady ||| putB 4 t.hostReady ||| putB 5 t.admitted ||| putB 6 t.topoMismatch ||| putB 7 t.spareDup |||
    put 8 ra.topoRes ||| put 10 rb.topoRes ||| put 12 ra.topoReason ||| put 16 rb.topoReason |||
    put 20 (BitVec.ofNat 6 t.spares.length)

/-- HZD_MOD_STATUS (R466). -/
def Module.word (m : Module) : BitVec 64 :=
  putB 0 m.inOk ||| putB 1 m.uvWarn ||| putB 2 m.ov ||| putB 3 m.ocxoWarm ||| putB 4 m.thermWarn ||| putB 5 m.thermTrip |||
    putB 6 m.cageLimit ||| put 8 m.tjMax ||| put 16 m.pIn ||| put 32 m.vIn ||| put 48 m.domFault

/-- An instant in the layout of R17. -/
def htNat (h : Ht96) : Nat := h.frac.toNat + 2 ^ 16 * h.ns.toNat + 2 ^ 48 * h.sec.toNat
def htOf (v : Bytes) : Ht96 := ⟨BitVec.ofNat 48 (leAt v 6 6), BitVec.ofNat 32 (leAt v 2 4), BitVec.ofNat 16 (leAt v 0 2)⟩

def boolNat (x : Bool) : Nat := if x then 1 else 0

/-- A sum of counters, saturating at 32 bits. -/
def sum32 (l : List Nat) : Nat := min (l.foldl (· + ·) 0) 0xFFFFFFFF

/-- TOPO_REPORT as it lies on the wire (R403). -/
def reportBytes (r : TopoReport) : Bytes :=
  toBE 8 r.unitId.toNat ++ toBE 2 r.pda.toNat ++
    [BitVec.ofNat 8 (boolNat r.topoOk + 2 * boolNat r.hostReady + 4 * boolNat r.admitted + 8 * boolNat r.cloak +
      16 * boolNat r.catDefaulted + 32 * boolNat r.timeValid + 64 * boolNat r.tsuReady),
     (0#2 ++ r.result) ++ r.reason] ++ toBE 2 r.ldi.toNat ++ [0, 0]

/-- topo.missing (R402): lanes that topo.ports expects and that are not UP. -/
def Block.topoMissing (b : Block) : Nat :=
  let m := BitVec.ofNat 288 (ofLE (b.catVal .dist 0x7110 5))
  ((List.range 288).filter fun n => m.getLsbD n && !b.up (.dist n)).length

/-- dist.state (R453): DRAINING before SHADOW. -/
def Block.distState (b : Block) : Nat := if b.dist.boot.draining then 2 else if b.dist.boot.shadow then 1 else 0

/-- The cache slot that 0x7212 reports of: that of img.tx at a root, that of the delivery in hand elsewhere. -/
def Block.txSlot (b : Block) : ImgSlot :=
  b.slotOf (if b.dRole = 3 then b.catNat .dist 0x7210 1 else b.dist.img.ih.toNat)

/-- The job last commanded at a root. -/
def Block.lastJob (b : Block) : Job := ((b.dist.objs.job.bind b.jobOf).getD {})

/-! ### What entries read (R469) -/

/-- Entries of both units that read live state. -/
def Block.liveBoth (b : Block) (u : UnitRef) (idx sub : Nat) : Option Nat :=
  let t := b.timeOf u
  let s := b.servoOf u
  let c := b.catOf u
  let x := b.imgOf u
  match idx, sub with
  | 0x1004, _ => some (b.unitIdOf u).toNat
  | 0x1020, 1 => some (boolNat c.defaulted)
  | 0x1020, 2 => some c.reason.toNat
  | 0x1020, 3 => some (if c.defaulted then 0 else c.check.toNat)
  | 0x1020, 4 => some c.skipped.toNat
  | 0x2001, _ => some (htNat t.epoch)
  | 0x2002, _ => some t.lockAge.toNat
  | 0x2004, _ => some (boolNat t.promise)
  | 0x2104, 1 => some s.slew.toNat
  | 0x2104, 2 => some s.bw.toNat
  | 0x2104, 3 => some s.lockThr.toNat
  | 0x2104, 4 => some s.unlockThr.toNat
  | 0x2104, 5 => some s.reacqSlew.toNat
  | 0x2105, _ => some (boolNat s.stepArm)
  | 0x2110, _ => some s.state.code.toNat
  | 0x2111, _ => some s.ffo.toNat
  | 0x2302, _ => some (b.tdcOf u).inlMax.toNat
  | 0x7202, 1 => some x.start.imageId.toNat
  | 0x7202, 2 => some x.st
  | 0x7202, 3 => some x.reason.toNat
  | 0x7202, 4 => some (if x.st = 1 ∨ x.st = 2 then x.missing.length else 0)
  | 0x7202, 5 => some x.dropped.toNat
  | 0x7203, n => if n < 0x10 then some (smGet 0 x.next n).toNat else some (smGet 0 x.prev (n - 0x10)).toNat
  | _, _ => none

/-- The raise list in the layout of gnt.cat_raise. -/
def Gnt.raiseBytes (g : Gnt) : Bytes := (List.range 64).flatMap fun i => toLE 4 (smGet 0 g.raise i).toNat

/-- Entries of a TSU that read live state, the mirrors among them. -/
def Block.liveTsu (b : Block) (idx sub : Nat) : Option Nat :=
  let t := b.tsu
  match idx, sub with
  | 0x2010, 1 => some (boolNat t.spine.calDone)
  | 0x2010, 4 => some b.maxDev
  | 0x2101, _ => some (boolNat t.servo.lossMode)
  | 0x2102, _ => some (boolNat t.servo.revert)
  | 0x2103, _ => some (boolNat t.servo.planePref)
  | 0x2112, _ => some t.servo.switchCnt.toNat
  | 0x3001, _ => some t.lctl.rlatTgt.toNat
  | 0x3002, _ => some (boolNat t.lctl.rstTrack)
  | 0x3003, 1 => some (boolNat t.lctl.refAlign)
  | 0x3003, 2 => some t.lctl.refCtx.toNat
  | 0x3003, 3 => some t.lctl.qwOff.toNat
  | 0x3003, 4 => some t.lctl.qwLen.toNat
  | 0x3003, 5 => some t.lctl.refDur.toNat
  | 0x3003, 6 => some t.lctl.refPar.toNat
  | 0x3140, n => some (b.ctx (n - 1)).reg.launchCnt.toNat
  | 0x3201, _ => some t.bar.overCnt.toNat
  | 0x3202, _ => some t.bar.stale.toNat
  | 0x3301, _ => some (boolNat t.tm.initDone)
  | 0x3302, _ => some t.tm.ceCnt.toNat
  | 0x3303, _ => some t.tm.ueCnt.toNat
  | 0x3310, _ => some t.hall.grace.toNat
  | 0x3311, _ => some t.hall.orphanCnt.toNat
  | 0x4001, _ => some t.coll.resGrace.toNat
  | 0x4002, _ => some t.coll.cutTsu.toNat
  | 0x4020, 1 => some t.coll.diff.toNat
  | 0x4020, 2 => some t.coll.ccrcErr.toNat
  | 0x4020, 3 => some t.coll.late.toNat
  | 0x4101, _ => some t.gen.calls.toNat
  | 0x4102, _ => some (boolNat t.gen.stOk)
  | 0x4201, 3 => some (ofLE b.fuseDigest)
  | 0x4201, 4 => some Config.tsuFw.toNat
  | 0x4201, 5 => some b.catCheck.toNat
  | 0x4210, n => some (ofLE (b.ctx (n - 1)).run.acc)
  | 0x5001, _ => some t.dm.pollInt.toNat
  | 0x5003, _ => some (sum32 (t.dm.chs.map fun e => e.2.errCnt.toNat))
  | 0x5101, _ => some t.str.stallLimit.toNat
  | 0x5102, _ => some t.str.outWait.toNat
  | 0x5104, _ => some (sum32 (t.str.chs.map fun e => e.2.dropCnt.toNat))
  | 0x5105, _ => some (sum32 (t.str.chs.map fun e => e.2.truncCnt.toNat))
  | 0x6001, 1 => some t.gnt.blk.toNat
  | 0x6001, 2 => some t.gnt.tmw.toNat
  | 0x6001, 3 => some (ofLE t.gnt.raiseBytes)
  | 0x6001, 4 => some (boolNat t.gnt.violIrq)
  | 0x6002, _ => some t.gnt.gen.toNat
  | 0x6003, _ => some t.gnt.vCnt.toNat
  | 0x6101, _ => some t.dbg.level.toNat
  | 0x6103, _ => some t.dbg.failCnt.toNat
  | 0x6201, 1 => some (boolNat t.pwr.engAuto)
  | 0x6201, 2 => some t.pwr.engIdle.toNat
  | 0x6201, 3 => some t.pwr.engLead.toNat
  | 0x6202, _ => some (boolNat t.pwr.listenA + 2 * boolNat t.pwr.listenB)
  | 0x6203, _ => some t.pwr.st.code.toNat
  | 0x6204, _ => some t.pwr.mitCnt.toNat
  | 0x7001, 1 => some t.hlth.eyeWarn.toNat
  | 0x7001, 2 => some t.hlth.eyeFail.toNat
  | 0x7001, 3 => some t.hlth.resWarn.toNat
  | 0x7001, 4 => some t.hlth.resFail.toNat
  | 0x7103, _ => some b.bootWord.toNat
  | 0x7113, 1 => some t.boot.spares.length
  | 0x7131, 1 => some t.boot.ep.toNat
  | 0x7131, 2 => some t.boot.prev.toNat
  | 0x7204, _ => some (boolNat t.img.taken)
  | _, _ => none

/-- Live entries of a distributor lane (R467). -/
def Block.livePort (b : Block) (n sub : Nat) : Option Nat :=
  let x := b.lane (.dist n)
  match sub with
  | 7 => some x.reg.state.code.toNat
  | 9 => some x.reg.peerPos.toNat
  | 10 => some (boolNat (Config.media n))
  | 11 => some (if Config.media n then x.health.opt.toNat else 0)
  | _ => none

/-- Entries of a distributor that read live state. -/
def Block.liveDist (b : Block) (idx sub : Nat) : Option Nat :=
  let d := b.dist
  let o := d.objs
  let k := b.txSlot
  if catIndex idx = 0xA000 then b.livePort (idx - 0xA000) sub else
  match idx, sub with
  | 0x1020, 5 => some (boolNat d.cat.saving.isSome)
  | 0x1020, 6 => some d.cat.generation.toNat
  | 0x1030, 1 => some 0
  | 0x1030, 2 => some d.cat.macLast.toNat
  | 0x1030, 3 => some d.cat.authFail.toNat
  | 0x2121, _ => some d.root.role.toNat
  | 0x2122, _ => some d.root.mean.toNat
  | 0x2123, _ => some (boolNat d.root.tlk)
  | 0x2220, 1 => some Config.calFfo.toNat
  | 0x2220, 2 => some Config.calSec.toNat
  | 0x2220, 5 => some d.root.ageingEst.toNat
  | 0x2230, 7 => some (match d.root.selected with | some c => c.toNat | none => 0xFF)
  | 0x2230, 8 => some (boolNat d.root.refLost)
  | 0x2230, n => some (b.candQl (n - 1))
  | 0x2231, 2 => some 0
  | 0x3011, 1 => some b.lastJob.armed
  | 0x3011, 3 => some b.lastJob.state.toNat
  | 0x3230, 1 => some o.overCount.toNat
  | 0x3230, 2 => some o.semRefused.toNat
  | 0x3230, 3 => some o.dropCount.toNat
  | 0x4020, 2 => some o.ccrcErr.toNat
  | 0x4020, 3 => some o.lateCount.toNat
  | 0x4020, 4 => some o.bypassCount.toNat
  | 0x4020, 5 => some o.mixedCount.toNat
  | 0x7003, _ => some d.curator.predict.toNat
  | 0x7005, 1 => some d.mod.vIn.toNat
  | 0x7005, 2 => some d.mod.pIn.toNat
  | 0x7005, 3 => some d.mod.tjMax.toNat
  | 0x7005, 4 => some (d.mod.word.toNat % 2 ^ 32)
  | 0x7111, 1 => some (boolNat b.topoOk)
  | 0x7111, 2 => some (boolNat b.distReady)
  | 0x7111, 3 => some b.admittedCount.toNat
  | 0x7111, 4 => some b.topoMissing
  | 0x7111, 5 => some d.boot.unexpected.toNat
  | 0x7111, 6 => some d.boot.earlyDrop.toNat
  | 0x7112, _ => some (ofLE ((List.range 256).flatMap fun n => match smGet none d.boot.reports n with
      | some (r, _) => reportBytes r
      | none => List.replicate 16 0))
  | 0x7113, 1 => some d.boot.spares.length
  | 0x7113, 2 => some d.boot.hmUnrepaired.length
  | 0x7120, 2 => some d.boot.mapDiff.toNat
  | 0x7131, 1 => some d.boot.ep.toNat
  | 0x7131, 2 => some d.boot.prev.toNat
  | 0x7131, 4 => some (d.boot.fencedPorts.foldl (fun m e => if e.2.isSome then m + 2 ^ e.1 else m) 0)
  | 0x7131, 5 => some d.boot.fenceDrop.toNat
  | 0x7140, 3 => some (boolNat d.curator.congested)
  | 0x7140, 4 => some d.curator.where_.toNat
  | 0x7150, 1 => some (boolNat d.boot.draining)
  | 0x7150, 3 => some b.distState
  | 0x7212, 1 => some k.okn.toNat
  | 0x7212, 2 => some k.failn.toNat
  | 0x7212, 3 => some k.actn.toNat
  | 0x7212, 4 => some k.missn.toNat
  | 0x8001, _ => some (boolNat d.boot.hmReady)
  | 0x8020, 1 => some o.hmem.ce.toNat
  | 0x8020, 2 => some o.hmem.ue.toNat
  | 0x8020, 3 => some o.hmem.denied.toNat
  | 0x8020, 4 => some o.hmem.refused.toNat
  | 0x8020, 5 => some o.hmem.expired.toNat
  | 0x8020, 6 => some (o.hmem.waits.length + o.hmem.held.length)
  | _, _ => none

/-- The live value of an entry, where it has one. -/
def Block.catLive (b : Block) (u : UnitRef) (idx sub : Nat) : Option Nat :=
  match b.liveBoth u idx sub with
  | some n => some n
  | none => match u with
    | .tsu => b.liveTsu idx sub
    | .dist => b.liveDist idx sub

/-- Entries that hold a cache slot (R412). -/
def catCache (idx : Nat) : Bool := idx == 0x7211

/-- An entry's present applied value, in the image's encoding; trailing zero bytes of a cache slot are left out. -/
def Block.catNow (b : Block) (u : UnitRef) (idx sub : Nat) (e : CatEnt) : Bytes :=
  if catCache idx then (b.slotOf (sub - 1)).bytes
  else match b.catLive u idx sub with
    | some n => toLE e.size n
    | none => b.catVal u idx sub

/-- Entries whose value no rule gives (R136, R422): the members of a job's group and of a delivery, which a root does not
know, and the lists of those missing (log entry 44). -/
def catOpen (u : UnitRef) (idx sub : Nat) : Bool :=
  u == .dist && ((idx == 0x3011 && sub == 2) || idx == 0x3012 || (idx == 0x7212 && sub == 5) || idx == 0x7213)

/-- `n` bytes of free values. -/
def Block.drawBytes : Nat → Block → Bytes × Block
  | 0, b => ([], b)
  | n + 1, b =>
    let (x, b) := b.draw
    let (t, b) := Block.drawBytes n b
    (x.setWidth 8 :: t, b)

/-- `n` bytes from `off` of an entry's present value. -/
def Block.catSlice (b : Block) (u : UnitRef) (idx sub : Nat) (e : CatEnt) (off n : Nat) : Bytes × Block :=
  if catOpen u idx sub then b.drawBytes n else (slice (b.catNow u idx sub e) off n, b)

end Sys2Proof.Machine
end

