-- ==== Sys2Proof/Machine/Debug.lean ====
section
/-! DEFINITION. Debug level, unlock and step freeze (R340-R343, R353), and the writes of the Gauntlet (R335-R338, R355). -/

namespace Sys2Proof.Machine

open Sys2Proof

/-! ### Step freeze (R343) -/

/-- RELEASE: the held STEP_GO is acted on now, and ARM clears. -/
def Block.frzRelease (b : Block) (c : Nat) : Block :=
  let held := (b.ctx c).heldGo
  let b := b.mCtx c fun x => { x with heldGo := none, run := { x.run with frzArm := false, frzDbg := false } }
  match held with
  | some (g, _) => b.deliver c g
  | none => b

/-- After LEVEL was lowered: freezes armed by a debug access that may no longer reach their context are released. -/
def Block.frzLower (b : Block) : Block :=
  let lvl := b.tsu.dbg.level
  b.each (b.ctxsWhere fun x => x.run.frzDbg && (lvl == 0 || (lvl == 1 && x.world))) Block.frzRelease

def Block.frzRef (b : Block) : Block := b.mDbg fun d => { d with frzRef := true }

/-- A write of a freeze register at `addr`; `world` is false for the write that selects the context, which needs no right to
a context's world. -/
def Block.frzCmd (b : Block) (a : AnyAccess) (tag : Byte) (addr : Nat) (world : Bool) (f : Bool → Block → Block) : Block :=
  match a with
  | .port a => b.regCmd (portReq a) addr true fun b => if (portReq a).monitor then f false b else b.frzRef
  | .debug s =>
    if b.tsu.boot.tsuRst then b
    else if b.tsu.dbg.level = 0 then b.dbgRefused.emit (.dbg tag 0 0)
    else if b.tsu.dbg.level = 1 && (s || (world && b.ctxWorld b.tsu.dbg.frzSel.toNat)) then
      (b.frzRef.violate 8 ⟨s, 2, true⟩ true (BitVec.ofNat 64 addr)).emit (.dbg tag 0 0)
    else if !b.nibbleOk ⟨s, 2, true⟩ addr then
      (b.frzRef.violate 8 ⟨s, 2, true⟩ true (BitVec.ofNat 64 addr)).emit (.dbg tag 0 0)
    else if !b.tsu.pwr.on.time then (b.powerErr ⟨s, 2, true⟩).emit (.dbg tag 2 0)
    else if world && !s && b.ctxWorld b.tsu.dbg.frzSel.toNat then
      (b.frzRef.violate 8 ⟨s, 2, true⟩ true (BitVec.ofNat 64 addr)).emit (.dbg tag 0 0)
    else (f true b).emit (.dbg tag 0 0)

/-- FREEZE_ARM: a write of TSU_DBG_FRZ_SEL, TSU_DBG_FRZ_AT or ARM. -/
def execFreezeArm (a : AnyAccess) (w : FrzWrite) (s : State) : Host.Outcome State Fault Refusal :=
  s.run fun b => match w with
    | .sel c => b.frzCmd a 0 0xE140 false fun _ b => b.mDbg fun d => { d with frzSel := c }
    | .at step => b.frzCmd a 0 0xE148 true fun _ b => b.mCtxRun b.tsu.dbg.frzSel.toNat fun r => { r with frzAt := step }
    | .arm on => b.frzCmd a 0 0xE150 true fun dbg b =>
        b.mCtxRun b.tsu.dbg.frzSel.toNat fun r => { r with frzArm := on, frzDbg := on && dbg }

/-- FREEZE_RELEASE. -/
def execFreezeRelease (a : AnyAccess) (s : State) : Host.Outcome State Fault Refusal :=
  s.run fun b => b.frzCmd a 0 0xE150 true fun _ b => b.frzRelease b.tsu.dbg.frzSel.toNat

/-! ### Level and unlock (R340, R341) -/

/-- SET with REQ_LEVEL: lowering from any access, raising to DBG_NS for S and PRIV 3 at the register port. -/
def Block.dbgSet (b : Block) (q : Req) (level : BitVec 2) : Block :=
  let b := b.mDbg fun d => { d with reqLevel := level }
  let cur := b.tsu.dbg.level
  if level = cur then b
  else if level.toNat < cur.toNat then (b.mDbg fun d => { d with level := level }).frzLower
  else if level = 1 && q.monitor && !q.dbg then b.mDbg fun d => { d with level := level }
  else b.dbgRefused

/-- DBG_SET (R340). -/
def execDbgSet (a : AnyAccess) (level : BitVec 2) (s : State) : Host.Outcome State Fault Refusal :=
  s.run fun b => b.anyCmd a 0xE100 fun q b => b.dbgSet q level

/-- What RESP must hold (R341). -/
def Block.dbgMac (b : Block) (level : BitVec 2) : Bytes :=
  (hmacSha256 b.tsu.dbg.dkey (toLE 8 b.tsu.dbg.chal.toNat ++ [level.setWidth 8] ++ toLE 8 b.tsu.boot.unitId.toNat)).take 16

/-- UNLOCK with REQ_LEVEL (R341). A REQ_LEVEL of 3 names no level and fails. -/
def Block.dbgUnlock (b : Block) (level : BitVec 2) : Block :=
  let b := b.mDbg fun d => { d with reqLevel := level }
  let d := b.tsu.dbg
  if d.lockout then b
  else
    let noFull := allZero d.dkey || d.fullDis
    let ok := level != 3 && !(level == 2 && noFull) && toLE 16 d.resp.toNat == b.dbgMac level
    let (x, b) := b.draw
    if ok then
      (b.mDbg fun d => { d with level := level, failCnt := 0, chal := x }).frzLower
    else b.mDbg fun d => { d with failCnt := sat1 d.failCnt, lockout := decide (2 ≤ d.failCnt.toNat), chal := x }

/-- DBG_UNLOCK (R341). -/
def execDbgUnlock (a : AnyAccess) (level : BitVec 2) (s : State) : Host.Outcome State Fault Refusal :=
  s.run fun b => b.anyCmd a 0xE100 fun _ b => b.dbgUnlock level

/-! ### The Gauntlet (R337, R338) -/

/-- A Gauntlet field has changed. -/
def Block.gntGen (b : Block) : Block := b.mGnt fun g => { g with gen := g.gen + 1 }

/-- Performs a held operation without regard to the hold. -/
def Block.perform (b : Block) (e : EngOp) : Block :=
  match e with
  | .dirRead dbg secure priv tag n => b.dirRead ⟨secure, priv, dbg⟩ tag n
  | .dirWrite dbg secure priv tag n d => b.dirWrite ⟨secure, priv, dbg⟩ tag n d
  | .timer n => b.timerAct n
  | .collSig n => b.collSignal n
  | .genSig n => b.genSignal n
  | .dmSig _ => b
  | .waitOp c k =>
    let i := wsIdx c k
    match (b.wslot i).op with
    | none => b
    | some o => (b.mWslot i fun w => { w with op := some { o with held := false } }).wordSlot i { o with held := false }

/-- The word and world of a held operation on a tagged word. -/
def Block.heldWord (b : Block) (e : EngOp) : Option (Nat × Bool) :=
  match e with
  | .dirRead _ secure _ _ n => some (n, secure)
  | .dirWrite _ secure _ _ n _ => some (n, secure)
  | .timer n =>
    let t := b.timer n
    if t.action.toNat = 3 then none else some (t.addr.toNat, b.ctxWorld t.ctx.toNat)
  | .collSig n =>
    let d := (b.collSlot n).desc
    if d.sigKind = 3 then none else some (d.sigAddr, b.ctxWorld d.ctx)
  | .genSig n => some ((b.genSlot n).sigAddr, b.ctxWorld (b.genSlot n).ctx)
  | .dmSig _ => none
  | .waitOp c k => match (b.wslot (wsIdx c k)).op with
    | some o => if o.space = 0 then some (o.addr.toNat % 524288, b.ctxWorld c) else none
    | none => none

/-- Waiting and held operations that a new TMW forbids complete DENIED (R338). -/
def Block.tmwApply (b : Block) : Block :=
  let bad (e : EngOp) : Bool := match b.heldWord e with
    | some (n, secure) => !secure && b.regionWorld n
    | none => false
  let mine := b.tsu.held.filter bad
  let b := (b.mTsu fun t => { t with held := t.held.filter fun e => !bad e }).each mine Block.perform
  let words := (b.wsWhere fun i o => o.space == 0 && !o.held && !b.ctxWorld (i / 8) &&
    b.regionWorld (o.addr.toNat % 524288)).map fun x => x.2.addr.toNat % 524288
  b.each words Block.examine

/-- Sets TMW. -/
def Block.setTmw (b : Block) (v : BitVec 64) : Block := (b.mGnt fun g => { g with tmw := v }).tmwApply

/-- BLK as stored: nibble 13 reads 0x7. -/
def blkOf (d : BitVec 64) : BitVec 64 := (d &&& ~~~(0xF#64 <<< 52)) ||| (0x7#64 <<< 52)

/-- The bits of a raise entry (R355). -/
def raiseOf (d : BitVec 32) : BitVec 32 := d &&& 0x81FFFFFF

/-- A write of TSU_CTX_WORLD: the bits of contexts that are OFF, by a monitor access only (R142, R337). -/
def Block.ctxWorldWrite (b : Block) (q : Req) (d : BitVec 64) : Block :=
  let diff := (List.range 64).filter fun c => (b.ctx c).st == .off && !(b.ctx c).enPend && (b.ctx c).world != d.getLsbD c
  if diff.isEmpty then b
  else if !q.monitor then b.violate q.src q true 0x5018
  else (b.each diff fun b c => b.mCtx c fun x => { x with world := d.getLsbD c }).gntGen

/-- A write of STR_CH_CFG.WORLD (R306, R337): by a monitor access only, and in OFF only. -/
def Block.strWorldWrite (b : Block) (q : Req) (ch : Nat) (secure : Bool) : Block :=
  let c := b.strCh ch
  if c.world = secure then b
  else if !q.monitor then b.violate q.src q true (BitVec.ofNat 64 (strReg (BitVec.ofNat 6 ch)))
  else if c.st != .off || c.enPend then b
  else (b.mStrCh ch fun c => { c with world := secure }).gntGen

/-- A write of TSU_GNT_BLK. -/
def Block.blkWrite (b : Block) (d : BitVec 64) : Block :=
  if b.tsu.gnt.blk = blkOf d then b else (b.mGnt fun g => { g with blk := blkOf d }).gntGen

/-- A write of TSU_GNT_TMW. -/
def Block.tmwWrite (b : Block) (d : BitVec 64) : Block := if b.tsu.gnt.tmw = d then b else (b.setTmw d).gntGen

/-- A write of TSU_GNT_CRDATA: the raise entry that TSU_GNT_CRSEL addresses. -/
def Block.crWrite (b : Block) (d : BitVec 32) : Block :=
  let i := b.tsu.gnt.crsel.toNat
  if smGet 0 b.tsu.gnt.raise i = raiseOf d then b
  else (b.mGnt fun g => { g with raise := smPut 0 g.raise i (raiseOf d) }).gntGen

/-- GAUNTLET_WRITE (R337, R355). -/
def execGauntletWrite (a : Access) (w : GntWrite) (s : State) : Host.Outcome State Fault Refusal :=
  let q := portReq a
  s.run fun b => match w with
    | .blk d => b.regCmd q 0xD000 true fun b => b.blkWrite d
    | .tmw d => b.regCmd q 0xD008 true fun b => b.tmwWrite d
    | .crdata d => b.regCmd q 0xD018 true fun b => b.crWrite d
    | .vctrl d => b.regCmd q 0xD028 true fun b => b.mGnt fun g =>
        { g with violIrq := d.getLsbD 0, vCnt := if d.getLsbD 1 then 0 else g.vCnt }
    | .ctxWorld d => b.regCmd q 0x5018 true fun b => b.ctxWorldWrite q d
    | .strWorld ch secure => b.regCmd q (strReg ch) (worldOk q (b.strCh ch.toNat).world) fun b =>
        b.strWorldWrite q ch.toNat secure

end Sys2Proof.Machine
end

