-- ==== Sys2Proof/Machine/CatPut.lean ====
section
/-! DEFINITION. Writes of Catalogue entries: the fields that mirrors set, the entries that act at a write's response, and
the commit of records (R311-R313, R318, R332, R469). -/

namespace Sys2Proof.Machine

open Sys2Proof

/-! ### Mirrors (R469) -/

/-- A write of ENG_AUTO: with 0, a TSU in IDLE starts ENGINE again (R346). -/
def Block.setEngAuto (b : Block) (v : Bool) : Block :=
  let b := b.mPwr fun p => { p with engAuto := v }
  if !v && b.tsu.pwr.st == .idle then b.demand else b

/-- A write of RLAT_TGT is ignored while a context is armed, and of 0 and 1 (R131). -/
def Block.setRlat (b : Block) (v : BitVec 4) : Block :=
  if b.armedAny || decide (v.toNat < 2) then b else b.mLctl fun l => { l with rlatTgt := v }

/-- gnt.cat_raise as a list of entries. -/
def raiseList (v : Bytes) : List (Nat × BitVec 32) :=
  (List.range 64).foldl (fun l i => smPut 0 l i (raiseOf (BitVec.ofNat 32 (leAt v (4 * i) 4)))) []

/-- Sets the field that an entry of both units mirrors. -/
def Block.putBoth (b : Block) (u : UnitRef) (idx sub : Nat) (v : Bytes) : Option Block :=
  let n := ofLE v
  match idx, sub with
  | 0x2001, _ => some (b.mTime u fun t => { t with epoch := htOf v })
  | 0x2104, 1 => some (b.mServo u fun s => { s with slew := BitVec.ofNat 28 n })
  | 0x2104, 2 => some (b.mServo u fun s => { s with bw := BitVec.ofNat 4 n })
  | 0x2104, 3 => some (b.mServo u fun s => { s with lockThr := BitVec.ofNat 16 n })
  | 0x2104, 4 => some (b.mServo u fun s => { s with unlockThr := BitVec.ofNat 16 n })
  | 0x2104, 5 => some (b.mServo u fun s => { s with reacqSlew := BitVec.ofNat 28 n })
  | 0x2105, _ => some (if n = 1 then b.armStep u else b)
  | _, _ => none

/-- Sets the field that an entry of a TSU mirrors. -/
def Block.putTsu (b : Block) (idx sub : Nat) (v : Bytes) : Option Block :=
  let n := ofLE v
  match idx, sub with
  | 0x2101, _ => some (b.mServo .tsu fun s => { s with lossMode := n == 1 }).reselect
  | 0x2102, _ => some (b.mServo .tsu fun s => { s with revert := n == 1 }).reselect
  | 0x2103, _ => some (b.mServo .tsu fun s => { s with planePref := n == 1 }).reselect
  | 0x3001, _ => some (b.setRlat (BitVec.ofNat 4 n))
  | 0x3002, _ => some (b.mLctl fun l => { l with rstTrack := n == 1 })
  | 0x3003, 1 => some (b.mLctl fun l => { l with refAlign := n == 1 })
  | 0x3003, 2 => some (b.mLctl fun l => { l with refCtx := BitVec.ofNat 6 n })
  | 0x3003, 3 => some (b.mLctl fun l => { l with qwOff := BitVec.ofNat 32 n })
  | 0x3003, 4 => some (b.mLctl fun l => { l with qwLen := BitVec.ofNat 16 n })
  | 0x3003, 5 => some (b.mLctl fun l => { l with refDur := BitVec.ofNat 16 n })
  | 0x3003, 6 => some (b.mLctl fun l => { l with refPar := BitVec.ofNat 7 n })
  | 0x3310, _ => some (b.mHall fun h => { h with grace := BitVec.ofNat 32 n })
  | 0x4001, _ => some (b.mColl fun c => { c with resGrace := BitVec.ofNat 16 n })
  | 0x4002, _ => some (b.mColl fun c => { c with cutTsu := BitVec.ofNat 16 n })
  | 0x5001, _ => some (b.mDm fun d => { d with pollInt := BitVec.ofNat 16 n })
  | 0x5101, _ => some (b.mStr fun s => { s with stallLimit := BitVec.ofNat 16 n })
  | 0x5102, _ => some (b.mStr fun s => { s with outWait := BitVec.ofNat 32 n })
  | 0x6001, 1 => some (b.mGnt fun g => { g with blk := blkOf (BitVec.ofNat 64 n) })
  | 0x6001, 2 => some (b.setTmw (BitVec.ofNat 64 n))
  | 0x6001, 3 => some (b.mGnt fun g => { g with raise := raiseList v })
  | 0x6001, 4 => some (b.mGnt fun g => { g with violIrq := n == 1 })
  | 0x6201, 1 => some (b.setEngAuto (n == 1))
  | 0x6201, 2 => some (b.mPwr fun p => { p with engIdle := BitVec.ofNat 32 n })
  | 0x6201, 3 => some (b.mPwr fun p => { p with engLead := BitVec.ofNat 16 n })
  | 0x6202, _ => some (b.mPwr fun p => { p with listenA := n % 2 == 1, listenB := n / 2 == 1 })
  | 0x7001, 1 => some (b.mTsu fun t => { t with hlth := { t.hlth with eyeWarn := BitVec.ofNat 8 n } })
  | 0x7001, 2 => some (b.mTsu fun t => { t with hlth := { t.hlth with eyeFail := BitVec.ofNat 8 n } })
  | 0x7001, 3 => some (b.mTsu fun t => { t with hlth := { t.hlth with resWarn := BitVec.ofNat 16 n } })
  | 0x7001, 4 => some (b.mTsu fun t => { t with hlth := { t.hlth with resFail := BitVec.ofNat 16 n } })
  | 0x7204, _ => some (b.mImg .tsu fun x => { x with taken := n == 1, untaken := x.untaken && n != 1 })
  | _, _ => none

/-- Sets an entry's applied value: the field it mirrors, or the value kept. -/
def Block.catPut (b : Block) (u : UnitRef) (idx sub : Nat) (v : Bytes) : Block :=
  match b.putBoth u idx sub v with
  | some b => b
  | none => match u with
    | .tsu => (b.putTsu idx sub v).getD (b.catSet u idx sub v)
    | .dist => b.catSet u idx sub v

/-- What follows once new values of an index are applied: topology checks (R400, R402), reference selection (R104). -/
def Block.catAfter (b : Block) (u : UnitRef) (idx : Nat) : Block :=
  match u with
  | .tsu => if idx = 0x7101 then b.tsuTopo else b
  | .dist =>
    if idx = 0x7110 then
      ((b.mMod fun m => { m with refOn := m.powered && b.dRole == 3 }).octets).each (List.range 312) Block.distTopo
    else if 0x2201 ≤ idx ∧ idx ≤ 0x2213 then b.refsChange
    else b

/-! ### Images of the Catalogue (R311, R327, R328, R332) -/

/-- The entry is persistent at the unit (R311). -/
def Block.catPersists (b : Block) (u : UnitRef) (idx sub : Nat) (e : CatEnt) : Bool :=
  !e.vol && match b.catAcc u idx sub e with
    | .rw => true | .rws => true | .so => true
    | _ => false

/-- Every entry of a unit, in order: index, sub-index and row. -/
def Block.catAll (b : Block) (u : UnitRef) : List (Nat × Nat × CatEnt) :=
  (catRows.filter fun e => b.catHolds u e.who).flatMap fun e =>
    let subs := (List.range (e.subHi + 1 - e.subLo)).map (· + e.subLo)
    if e.index = 0xA000 then (List.range 312).flatMap fun n => subs.map fun s => (0xA000 + n, s, e)
    else subs.map fun s => (e.index, s, e)

/-- One entry of an image (R328). The size of ldi.map does not fit its field, which holds the low 16 bits (log entry
45). -/
def imgEntry (idx sub vtype : Nat) (v : Bytes) : Bytes :=
  toLE 2 idx ++ toLE 1 sub ++ toLE 1 vtype ++ toLE 2 v.length ++ [0, 0] ++ v ++
    List.replicate ((4 - v.length % 4) % 4) 0

/-- The value that a save keeps: mac_key itself, and every other entry as it reads. -/
def Block.catKeep (b : Block) (u : UnitRef) (idx sub : Nat) (e : CatEnt) : Bytes :=
  if idx = 0x1030 then b.catVal u idx sub else b.catNow u idx sub e

/-- An image with its header and check word (R327). -/
def imageOf (itype iver iflags imageId gen : Nat) (body : Bytes) : Bytes :=
  let d := toLE 4 0x4D495A48 ++ toLE 2 itype ++ toLE 2 1 ++ toLE 4 body.length ++ toLE 4 iver ++ toLE 4 iflags ++
    toLE 8 imageId ++ toLE 4 gen ++ body
  d ++ toLE 4 (crc32c d).toNat

/-- The image that a save of the distributor writes (R332). -/
def Block.saveImage (b : Block) : Bytes :=
  let c := b.dist.cat
  let body := ((b.catAll .dist).filter fun x => b.catPersists .dist x.1 x.2.1 x.2.2).flatMap fun x =>
    imgEntry x.1 x.2.1 x.2.2.vtype (b.catKeep .dist x.1 x.2.1 x.2.2)
  imageOf 1 0x30000 2 (if c.defaulted then b.dist.boot.unitId.toNat else c.imageId.toNat) ((c.generation.toNat + 1) % 2 ^ 32)
    (body ++ toLE 2 0xFFFF ++ List.replicate 6 0)

/-- A write of 1 to cat.save: the values as they stand now; ignored while a save runs (R332). -/
def Block.catSaveStart (b : Block) : Block :=
  if b.dist.cat.saving.isSome then b else b.mCat .dist fun c => { c with saving := some b.saveImage }

/-- CAT_SAVE_DONE: the slot not in use holds the image, and is the slot in use from now on (R332, log entry 46). -/
def Block.catSaveEnd (b : Block) : Block :=
  match b.dist.cat.saving with
  | none => b
  | some d =>
    let slot := 1 - b.dist.cat.inUse
    (b.setFlash slot d).mCat .dist fun c => { c with
      saving := none, inUse := slot, generation := BitVec.ofNat 32 (imgGen d), imageId := imgId d
      check := BitVec.ofNat 32 (leAt d (32 + imgLen d) 4) }

def execCatSaveDone (s : State) : Host.Outcome State Fault Refusal := s.run Block.catSaveEnd

/-! ### Entries that act at the response of their write (log entry 47) -/

/-- root.manual.start (R94, R112): a root that has not acquired and has no eligible candidate acquires at root.manual.time;
a follower takes its count from it. -/
def Block.manualStart (b : Block) : Block :=
  if b.dRole ≠ 3 ∨ b.dist.time.timeValid ∨ ((List.range 6).any b.candEligible) then b
  else match ht96ToTc64 b.dist.time.epoch (htOf (b.catVal .dist 0x2231 1)) with
  | none => b
  | some t =>
    if b.dist.root.role = 2 then b.mTime .dist fun x => { x with tc64 := t }
    else b.rootAcquire (1280 * ((b.dist.time.tc64.toNat : Int) - t.toNat)) 5

/-- The blocks of a cache slot that bytes fill (R412). -/
def cacheBlocks (v : Bytes) : List (Nat × Bytes) :=
  let bl := imgBlocks 32768 v
  ((List.range bl.length).zip bl).filter fun e => !e.2.isEmpty

/-- Whether an entry acts at its write's response though it stands in a record. -/
def catActs (u : UnitRef) (idx sub : Nat) : Bool :=
  u == .dist && ((idx == 0x1020 && sub == 5) || (idx == 0x2231 && sub == 2) || (idx == 0x7150 && sub == 1) ||
    (catIndex idx == 0xA000 && sub == 8) || catCache idx)

/-- What such an entry does. -/
def Block.catAct (b : Block) (idx sub : Nat) (v : Bytes) : Block :=
  let one := ofLE (v.take 1) == 1
  if idx = 0x1020 then (if one then b.catSaveStart else b)
  else if idx = 0x2231 then (if one then b.manualStart else b)
  else if idx = 0x7150 then b.drainWrite one
  else if catCache idx then b.mImgSlot (sub - 1) fun s => { s with blocks := cacheBlocks v }
  else if one then b.wakePort (idx - 0xA000) else b

/-! ### Staging and commit (R312, R313) -/

/-- The staging copy of a world. -/
def CatSt.stage (c : CatSt) (secure : Bool) : List (Nat × Bytes) := if secure then c.stageS else c.stageN
def CatSt.mStage (c : CatSt) (secure : Bool) (f : List (Nat × Bytes) → List (Nat × Bytes)) : CatSt :=
  if secure then { c with stageS := f c.stageS } else { c with stageN := f c.stageN }

/-- The staged fields of a record in a world: sub-index and value. -/
def CatSt.staged (c : CatSt) (secure : Bool) (idx : Nat) : List (Nat × Bytes) :=
  ((c.stage secure).filter fun e => e.1 / 256 == idx).map fun e => (e.1 % 256, e.2)

/-- Stages a field's value. -/
def Block.catStage (b : Block) (q : CatReq) (idx sub : Nat) (v : Bytes) : Block :=
  b.mCat q.unit fun c => c.mStage q.secure fun l => smPut [] l (catKey idx sub) v

/-- A record as it would be applied: staged fields over applied ones. -/
def Block.recVals (b : Block) (u : UnitRef) (idx : Nat) (st : List (Nat × Bytes)) : RecVals := fun sub =>
  match st.find? fun e => e.1 == sub with
  | some e => e.2
  | none => match b.catFind u idx sub with
    | .ent e => b.catNow u idx sub e
    | _ => []

/-- A context's accession record is frozen (R243). -/
def Block.accFrozen (b : Block) : Bool := b.tsu.ctxs.any fun e => e.2.run.accOn

/-- The rules a chapter states for a record, and what applying it does (R313 step 3). -/
def Block.recRule (b : Block) (q : CatReq) (idx cmd : Nat) (v : RecVals) : Byte × Block :=
  match q.unit, idx with
  | .tsu, 0x4201 => if b.accFrozen then (caSTATE, b) else (caOK, b)
  | .tsu, 0x6001 =>
    if q.secure && q.priv == 3 then (caOK, b)
    else (caDENIED, b.violate 7 (catReqAttr q) true (BitVec.ofNat 64 (256 * idx + 0xFF)))
  | .tsu, 0x7102 => b.admitApply v
  | .dist, 0x3010 => b.jobApply cmd v
  | .dist, 0x3210 => b.hbarApply v
  | .dist, 0x3220 => b.groupApply v
  | .dist, 0x4010 => b.cobjApply v
  | .dist, 0x7130 => b.memApply v
  | .dist, 0x7132 => b.rmApply v
  | .dist, 0x7133 => b.purgeApply v
  | .dist, 0x7134 => b.seedApply v
  | .dist, 0x7210 => b.imgTxApply cmd v
  | .dist, 0x8010 => b.hregionApply v
  | _, _ => (caOK, b)

/-- The first status that a check of every staged field gives, with its sub-index. -/
def firstBad (f : Nat → Bytes → Option Byte) : List (Nat × Bytes) → Option (Nat × Byte)
  | [] => none
  | (s, v) :: t => match f s v with
    | some c => some (s, c)
    | none => firstBad f t

/-- R313 step 1 on one staged field. -/
def Block.stageDenied (b : Block) (q : CatReq) (idx sub : Nat) : Option Byte :=
  match b.catFind q.unit idx sub with
  | .ent e => (catNoWrite q (b.catAcc q.unit idx sub e)).map fun _ => caDENIED
  | _ => some caDENIED

/-- R313 step 2 on one staged field. -/
def Block.stageBad (b : Block) (u : UnitRef) (idx sub : Nat) (v : Bytes) : Option Byte :=
  match b.catFind u idx sub with
  | .ent e => b.catBad u idx sub e v
  | _ => some caRANGE

/-- The staged fields become applied and the staging copy is empty again. -/
def Block.recStore (b : Block) (q : CatReq) (idx : Nat) (st : List (Nat × Bytes)) : Block :=
  let g := b.tsu.gnt
  let b := b.each st fun b e => b.catPut q.unit idx e.1 e.2
  let b := if q.unit = .tsu ∧ idx = 0x6001 ∧ b.tsu.gnt ≠ g then b.gntGen else b
  (b.mCat q.unit fun c => c.mStage q.secure fun l => l.filter fun e => e.1 / 256 != idx).catAfter q.unit idx

/-- The commit of a record with the value `cmd` written to its commit sub-index (R313). -/
def Block.catCommit (b : Block) (q : CatReq) (idx cmd : Nat) : Byte × Block :=
  let st := (b.catOf q.unit).staged q.secure idx
  match firstBad (fun sub _ => b.stageDenied q idx sub) st with
  | some (sub, c) => (c, if q.secure then b else b.catViolate q idx sub)
  | none => match firstBad (fun sub v => b.stageBad q.unit idx sub v) st with
    | some (_, c) => (c, b)
    | none =>
      let r := b.recRule q idx cmd (b.recVals q.unit idx st)
      if r.1 = caOK then (caOK, r.2.recStore q idx st) else r

/-! ### A write of one entry -/

/-- A plain object, or an entry that acts at its write's response, takes a value. -/
def Block.catPlain (b : Block) (q : CatReq) (idx sub : Nat) (v : Bytes) : Byte × Block :=
  if catActs q.unit idx sub then (caOK, b.catAct idx sub v)
  else if idx = 0x2001 ∧ b.admittedCount ≠ 0 then (caSTATE, b)
  else (caOK, (b.catPut q.unit idx sub v).catAfter q.unit idx)

/-- A write refused: a non-secure one that is DENIED is a violation (R310). -/
def Block.catRefuse (b : Block) (q : CatReq) (idx sub : Nat) (c : Byte) : Byte × Block :=
  (c, if c = caDENIED ∧ !q.secure then b.catViolate q idx sub else b)

/-- The value of an entry written whole, its right and its type already checked (R312, R313, R318). -/
def Block.catTake (b : Block) (q : CatReq) (idx sub : Nat) (e : CatEnt) (v : Bytes) : Byte × Block :=
  match b.catBad q.unit idx sub e v with
  | some c => (c, b)
  | none =>
    if b.catIsRecord q.unit idx && !catActs q.unit idx sub then
      if sub = catCommitSub idx then (if ofLE v = 0 then (caOK, b) else b.catCommit q idx (ofLE v))
      else if idx = 0x4201 ∧ b.accFrozen then (caSTATE, b)
      else (caOK, b.catStage q idx sub v)
    else b.catPlain q idx sub v

end Sys2Proof.Machine
end

