-- ==== Sys2Proof/Machine/CatMsg.lean ====
section
/-! DEFINITION. The six Catalogue requests at the unit that serves them (R312-R314, R318, R319, R325, R326), and the rows
that are one of them: the commits of the chapters' records and the writes of their commands. -/

namespace Sys2Proof.Machine

open Sys2Proof

/-- A request, its index and sub-index apart. Values of a write are in the image's encoding. -/
inductive CatOp where
  | read (staged : Bool)
  | write (vtype : Nat) (value : Bytes)
  | readBlock (off cnt : Nat)
  | writeBlock (off : Nat) (data : Bytes) (last : Bool)
  | commit
  | subscribe (minInt lifetime : BitVec 16)
  deriving DecidableEq, Repr

/-- An answer: status, and where the request asks for them the type, the entry's size, the bytes returned, their offset,
and the subscription's number. -/
structure CatAns where
  status : Byte := caOK
  vtype  : Nat := 0
  total  : Nat := 0
  value  : Bytes := []
  off    : Nat := 0
  subn   : Nat := 0
  deriving DecidableEq, Repr

/-- The order of a value's bytes on the wire: numbers most significant byte first (R309). -/
def wireValue (vtype : Nat) (v : Bytes) : Bytes := if 1 ≤ vtype ∧ vtype ≤ 9 then v.reverse else v

def wireIf (wire : Bool) (vtype : Nat) (v : Bytes) : Bytes := if wire then wireValue vtype v else v

/-! ### READ and READ_BLOCK -/

/-- The value that a READ with STAGED returns of a world (R312). -/
def Block.catStaged (b : Block) (q : CatReq) (idx sub : Nat) (e : CatEnt) : Bytes :=
  match smGet [] ((b.catOf q.unit).stage q.secure) (catKey idx sub) with
  | [] => b.catNow q.unit idx sub e
  | v => v

/-- READ (R318). -/
def Block.catRead (b : Block) (q : CatReq) (wire : Bool) (idx sub : Nat) (staged : Bool) : CatAns × Block :=
  let one (vt n : Nat) : CatAns × Block :=
    if q.priv = 0 then ({ status := caDENIED }, b) else ({ vtype := vt, total := 1, value := toLE 1 n }, b)
  match b.catFind q.unit idx sub with
  | .noobj => ({ status := caNOOBJ }, b)
  | .nosub => ({ status := caNOSUB }, b)
  | .record hi => one 12 hi
  | .commit => one 2 0
  | .ent e => match catNoRead q (b.catAcc q.unit idx sub e) with
    | some c => ({ status := c }, b)
    | none =>
      if 1024 < e.size then ({ status := caTOOBIG }, b)
      else if staged then
        ({ vtype := e.vtype, total := e.size, value := wireIf wire e.vtype (b.catStaged q idx sub e) }, b)
      else
        let r := b.catSlice q.unit idx sub e 0 e.size
        ({ vtype := e.vtype, total := e.size, value := wireIf wire e.vtype r.1 }, r.2)

/-- READ_BLOCK (R318). Of sub-index 0 of a record it is not defined, and its answer is free (R314, log entry 48). -/
def Block.catReadBlock (b : Block) (q : CatReq) (wire : Bool) (idx sub off cnt : Nat) : CatAns × Block :=
  let bad (size : Nat) : Bool := cnt == 0 || decide (1024 < cnt) || decide (size < off + cnt)
  match b.catFind q.unit idx sub with
  | .noobj => ({ status := caNOOBJ }, b)
  | .nosub => ({ status := caNOSUB }, b)
  | .record _ =>
    if q.priv = 0 then ({ status := caDENIED }, b)
    else if bad 1 then ({ status := caRANGE }, b)
    else
      let (s, b) := b.draw
      let (x, b) := b.draw
      ({ status := s.setWidth 8, total := 1, value := [x.setWidth 8] }, b)
  | .commit =>
    if q.priv = 0 then ({ status := caDENIED }, b)
    else if bad 1 then ({ status := caRANGE }, b)
    else ({ total := 1, value := [0] }, b)
  | .ent e => match catNoRead q (b.catAcc q.unit idx sub e) with
    | some c => ({ status := c }, b)
    | none =>
      if bad e.size then ({ status := caRANGE }, b)
      else
        let r := if wire ∧ e.vtype ≤ 9 then (slice (wireValue e.vtype (b.catNow q.unit idx sub e)) off cnt, b)
          else b.catSlice q.unit idx sub e off cnt
        ({ total := e.size, value := r.1, off := off }, r.2)

/-! ### WRITE, WRITE_BLOCK and COMMIT -/

/-- A write of 1 to a commit sub-index of 0xFF, or of 0 (R313). -/
def Block.catWriteFF (b : Block) (q : CatReq) (idx vtype : Nat) (v : Bytes) : Byte × Block :=
  if q.priv = 0 then b.catRefuse q idx 0xFF caDENIED
  else if vtype ≠ 2 ∨ v.length ≠ 1 then (caTYPE, b)
  else if 1 < ofLE v then (caRANGE, b)
  else if ofLE v = 0 then (caOK, b)
  else b.catCommit q idx 1

/-- WRITE (R318). -/
def Block.catWrite (b : Block) (q : CatReq) (idx sub vtype : Nat) (v : Bytes) : Byte × Block :=
  match b.catFind q.unit idx sub with
  | .noobj => (caNOOBJ, b)
  | .nosub => (caNOSUB, b)
  | .record _ => b.catRefuse q idx sub (if q.priv = 0 then caDENIED else caREADONLY)
  | .commit => b.catWriteFF q idx vtype v
  | .ent e => match catNoWrite q (b.catAcc q.unit idx sub e) with
    | some c => b.catRefuse q idx sub c
    | none =>
      if 1024 < e.size then (caTOOBIG, b)
      else if vtype ≠ e.vtype ∨ v.length ≠ e.size then (caTYPE, b)
      else b.catTake q idx sub e v

/-- The open WRITE_BLOCK sequences of a world. -/
def CatSt.openOf (c : CatSt) (secure : Bool) : List (Nat × Bytes) := if secure then c.openS else c.openN
def CatSt.setOpen (c : CatSt) (secure : Bool) (k : Nat) (v : Bytes) : CatSt :=
  if secure then { c with openS := smPut [] c.openS k v } else { c with openN := smPut [] c.openN k v }

/-- The buffer of a sequence: the one open, or the entry's present value, its staging copy where it is a field (R318). -/
def Block.catBuffer (b : Block) (q : CatReq) (idx sub : Nat) (e : CatEnt) : Bytes :=
  match smGet [] ((b.catOf q.unit).openOf q.secure) (catKey idx sub) with
  | _ :: buf => buf
  | [] => if b.catIsRecord q.unit idx then b.catStaged q idx sub e else b.catNow q.unit idx sub e

/-- Bytes written into a buffer at an offset; the buffer grows as far as that. -/
def putAt (l : Bytes) (o : Nat) (v : Bytes) : Bytes := slice l 0 o ++ v ++ l.drop (o + v.length)

/-- WRITE_BLOCK (R318). -/
def Block.catWriteBlock (b : Block) (q : CatReq) (idx sub off : Nat) (d : Bytes) (last : Bool) : Byte × Block :=
  match b.catFind q.unit idx sub with
  | .noobj => (caNOOBJ, b)
  | .nosub => (caNOSUB, b)
  | .record _ => b.catRefuse q idx sub (if q.priv = 0 then caDENIED else caREADONLY)
  | .commit => if q.priv = 0 then b.catRefuse q idx sub caDENIED else (caTYPE, b)
  | .ent e => match catNoWrite q (b.catAcc q.unit idx sub e) with
    | some c => b.catRefuse q idx sub c
    | none =>
      if e.vtype ≠ 10 then (caTYPE, b)
      else if d.length = 0 ∨ 1024 < d.length ∨ e.size < off + d.length then (caRANGE, b)
      else
        let buf := putAt (b.catBuffer q idx sub e) off d
        let keep (b : Block) (v : Bytes) := b.mCat q.unit fun c => c.setOpen q.secure (catKey idx sub) v
        if last then (keep b []).catTake q idx sub e (if catCache idx then buf else slice buf 0 e.size)
        else (caOK, keep b (1 :: buf))

/-- COMMIT of an index (R313): as a write of 1 to its commit sub-index. -/
def Block.catCommitMsg (b : Block) (q : CatReq) (idx : Nat) : Byte × Block :=
  if (b.catRowsOf q.unit idx).isEmpty then (caNOOBJ, b)
  else if !b.catIsRecord q.unit idx then (caBADMSG, b)
  else match b.catFind q.unit idx (catCommitSub idx) with
  | .ent e => match catNoWrite q (b.catAcc q.unit idx (catCommitSub idx) e) with
    | some c => b.catRefuse q idx (catCommitSub idx) c
    | none => b.catCommit q idx 1
  | _ => if q.priv = 0 then b.catRefuse q idx 0xFF caDENIED else b.catCommit q idx 1

/-! ### SUBSCRIBE (R325) -/

/-- The numbers a subscriber's subscriptions may have: 16 of each local world and 32 remote ones at a TSU, 256 at a
distributor. -/
def subRange (u : UnitRef) (who : SubWho) : Nat × Nat :=
  match u, who with
  | .dist, _ => (0, 256)
  | .tsu, .world true => (0, 16)
  | .tsu, .world false => (16, 16)
  | .tsu, _ => (32, 32)

/-- The status of a read right for a subscription, and the entry's size. -/
def Block.subRight (b : Block) (q : CatReq) (idx sub : Nat) : Byte × Nat :=
  match b.catFind q.unit idx sub with
  | .noobj => (caNOOBJ, 0)
  | .nosub => (caNOSUB, 0)
  | .ent e => ((catNoRead q (b.catAcc q.unit idx sub e)).getD caOK, e.size)
  | _ => (if q.priv = 0 then caDENIED else caOK, 1)

/-- SUBSCRIBE. -/
def Block.catSubscribe (b : Block) (q : CatReq) (who : SubWho) (idx sub : Nat) (minInt life : BitVec 16) : CatAns × Block :=
  let r := b.subRight q idx sub
  let e : EntryId := ⟨BitVec.ofNat 16 idx, BitVec.ofNat 8 sub⟩
  let (lo, n) := subRange q.unit who
  let slots := (List.range n).map (· + lo)
  let at_ (k : Nat) := smGet none (b.catOf q.unit).subs k
  let mine := slots.find? fun k => match at_ k with | some s => s.who == who && s.entry == e | none => false
  let put (k : Nat) (s : Option Sub) : Block := b.mCat q.unit fun c => { c with subs := smPut none c.subs k s }
  if r.1 ≠ caOK then ({ status := r.1 }, b)
  else if life = 0 then
    match mine with
    | some k => ({ subn := k - lo }, put k none)
    | none => ({}, b)
  else if minInt = 0 then ({ status := caRANGE }, b)
  else if 1024 < r.2 then ({ status := caNOSUBSCR }, b)
  else match mine with
  | some k => ({ subn := k - lo }, put k ((at_ k).map fun s => { s with minInt := minInt, lifetime := life, since := b.tcOf q.unit }))
  | none => match slots.find? fun k => (at_ k).isNone with
    | none => ({ status := caNOSUBSCR }, b)
    | some k =>
      let now := b.tcOf q.unit
      ({ subn := k - lo }, put k (some ⟨who, e, minInt, life, now, now, none, 0⟩))

/-! ### A request performed -/

/-- Performs a request. -/
def Block.catDo (b : Block) (q : CatReq) (who : SubWho) (wire : Bool) (idx sub : Nat) (op : CatOp) : CatAns × Block :=
  let st (r : Byte × Block) : CatAns × Block := ({ status := r.1 }, r.2)
  match op with
  | .read staged => b.catRead q wire idx sub staged
  | .write vt v => st (b.catWrite q idx sub vt v)
  | .readBlock off cnt => b.catReadBlock q wire idx sub off cnt
  | .writeBlock off d last => st (b.catWriteBlock q idx sub off d last)
  | .commit => st (b.catCommitMsg q idx)
  | .subscribe m l => b.catSubscribe q who idx sub m l

/-- The payload of a response on the wire (R318). -/
def CatAns.payload (a : CatAns) (op : CatOp) : Bytes :=
  if a.status ≠ caOK then []
  else match op with
  | .read _ => [BitVec.ofNat 8 a.vtype, 0] ++ toBE 2 a.total ++ a.value
  | .readBlock _ _ => toBE 4 a.off ++ toBE 4 a.total ++ a.value
  | .subscribe _ _ => toBE 2 a.subn ++ [0, 0]
  | _ => []

/-! ### The local access block (R326) -/

def CatSt.port (c : CatSt) (secure : Bool) : CatPort := if secure then c.portS else c.portN
def CatSt.mPort (c : CatSt) (secure : Bool) (f : CatPort → CatPort) : CatSt :=
  if secure then { c with portS := f c.portS } else { c with portN := f c.portN }

/-- Bytes of the data buffer. -/
def CatPort.bytes (p : CatPort) (n : Nat) : Bytes := (List.range n).map fun i => smGet 0 p.data i
def CatPort.putBytes (p : CatPort) (v : Bytes) : CatPort :=
  { p with data := ((List.range v.length).zip v).foldl (fun l e => smPut 0 l e.1 e.2) p.data }

/-- The request registers as software fills them for a request. -/
def CatPort.fill (p : CatPort) (idx sub : Nat) (op : CatOp) : CatPort :=
  let p := { p with index := BitVec.ofNat 16 idx, sub := BitVec.ofNat 8 sub }
  match op with
  | .read staged => { p with op := 1, staged := staged }
  | .write vt v => ({ p with op := 2, vtype := BitVec.ofNat 8 vt, count := BitVec.ofNat 11 v.length }).putBytes (v.take 1024)
  | .readBlock off cnt => { p with op := 3, offset := BitVec.ofNat 32 off, count := BitVec.ofNat 11 cnt }
  | .writeBlock off d last =>
    ({ p with op := 4, offset := BitVec.ofNat 32 off, count := BitVec.ofNat 11 d.length, last := last }).putBytes (d.take 1024)
  | .commit => { p with op := 5 }
  | .subscribe m l => { p with op := 6, offset := m ++ l }

/-- The result registers after a request. -/
def CatPort.result (p : CatPort) (op : CatOp) (a : CatAns) : CatPort :=
  let p := ({ p with status := a.status, rcount := BitVec.ofNat 11 a.value.length }).putBytes a.value
  match op with
  | .read _ => { p with total := BitVec.ofNat 32 a.total }
  | .readBlock _ _ => { p with total := BitVec.ofNat 32 a.total }
  | .subscribe _ _ => { p with subn := BitVec.ofNat 4 a.subn }
  | _ => p

/-- A local request is performed at once, and its answer stands in its world's registers. -/
def Block.catLocal (b : Block) (q : CatReq) (idx sub : Nat) (op : CatOp) : Block :=
  let r := b.catDo q (.world q.secure) false idx sub op
  (r.2.mCat .tsu fun c => c.mPort q.secure fun p => p.result op r.1).emit (.cat .tsu q.src q.tid r.1.status r.1.value)

/-- What the registers ask for; none for an OP that names no request. -/
def CatPort.request (p : CatPort) : Option CatOp :=
  let n := p.count.toNat
  match p.op.toNat with
  | 1 => some (.read p.staged)
  | 2 => some (.write p.vtype.toNat (p.bytes n))
  | 3 => some (.readBlock p.offset.toNat n)
  | 4 => some (.writeBlock p.offset.toNat (p.bytes n) p.last)
  | 5 => some .commit
  | 6 => some (.subscribe (p.offset.extractLsb' 16 16) (p.offset.extractLsb' 0 16))
  | _ => none

/-- A write of GO (R326). -/
def Block.catGo (b : Block) (q : Req) : Block :=
  let p := b.tsu.cat.port q.secure
  match p.request with
  | some op => b.catLocal ⟨.tsu, .local, q.secure, q.priv, 0⟩ p.index.toNat p.sub.toNat op
  | none => b.mCat .tsu fun c => c.mPort q.secure fun p => { p with status := caBADMSG, rcount := 0 }

/-! ### Requests as commands -/

/-- The distributor answers: it is powered and its Catalogue is loaded. -/
def Block.distServes (b : Block) : Bool := b.dist.mod.powered && b.dist.boot.catLoaded

/-- The requester of a request that came through the network, which the command names by its TID alone (log entry 49). -/
def catWho (q : CatReq) : SubWho :=
  match q.src with
  | .local => .world q.secure
  | .tree => .tree (q.tid.setWidth 48) q.secure
  | .udp => .udp ⟨0, q.tid⟩ q.secure

/-- A request: by a TSU's registers, where GO is written at 0x00_C010, or through the network, answered in the wire's
encoding. -/
def Block.catRun (b : Block) (q : CatReq) (idx sub : Nat) (op : CatOp) : Block :=
  let net (b : Block) : Block :=
    let r := b.catDo q (catWho q) true idx sub op
    r.2.emit (.cat q.unit q.src q.tid r.1.status (r.1.payload op))
  match q.unit with
  | .dist => if b.distServes then net b else b
  | .tsu => match q.src with
    | .local => b.regCmd ⟨q.secure, q.priv, false⟩ 0xC010 true fun b =>
        (b.mCat .tsu fun c => c.mPort q.secure fun p => p.fill idx sub op).catLocal q idx sub op
    | _ => if b.live then net b else b

/-- CAT_READ (R318). -/
def execCatRead (q : CatReq) (e : EntryId) (staged : Bool) (s : State) : Host.Outcome State Fault Refusal :=
  s.run fun b => b.catRun q e.index.toNat e.sub.toNat (.read staged)

/-- CAT_WRITE (R318). -/
def execCatWrite (q : CatReq) (e : EntryId) (vtype : BitVec 8) (value : Bytes) (s : State) : Host.Outcome State Fault Refusal :=
  s.run fun b => b.catRun q e.index.toNat e.sub.toNat (.write vtype.toNat value)

/-- CAT_READ_BLOCK (R318). -/
def execCatReadBlock (q : CatReq) (e : EntryId) (offset : BitVec 32) (count : BitVec 16) (s : State) :
    Host.Outcome State Fault Refusal :=
  s.run fun b => b.catRun q e.index.toNat e.sub.toNat (.readBlock offset.toNat count.toNat)

/-- CAT_WRITE_BLOCK (R318). -/
def execCatWriteBlock (q : CatReq) (e : EntryId) (offset : BitVec 32) (data : Bytes) (last : Bool) (s : State) :
    Host.Outcome State Fault Refusal :=
  s.run fun b => b.catRun q e.index.toNat e.sub.toNat (.writeBlock offset.toNat data last)

/-- CAT_COMMIT (R313). -/
def execCatCommit (q : CatReq) (index : BitVec 16) (s : State) : Host.Outcome State Fault Refusal :=
  s.run fun b => b.catRun q index.toNat 0 .commit

/-- CAT_SUBSCRIBE (R325). -/
def execCatSubscribe (q : CatReq) (e : EntryId) (minInt lifetime : BitVec 16) (s : State) :
    Host.Outcome State Fault Refusal :=
  s.run fun b => b.catRun q e.index.toNat e.sub.toNat (.subscribe minInt lifetime)

/-! ### Rows that are one request -/

/-- A write of a U8 or BOOL command field. -/
def Block.catCmd (b : Block) (q : CatReq) (idx sub vtype n : Nat) : Block := b.catRun q idx sub (.write vtype (toLE 1 n))

/-- ROOT_MANUAL_START: 1 to root.manual.start (R94, R112). -/
def execRootManualStart (q : CatReq) (s : State) : Host.Outcome State Fault Refusal := s.run fun b => b.catCmd q 0x2231 2 1 1
/-- JOB_ARM: 1 to job.command (R136). -/
def execJobArm (q : CatReq) (s : State) : Host.Outcome State Fault Refusal := s.run fun b => b.catCmd q 0x3010 5 2 1
/-- JOB_COMMIT: 2 to job.command (R136). -/
def execJobCommit (q : CatReq) (s : State) : Host.Outcome State Fault Refusal := s.run fun b => b.catCmd q 0x3010 5 2 2
/-- JOB_ABORT: 3 to job.command (R136). -/
def execJobAbort (q : CatReq) (s : State) : Host.Outcome State Fault Refusal := s.run fun b => b.catCmd q 0x3010 5 2 3
/-- HBAR_COMMIT (R152). -/
def execHbarCommit (q : CatReq) (s : State) : Host.Outcome State Fault Refusal := s.run fun b => b.catRun q 0x3210 0 .commit
/-- GROUP_COMMIT (R156). -/
def execGroupCommit (q : CatReq) (s : State) : Host.Outcome State Fault Refusal := s.run fun b => b.catRun q 0x3220 0 .commit
/-- COBJ_COMMIT (R225). -/
def execCobjCommit (q : CatReq) (s : State) : Host.Outcome State Fault Refusal := s.run fun b => b.catRun q 0x4010 0 .commit
/-- HMEM_REGION_COMMIT (R264). -/
def execHmemRegionCommit (q : CatReq) (s : State) : Host.Outcome State Fault Refusal :=
  s.run fun b => b.catRun q 0x8010 0 .commit
/-- ADMIT_COMMIT (R405). -/
def execAdmitCommit (q : CatReq) (s : State) : Host.Outcome State Fault Refusal := s.run fun b => b.catRun q 0x7102 0 .commit
/-- TOPO_EXPECT_COMMIT: a write of topo.expect_pda (R400). -/
def execTopoExpectCommit (q : CatReq) (pda : BitVec 16) (s : State) : Host.Outcome State Fault Refusal :=
  s.run fun b => b.catRun q 0x7101 0 (.write 3 (toLE 2 pda.toNat))
/-- DIST_TOPO_COMMIT (R402). -/
def execDistTopoCommit (q : CatReq) (s : State) : Host.Outcome State Fault Refusal := s.run fun b => b.catRun q 0x7110 0 .commit
/-- IMG_TX_START: 1 to img.tx.command (R412). -/
def execImgTxStart (q : CatReq) (s : State) : Host.Outcome State Fault Refusal := s.run fun b => b.catCmd q 0x7210 7 2 1
/-- IMG_TX_COMMIT: 2 to img.tx.command (R417). -/
def execImgTxCommit (q : CatReq) (s : State) : Host.Outcome State Fault Refusal := s.run fun b => b.catCmd q 0x7210 7 2 2
/-- IMG_TX_ROLLBACK: 3 to img.tx.command (R417). -/
def execImgTxRollback (q : CatReq) (s : State) : Host.Outcome State Fault Refusal := s.run fun b => b.catCmd q 0x7210 7 2 3
/-- IMG_TAKEN: 1 to img.taken (R418). -/
def execImgTaken (q : CatReq) (s : State) : Host.Outcome State Fault Refusal := s.run fun b => b.catCmd q 0x7204 0 1 1
/-- MEM_COMMIT (R429). -/
def execMemCommit (q : CatReq) (s : State) : Host.Outcome State Fault Refusal := s.run fun b => b.catRun q 0x7130 0 .commit
/-- RM_COMMIT (R434). -/
def execRmCommit (q : CatReq) (s : State) : Host.Outcome State Fault Refusal := s.run fun b => b.catRun q 0x7132 0 .commit
/-- PURGE_COMMIT (R435). -/
def execPurgeCommit (q : CatReq) (s : State) : Host.Outcome State Fault Refusal := s.run fun b => b.catRun q 0x7133 0 .commit
/-- SEED_COMMIT (R436). -/
def execSeedCommit (q : CatReq) (s : State) : Host.Outcome State Fault Refusal := s.run fun b => b.catRun q 0x7134 0 .commit
/-- LDI_MAP_COMMIT (R426). -/
def execLdiMapCommit (q : CatReq) (s : State) : Host.Outcome State Fault Refusal := s.run fun b => b.catRun q 0x7120 0 .commit
/-- DIST_DRAIN: 1 to dist.drain (R439). -/
def execDistDrain (q : CatReq) (s : State) : Host.Outcome State Fault Refusal := s.run fun b => b.catCmd q 0x7150 1 1 1
/-- PORT_WAKE: 1 to port.wake of lane n (R456). -/
def execPortWake (q : CatReq) (n : Nat) (s : State) : Host.Outcome State Fault Refusal :=
  s.run fun b => b.catCmd q (0xA000 + n) 8 1 1
/-- CAT_SAVE: 1 to cat.save (R332). -/
def execCatSave (q : CatReq) (s : State) : Host.Outcome State Fault Refusal := s.run fun b => b.catCmd q 0x1020 5 1 1

end Sys2Proof.Machine
end

