-- ==== Sys2Proof/Machine/CatNet.lean ====
section
/-! DEFINITION. Rysaob (R317, R320-R325): messages over UDP and the tree, authentication, forwarding, subscriptions. -/

namespace Sys2Proof.Machine

open Sys2Proof

/-! ### Messages (R317, R318) -/

def byteAt (m : Bytes) (i : Nat) : Byte := m.getD i 0

/-- The fields of a message; a short one reads as padded with zeros. -/
def msgType (m : Bytes) : Nat := (byteAt m 1).toNat
def msgTid (m : Bytes) : BitVec 16 := BitVec.ofNat 16 (beAt m 4 2)
def msgLen (m : Bytes) : Nat := beAt m 6 2
def msgIndex (m : Bytes) : Nat := beAt m 8 2
def msgSub (m : Bytes) : Nat := (byteAt m 10).toNat
def msgDst (m : Bytes) : BitVec 24 := BitVec.ofNat 24 (beAt m 12 4)
def msgAuth (m : Bytes) : Bool := (byteAt m 2).getLsbD 1
def msgPay (m : Bytes) : Bytes := slice m 16 (msgLen m)
def msgSeq (m : Bytes) : Bytes := slice m (16 + msgLen m) 8

/-- A response or NOTIFY, which travels to the entry distributor. -/
def msgBack (m : Bytes) : Bool := decide (7 ≤ msgType m)

/-- The reserved and unused bits of a unit address are zero (R320). -/
def addrForm (a : BitVec 24) : Bool :=
  let tier := (a.extractLsb' 22 2).toNat
  let t2 := a.extractLsb' 16 4
  let t1 := a.extractLsb' 12 4
  let port := a.extractLsb' 0 8
  a == 0x100000 || (!a.getLsbD 20 && a.extractLsb' 8 4 == 0 && (tier == 0 || port == 0) && (decide (tier ≤ 1) || t1 == 0) &&
    (tier != 3 || t2 == 0))

/-- The payload of a request has the form R318 gives it. -/
def payForm (m : Bytes) : Bool :=
  let p := msgPay m
  let n := msgLen m
  match msgType m with
  | 1 => n == 0
  | 2 => decide (4 ≤ n) && byteAt p 1 == 0 && n == 4 + beAt p 2 2
  | 3 => n == 8 && beAt p 6 2 == 0
  | 4 => decide (8 ≤ n) && beAt p 6 2 == 0 && n == 8 + beAt p 4 2
  | 5 => n == 0
  | 6 => n == 4
  | _ => false

/-- A request in form (R317). -/
def msgForm (m : Bytes) : Bool :=
  let f := byteAt m 2
  decide (16 ≤ m.length) && !f.getLsbD 0 && f.extractLsb' 4 4 == 0 && byteAt m 3 == 0 && byteAt m 11 == 0 &&
    byteAt m 12 == 0 && decide (msgLen m ≤ 1040) && m.length == 16 + msgLen m + (if msgAuth m then 24 else 0) &&
    payForm m && addrForm (msgDst m)

/-- VERSION or BADMSG of a request that is not in form. -/
def msgBad (m : Bytes) : Option Byte :=
  if byteAt m 0 ≠ 1 then some caVERSION else if !msgForm m then some caBADMSG else none

/-- The request of a message in form, values turned into the image's encoding (R309). -/
def msgOp (m : Bytes) : CatOp :=
  let p := msgPay m
  let f := byteAt m 2
  match msgType m with
  | 1 => .read (f.getLsbD 3)
  | 2 => .write (byteAt p 0).toNat (wireValue (byteAt p 0).toNat (p.drop 4))
  | 3 => .readBlock (beAt p 0 4) (beAt p 4 2)
  | 4 => .writeBlock (beAt p 0 4) (p.drop 8) (f.getLsbD 2)
  | 5 => .commit
  | _ => .subscribe (BitVec.ofNat 16 (beAt p 0 2)) (BitVec.ofNat 16 (beAt p 2 2))

/-- cat.mac_key. -/
def Block.macKey (b : Block) : Bytes := b.catVal .dist 0x1030 1

/-- The MAC of a message up to the end of its SEQ (R323). -/
def Block.macOf (b : Block) (m : Bytes) : Bytes := (hmacSha256 b.macKey m).take 16

/-- A message with SEQ and MAC appended, and AUTH set. -/
def Block.sign (b : Block) (m seq : Bytes) : Bytes :=
  let d := m.take 2 ++ [byteAt m 2 ||| 2] ++ m.drop 3 ++ seq
  d ++ b.macOf d

/-- A response to the request with header `m`: type, TID, INDEX, SUB and DST come back. -/
def msgResp (m : Bytes) (status : Byte) (pay : Bytes) : Bytes :=
  [1, byteAt m 1 ||| 0x80, 1, status] ++ slice m 4 2 ++ toBE 2 pay.length ++ slice m 8 8 ++ pay

/-- Sends a response to a UDP source, authenticated where the request was (R324). -/
def Block.udpSend (b : Block) (src : UdpSource) (seq : Option Bytes) (m : Bytes) : Block :=
  b.emit (.udp src (match seq with | some s => b.sign m s | none => m))

/-! ### Addresses and routes (R320, R321) -/

/-- The distributor's own unit address. -/
def Block.myAddr (b : Block) : BitVec 24 :=
  let p := if b.dPlane = .B then 2 ^ 21 else 0
  BitVec.ofNat 24 (match b.dRole with
    | 1 => 2 ^ 22 + p + b.t2idx * 2 ^ 16 + b.t1idx * 2 ^ 12
    | 2 => 2 ^ 23 + p + b.t2idx * 2 ^ 16
    | 3 => 3 * 2 ^ 22 + p
    | _ => 0)

/-- The indices that an address names exist, and its plane is this distributor's. -/
def Block.addrHere (b : Block) (a : BitVec 24) : Bool :=
  a.getLsbD 21 == (b.dPlane == .B) && decide ((a.extractLsb' 16 4).toNat < 12) && decide ((a.extractLsb' 12 4).toNat < 12)

/-- Where a CTRL frame for an address goes next. -/
def Block.ctrlWay (b : Block) (a : BitVec 24) : HmWay :=
  let tier := (a.extractLsb' 22 2).toNat
  let t2 := (a.extractLsb' 16 4).toNat
  let t1 := (a.extractLsb' 12 4).toNat
  if b.dRole ≠ 0 ∧ a = b.myAddr then .here
  else match b.dRole with
    | 1 => if tier = 0 ∧ t2 = b.t2idx ∧ t1 = b.t1idx then .down (a.extractLsb' 0 8).toNat else .up
    | 2 => if tier ≤ 1 ∧ t2 = b.t2idx then .down t1 else .up
    | 3 => .down t2
    | _ => .up

/-- The lane on that way. -/
def Block.ctrlLane (b : Block) (a : BitVec 24) : Option Nat :=
  match b.ctrlWay a with
  | .here => none
  | .down c => b.childLane c
  | .up => if b.dRole = 3 then none else b.upLane

/-- Sends a CTRL frame towards an address: NOROUTE or UNSUPPORTED where it cannot go. -/
def Block.ctrlSend (b : Block) (a : BitVec 24) (w : Bool) (csf : BitVec 48) (m : Bytes) : Option Byte × Block :=
  if !b.addrHere a then (some caNOROUTE, b)
  else match b.ctrlLane a with
  | none => (some caNOROUTE, b)
  | some n =>
    if !(b.lane (.dist n)).reg.featEff.getLsbD (frameFeature (.ctrl csf m)) then (some caUNSUPPORTED, b)
    else (none, b.send (.dist n) w (.ctrl csf m))

/-- The entry distributor and the tag of a CTRL frame. -/
def csfEntry (csf : BitVec 48) : BitVec 24 := csf.extractLsb' 24 24
def csfTag (csf : BitVec 48) : Nat := (csf.extractLsb' 0 24).toNat

/-! ### The entry distributor (R321) -/

/-- A tag that no forwarded message and no relayed subscription uses, from the last one on. -/
def CatSt.freeTag (c : CatSt) : Nat :=
  (((List.range 65536).map fun i => (c.fwdTag + i) % 2 ^ 24).find? fun t =>
    (smGet none c.fwds t).isNone && (smGet none c.relays t).isNone).getD c.fwdTag

/-- The tag of a SUBSCRIBE that renews a relayed subscription, or a new one. -/
def CatSt.tagFor (c : CatSt) (src : UdpSource) (m : Bytes) : Nat :=
  let mine := c.relays.find? fun e => match e.2 with
    | some r => r.src == src && r.key == slice m 8 8 && (smGet none c.fwds e.1).isNone
    | none => false
  match mine with
  | some e => if msgType m = 6 then e.1 else c.freeTag
  | none => c.freeTag

/-- Forwards a message over the tree and awaits its response. -/
def Block.catForward (b : Block) (src : UdpSource) (m : Bytes) (w : Bool) (seq : Option Bytes) : Block :=
  let c := b.dist.cat
  let fail (b : Block) (s : Byte) := b.udpSend src seq (msgResp m s [])
  if 256 ≤ c.fwds.length then fail b caBUSY
  else
    let t := c.tagFor src m
    let csf : BitVec 48 := b.myAddr ++ BitVec.ofNat 24 t
    let life := if msgType m = 6 then some (BitVec.ofNat 16 (beAt (msgPay m) 2 2)) else none
    let f : Fwd := ⟨src, m.take 16, seq, life, b.dist.time.tc64⟩
    let r := (b.mCat .dist fun c => { c with fwds := smPut none c.fwds t (some f), fwdTag := (t + 1) % 2 ^ 24 }).ctrlSend
      (msgDst m) w csf m
    match r.1 with
    | none => r.2
    | some s => fail b s

/-- Serves a message at this distributor, or forwards it. -/
def Block.udpServe (b : Block) (src : UdpSource) (m : Bytes) (w : Bool) (seq : Option Bytes) : Block :=
  let dst := msgDst m
  if dst = 0x100000 ∨ b.ctrlWay dst = .here then
    let q : CatReq := ⟨.dist, .udp, w, if w then 3 else 1, msgTid m⟩
    let r := b.catDo q (.udp src w) true (msgIndex m) (msgSub m) (msgOp m)
    r.2.udpSend src seq (msgResp m r.1.status (r.1.payload (msgOp m)))
  else b.catForward src m w seq

/-- SEQ is acceptable (R324). -/
def Block.seqOk (b : Block) (seq : Nat) : Bool :=
  let now := (tc64ToHt96 b.dist.time.epoch b.dist.time.tc64).sec.toNat
  decide (b.dist.cat.macLast.toNat < seq) &&
    (!b.dist.time.timeValid ||
      decide (((seq / 2 ^ 24 : Nat) - (now : Int)).natAbs ≤ b.catNat .dist 0x1030 4))

/-- UDP_MESSAGE_RECEIVE (R317, R321, R323, R324). -/
def Block.udpRx (b : Block) (src : UdpSource) (m : Bytes) : Block :=
  match msgBad m with
  | some s => b.udpSend src none (msgResp m s [])
  | none =>
    if !msgAuth m then b.udpServe src m false none
    else
      let n := 16 + msgLen m + 8
      let seq := msgSeq m
      if allZero b.macKey || b.macOf (m.take n) != m.drop n then
        (b.mCat .dist fun c => { c with authFail := sat1 c.authFail }).udpSend src (some seq) (msgResp m caAUTH [])
      else if !b.seqOk (ofBE seq) then b.udpSend src (some seq) (msgResp m caREPLAY [])
      else (b.mCat .dist fun c => { c with macLast := BitVec.ofNat 64 (ofBE seq) }).udpServe src m true (some seq)

def execUdpMessageReceive (src : UdpSource) (msg : Bytes) (s : State) : Host.Outcome State Fault Refusal :=
  s.run fun b => if b.distServes then b.udpRx src msg else b

/-- The lifetime of a subscription has passed (R325). -/
def lifeOver (now since : Tick) (life : BitVec 16) : Bool := decide ((life.toNat * 1250000000 : Int) ≤ Tick.diff now since)

/-- A response or NOTIFY has come back to its entry distributor. -/
def Block.catReturn (b : Block) (tag : Nat) (m : Bytes) : Block :=
  let c := b.dist.cat
  let now := b.dist.time.tc64
  if msgType m = 7 then
    match smGet none c.relays tag with
    | none => b
    | some r =>
      if lifeOver now r.since r.life then b.mCat .dist fun c => { c with relays := smPut none c.relays tag none }
      else if r.auth then
        let (x, b) := b.draw
        b.udpSend r.src (some (toBE 8 x.toNat)) m
      else b.udpSend r.src none m
  else match smGet none c.fwds tag with
  | none => b
  | some f =>
    let relay : Option (Option Relay) := match f.life with
      | none => none
      | some l =>
        if byteAt m 3 ≠ caOK then none
        else if l = 0 then some none
        else some (some ⟨f.src, slice f.head 8 8, f.seq.isSome, now, l⟩)
    (b.mCat .dist fun c => { c with
      fwds := smPut none c.fwds tag none
      relays := match relay with | none => c.relays | some r => smPut none c.relays tag r }).udpSend f.src f.seq m

/-- FWD_TIMEOUT: no response within cat.fwd_timeout (R321). -/
def Block.fwdTimeout (b : Block) (tag : Nat) : Block :=
  match smGet none b.dist.cat.fwds tag with
  | none => b
  | some f =>
    if Tick.diff b.dist.time.tc64 f.at_ < (b.catNat .dist 0x1031 0 : Int) then b
    else (b.mCat .dist fun c => { c with fwds := smPut none c.fwds tag none }).udpSend f.src f.seq (msgResp f.head caTIMEOUT [])

def execFwdTimeout (tag : BitVec 24) (s : State) : Host.Outcome State Fault Refusal := s.run fun b => b.fwdTimeout tag.toNat

/-! ### The tree (R321, R322) -/

/-- Serves a CTRL message at a unit: its response. -/
def Block.ctrlServe (b : Block) (u : UnitRef) (w : Bool) (csf : BitVec 48) (m : Bytes) : Bytes × Block :=
  match msgBad m with
  | some s => (msgResp m s [], b)
  | none =>
    let q : CatReq := ⟨u, .tree, w, if w then 3 else 1, msgTid m⟩
    let r := b.catDo q (.tree csf w) true (msgIndex m) (msgSub m) (msgOp m)
    (msgResp m r.1.status (r.1.payload (msgOp m)), r.2)

/-- Sends a message back towards its entry distributor. -/
def Block.ctrlBack (b : Block) (w : Bool) (csf : BitVec 48) (m : Bytes) : Block := (b.ctrlSend (csfEntry csf) w csf m).2

/-- A CTRL message at a distributor. One without a role serves what its parent sends it (R422, log entry 50). -/
def Block.ctrlDist (b : Block) (n : Nat) (w : Bool) (csf : BitVec 48) (m : Bytes) : Block :=
  if msgBack m then
    if csfEntry csf = b.myAddr then b.catReturn (csfTag csf) m else b.ctrlBack w csf m
  else if b.dRole = 0 ∧ 288 ≤ n then
    let r := b.ctrlServe .dist w csf m
    r.2.send (.dist n) w (.ctrl csf r.1)
  else if b.ctrlWay (msgDst m) = .here then
    let r := b.ctrlServe .dist w csf m
    r.2.ctrlBack w csf r.1
  else match b.ctrlSend (msgDst m) w csf m with
  | (none, b) => b
  | (some s, b) => b.ctrlBack w csf (msgResp m s [])

/-- DST is this die's PDA on the lane's plane (R320). -/
def Block.ctrlMine (b : Block) (p : Plane) (a : BitVec 24) : Bool :=
  (a.extractLsb' 22 2 == 0) && a.getLsbD 21 == (p == .B) && !a.getLsbD 20 &&
    a.extractLsb' 16 4 ++ a.extractLsb' 12 4 ++ a.extractLsb' 0 8 == b.myPda p

/-- CTRL_FRAME_RECEIVE (R321, R322). -/
def execCtrlFrameReceive (l : LaneRef) (h : Hdr) (csf : BitVec 48) (msg : Bytes) (s : State) :
    Host.Outcome State Fault Refusal :=
  s.runLane l fun b => b.rx l h 5 (frameFeature (.ctrl csf msg)) false fun b =>
    match l with
    | .tsu p =>
      if msgBack msg || !b.ctrlMine p (msgDst msg) then b
      else
        let r := b.ctrlServe .tsu h.w csf msg
        r.2.send l h.w (.ctrl csf r.1)
    | .dist n => if b.distServes then b.ctrlDist n h.w csf msg else b

/-! ### NOTIFY (R325) -/

/-- A NOTIFY; its TID and DST are free (log entry 51). -/
def Block.notifyMsg (b : Block) (s : Sub) (vtype : Nat) (v : Bytes) (stamp : Tick) : Bytes × Block :=
  let (x, b) := b.draw
  let pay := toBE 4 s.nseq.toNat ++ toBE 8 stamp.toNat ++ [BitVec.ofNat 8 vtype, 0] ++ toBE 2 v.length ++ wireValue vtype v
  ([1, 7, 0, 0] ++ toBE 2 (x.extractLsb' 0 16).toNat ++ toBE 2 pay.length ++ toBE 2 s.entry.index.toNat ++
    [s.entry.sub, 0, 0] ++ toBE 3 (x.extractLsb' 16 24).toNat ++ pay, b)

/-- Sends NOTIFY to the subscriber. -/
def Block.notify (b : Block) (u : UnitRef) (n : Nat) (s : Sub) (vtype : Nat) (v : Bytes) : Block :=
  match s.who with
  | .world secure => b.mCat .tsu fun c => c.mPort secure fun p => { p with pend := p.pend ||| (1#16 <<< (n % 16)) }
  | .tree csf w =>
    let (m, b) := b.notifyMsg s vtype v (b.tcOf u)
    match u with
    | .tsu => b.send (.tsu (if (csfEntry csf).getLsbD 21 then .B else .A)) w (.ctrl csf m)
    | .dist => if b.dRole = 0 then b.sendUp w (.ctrl csf m) else b.ctrlBack w csf m
  | .udp src auth =>
    let (m, b) := b.notifyMsg s vtype v (b.tcOf u)
    if auth then
      let (x, b) := b.draw
      b.udpSend src (some (toBE 8 x.toNat)) m
    else b.udpSend src none m

/-- The subscribed entry's type and value; none where it has become absent. -/
def Block.subValue (b : Block) (u : UnitRef) (e : EntryId) : Option (Nat × Bytes) × Block :=
  match b.catFind u e.index.toNat e.sub.toNat with
  | .ent r =>
    let x := b.catSlice u e.index.toNat e.sub.toNat r 0 r.size
    (some (r.vtype, x.1), x.2)
  | .record hi => (some (12, toLE 1 hi), b)
  | .commit => (some (2, [0]), b)
  | _ => (none, b)

/-- The unit runs its Catalogue. -/
def Block.catRuns (b : Block) (u : UnitRef) : Bool := match u with | .tsu => b.live | .dist => b.distServes

/-- NOTIFY_SAMPLE: MIN_INT has passed since the last sample. -/
def Block.notifySample (b : Block) (u : UnitRef) (n : Nat) : Block :=
  let now := b.tcOf u
  let put (b : Block) (s : Option Sub) := b.mCat u fun c => { c with subs := smPut none c.subs n s }
  match smGet none (b.catOf u).subs n with
  | none => b
  | some s =>
    if !b.catRuns u || decide (Tick.diff now s.sampled < (s.minInt.toNat * 2 ^ 20 : Nat)) then b
    else match b.subValue u s.entry with
    | (none, b) => put b none
    | (some (vt, v), b) =>
      if s.last = some v then put b (some { s with sampled := now })
      else (put b (some { s with sampled := now, last := some v, nseq := s.nseq + 1 })).notify u n s vt v

def execNotifySample (u : UnitRef) (n : Nat) (s : State) : Host.Outcome State Fault Refusal := s.run fun b => b.notifySample u n

/-- SUBSCRIPTION_EXPIRE: LIFETIME has passed. -/
def Block.subExpire (b : Block) (u : UnitRef) (n : Nat) : Block :=
  match smGet none (b.catOf u).subs n with
  | none => b
  | some s =>
    if b.catRuns u && lifeOver (b.tcOf u) s.since s.lifetime then
      b.mCat u fun c => { c with subs := smPut none c.subs n none }
    else b

def execSubscriptionExpire (u : UnitRef) (n : Nat) (s : State) : Host.Outcome State Fault Refusal :=
  s.run fun b => b.subExpire u n

end Sys2Proof.Machine
end

