-- ==== Sys2Proof/Machine/CatLoad.lean ====
section
/-! DEFINITION. The load of a unit's Catalogue image at start-up (R327-R332, R469, R441). -/

namespace Sys2Proof.Machine

open Sys2Proof

/-! ### Parsing (R328, R329) -/

/-- An entry of an image: index, sub-index, type and value. -/
structure ImgEnt where
  idx : Nat
  sub : Nat
  vtype : Nat
  v : Bytes
  deriving DecidableEq, Repr

/-- The bytes of an entry's value. A SIZE of 0 for ldi.map stands for its 131,072 bytes (log entry 45). -/
def imgEntSize (d : Bytes) : Nat :=
  let n := leAt d 4 2
  if n = 0 ∧ leAt d 0 2 = 0x7120 ∧ leAt d 2 1 = 1 then 131072 else n

/-- The entries of a body up to its end mark, and whether one lies past LEN; `n` bounds their number. -/
def imgEnts : Nat → Bytes → List ImgEnt × Bool
  | 0, _ => ([], true)
  | n + 1, d =>
    if d.length < 8 then ([], true)
    else if leAt d 0 2 = 0xFFFF then ([], false)
    else
      let k := imgEntSize d
      if d.length < 8 + k then ([], true)
      else
        let r := imgEnts n (d.drop (8 + (k + 3) / 4 * 4))
        (⟨leAt d 0 2, leAt d 2 1, leAt d 3 1, (d.drop 8).take k⟩ :: r.1, r.2)

/-- The entry is one that the unit loads. -/
def Block.imgEntOf (b : Block) (u : UnitRef) (e : ImgEnt) : Option CatEnt :=
  match b.catFind u e.idx e.sub with
  | .ent r => if b.catPersists u e.idx e.sub r then some r else none
  | _ => none

/-- Checks the entries in order: the first failing reason, and the number skipped. -/
def Block.imgCheck (b : Block) (u : UnitRef) : List ImgEnt → Nat → Option Nat × Nat
  | [], k => (none, k)
  | e :: t, k => match b.imgEntOf u e with
    | none => Block.imgCheck b u t (k + 1)
    | some r =>
      if e.vtype ≠ r.vtype ∨ e.v.length ≠ r.size then (some 6, k)
      else match b.catBad u e.idx e.sub r e.v with
        | some _ => (some 7, k)
        | none => Block.imgCheck b u t k

/-- Reasons 2 to 5, of the header, the length, the check word and the target; 0 none. -/
def imgOuter (dist : Bool) (unitId : BitVec 64) (d : Bytes) : Nat :=
  if !imgHdrOk d (some dist) || imgType d != 1 then 2
  else if d.length < 36 + imgLen d ∨ 262144 < 36 + imgLen d then 3
  else if !imgCrcOk d then 4
  else if imgId d ≠ 0 ∧ imgId d ≠ unitId then 5
  else 0

/-! ### Applying (R313, R329, R441, R469) -/

/-- An image that is being loaded stands as a secure request with PRIV 3. -/
def loadReq (u : UnitRef) : CatReq := ⟨u, .local, true, 3, 0⟩

/-- The records that set up objects when they are applied. -/
def objRecords : UnitRef → List Nat
  | .tsu => []
  | .dist => [0x3210, 0x3220, 0x4010, 0x8010]

/-- Applies the records with entries in the image; a failing rule gives reason 8. -/
def Block.imgRecords (b : Block) (u : UnitRef) (es : List ImgEnt) : List Nat → Option Block
  | [] => some b
  | i :: t =>
    let st := (es.filter fun e => e.idx == i).map fun e => (e.sub, e.v)
    if st.isEmpty then Block.imgRecords b u es t
    else
      let r := b.recRule (loadReq u) i 1 (b.recVals u i st.reverse)
      if r.1 = caOK then Block.imgRecords r.2 u es t else none

/-- Sets the entries' values; a later duplicate wins. -/
def Block.imgPut (b : Block) (u : UnitRef) (es : List ImgEnt) : Block :=
  let g := b.tsu.gnt
  let b := b.each es fun b e => if (b.imgEntOf u e).isSome then b.catPut u e.idx e.sub e.v else b
  if u = .tsu ∧ b.tsu.gnt ≠ g then b.gntGen else b

/-- topo.role and topo.plane of an image are known before its entries are checked, since they decide which entries the unit
holds (log entry 52). -/
def Block.imgRole (b : Block) (es : List ImgEnt) : Block :=
  b.each (es.filter fun e => e.idx == 0x7110 && (e.sub == 1 || e.sub == 2) && e.v.length == 1) fun b e =>
    b.catSet .dist 0x7110 e.sub e.v

/-- Loads an image whose outer checks have passed: the failing reason, or the block with everything applied. -/
def Block.imgLoad (b : Block) (u : UnitRef) (d : Bytes) : Nat ⊕ Block :=
  let (es, past) := imgEnts 65536 ((d.drop 32).take (imgLen d))
  let b := if u = .dist then b.imgRole es else b
  match b.imgCheck u es 0 with
  | (some r, _) => .inl r
  | (none, skipped) =>
    if past then .inl 3
    else
      let b := b.imgPut u es
      match b.imgRecords u (es.filter fun e => (b.imgEntOf u e).isSome) (objRecords u) with
      | none => .inl 8
      | some b => .inr (b.mCat u fun c => { c with
          skipped := if skipped < 65536 then BitVec.ofNat 16 skipped else 0xFFFF
          check := BitVec.ofNat 32 (leAt d (32 + imgLen d) 4), imageId := imgId d, generation := BitVec.ofNat 32 (imgGen d)
          reason := 0 })

/-! ### Start-up entries (R469) -/

/-- A lane's fields, and its ENABLE last. -/
def Block.laneStart (b : Block) (l : LaneRef) : Block :=
  let u := laneUnit l
  let i := eqIndex l
  let b := b.mReg l fun r => { r with
    cableClass := BitVec.ofNat 4 (b.catNat u i 2), refineEn := b.catNat u i 3 == 1, fastStart := b.catNat u i 4 == 1
    delayWin := BitVec.ofNat 16 (b.catNat u i 6) }
  if b.catNat u i 1 = 1 then b.laneEnable l else b.laneDisable l

/-- The start-up entries of a TSU load their fields. -/
def Block.tsuStart (b : Block) : Block :=
  let mask := BitVec.ofNat 64 (b.catNat .tsu 0x2010 3)
  let b := b.mSpine fun s => { s with trackEn := b.catNat .tsu 0x2010 2 == 1 }
  let b := b.each (List.range 64) fun b n => b.mEp n fun e => { e with en := mask.getLsbD n }
  let d (sub : Nat) := b.catNat .tsu 0x3100 sub
  let b := b.each (List.range 64) fun b c => b.mCtxReg c fun r => { r with
    slack := BitVec.ofNat 16 (d 1), attemptMax := BitVec.ofNat 8 (d 2), brimInit := BitVec.ofNat 16 (d 3)
    margin := BitVec.ofNat 16 (d 4), winLog := BitVec.ofNat 4 (d 5) }
  let b := b.each (List.range 8) fun b n => b.mDmCh n fun c => { c with quota := BitVec.ofNat 7 (b.catNat .tsu 0x5002 (n + 1)) }
  let b := b.each (List.range 64) fun b n => b.mStrCh n fun c => { c with world := b.catNat .tsu 0x5103 (n + 1) == 1 }
  let b := b.mDbg fun d => { d with level := if d.level = 0 then BitVec.ofNat 2 (b.catNat .tsu 0x6102 0) else d.level }
  ((b.laneStart (.tsu .A)).laneStart (.tsu .B)).tsuTopo

/-- The load of a TSU ends (R331): with an image, or with the defaults and their reason. Calibration follows (R394). -/
def Block.tsuLoaded (b : Block) (r : Nat ⊕ Block) : Block :=
  let b := match r with
    | .inr b => b.mCat .tsu fun c => { c with lstate := 2 }
    | .inl n => b.mCat .tsu fun c => { c with lstate := 3, defaulted := true, reason := BitVec.ofNat 4 n }
  b.tsuStart.cdcStart .tsu

/-! ### The TSU's commands (R331) -/

/-- LOAD: the image is fetched in the secure world. -/
def Block.catLoadStart (b : Block) : Block :=
  let c := b.tsu.cat
  if c.lstate ≠ 0 then b
  else (b.mCat .tsu fun c => { c with lstate := 1 }).emit (.hmRead c.imgAddr c.imgLen.toNat 16 true 3)

/-- DEFAULT: the defaults at once, with reason 10. -/
def Block.catDefaults (b : Block) : Block := if b.tsu.cat.lstate ≠ 0 then b else b.tsuLoaded (.inl 10)

/-- CAT_IMAGE_LOAD. -/
def execCatImageLoad (a : Access) (s : State) : Host.Outcome State Fault Refusal :=
  s.run fun b => b.regCmd (portReq a) 0xC808 true Block.catLoadStart

/-- CAT_DEFAULT. -/
def execCatDefault (a : Access) (s : State) : Host.Outcome State Fault Refusal :=
  s.run fun b => b.regCmd (portReq a) 0xC808 true Block.catDefaults

/-- CAT_IMAGE_FETCHED (R329). -/
def execCatImageFetched (resp : BitVec 2) (img : Bytes) (s : State) : Host.Outcome State Fault Refusal :=
  s.run fun b =>
    if b.tsu.cat.lstate ≠ 1 then b
    else if resp ≠ 0 then b.tsuLoaded (.inl 9)
    else match imgOuter false b.tsu.boot.unitId img with
      | 0 => b.tsuLoaded (b.imgLoad .tsu img)
      | r => b.tsuLoaded (.inl r)

/-- CAT_LOAD_TIMEOUT: 1 s after release of TSU_RST_N (R331). -/
def execCatLoadTimeout (s : State) : Host.Outcome State Fault Refusal :=
  s.run fun b => if b.live && b.tsu.cat.lstate == 0 && b.due 1250000000 then b.tsuLoaded (.inl 1) else b

/-! ### The distributor (R332, R398, R441) -/

/-- Tries the slots in order: the slot loaded and the block, or the reason of the first. -/
def Block.distTry (b : Block) : List (Nat × Bytes) → Nat → (Nat × Block) ⊕ Nat
  | [], r => .inr r
  | (i, d) :: t, r =>
    match imgOuter true b.dist.boot.unitId d with
    | 0 => match b.imgLoad .dist d with
      | .inr b' => .inl (i, b')
      | .inl e => Block.distTry b t (if r = 0 then e else r)
    | e => Block.distTry b t (if r = 0 then e else r)

/-- Objects that the Catalogue loads are dormant (R441). -/
def Block.dormantAll (b : Block) : Block :=
  b.mObjs fun o => { o with
    bars := smMap {} (fun x => { x with dormant := true }) o.bars
    cobjs := smMap {} (fun x => { x with dormant := true }) o.cobjs }

/-- The load ends: fields and lanes start, calibration follows. servo.bandwidth that no image holds takes the default of
the role (R111). -/
def Block.distStart (b : Block) : Block :=
  let b := b.mDBoot fun d => { d with catLoaded := true }
  let b := b.mMod fun m => { m with refOn := b.dRole == 3 }
  let b := b.each (List.range 312) fun b n => b.laneStart (.dist n)
  (if b.dRole = 3 then b.runNominal else b).octets.cdcStart .dist

/-- The slot of the higher GEN first. -/
def slotOrder (d0 d1 : Bytes) : List (Nat × Bytes) := if imgGen d0 < imgGen d1 then [(1, d1), (0, d0)] else [(0, d0), (1, d1)]

/-- An image holds an entry. -/
def imgHas (idx sub : Nat) (d : Bytes) : Bool :=
  ((imgEnts 65536 ((d.drop 32).take (imgLen d))).1).any fun e => e.idx == idx && e.sub == sub

/-- DIST_CAT_LOAD_DONE: `slots` is what flash slots 0 and 1 held before the model's first write of them; an empty string
leaves what the model has written there. -/
def Block.distLoad (b : Block) (slots : List Bytes) : Block :=
  if !b.dist.mod.powered || !b.dist.boot.fwBooted || b.dist.boot.catLoaded then b
  else
    let at_ (i : Nat) (own : Bytes) : Bytes := match slots.getD i [] with | [] => own | d => d
    let b := b.mCat .dist fun c => { c with flash0 := at_ 0 c.flash0, flash1 := at_ 1 c.flash1 }
    let ss := slotOrder b.dist.cat.flash0 b.dist.cat.flash1
    match b.distTry ss 0 with
    | .inl (i, b) =>
      let d := if i = 0 then b.dist.cat.flash0 else b.dist.cat.flash1
      let b := b.mCat .dist fun c => { c with lstate := 2, inUse := i }
      let b := if b.dRole = 3 ∧ !imgHas 0x2104 2 d then b.mServo .dist fun s => { s with bw := 2 } else b
      b.dormantAll.distStart
    | .inr r => (b.mCat .dist fun c => { c with lstate := 3, defaulted := true, reason := BitVec.ofNat 4 r }).distStart

def execDistCatLoadDone (slots : List Bytes) (s : State) : Host.Outcome State Fault Refusal := s.run fun b => b.distLoad slots

end Sys2Proof.Machine
end

