-- ==== Sys2Proof/Machine/Telemetry.lean ====
section
/-! DEFINITION. Telemetry records (R387). -/

namespace Sys2Proof.Machine

open Sys2Proof

/-- PERIOD_LOG, limited to 16 to 30. -/
def Tel.periodLog (t : Tel) : Nat := if t.period.toNat < 16 then 16 else if 30 < t.period.toNat then 30 else t.period.toNat

/-- θ of a plane in TDC units, saturating; the marker where its estimator is invalid. -/
def Block.thetaOf (b : Block) (p : Plane) : BitVec 32 :=
  if b.estValid (.tsu p) then satI 32 (b.lane (.tsu p)).sync.est else 0x80000000

/-- The 64 bytes of a record. -/
def Block.telRecord (b : Block) : Bytes :=
  let t := b.tsu
  let w (x : BitVec 32) : Bytes := toLE 4 x.toNat
  let ka := t.laneA.link
  let kb := t.laneB.link
  toLE 8 t.time.tc64.toNat ++ w t.servo.ffo ++ w (b.thetaOf .A) ++ w (b.thetaOf .B) ++ w t.servo.delta ++
    [t.servo.state.code.setWidth 8, t.pwr.st.code.setWidth 8] ++ toLE 2 b.maxDev ++
    w (ka.cnt.fecCorr - ka.telCorr) ++ w (kb.cnt.fecCorr - kb.telCorr) ++ w (ka.cnt.replay - ka.telReplay) ++
    w (kb.cnt.replay - kb.telReplay) ++ w ((ka.cnt.syncDrop - ka.telDrop) + (kb.cnt.syncDrop - kb.telDrop)) ++
    w t.gnt.vCnt ++ w t.pwr.engStarts ++ w t.coll.notOk ++ w t.tel.seq

/-- The next record counts from here. -/
def LaneLink.telBase (k : LaneLink) : LaneLink :=
  { k with telCorr := k.cnt.fecCorr, telReplay := k.cnt.replay, telDrop := k.cnt.syncDrop }

/-- A record falls due: EN, TIME_VALID, and TC64 a multiple of 2^PERIOD_LOG. -/
def Block.telDue (b : Block) : Bool :=
  b.live && b.tsu.tel.en && b.timeOk && b.tc.toNat % 2 ^ b.tsu.tel.periodLog == 0

/-- A record is formed and offered to its channel. -/
def Block.telemetry (b : Block) : Block :=
  if !b.telDue then b
  else
    let r := b.telRecord
    let b := (b.mLink (.tsu .A) LaneLink.telBase).mLink (.tsu .B) LaneLink.telBase
    let b := b.mTsu fun t => { t with tel := { t.tel with seq := t.tel.seq + 1 } }
    b.present .telemetry b.tsu.tel.ch.toNat r

/-- TELEMETRY_RECORD (R387). -/
def execTelemetryRecord (s : State) : Host.Outcome State Fault Refusal := s.run Block.telemetry

end Sys2Proof.Machine
end

