-- ==== Sys2Proof/Machine/RegRead.lean ====
section
/-! DEFINITION. What the register window holds (R358): the value of every 64-bit cell, with two 32-bit registers where an
array packs them, as an access of a given world reads it. Gaps inside an assigned range read zero (R9). -/

namespace Sys2Proof.Machine

open Sys2Proof

/-- The ranges that the window assigns (R358): first offset and the offset after the last. -/
def regRanges : List (Nat × Nat) :=
  [(0x0, 0x1000), (0x1000, 0x1460), (0x2000, 0x2204), (0x3000, 0x3010), (0x4000, 0x4300), (0x5000, 0x5030),
   (0x6000, 0x6030), (0x7000, 0x7020), (0x7100, 0x7120), (0x7800, 0x7E00), (0x8000, 0x8828)] ++
  [(0x9000, 0x9850), (0xA000, 0xA900), (0xB000, 0xB900), (0xC000, 0xC818), (0xD000, 0xD048), (0xE000, 0xE158),
   (0xF000, 0xF800), (0xF800, 0xF810), (0x100000, 0x110000), (0x400000, 0x800000)]

/-- The window assigns the offset. -/
def regAssigned (addr : Nat) : Bool := regRanges.any fun r => decide (r.1 ≤ addr) && decide (addr < r.2)

/-- Two 32-bit registers in one cell. -/
def pair32 (lo hi : BitVec 64) : BitVec 64 := (hi <<< 32) ||| (lo &&& 0xFFFFFFFF)

/-- A number into a cell. -/
def cell (n : Nat) : BitVec 64 := BitVec.ofNat 64 n

/-- The cell of a byte string at byte `o`. -/
def cellAt (v : Bytes) (o : Nat) : BitVec 64 := cell (leAt v o 8)

/-- One bit for each context that meets `p`, as an access sees it: the bit of a secure context reads 0 to a non-secure
access (R142). -/
def Block.ctxBits (b : Block) (q : Req) (p : Ctx → Bool) : BitVec 64 :=
  b.tsu.ctxs.foldl (fun w e => if p e.2 && worldOk q e.2.world then setBit64 w e.1 true else w) 0

/-! ### Identity and status (R386, R421) -/

/-- TSU_SUMMARY. -/
def Block.summaryWord (b : Block) : BitVec 64 :=
  let t := b.tsu
  putB 0 t.time.timeValid ||| putB 1 t.time.promise ||| putB 2 t.cat.defaulted ||| putB 3 t.tm.initDone |||
    putB 4 t.boot.fuseErr ||| putB 5 t.boot.crAck ||| putB 6 b.armedAny ||| putB 7 t.pwr.pwrLost ||| put 8 t.pwr.st.code

def Block.rdId (b : Block) (q : Req) : Nat → BitVec 64
  | 0x00 => 0x03C05A54
  | 0x08 => b.tsu.boot.unitId
  | 0x10 => b.summaryWord
  | 0x18 => put 0 (b.irqBlocks q.secure) ||| (if q.secure then put 16 b.faultBlocks else 0)
  | 0x20 => b.bootWord
  | 0x28 => put 0 b.tsu.boot.ldi ||| put 16 (BitVec.ofNat 16 (b.catNat .tsu 0x7101 0)) ||| put 32 b.tsu.boot.ep
  | 0x30 =>
    let t := b.tsu.boot
    putB 0 t.inCloak ||| putB 1 t.exitPend ||| put 8 t.crCnt ||| putB 24 t.lostAck
  | _ => 0

/-! ### Time, vitrine, spine and servo (R35, R36, R110) -/

/-- TSU_SPINE_EPn. -/
def Endpoint.word (e : Endpoint) : BitVec 64 :=
  putB 0 e.en ||| putB 1 e.calOk ||| putB 2 e.fault ||| put 4 e.lat ||| put 8 e.trim ||| put 24 e.resid

/-- TSU_RST_EPn (R141). -/
def Endpoint.rstWord (e : Endpoint) : BitVec 64 :=
  put 0 e.rtrim ||| putB 12 e.rstOk ||| putB 13 e.rstFault ||| put 24 e.rresid

/-- The two registers of an endpoint array that a cell at offset `o` of the array holds. -/
def Block.epPair (b : Block) (o : Nat) (f : Endpoint → BitVec 64) : BitVec 64 :=
  pair32 (f (b.ep (o / 4))) (f (b.ep (o / 4 + 1)))

/-- TSU_SERVO_CTRL. -/
def Servo.ctrlWord (s : Servo) : BitVec 64 :=
  putB 0 s.lossMode ||| putB 1 s.revert ||| putB 2 s.planePref ||| putB 3 s.stepArm ||| put 4 s.bw ||| put 8 s.force

/-- TSU_SERVO_STATUS. -/
def Block.servoWord (b : Block) : BitVec 64 :=
  put 0 b.tsu.servo.state.code ||| putB 3 (b.estValid (.tsu .A)) ||| putB 4 (b.estValid (.tsu .B)) |||
    putB 5 (b.selectable .A) ||| putB 6 (b.selectable .B) ||| putB 7 b.tsu.servo.slewClamp ||| put 8 b.servoBits

/-- TSU_SERVO_RX_A and TSU_SERVO_RX_B. -/
def ServoRx.word (r : ServoRx) : BitVec 64 :=
  put 0 r.rql ||| put 4 r.rsrc ||| putB 7 r.mst ||| putB 8 r.tlk ||| put 9 r.ridx

def Block.rdServo (b : Block) : Nat → BitVec 64
  | 0x1400 => b.tsu.servo.ctrlWord
  | 0x1408 => put 0 b.tsu.servo.slew
  | 0x1410 => put 0 b.tsu.servo.reacqSlew
  | 0x1418 => put 0 b.tsu.servo.lockThr ||| put 16 b.tsu.servo.unlockThr
  | 0x1420 => b.servoWord
  | 0x1428 => put 0 b.tsu.servo.ffo
  | 0x1430 => put 0 b.tsu.servo.holdFfo
  | 0x1438 => put 0 b.tsu.servo.delta
  | 0x1440 => b.tsu.laneA.sync.rx.word
  | 0x1448 => b.tsu.laneB.sync.rx.word
  | 0x1450 => put 8 b.tsu.servo.irqEn
  | 0x1458 => put 0 b.tsu.servo.switchCnt
  | _ => 0

def VitBank.rd (v : VitBank) : Nat → BitVec 64
  | 0x1040 => putB 1 v.armAt ||| putB 2 v.onDisc ||| putB 8 v.past
  | 0x1048 => v.at_
  | 0x1050 => put 0 v.seq
  | 0x1060 => v.vTc64
  | 0x1068 => put 0 v.vSec
  | 0x1070 => put 0 v.vNs ||| put 32 v.vFrac
  | 0x1078 => put 0 v.vOffA ||| put 32 v.vOffB
  | 0x1080 => put 0 v.vFfo ||| putB 32 v.vSel ||| putB 33 v.vValid ||| putB 34 v.vPromise
  | _ => 0

def Block.rdTime (b : Block) (q : Req) (c : Nat) : BitVec 64 :=
  let t := b.tsu.time
  if 0x1040 ≤ c ∧ c < 0x1088 then (b.vit q.secure).rd c
  else if 0x1200 ≤ c ∧ c < 0x1300 then b.epPair (c - 0x1200) Endpoint.word
  else if 0x1400 ≤ c then b.rdServo c
  else match c with
  | 0x1000 =>
    putB 0 t.timeValid ||| putB 1 t.promise ||| putB 2 b.tsu.spine.calDone ||| putB 3 t.selB ||| putB 4 t.epochDiff |||
      putB 8 t.timeLost ||| putB 9 t.timeDisc
  | 0x1008 => t.tc64
  | 0x1010 => put 0 t.epoch.sec
  | 0x1018 => put 16 t.epoch.ns ||| put 0 t.epoch.frac
  | 0x1020 => t.lockAge
  | 0x1100 => putB 0 b.tsu.spine.calStart ||| putB 1 b.tsu.spine.trackEn
  | 0x1108 =>
    putB 0 b.tsu.spine.calBusy ||| putB 1 b.tsu.spine.calDone ||| putB 2 b.tsu.spine.calFail |||
      put 8 (BitVec.ofNat 8 b.maxDev) ||| put 16 (BitVec.ofNat 7 b.nEn)
  | _ => 0

/-! ### Lanes and TDC (R69-R72) -/

/-- TSU_LNK_CTRL. ENABLE shows a held enable too (R406). -/
def LaneReg.ctrlWord (r : LaneReg) : BitVec 64 :=
  putB 0 (r.enable || r.enPend) ||| putB 1 r.retrainReq ||| putB 2 r.fastStart ||| putB 3 r.refineEn ||| put 4 r.cableClass

/-- TSU_LNK_STATUS. -/
def LaneReg.statusWord (r : LaneReg) : BitVec 64 :=
  put 0 r.state.code ||| putB 3 r.enPend ||| putB 4 r.refined ||| putB 5 r.pcalRx ||| putB 6 r.tvRx ||| putB 8 r.refLost |||
    putB 9 r.syncLoss ||| putB 10 r.asymLimit ||| putB 11 r.negChange ||| putB 12 r.negFail

def Lane.rd (x : Lane) : Nat → BitVec 64
  | 0x00 => x.reg.ctrlWord
  | 0x08 => x.reg.statusWord
  | 0x10 => put 0 x.reg.verEff ||| put 16 x.reg.verPartner
  | 0x18 => x.reg.featAdv
  | 0x20 => x.reg.featPartner
  | 0x28 => x.reg.featEff
  | 0x30 => put 0 x.reg.peerPos ||| putB 16 (x.reg.peerPlane != 0) ||| putB 17 x.reg.posValid
  | 0x38 => put 0 x.reg.delay2
  | 0x40 => x.reg.offset2
  | 0x48 => put 0 (BitVec.ofInt 16 (aClass x.reg.cableClass)) ||| put 16 x.reg.aRef
  | 0x50 => put 0 x.reg.delayWin
  | 0x58 => put 0 x.reg.pmean
  | 0x80 => put 0 x.link.cnt.fecCorr ||| put 32 x.link.cnt.fecUnc
  | 0x88 => put 0 x.link.cnt.crcErr ||| put 32 x.link.cnt.replay
  | 0x90 => put 0 x.link.cnt.retrain ||| put 32 x.link.cnt.syncDrop
  | 0x98 => put 0 x.link.cnt.preempt ||| put 32 x.link.cnt.protoErr
  | 0xA0 => put 0 x.link.cnt.epochDrop
  | _ => 0

def Block.rdLink (b : Block) (c : Nat) : BitVec 64 :=
  if c < 0x2100 then b.tsu.laneA.rd (c - 0x2000)
  else if c < 0x2200 then b.tsu.laneB.rd (c - 0x2100)
  else put 0 b.tsu.abDiff

/-- TSU_TDC_STATUS. -/
def Block.rdTdc (b : Block) (c : Nat) : BitVec 64 :=
  let t := b.tsu.tdc
  if c = 0x3008 then
    putB 0 (b.tsu.laneA.sync.dllLock && b.tsu.laneB.sync.dllLock && t.spineLock) ||| putB 1 t.busy ||| putB 2 t.done |||
      putB 4 b.tsu.laneA.sync.tdcOvf ||| putB 5 b.tsu.laneB.sync.tdcOvf ||| putB 6 t.spineOvf ||| putB 7 t.dllUnlock |||
      put 8 t.inlMax
  else 0

/-! ### Launch block and contexts (R141-R143, R182, R184, R251) -/

def Block.rdLaunch (b : Block) (c : Nat) : BitVec 64 :=
  let l := b.tsu.lctl
  if 0x4200 ≤ c then b.epPair (c - 0x4200) fun e => put 0 e.debt
  else if 0x4100 ≤ c then b.epPair (c - 0x4100) Endpoint.rstWord
  else match c with
  | 0x4000 =>
    put 0 l.rlatTgt ||| putB 4 l.rstStart ||| putB 5 l.rstTrack ||| putB 8 l.refAlign ||| put 16 l.refCtx ||| put 24 l.refPar
  | 0x4008 => putB 0 l.rstBusy ||| putB 1 l.rstDone ||| putB 2 l.rstFail ||| putB 3 b.armedAny
  | 0x4010 => put 0 l.qwOff ||| put 32 l.qwLen ||| put 48 l.refDur
  | 0x4018 => l.req
  | 0x4020 => l.gnt
  | 0x4028 => put 0 l.armUnm ||| put 32 l.goDiff
  | _ => 0

/-- TSU_XLAT_DATA of the entry that TSU_XLAT_SEL addresses. -/
def BarSt.xlatWord (x : BarSt) : BitVec 64 :=
  let e := smGet (false, 0#12) x.xlat (1024 * x.selCtx.toNat + x.selVbid.toNat)
  put 0 e.2 ||| putB 15 e.1

def Block.rdCtxs (b : Block) (q : Req) : Nat → BitVec 64
  | 0x5000 => b.ctxBits q Ctx.en
  | 0x5008 => b.ctxBits q Ctx.enPend
  | 0x5010 => b.ctxBits q fun x => x.st.isArmed
  | 0x5018 => b.tsu.ctxs.foldl (fun w e => setBit64 w e.1 e.2.world) (BitVec.allOnes 64)
  | 0x5020 => put 0 b.tsu.bar.selVbid ||| put 16 b.tsu.bar.selCtx
  | 0x5028 => b.tsu.bar.xlatWord
  | _ => 0

def CtxSt.code : CtxSt → BitVec 3
  | .off => 0 | .idle => 1 | .ready => 2 | .armed => 3 | .run => 4 | .close => 5 | .halt => 6 | .stopping => 7

/-- CTX_STATUS. -/
def Ctx.statusWord (x : Ctx) : BitVec 64 :=
  let f := x.reg.flags
  put 0 x.st.code ||| putB 3 x.enPend ||| putB 4 x.sched.isSome ||| putB 5 x.reg.swapSel ||| putB 8 f.late |||
    putB 9 f.missed ||| putB 10 f.void ||| putB 11 f.exhausted ||| putB 12 f.aborted ||| putB 13 f.nostart |||
    putB 14 f.mismatch ||| putB 15 f.fenced ||| putB 16 f.withdrawn ||| putB 17 f.overlap ||| putB 18 f.brimSat |||
    putB 19 f.swapDefer ||| putB 20 f.regionFault ||| putB 21 f.closeNomap ||| putB 22 f.lostMember

/-- The launch registers of a context's page. -/
def Ctx.rd (x : Ctx) : Nat → BitVec 64
  | 0x200 => put 4 x.reg.mode ||| putB 6 x.reg.telEn ||| put 8 x.reg.telCh ||| putB 16 x.reg.swapArm
  | 0x208 => x.statusWord
  | 0x210 => x.reg.step
  | 0x218 => put 0 x.reg.attempt ||| put 8 x.reg.attemptMax ||| put 16 x.reg.slack
  | 0x220 => put 0 x.reg.job
  | 0x228 => put 0 x.reg.closeVbid
  | 0x230 => x.reg.t0
  | 0x238 => put 0 x.reg.period
  | 0x240 => x.reg.tat
  | 0x248 => x.reg.regions
  | 0x250 => x.reg.swapStep
  | 0x258 => put 0 x.brimNow ||| put 16 x.reg.brimInit ||| put 32 x.reg.brimMin ||| put 48 x.reg.brimMax
  | 0x260 => put 0 x.reg.margin ||| put 16 x.reg.winLog ||| putB 20 x.reg.fix
  | 0x268 => x.reg.lastT
  | 0x270 => x.reg.lastD
  | 0x278 => put 0 x.reg.lateness ||| put 16 x.reg.retry ||| put 32 x.reg.ref
  | 0x280 => put 0 x.reg.strSum ||| put 32 x.reg.strMaxReg
  | 0x288 => x.reg.launchCnt
  | 0x290 => put 0 x.reg.lateCnt ||| put 32 x.reg.missedCnt
  | 0x298 => put 0 x.reg.voidCnt ||| put 32 x.reg.slipCnt
  | 0x300 => x.run.modelId
  | 0x308 => putB 0 x.run.rplEn ||| put 8 x.run.rplBase ||| put 32 x.run.rplCount
  | 0x310 => x.run.rplShift
  | 0x318 => put 0 x.run.rplIdx ||| putB 24 x.run.rplEnd ||| putB 25 x.run.rplErr
  | 0x320 => x.run.lstep
  | o => if 0x380 ≤ o ∧ o < 0x3C0 then cellAt x.run.acc (o - 0x380) else 0

/-- The registers of a wait slot. -/
def WSlot.rd (w : WSlot) : Nat → BitVec 64
  | 0x00 => w.addr
  | 0x08 => w.wdata
  | 0x18 => w.waitWord
  | 0x20 => w.rdata
  | 0x28 => putB 0 w.op.isSome ||| putB 1 w.cmdLost
  | _ => 0

/-- The page of a context. -/
def Block.rdPage (b : Block) (c : Nat) : BitVec 64 :=
  let n := (c - 0x100000) / 0x400
  let o := c % 0x400
  if o < 0x200 then (b.wslot (wsIdx n (o / 0x40))).rd (o % 0x40) else (b.ctx n).rd o

/-! ### Barrier slots, tagged memory, hall requests and timers (R181, R183, R274, R275) -/

/-- TSU_BSLOT_CFG. -/
def Slot.cfgWord (x : Slot) : BitVec 64 :=
  put 0 x.kind ||| put 2 x.scope ||| put 4 x.owner ||| putB 10 x.world ||| putB 11 x.home ||| put 12 x.expect |||
    put 32 x.hbid ||| put 48 x.group

/-- TSU_BSLOT_STATE: a semaphore of scope DIE shows its count in COUNT_CUR. -/
def Block.slotWord (b : Block) (n : Nat) : BitVec 64 :=
  let x := b.slot n
  let sem := x.kind == 2
  let waiters := (b.wsWhere fun _ o => o.space == 2 && !o.held && o.slot == some n).length
  putB 0 (x.sense && !sem) ||| putB 1 x.sent ||| putB 2 x.sat ||| putB 3 x.ovr ||| putB 4 (b.mapped n) |||
    put 8 (BitVec.ofNat 20 (if sem then x.c0 else x.count x.sense)) |||
    put 28 (BitVec.ofNat 20 (if sem then 0 else x.count !x.sense)) ||| put 48 (BitVec.ofNat 10 waiters)

def Block.rdBar (b : Block) : Nat → BitVec 64
  | 0x6000 => put 0 b.tsu.bar.sel
  | 0x6008 => (b.slot b.tsu.bar.sel.toNat).cfgWord
  | 0x6010 => b.slotWord b.tsu.bar.sel.toNat
  | 0x6018 => putB 0 b.tsu.bar.cfgRef ||| putB 1 b.tsu.bar.xlatRef
  | 0x6020 => put 0 b.tsu.bar.overCnt ||| put 32 b.tsu.bar.stale
  | 0x6028 => put 0 b.tsu.bar.semRet
  | _ => 0

/-- TSU_DT_CFG. -/
def Block.timerWord (b : Block) (t : Timer) : BitVec 64 :=
  putB 0 t.en ||| put 1 t.action ||| putB 3 t.irq ||| put 4 t.ctx ||| putB 10 (b.ctxWorld t.ctx.toNat) ||| put 12 t.addr |||
    put 32 t.data

/-- Timers armed in the access's world. -/
def Block.armedTimers (b : Block) (q : Req) : Nat :=
  (b.tsu.timers.timers.filter fun e => e.2.en && b.ctxWorld e.2.ctx.toNat == q.secure).length

/-- TSU_DT_FIRED_n. -/
def Block.firedWord (b : Block) (q : Req) (n : Nat) : BitVec 64 :=
  b.tsu.timers.timers.foldl (fun w e =>
    if e.1 / 64 = n ∧ e.2.fired ∧ worldOk q (b.ctxWorld e.2.ctx.toNat) then setBit64 w (e.1 % 64) true else w) 0

/-- The orphan latch of a world. -/
def HallReq.orph (h : HallReq) (secure : Bool) : Orphan := if secure then h.orphS else h.orphN

def Block.rdMem (b : Block) (q : Req) (c : Nat) : BitVec 64 :=
  let m := b.tsu.tm
  let t := b.timer b.tsu.timers.sel.toNat
  let o := b.tsu.hall.orph q.secure
  if 0x7C00 ≤ c then b.firedWord q ((c - 0x7C00) / 8)
  else match c with
  | 0x7000 => putB 0 m.initDone ||| putB 1 m.scrub.isSome ||| putB 2 m.ue ||| putB 3 m.ce
  | 0x7008 => put 0 m.scrubSel ||| putB 8 m.scrub.isSome
  | 0x7010 => put 0 m.ceCnt ||| put 32 m.ueCnt
  | 0x7018 => put 0 m.ueWord ||| putB 31 m.ueValid
  | 0x7100 => put 0 b.tsu.hall.grace
  | 0x7108 => put 0 b.tsu.hall.nopath ||| put 32 b.tsu.hall.orphanCnt
  | 0x7110 => put 0 o.ha ||| put 40 o.op ||| put 44 o.status ||| putB 63 o.valid
  | 0x7118 => o.data
  | 0x7800 => put 0 b.tsu.timers.sel
  | 0x7808 => b.timerWord t
  | 0x7810 => t.at_
  | 0x7818 =>
    putB 0 t.en ||| putB 1 t.past ||| putB 2 b.tsu.timers.dtRef ||| putB 3 b.tsu.timers.actErr |||
      put 16 (BitVec.ofNat 13 (b.armedTimers q))
  | _ => 0

/-! ### Collective engine and generator (R188, R224, R250) -/

def CollSt.code : CollSt → BitVec 3
  | .idle => 0 | .gather => 1 | .sent => 2 | .phase2 => 3 | .waitRes => 4 | .output => 5 | .done => 6

def CollSlot.rd (s : CollSlot) : Nat → BitVec 64
  | 0x00 => s.d0
  | 0x08 => s.d1
  | 0x10 => s.d2
  | 0x18 => s.d3
  | 0x20 => s.d4
  | 0x28 => s.d5
  | 0x38 =>
    put 0 s.st.code ||| put 8 s.code ||| put 16 s.flags ||| putB 28 s.issueLost ||| put 32 s.nmiss ||| put 48 s.nempty
  | 0x40 => put 0 s.npres
  | _ => 0

/-- One bit for each listed slot that meets `p`. -/
def slotBits {α : Type} (p : α → Bool) (l : List (Nat × α)) : BitVec 64 :=
  l.foldl (fun w e => if p e.2 then setBit64 w e.1 true else w) 0

def Block.rdColl (b : Block) (c : Nat) : BitVec 64 :=
  let k := b.tsu.coll
  if c < 0x8800 then (b.collSlot ((c - 0x8000) / 0x80)).rd (c % 0x80)
  else match c with
  | 0x8808 => slotBits (fun s => s.st.busy) k.slots
  | 0x8810 => put 0 k.resGrace ||| put 16 k.cutTsu
  | 0x8818 => put 0 k.diff ||| put 32 k.late
  | 0x8820 => put 0 k.ops ||| put 32 k.notOk
  | _ => 0

def GenSt.code : GenSt → BitVec 2
  | .idle => 0 | .run => 1 | .done => 2

def GenSlot.rd (s : GenSlot) : Nat → BitVec 64
  | 0x00 => s.d0
  | 0x08 => s.coord
  | 0x10 => put 0 s.step
  | 0x18 => put 0 s.ncall
  | 0x20 => s.sig
  | 0x30 => put 0 s.st.code ||| put 4 s.code ||| putB 7 s.outDrop ||| putB 8 s.issueLost
  | 0x38 => put 0 s.used
  | _ => 0

def Block.rdGen (b : Block) (c : Nat) : BitVec 64 :=
  let g := b.tsu.gen
  if c < 0x9200 then (b.genSlot ((c - 0x9000) / 0x40)).rd (c % 0x40)
  else if 0x9400 ≤ c ∧ c < 0x9800 then
    let k := (b.ctx ((c - 0x9400) / 0x10)).run.key
    if c % 0x10 = 0 then k.extractLsb' 0 64 else k.extractLsb' 64 64
  else match c with
  | 0x9800 => g.tkey.extractLsb' 0 64
  | 0x9808 => g.tkey.extractLsb' 64 64
  | 0x9810 => g.tctr.extractLsb' 0 64
  | 0x9818 => g.tctr.extractLsb' 64 64
  | 0x9820 => g.tout.extractLsb' 0 64
  | 0x9828 => g.tout.extractLsb' 64 64
  | 0x9840 => putB 0 g.stOk ||| putB 1 g.stDone ||| putB 2 g.keyRef ||| (slotBits (fun s => s.st == .run) g.slots <<< 8)
  | 0x9848 => g.calls
  | _ => 0

/-! ### Data mover and stream port (R295, R306) -/

def DmSt.code : DmSt → BitVec 3
  | .off => 0 | .idle => 1 | .run => 2 | .pausing => 3 | .paused => 4 | .haltErr => 5 | .stopping => 6

/-- Bits of SET_LEN, SET_CTRL and SET_SIG that the layout of R285 uses. -/
def setMask : Nat → BitVec 64
  | 0x18 => 0x001FFFFF001FFFFF
  | 0x20 => 0x001F777FFFFFFFFF
  | 0x28 => 0x000FFFFF0007FFFF
  | _ => BitVec.allOnes 64

def DmSet.rd (s : DmSet) (o : Nat) : BitVec 64 :=
  setMask o &&& match o with
  | 0x00 => s.src
  | 0x08 => s.dst
  | 0x10 => s.stride
  | 0x18 => s.len
  | 0x20 => s.ctrl
  | 0x28 => s.sig
  | 0x30 => s.tag
  | _ => 0

/-- DM_CH_SPOS and DM_CH_DPOS: where stream byte `k` lies on a side. -/
def DmSide.pos (s : DmSide) (k : Nat) : BitVec 64 :=
  if s.len = 0 then 0 else put 0 (BitVec.ofNat 16 (k / s.len)) ||| put 16 (BitVec.ofNat 21 (k % s.len))

/-- The channel is enabled, or an enable is held (R406). -/
def DmCh.en (c : DmCh) : Bool := c.enPend || (c.st != .off && c.st != .stopping)

def Block.rdDmCh (b : Block) (c : DmCh) (o : Nat) : BitVec 64 :=
  if 0x40 ≤ o ∧ o < 0x78 then c.cur.rd (o - 0x40)
  else if 0x80 ≤ o ∧ o < 0xB8 then c.shadow.rd (o - 0x80)
  else match o with
  | 0x00 =>
    put 0 c.ctx ||| putB 8 (b.ctxWorld c.ctx.toNat) ||| put 9 c.priv ||| put 16 c.quota ||| putB 24 c.ring
  | 0x08 => putB 0 c.en ||| putB 1 c.pause ||| putB 8 c.irqEn
  | 0x10 =>
    put 0 c.st.code ||| putB 3 c.enPend ||| putB 4 c.shadowValid ||| putB 8 c.loadLost ||| putB 9 c.descErr |||
      putB 10 c.sigErr ||| putB 11 c.done ||| putB 12 c.cfgRef ||| putB 13 c.halted
  | 0x18 => put 0 c.sizeLog ||| put 6 c.base
  | 0x20 => put 0 c.head
  | 0x28 => c.errAddr
  | 0x30 => putB 0 c.errDir ||| putB 1 c.errSrc ||| put 4 c.errCode ||| putB 31 c.errValid
  | 0xC0 => c.cur.srcSide.pos c.rd
  | 0xC8 => c.cur.dstSide.pos c.wr
  | 0xD0 => cell (if c.cur.acks then c.acked else c.wr)
  | 0xD8 => put 0 c.doneCnt ||| put 32 c.errCnt
  | _ => 0

def Block.rdDm (b : Block) (c : Nat) : BitVec 64 :=
  let d := b.tsu.dm
  if 0xA100 ≤ c then b.rdDmCh (b.dmCh ((c - 0xA100) / 0x100)) (c % 0x100)
  else match c with
  | 0xA000 => put 0 d.pollInt
  | 0xA008 =>
    slotBits (fun x => x.st != .off && x.st != .idle && x.st != .paused) d.chs |||
      put 8 (BitVec.ofNat 17 (d.chs.foldl (fun n e => n + e.2.reserved) 0))
  | _ => 0

/-- STATE of a stream channel. -/
def Block.strState (b : Block) (n : Nat) : BitVec 2 :=
  match (b.strCh n).st with
  | .off => 0
  | .on => if b.strOpen n then 2 else 1
  | .stopping => 3

/-- The channel is enabled, or an enable is held (R406). -/
def StrCh.en (c : StrCh) : Bool := c.enPend || c.st == .on

/-- STR_CH_CFG. -/
def StrCh.cfgWord (c : StrCh) : BitVec 64 := putB 0 c.en ||| putB 1 c.dir ||| putB 2 c.world

/-- Beats held in the input buffer. -/
def Block.inUsed (b : Block) : Nat :=
  b.tsu.str.chs.foldl (fun n e => e.2.inq.foldl (fun n i => n + i.held) n) 0

def Block.rdStr (b : Block) (c : Nat) : BitVec 64 :=
  let s := b.tsu.str
  if 0xB100 ≤ c then
    let n := (c - 0xB100) / 0x20
    let x := b.strCh n
    match c % 0x20 with
    | 0x00 => x.cfgWord
    | 0x08 =>
      put 0 (b.strState n) ||| putB 2 x.enPend ||| putB 8 x.trunc ||| putB 9 x.crcErr ||| putB 10 x.drop ||| putB 11 x.disc
    | 0x10 => put 0 x.truncCnt ||| put 32 x.discBeats
    | 0x18 => put 0 x.crcCnt ||| put 32 x.dropCnt
    | _ => 0
  else match c with
  | 0xB000 => put 0 s.stallLimit ||| put 16 s.outWait
  | 0xB008 => put 0 (BitVec.ofNat 11 b.inUsed) ||| put 16 (BitVec.ofNat 12 b.outUsed) ||| putB 31 s.clkOk
  | _ => 0

/-! ### Catalogue access, Gauntlet, power, debug, health and telemetry (R326, R331, R355, R356, R387, R452) -/

/-- TSU_CAT_REQ. -/
def CatPort.reqWord (p : CatPort) : BitVec 64 :=
  put 0 p.op ||| putB 4 p.last ||| putB 5 p.staged ||| put 8 p.vtype ||| put 16 p.sub ||| put 24 p.index ||| put 40 p.count

def Block.rdCat (b : Block) (q : Req) (c : Nat) : BitVec 64 :=
  let p := b.tsu.cat.port q.secure
  let k := b.tsu.cat
  if 0xC400 ≤ c ∧ c < 0xC800 then
    cell (ofLE ((List.range 8).map fun i => smGet 0 p.data (c - 0xC400 + i)))
  else match c with
  | 0xC000 => p.reqWord
  | 0xC008 => put 0 p.offset
  | 0xC010 => putB 0 p.busy
  | 0xC018 => putB 0 p.busy ||| put 8 p.status ||| put 16 p.rcount ||| put 28 p.subn
  | 0xC020 => put 0 p.total
  | 0xC028 => put 0 p.pend ||| putB 16 p.irqEn
  | 0xC800 => k.imgAddr
  | 0xC808 => put 0 k.imgLen
  | 0xC810 => put 0 k.lstate ||| putB 2 k.defaulted ||| put 8 k.reason ||| put 16 k.skipped
  | _ => 0

def Gnt.rd (g : Gnt) : Nat → BitVec 64
  | 0xD000 => blkOf g.blk
  | 0xD008 => g.tmw
  | 0xD010 => put 0 g.crsel
  | 0xD018 => put 0 (smGet 0 g.raise g.crsel.toNat)
  | 0xD020 => put 0 g.gen
  | 0xD028 => putB 0 g.violIrq
  | 0xD030 =>
    put 0 g.vSrc ||| putB 4 g.vWorld ||| put 5 g.vPriv ||| putB 7 g.vDbg ||| putB 8 g.vWrite ||| put 16 g.vGen |||
      putB 63 g.vValid
  | 0xD038 => g.vAddr
  | 0xD040 => put 0 g.vCnt
  | _ => 0

/-- TSU_PWR_CTRL. -/
def Pwr.ctrlWord (p : Pwr) : BitVec 64 :=
  putB 0 p.mittenReq ||| putB 1 p.engAuto ||| putB 2 p.wakeAtEn ||| putB 3 p.listenA ||| putB 4 p.listenB

/-- TSU_PWR_STATUS; AON is always on. -/
def Pwr.statusWord (p : Pwr) : BitVec 64 :=
  put 0 p.st.code ||| putB 3 p.enPend ||| putB 4 true ||| putB 5 p.on.time ||| putB 6 p.on.engine ||| putB 7 p.on.mem |||
    putB 8 p.on.linkA ||| putB 9 p.on.linkB ||| putB 10 p.mitRef ||| put 11 p.mitReason ||| putB 14 p.ctxDropped |||
    putB 15 p.pwrAcc ||| put 16 p.wakeCause

def Block.rdPwr (b : Block) : Nat → BitVec 64
  | 0xE000 => b.tsu.pwr.ctrlWord
  | 0xE008 => put 0 b.tsu.pwr.engIdle ||| put 32 b.tsu.pwr.engLead
  | 0xE010 => b.tsu.pwr.wakeAt
  | 0xE018 => b.tsu.pwr.statusWord
  | 0xE020 => b.tsu.pwr.inc
  | 0xE028 => if b.tsu.pwr.st = .mitten then b.tsu.pwr.mitTc else 0
  | 0xE030 => put 0 b.tsu.pwr.mitCnt ||| put 32 b.tsu.pwr.engStarts
  | 0xE100 =>
    let d := b.tsu.dbg
    put 0 d.level ||| put 2 d.reqLevel ||| put 8 d.failCnt ||| putB 11 d.lockout ||| putB 12 d.dbgRef ||| putB 13 d.dbgPwr
  | 0xE108 => b.tsu.dbg.chal
  | 0xE140 => put 0 b.tsu.dbg.frzSel
  | 0xE148 => (b.ctx b.tsu.dbg.frzSel.toNat).run.frzAt
  | 0xE150 =>
    let x := b.ctx b.tsu.dbg.frzSel.toNat
    putB 0 x.run.frzArm ||| putB 2 x.heldGo.isSome ||| putB 3 b.tsu.dbg.frzRef ||| putB 4 x.run.frzDbg
  | _ => 0

/-- TSU_HLTH_LANE_A and TSU_HLTH_LANE_B. -/
def LaneHealth.word (h : LaneHealth) : BitVec 64 :=
  put 0 h.eye ||| put 8 h.eyeLow ||| put 16 h.res ||| put 32 h.eyeSt ||| put 34 h.resSt ||| putB 40 h.warn ||| putB 41 h.fail

def Block.rdHlth (b : Block) : Nat → BitVec 64
  | 0xF000 => putB 0 b.tsu.boot.fenced ||| putB 1 b.tsu.boot.fenceRx ||| put 16 b.tsu.boot.adoptCnt
  | 0xF008 => put 0 b.tsu.boot.prev ||| put 32 b.tsu.boot.fenceEp
  | 0xF100 =>
    put 0 b.tsu.hlth.eyeWarn ||| put 8 b.tsu.hlth.eyeFail ||| put 16 b.tsu.hlth.resWarn ||| put 32 b.tsu.hlth.resFail
  | 0xF110 => b.tsu.laneA.health.word
  | 0xF118 => b.tsu.laneB.health.word
  | 0xF120 => putB 0 b.tsu.hlth.irqEn
  | 0xF800 => putB 0 b.tsu.tel.en ||| put 8 b.tsu.tel.ch ||| put 16 b.tsu.tel.period ||| putB 24 b.tsu.tel.telRef
  | 0xF808 => put 0 b.tsu.tel.seq
  | _ => 0

/-! ### The window -/

/-- The cell at `c`, a multiple of 8, as an access of `q` reads it. Bits that an access of `q` may not see are 0 only where
the register says so; whether `q` reaches the cell at all is checked before (R336). -/
def Block.regRead (b : Block) (q : Req) (c : Nat) : BitVec 64 :=
  if 0x100000 ≤ c then b.rdPage c
  else match c / 0x1000 with
  | 0x0 => b.rdId q c
  | 0x1 => b.rdTime q c
  | 0x2 => b.rdLink c
  | 0x3 => b.rdTdc c
  | 0x4 => b.rdLaunch c
  | 0x5 => b.rdCtxs q c
  | 0x6 => b.rdBar c
  | 0x7 => b.rdMem q c
  | 0x8 => b.rdColl c
  | 0x9 => b.rdGen c
  | 0xA => b.rdDm c
  | 0xB => b.rdStr c
  | 0xC => b.rdCat q c
  | 0xD => b.tsu.gnt.rd c
  | 0xE => b.rdPwr c
  | _ => b.rdHlth c

/-- The resource that a cell belongs to is of the secure world (R188, R231, R269, R279, R306, R336). -/
def Block.regSecure (b : Block) (c : Nat) : Bool :=
  if 0x100000 ≤ c then b.ctxWorld ((c - 0x100000) / 0x400)
  else if c = 0x5028 then b.ctxWorld b.tsu.bar.selCtx.toNat
  else if c = 0x6008 ∨ c = 0x6010 then
    let x := b.slot b.tsu.bar.sel.toNat
    x.kind != 0 && x.world
  else if c = 0x7808 ∨ c = 0x7810 ∨ c = 0x7818 then b.ctxWorld (b.timer b.tsu.timers.sel.toNat).ctx.toNat
  else if 0x8000 ≤ c ∧ c < 0x8800 then b.collWorld ((c - 0x8000) / 0x80)
  else if 0x9000 ≤ c ∧ c < 0x9200 then b.ctxWorld (b.genSlot ((c - 0x9000) / 0x40)).ctx
  else if 0x9400 ≤ c ∧ c < 0x9800 then b.ctxWorld ((c - 0x9400) / 0x10)
  else if 0xA100 ≤ c ∧ c < 0xA900 then b.ctxWorld (b.dmCh ((c - 0xA100) / 0x100)).ctx.toNat
  else if 0xB100 ≤ c ∧ c < 0xB900 then (b.strCh ((c - 0xB100) / 0x20)).world
  else false

end Sys2Proof.Machine
end

