-- ==== Sys2Proof/Machine/RegWrite.lean ====
section
/-! DEFINITION. Writes of the register window (R10, R358, R359) and accesses of the debug port (R342, R385). Each register
block applies the fields of a write first, then its write-1-to-set bits in bit order, by the operations that the commands
with rows of their own use. -/

namespace Sys2Proof.Machine

open Sys2Proof

/-- A write to a cell: its offset, the cell's bits as RW fields take them, the ones written, and the bits addressed. -/
structure Wr where
  addr : Nat
  m    : BitVec 64
  d    : BitVec 64
  mask : BitVec 64
  deriving DecidableEq, Repr

/-- An RW field. -/
def Wr.f (w : Wr) (lo n : Nat) : BitVec n := fld w.m lo n
/-- An RW bit. -/
def Wr.b (w : Wr) (i : Nat) : Bool := w.m.getLsbD i
/-- A W1S bit: 1 is written. -/
def Wr.one (w : Wr) (i : Nat) : Bool := w.d.getLsbD i
/-- The bit is addressed. -/
def Wr.hit (w : Wr) (i : Nat) : Bool := w.mask.getLsbD i
/-- A W1C bit. -/
def Wr.clr (w : Wr) (old : Bool) (i : Nat) : Bool := old && !w.one i

/-- Applies `f` where `c` holds. -/
def Block.when (b : Block) (c : Bool) (f : Block → Block) : Block := if c then f b else b

/-- The RW-S bits of a cell (R10), those of the Gauntlet apart, which only a monitor access reaches or whose writes are
checked one by one (R337). -/
def rwsBits : Nat → BitVec 64
  | 0x0020 => 0x10
  | 0x1400 => 0x3F8
  | 0x1408 => 0x0FFFFFFF
  | 0x1410 => 0x0FFFFFFF
  | 0x4000 => 0xF
  | 0x7100 => 0xFFFFFFFF
  | 0x8810 => 0xFFFFFFFF
  | 0xC800 => BitVec.allOnes 64
  | 0xC808 => 0x7FFFF
  | 0xE000 => 0x1D
  | 0xE010 => BitVec.allOnes 64
  | _ => 0

/-! ### Identity, time, servo -/

def Block.wrId (b : Block) (w : Wr) : Nat → Block
  | 0x10 => b.mPwr fun p => { p with pwrLost := w.clr p.pwrLost 7 }
  | 0x20 => b.mBoot fun t => { t with hostReady := w.b 4, topoMismatch := w.clr t.topoMismatch 6 }
  | 0x30 => b.mBoot fun t => { t with lostAck := w.clr t.lostAck 24 }
  | _ => b

/-- TSU_VIT_CTRL (R36). -/
def Block.wrVit (b : Block) (s : Bool) (w : Wr) : Block :=
  let b := b.mVit s fun v => { v with onDisc := w.b 2, past := w.clr v.past 8 }
  let b := if w.one 1 then b.vitArm s .setArm else b.when (w.hit 1) fun b => b.mVit s fun v => { v with armAt := false }
  b.when (w.one 0) fun b => b.vitCap s

/-- The greatest SLEW (R110). -/
def slewMax : BitVec 28 := 219902326
def slewOf (v : BitVec 28) : BitVec 28 := if slewMax.toNat < v.toNat then slewMax else v

/-- TSU_SERVO_CTRL (R76, R81, R110): a BW code that a TSU does not have is ignored. -/
def Block.wrServoCtrl (b : Block) (q : Req) (w : Wr) : Block :=
  let old := b.tsu.servo
  let code := w.f 4 4
  let b := b.mServo .tsu fun s => { s with
    lossMode := w.b 0, revert := w.b 1, planePref := w.b 2
    bw := if 6 ≤ code.toNat ∧ code.toNat ≤ 12 then code else s.bw, force := w.f 8 2 }
  let b := b.when (old.lossMode != w.b 0 || old.revert != w.b 1 || old.planePref != w.b 2 || old.force != w.f 8 2)
    Block.reselect
  if !w.one 3 then b
  else if q.secure then b.armStep .tsu
  else b.when (!old.stepArm) fun b => b.mServo .tsu fun s => { s with stepRef := true, stepArm := false }

def Block.wrTime (b : Block) (q : Req) (w : Wr) (c : Nat) : Block :=
  if 0x1200 ≤ c ∧ c < 0x1300 then
    let n := (c - 0x1200) / 4
    (b.mEp n fun e => { e with en := w.b 0, fault := w.clr e.fault 2 }).mEp (n + 1) fun e =>
      { e with en := w.b 32, fault := w.clr e.fault 34 }
  else match c with
  | 0x1000 => b.mTime .tsu fun t => { t with timeLost := w.clr t.timeLost 8, timeDisc := w.clr t.timeDisc 9 }
  | 0x1040 => b.wrVit q.secure w
  | 0x1048 => b.vitArm q.secure (.writeAt w.m)
  | 0x1100 => (b.mSpine fun s => { s with trackEn := w.b 1 }).when (w.one 0) Block.calStart
  | 0x1108 => b.mSpine fun s => { s with calFail := w.clr s.calFail 2 }
  | 0x1400 => b.wrServoCtrl q w
  | 0x1408 => b.mServo .tsu fun s => { s with slew := slewOf (w.f 0 28) }
  | 0x1410 => b.mServo .tsu fun s => { s with reacqSlew := slewOf (w.f 0 28) }
  | 0x1418 => b.mServo .tsu fun s => { s with lockThr := w.f 0 16, unlockThr := w.f 16 16 }
  | 0x1420 => b.mServo .tsu fun s => { s with
      switched := w.clr s.switched 8, holdEntered := w.clr s.holdEntered 9, stepRef := w.clr s.stepRef 10
      refLost := w.clr s.refLost 11, unlocked := w.clr s.unlocked 13 }
  | 0x1450 => b.mServo .tsu fun s => { s with irqEn := w.f 8 6 }
  | _ => b

/-! ### Lanes and TDC -/

def Block.wrLane (b : Block) (l : LaneRef) (w : Wr) : Nat → Block
  | 0x00 =>
    let b := b.mReg l fun r => { r with fastStart := w.b 2, refineEn := w.b 3, cableClass := w.f 4 4 }
    let b := b.when (w.hit 0) fun b => if w.b 0 then b.laneEnable l else b.laneDisable l
    (b.when (w.one 1) fun b => b.retrainWrite l).when (w.one 8) fun b => b.laneCntClr l
  | 0x08 => b.mReg l fun r => { r with
      refLost := w.clr r.refLost 8, syncLoss := w.clr r.syncLoss 9, asymLimit := w.clr r.asymLimit 10
      negChange := w.clr r.negChange 11, negFail := w.clr r.negFail 12 }
  | 0x50 => b.mReg l fun r => { r with delayWin := w.f 0 16 }
  | _ => b

def Block.wrLink (b : Block) (w : Wr) (c : Nat) : Block :=
  if c < 0x2100 then b.wrLane (.tsu .A) w (c - 0x2000)
  else if c < 0x2200 then b.wrLane (.tsu .B) w (c - 0x2100)
  else b

def Block.wrTdc (b : Block) (w : Wr) : Nat → Block
  | 0x3000 => b.when (w.one 0) fun b => b.cdcStart .tsu
  | 0x3008 =>
    let b := b.mSync (.tsu .A) fun s => { s with tdcOvf := w.clr s.tdcOvf 4 }
    let b := b.mSync (.tsu .B) fun s => { s with tdcOvf := w.clr s.tdcOvf 5 }
    b.mTdc .tsu fun t => { t with spineOvf := w.clr t.spineOvf 6, dllUnlock := w.clr t.dllUnlock 7 }
  | _ => b

/-! ### Launch block and contexts -/

def Block.wrLaunch (b : Block) (w : Wr) (c : Nat) : Block :=
  if 0x4200 ≤ c then b
  else if 0x4100 ≤ c then
    let n := (c - 0x4100) / 4
    (b.mEp n fun e => { e with rstFault := w.clr e.rstFault 13 }).mEp (n + 1) fun e =>
      { e with rstFault := w.clr e.rstFault 45 }
  else match c with
  | 0x4000 =>
    let b := (b.setRlat (w.f 0 4)).mLctl fun l => { l with
      rstTrack := w.b 5, refAlign := w.b 8, refCtx := w.f 16 6, refPar := w.f 24 7 }
    Block.grantAll 64 (b.when (w.one 4) Block.rstStart)
  | 0x4008 => b.mLctl fun l => { l with rstFail := w.clr l.rstFail 2 }
  | 0x4010 => b.mLctl fun l => { l with qwOff := w.f 0 32, qwLen := w.f 32 16, refDur := w.f 48 16 }
  | _ => b

/-- TSU_CTX_EN (R142): each bit written other than it reads; the bits of secure contexts stand for a non-secure access, and
a write that would change one is a violation. -/
def Block.wrCtxEn (b : Block) (q : Req) (w : Wr) : Block :=
  let diff := (List.range 64).filter fun c => w.hit c && (b.ctx c).en != w.one c
  let mine := diff.filter fun c => worldOk q (b.ctxWorld c)
  let b := b.when (mine.length != diff.length) fun b => b.violate q.src q true (BitVec.ofNat 64 w.addr)
  b.each mine fun b c => if w.one c then b.ctxEnable c else b.ctxDisable c

def Block.wrCtxs (b : Block) (q : Req) (w : Wr) : Nat → Block
  | 0x5000 => b.wrCtxEn q w
  | 0x5018 => b.ctxWorldWrite q w.m
  | 0x5020 => b.mBar fun x => { x with selVbid := w.f 0 10, selCtx := w.f 16 6 }
  | 0x5028 => b.when (w.hit 0) fun b => b.xlatWrite (w.f 0 32)
  | _ => b

/-- CTX_CTRL (R114, R115, R143): MODE is written in IDLE only. -/
def Block.wrCtxCtrl (b : Block) (n : Nat) (w : Wr) : Block :=
  let b := b.mCtx n fun x => { x with reg := { x.reg with
    mode := if x.st = .idle then w.f 4 2 else x.reg.mode, telEn := w.b 6, telCh := w.f 8 6, swapArm := w.b 16 } }
  let b := b.when (w.one 0) fun b => b.ready n
  let b := b.when (w.one 1) fun b => b.go n
  let b := b.when (w.one 2) fun b => b.stop n
  let b := b.when (w.one 3) fun b => b.clear n
  b.when (w.one 17) fun b => b.ctxCntClr n

/-- A brim limit written below 64 takes 64 (R123). -/
def brimOf (v : BitVec 16) : BitVec 16 := if v.toNat < 64 then 64 else v

/-- CTX_STATUS. -/
def CtxFlags.clear (f : CtxFlags) (w : Wr) : CtxFlags :=
  { late := w.clr f.late 8, missed := w.clr f.missed 9, void := w.clr f.void 10, exhausted := w.clr f.exhausted 11
    aborted := w.clr f.aborted 12, nostart := w.clr f.nostart 13, mismatch := w.clr f.mismatch 14
    fenced := w.clr f.fenced 15, withdrawn := w.clr f.withdrawn 16, overlap := w.clr f.overlap 17
    brimSat := w.clr f.brimSat 18, swapDefer := w.clr f.swapDefer 19, regionFault := w.clr f.regionFault 20
    closeNomap := w.clr f.closeNomap 21, lostMember := w.clr f.lostMember 22 }

/-- The launch, replay and accession registers of a context (R14, R115, R143, R251). -/
def Block.wrCtx (b : Block) (n : Nat) (w : Wr) (o : Nat) : Block :=
  let idle := (b.ctx n).st == .idle
  let soon := idle || (b.ctx n).st == .ready
  let reg (ok : Bool) (f : CtxReg → CtxReg) : Block := b.when ok fun b => b.mCtxReg n f
  let run (ok : Bool) (f : CtxRun → CtxRun) : Block := b.when ok fun b => b.mCtxRun n f
  match o with
  | 0x200 => b.wrCtxCtrl n w
  | 0x208 => b.mFlags n fun f => f.clear w
  | 0x210 => reg soon fun r => { r with step := w.m }
  | 0x218 => reg true fun r => { r with attemptMax := w.f 8 8, slack := w.f 16 16 }
  | 0x220 => reg idle fun r => { r with job := w.f 0 32 }
  | 0x228 => reg idle fun r => { r with closeVbid := w.f 0 10 }
  | 0x230 => reg (idle && b.timeOk) fun r => { r with t0 := w.m }
  | 0x238 => reg idle fun r => { r with period := w.f 0 32 }
  | 0x240 => reg b.timeOk fun r => { r with tat := w.m }
  | 0x248 => reg idle fun r => { r with regions := w.m }
  | 0x250 => reg true fun r => { r with swapStep := w.m }
  | 0x258 => reg true fun r => { r with
      brimInit := w.f 16 16, brimMin := brimOf (w.f 32 16), brimMax := brimOf (w.f 48 16) }
  | 0x260 => reg true fun r => { r with margin := w.f 0 16, winLog := w.f 16 4, fix := w.b 20 }
  | 0x300 => run idle fun r => { r with modelId := w.m }
  | 0x308 => run idle fun r => { r with rplEn := w.b 0, rplBase := w.f 8 19, rplCount := w.f 32 20 }
  | 0x310 => run soon fun r => { r with rplShift := w.m }
  | 0x318 => run true fun r => { r with rplEnd := w.clr r.rplEnd 24, rplErr := w.clr r.rplErr 25 }
  | _ => b

/-- The registers of a wait slot (R169, R184): a write of WS_CMD issues the operation. -/
def Block.wrWait (b : Block) (c k : Nat) (w : Wr) : Nat → Block
  | 0x00 => b.mWslot (wsIdx c k) fun x => { x with addr := w.m }
  | 0x08 => b.mWslot (wsIdx c k) fun x => { x with wdata := w.m }
  | 0x10 => b.when (w.hit 0) fun b =>
      b.wsIssue c k (w.f 4 2) (w.f 0 4) { nowait := w.b 6, sense := w.b 7, voidreq := w.b 8, tmo := w.f 12 4 }
  | 0x28 => b.mWslot (wsIdx c k) fun x => { x with cmdLost := w.clr x.cmdLost 1 }
  | _ => b

def Block.wrPage (b : Block) (w : Wr) (c : Nat) : Block :=
  let n := (c - 0x100000) / 0x400
  let o := c % 0x400
  if o < 0x200 then b.wrWait n (o / 0x40) w (o % 0x40) else b.wrCtx n w o

/-! ### Barrier slots, tagged memory, hall requests and timers -/

def Block.wrBar (b : Block) (q : Req) (w : Wr) : Nat → Block
  | 0x6000 => b.mBar fun x => { x with sel := w.f 0 12 }
  | 0x6008 => b.bslotConfig q w.m
  | 0x6010 => b.mSlot b.tsu.bar.sel.toNat fun x => { x with sat := w.clr x.sat 2, ovr := w.clr x.ovr 3 }
  | 0x6018 =>
    (b.mBar fun x => { x with cfgRef := w.clr x.cfgRef 0, xlatRef := w.clr x.xlatRef 1 }).when (w.one 8) Block.barCntClr
  | _ => b

/-- An access to a timer of the secure world from the non-secure: ignored, with DT_REF (R269, R336). -/
def Block.dtRefuse (b : Block) (q : Req) (write : Bool) (addr : Nat) : Block :=
  (b.violate q.src q write (BitVec.ofNat 64 addr)).mTimers fun t => { t with dtRef := true }

/-- TSU_DT_STAT. -/
def Block.wrDtStat (b : Block) (q : Req) (w : Wr) : Block :=
  let n := b.tsu.timers.sel.toNat
  if !worldOk q (b.ctxWorld (b.timer n).ctx.toNat) then b.dtRefuse q true w.addr
  else
    (b.mTimer n fun t => { t with past := w.clr t.past 1 }).mTimers fun t =>
      { t with dtRef := w.clr t.dtRef 2, actErr := w.clr t.actErr 3 }

/-- TSU_DT_FIRED_n. -/
def Block.wrFired (b : Block) (q : Req) (w : Wr) (n : Nat) : Block :=
  b.each ((List.range 64).filter fun j => w.one j && worldOk q (b.ctxWorld (b.timer (64 * n + j)).ctx.toNat)) fun b j =>
    b.mTimer (64 * n + j) fun t => { t with fired := false }

def Block.wrMem (b : Block) (q : Req) (w : Wr) (c : Nat) : Block :=
  if 0x7C00 ≤ c then b.wrFired q w ((c - 0x7C00) / 8)
  else match c with
  | 0x7000 => b.mTm fun m => { m with ue := w.clr m.ue 2, ce := w.clr m.ce 3 }
  | 0x7008 => if w.one 8 then b.scrubStart q (w.f 0 6) else b.mTm fun m => { m with scrubSel := w.f 0 6 }
  | 0x7100 => b.mHall fun h => { h with grace := w.f 0 32 }
  | 0x7110 => b.mHall fun h =>
      if q.secure then { h with orphS := { h.orphS with valid := w.clr h.orphS.valid 63 } }
      else { h with orphN := { h.orphN with valid := w.clr h.orphN.valid 63 } }
  | 0x7800 => b.mTimers fun t => { t with sel := w.f 0 12 }
  | 0x7808 => b.dtWrite q (.cfg w.m)
  | 0x7810 => b.dtWrite q (.at w.m)
  | 0x7818 => b.wrDtStat q w
  | _ => b

/-! ### Collective engine and generator -/

/-- The bits of a collective descriptor register (R188). -/
def collMask : Nat → BitVec 64
  | 0x00 => 0xF1FF1FFF003FF77F
  | 0x08 => 0x0FFF3FFF003F3F3F
  | 0x20 => 0x0007FFFFFFFFFFFF
  | 0x28 => 0x000FFFFF0007FFFF
  | _ => BitVec.allOnes 64

/-- A descriptor register. -/
def CollSlot.wr (s : CollSlot) (o : Nat) (v : BitVec 64) : CollSlot :=
  let v := v &&& collMask o
  match o with
  | 0x00 => { s with d0 := v }
  | 0x08 => { s with d1 := v }
  | 0x10 => { s with d2 := v }
  | 0x18 => { s with d3 := v }
  | 0x20 => { s with d4 := v }
  | 0x28 => { s with d5 := v }
  | _ => s

def Block.wrCollSlot (b : Block) (q : Req) (n : Nat) (w : Wr) (o : Nat) : Block :=
  if o < 0x30 then
    if (b.collSlot n).st.busy then b.mCollSlot n fun s => { s with issueLost := true }
    else if o = 0x08 ∧ !worldOk q (b.ctxWorld (w.f 16 6).toNat) then b.violate q.src q true (BitVec.ofNat 64 w.addr)
    else b.mCollSlot n fun s => s.wr o w.m
  else match o with
  | 0x30 => (b.when (w.one 0) fun b => b.collIssue n).when (w.one 1) fun b => b.collCancel n
  | 0x38 => b.mCollSlot n fun s => { s with issueLost := w.clr s.issueLost 28 }
  | _ => b

def Block.wrColl (b : Block) (q : Req) (w : Wr) (c : Nat) : Block :=
  if c < 0x8800 then b.wrCollSlot q ((c - 0x8000) / 0x80) w (c % 0x80)
  else match c with
  | 0x8800 => b.when (w.one 0) Block.collCntClr
  | 0x8810 => b.mColl fun k => { k with resGrace := w.f 0 16, cutTsu := w.f 16 16 }
  | _ => b

/-- A descriptor register of a generator slot (R250). -/
def GenSlot.wr (s : GenSlot) (o : Nat) (v : BitVec 64) : GenSlot :=
  match o with
  | 0x00 => { s with d0 := v &&& 0x0000FFFF003F373F }
  | 0x08 => { s with coord := v }
  | 0x10 => { s with step := v.setWidth 48 }
  | 0x18 => { s with ncall := v.setWidth 20 }
  | 0x20 => { s with sig := v &&& 0x000FFFFF0007FFFF }
  | _ => s

def Block.wrGenSlot (b : Block) (q : Req) (n : Nat) (w : Wr) (o : Nat) : Block :=
  if o < 0x28 then
    if (b.genSlot n).st = .run then b.mGenSlot n fun s => { s with issueLost := true }
    else if o = 0 ∧ !worldOk q (b.ctxWorld (w.f 0 6).toNat) then b.violate q.src q true (BitVec.ofNat 64 w.addr)
    else b.mGenSlot n fun s => s.wr o w.m
  else match o with
  | 0x28 => (b.when (w.one 0) fun b => b.genIssue n).when (w.one 1) fun b => b.genCancel n
  | 0x30 => b.mGenSlot n fun s => { s with issueLost := w.clr s.issueLost 8 }
  | _ => b

def Block.wrGen (b : Block) (q : Req) (w : Wr) (c : Nat) : Block :=
  if c < 0x9200 then b.wrGenSlot q ((c - 0x9000) / 0x40) w (c % 0x40)
  else if 0x9400 ≤ c ∧ c < 0x9800 then b.keyWrite ((c - 0x9400) / 0x10) (c % 0x10 == 8) w.m
  else match c with
  | 0x9800 => b.mGen fun g => { g with tkey := g.tkey.extractLsb' 64 64 ++ w.m }
  | 0x9808 => b.mGen fun g => { g with tkey := w.m ++ g.tkey.extractLsb' 0 64 }
  | 0x9810 => b.mGen fun g => { g with tctr := g.tctr.extractLsb' 64 64 ++ w.m }
  | 0x9818 => b.mGen fun g => { g with tctr := w.m ++ g.tctr.extractLsb' 0 64 }
  | 0x9830 => (b.when (w.one 0) Block.genTest).when (w.one 1) Block.genSelfTest
  | 0x9840 => b.mGen fun g => { g with keyRef := w.clr g.keyRef 2 }
  | _ => b

/-! ### Data mover and stream port -/

/-- DM_CH_CFG (R279, R295). -/
def Block.wrDmCfg (b : Block) (q : Req) (n : Nat) (w : Wr) : Block :=
  if !worldOk q (b.ctxWorld (w.f 0 6).toNat) then
    (b.violate q.src q true (BitVec.ofNat 64 w.addr)).mDmCh n fun c => { c with cfgRef := true }
  else
    let high := !q.secure && decide (1 < (w.f 9 2).toNat)
    b.mDmCh n fun c =>
      let off := c.st == .off && !c.enPend
      { c with
        ctx := if off then w.f 0 6 else c.ctx, ring := if off then w.b 24 else c.ring, quota := w.f 16 7
        priv := if high then c.priv else w.f 9 2, cfgRef := c.cfgRef || high }

/-- DM_CH_CTRL (R290, R293, R295). -/
def Block.wrDmCtrl (b : Block) (n : Nat) (w : Wr) : Block :=
  let b := b.mDmCh n fun c => { c with irqEn := w.b 8 }
  let b := b.when (w.hit 1) fun b => if w.b 1 then b.dmPause n else b.dmResume n
  let b := b.when (w.hit 0) fun b => if w.b 0 then b.dmEnable n else b.dmDisable n
  let b := b.when (w.one 2) fun b => b.dmLoad n
  let b := b.when (w.one 3) fun b => b.dmKick n
  let b := b.when (w.one 4) fun b => b.dmRestart n
  let b := b.when (w.one 5) fun b => b.dmSkip n
  b.when (w.one 6) fun b => b.dmAbort n

/-- A register of the shadow set. -/
def DmSet.wr (s : DmSet) (o : Nat) (v : BitVec 64) : DmSet :=
  let v := v &&& setMask o
  match o with
  | 0x00 => { s with src := v }
  | 0x08 => { s with dst := v }
  | 0x10 => { s with stride := v }
  | 0x18 => { s with len := v }
  | 0x20 => { s with ctrl := v }
  | 0x28 => { s with sig := v }
  | 0x30 => { s with tag := v }
  | _ => s

def Block.wrDmCh (b : Block) (q : Req) (n : Nat) (w : Wr) (o : Nat) : Block :=
  if 0x80 ≤ o ∧ o < 0xB8 then
    b.mDmCh n fun c => if c.ring || c.shadowValid then { c with loadLost := true }
      else { c with shadow := c.shadow.wr (o - 0x80) w.m }
  else match o with
  | 0x00 => b.wrDmCfg q n w
  | 0x08 => b.wrDmCtrl n w
  | 0x10 => b.mDmCh n fun c => { c with
      loadLost := w.clr c.loadLost 8, descErr := w.clr c.descErr 9, sigErr := w.clr c.sigErr 10, done := w.clr c.done 11
      cfgRef := w.clr c.cfgRef 12, halted := w.clr c.halted 13 }
  | 0x18 => b.mDmCh n fun c => { c with sizeLog := w.f 0 4, base := w.f 6 58 }
  | 0x20 => b.mDmCh n fun c => if c.st = .off ∧ !c.enPend then { c with head := w.f 0 15 } else c
  | _ => b

def Block.wrDm (b : Block) (q : Req) (w : Wr) (c : Nat) : Block :=
  if 0xA100 ≤ c then (b.wrDmCh q ((c - 0xA100) / 0x100) w (c % 0x100)).dmGo
  else match c with
  | 0xA000 => b.mDm fun d => { d with pollInt := w.f 0 16 }
  | _ => b

/-- STR_CH_CFG (R304, R306): DIR in OFF only, WORLD by R337, then EN. -/
def Block.wrStrCfg (b : Block) (q : Req) (n : Nat) (w : Wr) : Block :=
  let b := b.mStrCh n fun c => if c.st = .off ∧ !c.enPend then { c with dir := w.b 1 } else c
  let b := b.when (w.hit 2) fun b => b.strWorldWrite q n (w.b 2)
  b.when (w.hit 0) fun b => if w.b 0 then b.strEnable n else b.strDisable n

def Block.wrStr (b : Block) (q : Req) (w : Wr) (c : Nat) : Block :=
  if 0xB100 ≤ c then
    let n := (c - 0xB100) / 0x20
    match c % 0x20 with
    | 0x00 => b.wrStrCfg q n w
    | 0x08 => b.mStrCh n fun x => { x with
        trunc := w.clr x.trunc 8, crcErr := w.clr x.crcErr 9, drop := w.clr x.drop 10, disc := w.clr x.disc 11 }
    | _ => b
  else match c with
  | 0xB000 => b.mStr fun s => { s with stallLimit := w.f 0 16, outWait := w.f 16 32 }
  | _ => b

/-! ### Catalogue access, Gauntlet, power, debug, health and telemetry -/

def Block.mPort (b : Block) (q : Req) (f : CatPort → CatPort) : Block := b.mCat .tsu fun c => c.mPort q.secure f

/-- The eight bytes of a cell of the data buffer. -/
def CatPort.putCell (p : CatPort) (o : Nat) (v : BitVec 64) : CatPort :=
  { p with data := ((List.range 8).zip (toLE 8 v.toNat)).foldl (fun l e => smPut 0 l (o + e.1) e.2) p.data }

def Block.wrCat (b : Block) (q : Req) (w : Wr) (c : Nat) : Block :=
  let port (f : CatPort → CatPort) : Block := b.mPort q fun p => if p.busy then p else f p
  if 0xC400 ≤ c ∧ c < 0xC800 then port fun p => p.putCell (c - 0xC400) w.m
  else match c with
  | 0xC000 => port fun p => { p with
      op := w.f 0 4, last := w.b 4, staged := w.b 5, vtype := w.f 8 8, sub := w.f 16 8, index := w.f 24 16, count := w.f 40 11 }
  | 0xC008 => port fun p => { p with offset := w.f 0 32 }
  | 0xC010 => b.when (w.one 0) fun b => b.catGo q
  | 0xC028 => b.mPort q fun p => { p with pend := p.pend &&& ~~~(fld w.d 0 16), irqEn := w.b 16 }
  | 0xC800 => b.mCat .tsu fun k => { k with imgAddr := w.m }
  | 0xC808 =>
    let b := b.mCat .tsu fun k => { k with imgLen := w.f 0 19 }
    (b.when (w.one 24) Block.catLoadStart).when (w.one 25) Block.catDefaults
  | _ => b

/-- The Gauntlet block, which only a monitor access at the register port reaches (R337, R342). -/
def Block.wrGnt (b : Block) (w : Wr) : Nat → Block
  | 0xD000 => b.blkWrite w.m
  | 0xD008 => b.tmwWrite w.m
  | 0xD010 => b.mGnt fun g => { g with crsel := w.f 0 6 }
  | 0xD018 => b.when (w.hit 0) fun b => b.crWrite (w.f 0 32)
  | 0xD028 => b.mGnt fun g => { g with violIrq := w.b 0, vCnt := if w.one 1 then 0 else g.vCnt }
  | 0xD030 => b.mGnt fun g => { g with vValid := w.clr g.vValid 63 }
  | _ => b

/-- TSU_PWR_CTRL (R346, R347, R350, R356): a WAKE_AT_EN that is set while TIME_VALID is 0 is ignored (R14). -/
def Block.wrPwrCtrl (b : Block) (q : Req) (w : Wr) : Block :=
  let b := b.mPwr fun p => { p with
    wakeAtEn := w.b 2 && (p.wakeAtEn || b.timeOk), listenA := w.b 3, listenB := w.b 4 }
  let b := b.when (b.tsu.pwr.engAuto != w.b 1) fun b => b.setEngAuto (w.b 1)
  if !w.hit 0 || !q.secure then b
  else if w.b 0 then b.mitWrite
  else b.unwant

/-- TSU_DBG_CTRL (R340, R341, R350). -/
def Block.wrDbgCtrl (b : Block) (q : Req) (w : Wr) : Block :=
  let lvl := w.f 2 2
  let b := b.mDbg fun d => { d with reqLevel := lvl, dbgRef := w.clr d.dbgRef 12, dbgPwr := w.clr d.dbgPwr 13 }
  let b := b.when (w.one 4) fun b => b.dbgUnlock lvl
  let b := b.when (w.one 5) fun b => b.dbgSet q lvl
  b.when (w.one 6) Block.dbgWake

def Block.wrPwr (b : Block) (q : Req) (w : Wr) : Nat → Block
  | 0xE000 => b.wrPwrCtrl q w
  | 0xE008 => b.mPwr fun p => { p with engIdle := w.f 0 32, engLead := w.f 32 16 }
  | 0xE010 => b.when b.timeOk fun b => b.mPwr fun p => { p with wakeAt := w.m }
  | 0xE018 => b.mPwr fun p => { p with
      mitRef := w.clr p.mitRef 10, ctxDropped := w.clr p.ctxDropped 14, pwrAcc := w.clr p.pwrAcc 15
      wakeCause := p.wakeCause &&& ~~~(fld w.d 16 6) }
  | 0xE100 => b.wrDbgCtrl q w
  | 0xE110 => b.mDbg fun d => { d with resp := d.resp.extractLsb' 64 64 ++ mrg (d.resp.extractLsb' 0 64) w.d w.mask }
  | 0xE118 => b.mDbg fun d => { d with resp := mrg (d.resp.extractLsb' 64 64) w.d w.mask ++ d.resp.extractLsb' 0 64 }
  | _ => b

/-- TSU_HLTH_LANE_A and TSU_HLTH_LANE_B (R452). -/
def Block.wrHlthLane (b : Block) (p : Plane) (w : Wr) : Block :=
  b.mLane (.tsu p) fun x => { x with health := { x.health with
    warn := w.clr x.health.warn 40, fail := w.clr x.health.fail 41
    eyeLow := if w.one 48 then 0xFF else x.health.eyeLow } }

/-- TSU_TEL_CTRL (R387): a CH whose world is not the access's is ignored. -/
def Block.wrTel (b : Block) (q : Req) (w : Wr) : Block :=
  let ch := w.f 8 6
  let bad := w.hit 8 && (b.strCh ch.toNat).world != q.secure
  b.mTsu fun t => { t with tel := { t.tel with
    en := w.b 0, period := w.f 16 5, ch := if bad then t.tel.ch else ch, telRef := w.clr t.tel.telRef 24 || bad } }

def Block.wrHlth (b : Block) (q : Req) (w : Wr) : Nat → Block
  | 0xF000 => b.mBoot fun t => { t with fenceRx := w.clr t.fenceRx 1 }
  | 0xF100 => b.mTsu fun t => { t with hlth := { t.hlth with
      eyeWarn := w.f 0 8, eyeFail := w.f 8 8, resWarn := w.f 16 16, resFail := w.f 32 16 } }
  | 0xF110 => b.wrHlthLane .A w
  | 0xF118 => b.wrHlthLane .B w
  | 0xF120 => b.mTsu fun t => { t with hlth := { t.hlth with irqEn := w.b 0 } }
  | 0xF800 => b.wrTel q w
  | _ => b

/-! ### The window -/

/-- A write that has passed its checks: `data` under `mask` into the cell that holds `addr`. A change of RW-S bits from the
non-secure world is one violation, and the write's other fields are applied (R10). -/
def Block.regWrite (b : Block) (q : Req) (addr : Nat) (data mask : BitVec 64) : Block :=
  let c := addr / 8 * 8
  let (m, viol) := writeS q (rwsBits c) (b.regRead q c) data mask
  let w : Wr := ⟨addr, m, data &&& mask, mask⟩
  let b := b.when viol fun b => b.violate q.src q true (BitVec.ofNat 64 addr)
  if 0x100000 ≤ c then b.wrPage w c
  else match c / 0x1000 with
  | 0x0 => b.wrId w c
  | 0x1 => b.wrTime q w c
  | 0x2 => b.wrLink w c
  | 0x3 => b.wrTdc w c
  | 0x4 => b.wrLaunch w c
  | 0x5 => b.wrCtxs q w c
  | 0x6 => b.wrBar q w c
  | 0x7 => b.wrMem q w c
  | 0x8 => b.wrColl q w c
  | 0x9 => b.wrGen q w c
  | 0xA => b.wrDm q w c
  | 0xB => b.wrStr q w c
  | 0xC => b.wrCat q w c
  | 0xD => b.wrGnt w c
  | 0xE => b.wrPwr q w c
  | _ => b.wrHlth q w c

/-- The bits that an access addresses, and its data in their place (R359). -/
def accMask (size64 : Bool) (addr : Nat) : BitVec 64 :=
  if size64 then BitVec.allOnes 64 else if addr % 8 = 4 then 0xFFFFFFFF00000000 else 0xFFFFFFFF
def accData (size64 : Bool) (addr : Nat) (data : BitVec 64) : BitVec 64 :=
  if !size64 && addr % 8 == 4 then data <<< 32 else data
/-- Which part of a cell a read of the access returns. -/
def accPart (size64 : Bool) (addr : Nat) : Nat := if size64 then 0 else if addr % 8 = 4 then 2 else 1

/-- The freeze registers (R343). -/
def isFreeze (c : Nat) : Bool := c == 0xE140 || c == 0xE148 || c == 0xE150

/-- A write of a freeze register, by either port; `tag` is the debug port's. -/
def Block.frzWrite (b : Block) (a : AnyAccess) (tag : Byte) (addr : Nat) (data mask : BitVec 64) : Block :=
  let c := addr / 8 * 8
  let w : Wr := ⟨addr, data &&& mask, data &&& mask, mask⟩
  b.frzCmd a tag addr (c != 0xE140) fun dbg b =>
    let n := b.tsu.dbg.frzSel.toNat
    match c with
    | 0xE140 => b.when (w.hit 0) fun b => b.mDbg fun d => { d with frzSel := w.f 0 6 }
    | 0xE148 => b.mCtxRun n fun r => { r with frzAt := mrg r.frzAt w.d mask }
    | _ =>
      let b := b.mDbg fun d => { d with frzRef := w.clr d.frzRef 3 }
      let b := b.when (w.hit 0) fun b => b.mCtxRun n fun r => { r with frzArm := w.b 0, frzDbg := w.b 0 && dbg }
      b.when (w.one 1) fun b => b.frzRelease n

/-- The world check of a write. The configuration of a barrier slot and of a timer, and TSU_DT_STAT, are checked by their
own writes, which set a flag. -/
def Block.wrWorldOk (b : Block) (q : Req) (c : Nat) : Bool :=
  c == 0x6008 || c == 0x7808 || c == 0x7810 || c == 0x7818 || worldOk q (b.regSecure c)

/-- A write at the register port (R336, R352, R358, R359). -/
def Block.portWrite (b : Block) (a : Access) (size64 : Bool) (addr : Nat) (data : BitVec 64) : Block :=
  let q := portReq a
  let d := accData size64 addr data
  let m := accMask size64 addr
  let c := addr / 8 * 8
  if b.tsu.boot.tsuRst then b
  else if !regAssigned addr then b.emit (.reg none 1 0)
  else if 0x400000 ≤ addr then b.dirAccess q size64 none ((addr - 0x400000) / 8) (some data)
  else if isFreeze c then b.frzWrite (.port a) 0 addr d m
  else b.regCmd q addr (b.wrWorldOk q c) fun b => b.regWrite q addr d m

/-- REGISTER_WRITE (R10). -/
def execRegisterWrite (a : Access) (size64 : Bool) (addr : BitVec 24) (data : BitVec 64) (s : State) :
    Host.Outcome State Fault Refusal :=
  s.run fun b => b.portWrite a size64 addr.toNat data

/-! ### The debug port -/

/-- A violation by a debug access. -/
def Block.dbgViolate (b : Block) (q : Req) (r : DebugReq) : Block :=
  (b.violate 8 q r.write (BitVec.ofNat 64 r.addr.toNat)).emit (.dbg r.tag 0 0)

/-- A debug access that its level lets through: decode, Gauntlet and power, then its effect (R342, R352, R358). -/
def Block.dbgPerform (b : Block) (q : Req) (free : Bool) (r : DebugReq) : Block :=
  let addr := r.addr.toNat
  let c := addr / 8 * 8
  if !regAssigned addr then b.emit (.dbg r.tag 1 0)
  else if 0x400000 ≤ addr then
    b.dirAccess q r.size64 (some r.tag) ((addr - 0x400000) / 8) (if r.write then some r.data else none)
  else if !r.write && decide (0x100000 ≤ c) && decide (c % 0x400 < 0x200) && c % 0x40 == 0x18 then
    b.readWait q ((c - 0x100000) / 0x400) (c % 0x400 / 0x40) (accPart r.size64 addr) r.tag
  else if !free && !b.nibbleOk q addr then b.dbgViolate q r
  else if !(if r.write then b.wrWorldOk q c else worldOk q (b.regSecure c)) then
    (b.when (!r.write && (c == 0x7808 || c == 0x7810 || c == 0x7818)) fun b =>
      b.mTimers fun t => { t with dtRef := true }).dbgViolate q r
  else if !b.targetOn addr then (b.powerErr q).emit (.dbg r.tag 2 0)
  else if r.write then
    (b.regWrite q addr (accData r.size64 addr r.data) (accMask r.size64 addr)).emit (.dbg r.tag 0 0)
  else b.emit (.dbg r.tag 0 (partOf (accPart r.size64 addr) (b.regRead q c)))

/-- An access of the debug port (R342, R343, R385). -/
def Block.debugAccess (b : Block) (r : DebugReq) : Block :=
  let addr := r.addr.toNat
  if b.tsu.boot.tsuRst then b
  else if r.write && isFreeze (addr / 8 * 8) then
    b.frzWrite (.debug r.secure) r.tag addr (accData r.size64 addr r.data) (accMask r.size64 addr)
  else match b.dbgResolve r.secure r.write addr with
    | .refused => b.dbgRefused.emit (.dbg r.tag 0 0)
    | .violation => b.dbgViolate ⟨r.secure, 2, true⟩ r
    | .perform q free => b.dbgPerform q free r

/-- DEBUG_ACCESS (R342). -/
def execDebugAccess (r : DebugReq) (s : State) : Host.Outcome State Fault Refusal := s.run fun b => b.debugAccess r

end Sys2Proof.Machine
end

