-- ==== Sys2Proof/Machine/Dispatch.lean ====
section
/-! DEFINITION. Which meaning each command has: one arm per constructor, in the order of spec/opcode_table.json. -/

namespace Sys2Proof.Machine

open Sys2Proof

/-- A command's effect on everything but the queue. -/
def exec (i : Instr) (s : State) : Host.Outcome State Fault Refusal :=
  match i with
  | .aonResetRelease => Sys2Proof.Machine.execAonResetRelease s
  | .tsuResetRelease => Sys2Proof.Machine.execTsuResetRelease s
  | .fuseReadDone u words => Sys2Proof.Machine.execFuseReadDone u words s
  | .fuseTimeout => Sys2Proof.Machine.execFuseTimeout s
  | .powerAck d level => Sys2Proof.Machine.execPowerAck d level s
  | .pwrAckLoss d => Sys2Proof.Machine.execPwrAckLoss d s
  | .registerWrite a size64 addr data => Sys2Proof.Machine.execRegisterWrite a size64 addr data s
  | .spineLoadTake => Sys2Proof.Machine.execSpineLoadTake s
  | .calStart a => Sys2Proof.Machine.execCalStart a s
  | .spineCalDone ms => Sys2Proof.Machine.execSpineCalDone ms s
  | .spineTrackMeasure echo resid => Sys2Proof.Machine.execSpineTrackMeasure echo resid s
  | .vitCapture a => Sys2Proof.Machine.execVitCapture a s
  | .vitArmAt a w => Sys2Proof.Machine.execVitArmAt a w s
  | .vitAtReached secure => Sys2Proof.Machine.execVitAtReached secure s
  | .laneEnable a l => Sys2Proof.Machine.execLaneEnable a l s
  | .laneDisable a l => Sys2Proof.Machine.execLaneDisable a l s
  | .laneShutdownDone l => Sys2Proof.Machine.execLaneShutdownDone l s
  | .retrain a l => Sys2Proof.Machine.execRetrain a l s
  | .laneCntClr a l => Sys2Proof.Machine.execLaneCntClr a l s
  | .trainingDone l eye settings => Sys2Proof.Machine.execTrainingDone l eye settings s
  | .codewordLock l => Sys2Proof.Machine.execCodewordLock l s
  | .trainingTimeout l => Sys2Proof.Machine.execTrainingTimeout l s
  | .retrainBackoffExpire l => Sys2Proof.Machine.execRetrainBackoffExpire l s
  | .helloSend l => Sys2Proof.Machine.execHelloSend l s
  | .helloReceive l h p => Sys2Proof.Machine.execHelloReceive l h p s
  | .negTimeout l => Sys2Proof.Machine.execNegTimeout l s
  | .cdrLockLoss l => Sys2Proof.Machine.execCdrLockLoss l s
  | .frameCorrupt l e time => Sys2Proof.Machine.execFrameCorrupt l e time s
  | .linkctlSend l => Sys2Proof.Machine.execLinkctlSend l s
  | .linkctlReceive l h p => Sys2Proof.Machine.execLinkctlReceive l h p s
  | .syncSendDown n tx => Sys2Proof.Machine.execSyncSendDown n tx s
  | .syncSendUp l tx => Sys2Proof.Machine.execSyncSendUp l tx s
  | .syncFrameReceive l h f rx => Sys2Proof.Machine.execSyncFrameReceive l h f rx s
  | .syncLossDetect l => Sys2Proof.Machine.execSyncLossDetect l s
  | .tdcCaptureDiscard ch => Sys2Proof.Machine.execTdcCaptureDiscard ch s
  | .cdcStart a u => Sys2Proof.Machine.execCdcStart a u s
  | .cdcDone u inlMax => Sys2Proof.Machine.execCdcDone u inlMax s
  | .dllUnlock ch => Sys2Proof.Machine.execDllUnlock ch s
  | .refineWindowEnd u => Sys2Proof.Machine.execRefineWindowEnd u s
  | .stepArm a u => Sys2Proof.Machine.execStepArm a u s
  | .twinSwitch => Sys2Proof.Machine.execTwinSwitch s
  | .planeWtrExpire p => Sys2Proof.Machine.execPlaneWtrExpire p s
  | .ppsEdge n t => Sys2Proof.Machine.execPpsEdge n t s
  | .ppsEdgeMissing n => Sys2Proof.Machine.execPpsEdgeMissing n s
  | .todMessageReceive n msg => Sys2Proof.Machine.execTodMessageReceive n msg s
  | .todTimeout n => Sys2Proof.Machine.execTodTimeout n s
  | .tenmhzLoss n => Sys2Proof.Machine.execTenmhzLoss n s
  | .ptpMessageReceive n m => Sys2Proof.Machine.execPtpMessageReceive n m s
  | .ptpAnnounceTimeout n => Sys2Proof.Machine.execPtpAnnounceTimeout n s
  | .esmcReceive n code ext => Sys2Proof.Machine.execEsmcReceive n code ext s
  | .esmcTimeout n => Sys2Proof.Machine.execEsmcTimeout n s
  | .refHoldoffExpire => Sys2Proof.Machine.execRefHoldoffExpire s
  | .refWtrExpire cand => Sys2Proof.Machine.execRefWtrExpire cand s
  | .tieHoldoffExpire => Sys2Proof.Machine.execTieHoldoffExpire s
  | .tieSwitchAt => Sys2Proof.Machine.execTieSwitchAt s
  | .rootManualStart q => Sys2Proof.Machine.execRootManualStart q s
  | .ageingLearn => Sys2Proof.Machine.execAgeingLearn s
  | .aonClockLoss u => Sys2Proof.Machine.execAonClockLoss u s
  | .ctxEnable a c => Sys2Proof.Machine.execCtxEnable a c s
  | .ctxDisable a c => Sys2Proof.Machine.execCtxDisable a c s
  | .ctxClearingDone c => Sys2Proof.Machine.execCtxClearingDone c s
  | .ready a c => Sys2Proof.Machine.execReady a c s
  | .go a c => Sys2Proof.Machine.execGo a c s
  | .stop a c => Sys2Proof.Machine.execStop a c s
  | .clear a c => Sys2Proof.Machine.execClear a c s
  | .ctxCntClr a c => Sys2Proof.Machine.execCtxCntClr a c s
  | .stepGoReceive l h b p => Sys2Proof.Machine.execStepGoReceive l h b p s
  | .restartSend c => Sys2Proof.Machine.execRestartSend c s
  | .rgQuiesceRaise c => Sys2Proof.Machine.execRgQuiesceRaise c s
  | .launch c firstEdge => Sys2Proof.Machine.execLaunch c firstEdge s
  | .missedArrival c => Sys2Proof.Machine.execMissedArrival c s
  | .rstCalStart a => Sys2Proof.Machine.execRstCalStart a s
  | .rstCalDone ms => Sys2Proof.Machine.execRstCalDone ms s
  | .stretchReport ep amt => Sys2Proof.Machine.execStretchReport ep amt s
  | .refreshRequest g => Sys2Proof.Machine.execRefreshRequest g s
  | .refreshUrgent g => Sys2Proof.Machine.execRefreshUrgent g s
  | .quietWindowOpen => Sys2Proof.Machine.execQuietWindowOpen s
  | .refreshGrantEnd g => Sys2Proof.Machine.execRefreshGrantEnd g s
  | .armReceive l h group p => Sys2Proof.Machine.execArmReceive l h group p s
  | .commitReceive l h group p => Sys2Proof.Machine.execCommitReceive l h group p s
  | .abortReceive l h group p => Sys2Proof.Machine.execAbortReceive l h group p s
  | .nostartExpire c => Sys2Proof.Machine.execNostartExpire c s
  | .armedReceive n h group job count => Sys2Proof.Machine.execArmedReceive n h group job count s
  | .jobArm q => Sys2Proof.Machine.execJobArm q s
  | .jobCommit q => Sys2Proof.Machine.execJobCommit q s
  | .jobAbort q => Sys2Proof.Machine.execJobAbort q s
  | .bslotConfig a data => Sys2Proof.Machine.execBslotConfig a data s
  | .xlatWrite a data => Sys2Proof.Machine.execXlatWrite a data s
  | .wsConsume a c k f => Sys2Proof.Machine.execWsConsume a c k f s
  | .wsRead a c k f => Sys2Proof.Machine.execWsRead a c k f s
  | .wsProduce a c k f => Sys2Proof.Machine.execWsProduce a c k f s
  | .wsWriteForce a c k f => Sys2Proof.Machine.execWsWriteForce a c k f s
  | .wsFillCount a c k f => Sys2Proof.Machine.execWsFillCount a c k f s
  | .wsProbe a c k f => Sys2Proof.Machine.execWsProbe a c k f s
  | .hallConsume a c k f => Sys2Proof.Machine.execHallConsume a c k f s
  | .hallRead a c k f => Sys2Proof.Machine.execHallRead a c k f s
  | .hallProduce a c k f => Sys2Proof.Machine.execHallProduce a c k f s
  | .hallWriteForce a c k f => Sys2Proof.Machine.execHallWriteForce a c k f s
  | .hallFillCount a c k f => Sys2Proof.Machine.execHallFillCount a c k f s
  | .hallProbe a c k f => Sys2Proof.Machine.execHallProbe a c k f s
  | .wsArrive a c k f => Sys2Proof.Machine.execWsArrive a c k f s
  | .wsArriveWait a c k f => Sys2Proof.Machine.execWsArriveWait a c k f s
  | .wsWait a c k f => Sys2Proof.Machine.execWsWait a c k f s
  | .wsSignal a c k f => Sys2Proof.Machine.execWsSignal a c k f s
  | .wsTake a c k f => Sys2Proof.Machine.execWsTake a c k f s
  | .wsReadCount a c k f => Sys2Proof.Machine.execWsReadCount a c k f s
  | .wsWaitRead a c k tag => Sys2Proof.Machine.execWsWaitRead a c k tag s
  | .regAbort tag => Sys2Proof.Machine.execRegAbort tag s
  | .waitTimeout c k => Sys2Proof.Machine.execWaitTimeout c k s
  | .arriveReceive n h b p => Sys2Proof.Machine.execArriveReceive n h b p s
  | .doneReceive l h b sat => Sys2Proof.Machine.execDoneReceive l h b sat s
  | .signalReceive n h b count => Sys2Proof.Machine.execSignalReceive n h b count s
  | .takeReceive n h b p => Sys2Proof.Machine.execTakeReceive n h b p s
  | .takeRespReceive l h b p => Sys2Proof.Machine.execTakeRespReceive l h b p s
  | .cancelReceive n h b pda tag => Sys2Proof.Machine.execCancelReceive n h b pda tag s
  | .directWindowRead a size64 word tag => Sys2Proof.Machine.execDirectWindowRead a size64 word tag s
  | .directWindowWrite a size64 word data => Sys2Proof.Machine.execDirectWindowWrite a size64 word data s
  | .tmScrubStart a region => Sys2Proof.Machine.execTmScrubStart a region s
  | .tmScrubDone => Sys2Proof.Machine.execTmScrubDone s
  | .tmInitDone => Sys2Proof.Machine.execTmInitDone s
  | .hbarCommit q => Sys2Proof.Machine.execHbarCommit q s
  | .groupCommit q => Sys2Proof.Machine.execGroupCommit q s
  | .barCntClr a => Sys2Proof.Machine.execBarCntClr a s
  | .collIssue a n => Sys2Proof.Machine.execCollIssue a n s
  | .collCancel a n => Sys2Proof.Machine.execCollCancel a n s
  | .collCntClr a => Sys2Proof.Machine.execCollCntClr a s
  | .streamBeatReceive b => Sys2Proof.Machine.execStreamBeatReceive b s
  | .burstStallTrunc ch => Sys2Proof.Machine.execBurstStallTrunc ch s
  | .collCut w => Sys2Proof.Machine.execCollCut w s
  | .contribReceive n h b p => Sys2Proof.Machine.execContribReceive n h b p s
  | .absentReceive n h b p => Sys2Proof.Machine.execAbsentReceive n h b p s
  | .ssum2Receive n h b p => Sys2Proof.Machine.execSsum2Receive n h b p s
  | .kdownReceive l h b p => Sys2Proof.Machine.execKdownReceive l h b p s
  | .resultReceive l h b p => Sys2Proof.Machine.execResultReceive l h b p s
  | .resGraceExpire n => Sys2Proof.Machine.execResGraceExpire n s
  | .collOutputDone n => Sys2Proof.Machine.execCollOutputDone n s
  | .cobjCommit q => Sys2Proof.Machine.execCobjCommit q s
  | .genIssue a n => Sys2Proof.Machine.execGenIssue a n s
  | .genCancel a n => Sys2Proof.Machine.execGenCancel a n s
  | .genComplete n => Sys2Proof.Machine.execGenComplete n s
  | .genTestCall a => Sys2Proof.Machine.execGenTestCall a s
  | .genSelftestRun a => Sys2Proof.Machine.execGenSelftestRun a s
  | .genKeyWrite a c hi data => Sys2Proof.Machine.execGenKeyWrite a c hi data s
  | .hreqReceive l h p => Sys2Proof.Machine.execHreqReceive l h p s
  | .hreqExpiry pda tag => Sys2Proof.Machine.execHreqExpiry pda tag s
  | .hcancelReceive l h ha pda tag => Sys2Proof.Machine.execHcancelReceive l h ha pda tag s
  | .hrespReceive l h p => Sys2Proof.Machine.execHrespReceive l h p s
  | .hmGraceExpire tag => Sys2Proof.Machine.execHmGraceExpire tag s
  | .hmemRegionCommit q => Sys2Proof.Machine.execHmemRegionCommit q s
  | .hmemScrubDone region => Sys2Proof.Machine.execHmemScrubDone region s
  | .hmemSelftestDone failing => Sys2Proof.Machine.execHmemSelftestDone failing s
  | .dtConfigWrite a w => Sys2Proof.Machine.execDtConfigWrite a w s
  | .dtFire n => Sys2Proof.Machine.execDtFire n s
  | .dmEnable a n => Sys2Proof.Machine.execDmEnable a n s
  | .dmDisable a n => Sys2Proof.Machine.execDmDisable a n s
  | .dmLoad a n => Sys2Proof.Machine.execDmLoad a n s
  | .dmKick a n => Sys2Proof.Machine.execDmKick a n s
  | .dmPause a n => Sys2Proof.Machine.execDmPause a n s
  | .dmResume a n => Sys2Proof.Machine.execDmResume a n s
  | .dmRestart a n => Sys2Proof.Machine.execDmRestart a n s
  | .dmSkip a n => Sys2Proof.Machine.execDmSkip a n s
  | .dmAbort a n => Sys2Proof.Machine.execDmAbort a n s
  | .dmDescFetchDone n resp desc => Sys2Proof.Machine.execDmDescFetchDone n resp desc s
  | .dmPollExpire n => Sys2Proof.Machine.execDmPollExpire n s
  | .dmReadData n resp data => Sys2Proof.Machine.execDmReadData n resp data s
  | .dmWriteAck n resp => Sys2Proof.Machine.execDmWriteAck n resp s
  | .dmHaltDrained n => Sys2Proof.Machine.execDmHaltDrained n s
  | .strChEnable a ch => Sys2Proof.Machine.execStrChEnable a ch s
  | .strChDisable a ch => Sys2Proof.Machine.execStrChDisable a ch s
  | .streamCreditReturn => Sys2Proof.Machine.execStreamCreditReturn s
  | .outputBurstAdmit p => Sys2Proof.Machine.execOutputBurstAdmit p s
  | .outWaitExpire p => Sys2Proof.Machine.execOutWaitExpire p s
  | .catRead q e staged => Sys2Proof.Machine.execCatRead q e staged s
  | .catWrite q e vtype value => Sys2Proof.Machine.execCatWrite q e vtype value s
  | .catReadBlock q e offset count => Sys2Proof.Machine.execCatReadBlock q e offset count s
  | .catWriteBlock q e offset data last => Sys2Proof.Machine.execCatWriteBlock q e offset data last s
  | .catCommit q index => Sys2Proof.Machine.execCatCommit q index s
  | .catSubscribe q e minInt lifetime => Sys2Proof.Machine.execCatSubscribe q e minInt lifetime s
  | .notifySample u n => Sys2Proof.Machine.execNotifySample u n s
  | .subscriptionExpire u n => Sys2Proof.Machine.execSubscriptionExpire u n s
  | .udpMessageReceive src msg => Sys2Proof.Machine.execUdpMessageReceive src msg s
  | .ctrlFrameReceive l h csf msg => Sys2Proof.Machine.execCtrlFrameReceive l h csf msg s
  | .fwdTimeout tag => Sys2Proof.Machine.execFwdTimeout tag s
  | .catImageLoad a => Sys2Proof.Machine.execCatImageLoad a s
  | .catDefault a => Sys2Proof.Machine.execCatDefault a s
  | .catImageFetched resp img => Sys2Proof.Machine.execCatImageFetched resp img s
  | .catLoadTimeout => Sys2Proof.Machine.execCatLoadTimeout s
  | .catSave q => Sys2Proof.Machine.execCatSave q s
  | .catSaveDone => Sys2Proof.Machine.execCatSaveDone s
  | .gauntletWrite a w => Sys2Proof.Machine.execGauntletWrite a w s
  | .dbgSet a level => Sys2Proof.Machine.execDbgSet a level s
  | .dbgUnlock a level => Sys2Proof.Machine.execDbgUnlock a level s
  | .debugAccess r => Sys2Proof.Machine.execDebugAccess r s
  | .freezeArm a w => Sys2Proof.Machine.execFreezeArm a w s
  | .freezeRelease a => Sys2Proof.Machine.execFreezeRelease a s
  | .mittenRequest a => Sys2Proof.Machine.execMittenRequest a s
  | .mittenIncMeasured inc => Sys2Proof.Machine.execMittenIncMeasured inc s
  | .mittenEntryComplete => Sys2Proof.Machine.execMittenEntryComplete s
  | .wakeAtReached => Sys2Proof.Machine.execWakeAtReached s
  | .hostWakeRequest => Sys2Proof.Machine.execHostWakeRequest s
  | .laneEnergyWake p => Sys2Proof.Machine.execLaneEnergyWake p s
  | .dbgWake a => Sys2Proof.Machine.execDbgWake a s
  | .softwareWake a => Sys2Proof.Machine.execSoftwareWake a s
  | .mittenExitDone => Sys2Proof.Machine.execMittenExitDone s
  | .engineDemand => Sys2Proof.Machine.execEngineDemand s
  | .engineStarted => Sys2Proof.Machine.execEngineStarted s
  | .engLeadExpire c => Sys2Proof.Machine.execEngLeadExpire c s
  | .engIdleExpire => Sys2Proof.Machine.execEngIdleExpire s
  | .telemetryRecord => Sys2Proof.Machine.execTelemetryRecord s
  | .cloakroomEntry => Sys2Proof.Machine.execCloakroomEntry s
  | .cloakroomForcedStop n => Sys2Proof.Machine.execCloakroomForcedStop n s
  | .cloakroomDrainDone => Sys2Proof.Machine.execCloakroomDrainDone s
  | .cloakroomExit => Sys2Proof.Machine.execCloakroomExit s
  | .admitCommit q => Sys2Proof.Machine.execAdmitCommit q s
  | .topoExpectCommit q pda => Sys2Proof.Machine.execTopoExpectCommit q pda s
  | .distTopoCommit q => Sys2Proof.Machine.execDistTopoCommit q s
  | .topoReportSend => Sys2Proof.Machine.execTopoReportSend s
  | .topoReportReceive n h r => Sys2Proof.Machine.execTopoReportReceive n h r s
  | .topoSumReceive n h admitted => Sys2Proof.Machine.execTopoSumReceive n h admitted s
  | .imgTxStart q => Sys2Proof.Machine.execImgTxStart q s
  | .imgBlockSend => Sys2Proof.Machine.execImgBlockSend s
  | .imgTxCommit q => Sys2Proof.Machine.execImgTxCommit q s
  | .imgTxRollback q => Sys2Proof.Machine.execImgTxRollback q s
  | .imgStartReceive l h b p => Sys2Proof.Machine.execImgStartReceive l h b p s
  | .imgBlockReceive l h b data => Sys2Proof.Machine.execImgBlockReceive l h b data s
  | .imgEndReceive l h b nblk => Sys2Proof.Machine.execImgEndReceive l h b nblk s
  | .imgNackTimer u => Sys2Proof.Machine.execImgNackTimer u s
  | .imgNackReceive n h b ranges => Sys2Proof.Machine.execImgNackReceive n h b ranges s
  | .imgVerifyDone u resp img => Sys2Proof.Machine.execImgVerifyDone u resp img s
  | .imgReportReceive n h b okn failn => Sys2Proof.Machine.execImgReportReceive n h b okn failn s
  | .imgCommitReceive l h b tAct => Sys2Proof.Machine.execImgCommitReceive l h b tAct s
  | .imgActivate u => Sys2Proof.Machine.execImgActivate u s
  | .imgRollbackReceive l h b => Sys2Proof.Machine.execImgRollbackReceive l h b s
  | .imgActedReceive n h b actn missn => Sys2Proof.Machine.execImgActedReceive n h b actn missn s
  | .imgTaken q => Sys2Proof.Machine.execImgTaken q s
  | .distPowerUp => Sys2Proof.Machine.execDistPowerUp s
  | .ocxoWarm => Sys2Proof.Machine.execOcxoWarm s
  | .memCommit q => Sys2Proof.Machine.execMemCommit q s
  | .fenceReceiveDist n h f => Sys2Proof.Machine.execFenceReceiveDist n h f s
  | .fenceReceiveTsu p h f => Sys2Proof.Machine.execFenceReceiveTsu p h f s
  | .rmCommit q => Sys2Proof.Machine.execRmCommit q s
  | .purgeCommit q => Sys2Proof.Machine.execPurgeCommit q s
  | .seedCommit q => Sys2Proof.Machine.execSeedCommit q s
  | .ldiMapCommit q => Sys2Proof.Machine.execLdiMapCommit q s
  | .distDrain q => Sys2Proof.Machine.execDistDrain q s
  | .shadowEnd => Sys2Proof.Machine.execShadowEnd s
  | .curatorUpdate m => Sys2Proof.Machine.execCuratorUpdate m s
  | .bucketLeak => Sys2Proof.Machine.execBucketLeak s
  | .congestionWindow w => Sys2Proof.Machine.execCongestionWindow w s
  | .portListen n => Sys2Proof.Machine.execPortListen n s
  | .portWake q n => Sys2Proof.Machine.execPortWake q n s
  | .portEnergyDetect n => Sys2Proof.Machine.execPortEnergyDetect n s
  | .inputUndervoltage v => Sys2Proof.Machine.execInputUndervoltage v s
  | .inputOff => Sys2Proof.Machine.execInputOff s
  | .inputRecovered => Sys2Proof.Machine.execInputRecovered s
  | .thermWarn tj => Sys2Proof.Machine.execThermWarn tj s
  | .thermTrip tj => Sys2Proof.Machine.execThermTrip tj s
  | .cageLimit lanes => Sys2Proof.Machine.execCageLimit lanes s
  | .tsuResetAssert => Sys2Proof.Machine.execTsuResetAssert s
  | .aonResetAssert => Sys2Proof.Machine.execAonResetAssert s
  | .aonClockRecover u => Sys2Proof.Machine.execAonClockRecover u s
  | .dllLockRegain ch => Sys2Proof.Machine.execDllLockRegain ch s
  | .tenmhzRecover n => Sys2Proof.Machine.execTenmhzRecover n s
  | .lockAgeTenMinutes => Sys2Proof.Machine.execLockAgeTenMinutes s
  | .topoSumSend => Sys2Proof.Machine.execTopoSumSend s
  | .imgEndTimeout u => Sys2Proof.Machine.execImgEndTimeout u s
  | .imgBlockWriteAck resp => Sys2Proof.Machine.execImgBlockWriteAck resp s
  | .firmwareBootDone => Sys2Proof.Machine.execFirmwareBootDone s
  | .distCatLoadDone slots => Sys2Proof.Machine.execDistCatLoadDone slots s
  | .strClkStart => Sys2Proof.Machine.execStrClkStart s

end Sys2Proof.Machine
end

