-- ==== Sys2Proof/Machine/Tick.lean ====
section
/-! DEFINITION. What passes between commands: one tick of hall time at each unit whose clocks run (R13, R22, R349), and the
data mover's engines run on (log entry 1). -/

namespace Sys2Proof.Machine

open Sys2Proof

/-- One tick of a unit's count, with LOCK_AGE while the servo is LOCKED (R13, R22). -/
def TimeSt.tick (t : TimeSt) (locked : Bool) : TimeSt :=
  { t with tc64 := t.tc64 + 1, lockAge := if locked then sat1 t.lockAge else t.lockAge }

/-- The TSU: TIME on counts a tick and the spine's replica with it; in MITTEN an edge of the always-on clock passes. -/
def Tsu.tick (t : Tsu) : Tsu :=
  if t.boot.tsuRst then t
  else if t.pwr.on.time then
    { t with time := t.time.tick (t.servo.state == .locked), spine.replica := t.spine.replica + 1 }
  else if t.pwr.st == .mitten then { t with pwr := t.pwr.edge }
  else t

/-- The distributor: its count runs while the module is powered. -/
def Dist.tick (d : Dist) : Dist :=
  if d.mod.powered then { d with time := d.time.tick (d.servo.state == .locked) } else d

/-- Refresh requests that no quiet window confines are granted (R131). -/
def Block.freeGrants (b : Block) : Block := if b.live && !b.aligned then Block.grantAll 64 b else b

/-- No command waits. -/
def Block.idle (b : Block) : Block := ({ b with tsu := b.tsu.tick, dist := b.dist.tick }).dmGo.freeGrants

end Sys2Proof.Machine
end

