-- ==== Sys2Proof/Machine/Step.lean ====
section
/-! DEFINITION. One step: the oldest waiting command takes effect; with none waiting one tick of hall time passes. -/

namespace Sys2Proof.Machine

open Sys2Proof

/-- One step. With an empty queue the clocks of both units advance (log entry 1). -/
def step (s : State) : Host.Outcome State Fault Refusal :=
  match s.pending with
  | [] => .next { s with blk := s.blk.idle }
  | c :: rest => exec c { s with pending := rest }

/-- `s` with the command a table word spells put in front of its queue. -/
def State.withFetchWord (s : State) (nbits w : Nat) : State :=
  match decodeTableWord nbits w with
  | some c => { s with pending := c :: s.pending }
  | none => s

end Sys2Proof.Machine
end

