-- ==== Sys2Proof/Safety.lean ====
section
/-! DEFINITION. What counts as a safe run: every command that waits names only what the two units have, so no step stops.
And the parts of the block that a statement names as changed: `lessX` is the block with the part X set to nothing, so that
two blocks that agree on it differ in X alone. -/

namespace Sys2Proof.Machine

open Sys2Proof

/-- Every waiting command is well formed. -/
def State.queueOk (s : State) : Bool := s.pending.all Instr.wf

/-- The block without what it has sent. -/
def Block.lessOut (b : Block) : Block := { b with out := [] }

def Lane.lessLink (x : Lane) : Lane := { x with link := {} }

/-- The block without the link state of the TSU's lanes and what it has sent. -/
def Block.lessLinks (b : Block) : Block :=
  { b with tsu := { b.tsu with laneA := b.tsu.laneA.lessLink, laneB := b.tsu.laneB.lessLink }, out := [] }

/-- The block without the distributor's lanes and what it has sent. -/
def Block.lessLanes (b : Block) : Block := { b with dist := { b.dist with lanes := [] }, out := [] }

/-- The block without the wait slots, the barriers' slots, the hall requests in progress, the link state of the TSU's lanes
and what it has sent: what a withdrawn or completed wait can reach. -/
def Block.lessWaits (b : Block) : Block :=
  { b.lessLinks with tsu := { b.lessLinks.tsu with ws := [], heldReads := [], held := [], hall := {}, bar := { b.lessLinks.tsu.bar with slots := [] } } }

/-! ### Wait slots -/

/-- A command at wait slot k of context c is taken: the access passes, the slot is free, and the context is neither OFF, nor
stopping, nor halted, nor past a MISSED launch (R169, R172, R173, R175). -/
def Block.slotFree (b : Block) (a : Access) (c k : Nat) : Bool :=
  decide (b.check (portReq a) (wsReg c k 0x10) (worldOk (portReq a) (b.ctxWorld c)) = .ok) &&
    (b.wslot (wsIdx c k)).op.isNone && (b.ctx c).st != .off && (b.ctx c).st != .stopping && (b.ctx c).st != .halt &&
    !(b.ctx c).missedWin

/-- A context can reach a tagged word now: ENGINE runs, the word is not held, its check bits are good, and the worlds of its
region and of the word allow it (R162 to R164, R335, R336, R346). -/
def Block.wordFree (b : Block) (c n : Nat) : Bool :=
  b.engOn && !b.wordHeld n && (b.tsu.tm.get n).ecc == .good &&
    (b.ctxWorld c || (!b.regionWorld n && !(b.tsu.tm.get n).w))

/-- `t` follows `s`: wait slot `i` shows the result `r`, tagged word `n` holds `x`, and beside them only the issue counter,
the demand for ENGINE and the answers to reads of the slot differ. -/
def WordDone (s t : State) (i n : Nat) (r : WRes) (x : TWord) : Prop :=
  let w := t.blk.wslot i
  (w.op = none ∧ w.status = r.status ∧ w.sat = r.sat ∧ w.ovr = r.ovr ∧ w.full = r.full ∧ w.w = r.w ∧ w.count = r.count ∧
    w.rdata = r.rdata) ∧
  t.blk.tsu.tm = (if x = s.blk.tsu.tm.get n then s.blk.tsu.tm else s.blk.tsu.tm.set n x) ∧
  (∀ j, j ≠ i → t.blk.wslot j = s.blk.wslot j) ∧
  t.blk.tsu = { s.blk.tsu with
    tm := t.blk.tsu.tm, ws := t.blk.tsu.ws, wseq := t.blk.tsu.wseq, pwr := t.blk.tsu.pwr
    heldReads := t.blk.tsu.heldReads } ∧
  t.blk.dist = s.blk.dist ∧ t.pending = s.pending

/-- `t` follows `s`: wait slot `i` shows the result `r`, and beside it only the barrier slots, the issue counter, the demand
for ENGINE and the answers to reads of the slot differ. -/
def WaitDone (s t : State) (i : Nat) (r : WRes) : Prop :=
  let w := t.blk.wslot i
  (w.op = none ∧ w.status = r.status ∧ w.sat = r.sat ∧ w.ovr = r.ovr ∧ w.full = r.full ∧ w.w = r.w ∧ w.count = r.count ∧
    w.rdata = r.rdata) ∧
  (∀ j, j ≠ i → t.blk.wslot j = s.blk.wslot j) ∧
  t.blk.tsu = { s.blk.tsu with
    bar := t.blk.tsu.bar, ws := t.blk.tsu.ws, wseq := t.blk.tsu.wseq, pwr := t.blk.tsu.pwr
    heldReads := t.blk.tsu.heldReads } ∧
  t.blk.dist = s.blk.dist ∧ t.pending = s.pending

/-- The operation that a command at wait slot `i` of context `c` starts (R169, R170). -/
def Block.newOp (b : Block) (c i : Nat) (space : BitVec 2) (op : BitVec 4) (f : WsFlags) : WOp :=
  { space := space, op := op, addr := (b.wslot i).addr, wdata := (b.wslot i).wdata, flags := f, seq := b.tsu.wseq
    issue := b.tc
    expiry := if f.tmo = 0 ∨ space = 1 then none else some (b.tc + tmoTicks f.tmo)
    slot := if space = 2 then b.xlat c ((b.wslot i).addr.toNat % 1024) else none
    phase := none, await := none, arrived := (false, false, 0), held := space != 1 }

/-! ### Receipt -/

/-- A frame of class `cls` that needs feature `feat` passes every check of a receiver: the lane is UP, FMT and CLASS are
right, LSEQ is the expected one, the feature is in effect, and membership, admission, topology and readiness let it in. -/
def Block.rxOk (b : Block) (l : LaneRef) (h : Hdr) (cls feat : Nat) (fence : Bool) : Bool :=
  b.up l && h.fmt == 1 && decide (h.cls.toNat = cls) && decide (cls < 7) &&
    (cls == 0 || h.lseq == (b.lane l).link.rxSeq) && (b.lane l).reg.featEff.getLsbD feat &&
    (b.admitRx l cls h.mepoch fence).1

/-- What the receipt of a frame itself leaves: the corrected symbols counted, and for classes 1 to 6 the next LSEQ and the
credit. -/
def Block.rxBook (b : Block) (l : LaneRef) (h : Hdr) (cls : Nat) : Block :=
  let b := b.corrected l h.corr
  if cls = 0 then b else
    b.mLink l fun x => { x with rxSeq := x.rxSeq + 1, rxDiscard := false, credRx := x.credRx.inc cls }

/-! ### Catalogue -/

/-- A request that comes through the network is served: at a distributor of one, at a TSU all but those of its registers. -/
def Block.netServes (b : Block) (q : CatReq) : Bool :=
  match q.unit with
  | .dist => b.distServes
  | .tsu => b.live && q.src != .local

/-- Every staged field of a record passes the checks of a commit (R313 steps 1 and 2). -/
def Block.stagedOk (b : Block) (q : CatReq) (idx : Nat) : Bool :=
  let st := (b.catOf q.unit).staged q.secure idx
  (firstBad (fun sub _ => b.stageDenied q idx sub) st).isNone &&
    (firstBad (fun sub v => b.stageBad q.unit idx sub v) st).isNone

/-- The record that a commit of a world applies: staged fields over applied ones. -/
def Block.staged (b : Block) (q : CatReq) (idx : Nat) : RecVals :=
  b.recVals q.unit idx ((b.catOf q.unit).staged q.secure idx)

/-- What follows the rule of a commit: the staged fields are applied, and OK is answered. -/
def Block.committed (b : Block) (q : CatReq) (idx : Nat) (st : List (Nat × Bytes)) : Block :=
  (b.recStore q idx st).emit (.cat q.unit q.src q.tid 0x00 [])

/-! ### Lanes -/

/-- A command of a lane's registers passes: at a TSU lane the checks of the register port, at a distributor the lane
exists. -/
def Block.lanePass (b : Block) (a : Access) (l : LaneRef) : Bool :=
  match l with
  | .tsu p => decide (b.check (portReq a) (lnkReg p 0) true = .ok)
  | .dist n => decide (n < 312)

/-- The answer to such a command: a TSU's register port answers OK. -/
def Block.laneAns (b : Block) (l : LaneRef) : Block := match l with | .tsu _ => b.emit (.reg none 0 0) | .dist _ => b

/-! ### Runs -/

/-- `n` steps, as far as the outcomes are next states. -/
def stepN : Nat → State → Host.Outcome State Fault Refusal
  | 0, s => .next s
  | n + 1, s =>
    match step s with
    | .next t => stepN n t
    | o => o

end Sys2Proof.Machine
end

