-- ==== Sys2Proof/Certificates/Slice0/Obligations.lean ====
section
/-! DEFINITION. The statements for the provers. -/

open Sys2Proof Sys2Proof.Machine

/-- R36 to R38, R23 to R26. A capture fills the bank of the access's world and leaves the other; arming at a tick to come
only arms, at a tick that has passed captures with PAST; reaching AT captures and disarms; PROMISE follows its
conditions. -/
def Obligations.VitrineAndPromise : Prop :=
  (∀ (a : Access) (s : State), s.blk.check (portReq a) 0x1040 true = .ok →
    exec (.vitCapture a) s = .next { s with blk := (s.blk.mVit a.secure fun v =>
      let h := if s.blk.tsu.time.timeValid then tc64ToHt96 s.blk.tsu.time.epoch s.blk.tsu.time.tc64 else ⟨0, 0, 0⟩
      { v with
        seq := v.seq + 1, vTc64 := s.blk.tsu.time.tc64, vSec := h.sec, vNs := h.ns, vFrac := h.frac
        vOffA := satI 32 s.blk.tsu.laneA.sync.est, vOffB := satI 32 s.blk.tsu.laneB.sync.est
        vFfo := s.blk.tsu.servo.ffo, vSel := s.blk.tsu.time.selB, vValid := s.blk.tsu.time.timeValid
        vPromise := s.blk.tsu.time.promise }).emit (.reg none 0 0) }) ∧
  (∀ (a : Access) (s : State), s.blk.check (portReq a) 0x1040 true = .ok → s.blk.tsu.time.timeValid = true →
    Tick.le (s.blk.vit a.secure).at_ s.blk.tsu.time.tc64 = false →
    exec (.vitArmAt a .setArm) s = .next { s with blk :=
      (s.blk.mVit a.secure fun v => { v with armAt := true }).emit (.reg none 0 0) }) ∧
  (∀ (a : Access) (t : Tick) (s : State), s.blk.check (portReq a) 0x1048 true = .ok →
    s.blk.tsu.time.timeValid = true → Tick.le t s.blk.tsu.time.tc64 = false →
    exec (.vitArmAt a (.writeAt t)) s = .next { s with blk :=
      (s.blk.mVit a.secure fun v => { v with at_ := t }).emit (.reg none 0 0) }) ∧
  (∀ (a : Access) (t : Tick) (s : State), s.blk.check (portReq a) 0x1048 true = .ok →
    s.blk.tsu.time.timeValid = true → (s.blk.vit a.secure).armAt = true → t ≠ s.blk.tsu.time.tc64 →
    Tick.le t s.blk.tsu.time.tc64 = true →
    ∃ u, exec (.vitArmAt a (.writeAt t)) s = .next u ∧ (u.blk.vit a.secure).past = true ∧
      (u.blk.vit a.secure).armAt = false ∧ (u.blk.vit a.secure).vTc64 = s.blk.tsu.time.tc64 ∧
      (u.blk.vit a.secure).seq = (s.blk.vit a.secure).seq + 1 ∧ u.blk.vit (!a.secure) = s.blk.vit (!a.secure)) ∧
  (∀ (w : Bool) (s : State), (s.blk.vit w).armAt = true → Tick.le (s.blk.vit w).at_ s.blk.tsu.time.tc64 = true →
    ∃ u, exec (.vitAtReached w) s = .next u ∧ (u.blk.vit w).armAt = false ∧
      (u.blk.vit w).vTc64 = s.blk.tsu.time.tc64 ∧ (u.blk.vit w).seq = (s.blk.vit w).seq + 1 ∧
      u.blk.vit (!w) = s.blk.vit (!w) ∧ u.blk.dist = s.blk.dist ∧ u.blk.out = s.blk.out) ∧
  (∀ s : State, exec .lockAgeTenMinutes s = .next { s with blk := s.blk.mTime .tsu fun t => { t with
    promise := t.timeValid && s.blk.tsu.spine.calDone && (s.blk.lane (.tsu s.blk.selPlane)).reg.refined &&
      (s.blk.lane (.tsu s.blk.selPlane)).reg.pcalRx && decide (750000000000 ≤ t.lockAge.toNat) } })

/-- R28 to R32. CAL_START begins a calibration, or with a context armed only sets CAL_FAIL; its end clears CAL_BUSY, sets
CAL_DONE and sends LOAD 32 ticks ahead; tracking moves TRIM one step towards zero residual; LOAD takes effect at L. -/
def Obligations.SpineCommands : Prop :=
  (∀ (a : Access) (s : State), s.blk.check (portReq a) 0x1100 true = .ok → s.blk.tsu.spine.calBusy = false →
    s.blk.tsu.pwr.st ≠ .entering → s.blk.armedAny = false →
    ∃ t, exec (.calStart a) s = .next t ∧ t.blk.tsu.spine.calStart = true ∧ t.blk.tsu.spine.calBusy = true ∧
      t.blk.tsu.spine.calDone = false ∧ t.blk.tsu.spine.calFail = s.blk.tsu.spine.calFail ∧
      t.blk.tsu.spine.load = s.blk.tsu.spine.load ∧
      t.blk.tsu.time = (if s.blk.tsu.time.timeValid then { s.blk.tsu.time with lockAge := 0, promise := false }
        else s.blk.tsu.time) ∧ t.blk.out = s.blk.out ++ [.reg none 0 0] ∧ t.blk.dist = s.blk.dist ∧
      t.blk.tsu = { s.blk.tsu with spine := t.blk.tsu.spine, time := t.blk.tsu.time } ∧ t.pending = s.pending) ∧
  (∀ (a : Access) (s : State), s.blk.check (portReq a) 0x1100 true = .ok → s.blk.tsu.spine.calBusy = false →
    s.blk.tsu.pwr.st ≠ .entering → s.blk.armedAny = true →
    exec (.calStart a) s = .next { s with blk :=
      (s.blk.mSpine fun x => { x with calFail := true }).emit (.reg none 0 0) }) ∧
  (∀ (ms : List EpMeas) (s : State), s.blk.tsu.spine.calBusy = true → s.blk.tsu.spine.load = none →
    ∃ t, exec (.spineCalDone ms) s = .next t ∧ t.blk.tsu.spine.calBusy = false ∧ t.blk.tsu.spine.calStart = false ∧
      t.blk.tsu.spine.calDone = true ∧ t.blk.tsu.boot.spineEnded = true ∧
      t.blk.tsu.spine.load = some (s.blk.tsu.time.tc64 + 32, s.blk.tsu.time.tc64 + 32) ∧
      t.blk.out = s.blk.out ++ [.load (s.blk.tsu.time.tc64 + 32) (s.blk.tsu.time.tc64 + 32)] ∧
      t.blk.tsu.time.tc64 = s.blk.tsu.time.tc64 ∧ t.blk.tsu.ctxs = s.blk.tsu.ctxs ∧ t.blk.dist = s.blk.dist ∧
      t.pending = s.pending) ∧
  (∀ (r : BitVec 8) (n : Nat) (s : State), s.blk.tsu.spine.trackEn = true →
    nextEp s.blk.tsu.spine.eps s.blk.tsu.spine.trackIdx = some n → r.toInt.natAbs ≤ 8 →
    exec (.spineTrackMeasure true r) s = .next { s with blk := (s.blk.mEp n fun e => { e with
      badRun := 0, resid := r
      trim := if 0 < r.toInt then (if e.trim = 0 then 0 else e.trim - 1)
        else if r.toInt < 0 then (if e.trim = 639 then 639 else e.trim + 1) else e.trim }).mSpine fun x =>
          { x with trackIdx := (n + 1) % 64 } }) ∧
  (∀ (v l : Tick) (s : State), s.blk.tsu.spine.load = some (v, l) → Tick.le l s.blk.tsu.time.tc64 = true →
    s.blk.tsu.spine.loadStep = false →
    ∃ t, exec .spineLoadTake s = .next t ∧ t.blk.tsu.time = { s.blk.tsu.time with tc64 := v + (s.blk.tsu.time.tc64 - l) } ∧
      t.blk.tsu.spine = { s.blk.tsu.spine with load := none, loadStep := false
                                               replica := v + (s.blk.tsu.time.tc64 - l) } ∧
      t.blk.tsu.ctxs = s.blk.tsu.ctxs ∧ t.blk.tsu.timers = s.blk.tsu.timers ∧ t.blk.dist = s.blk.dist ∧
      t.blk.out = s.blk.out ∧ t.pending = s.pending) ∧
  (∀ (v l : Tick) (s : State), s.blk.tsu.spine.load = some (v, l) → Tick.le l s.blk.tsu.time.tc64 = false →
    exec .spineLoadTake s = .next s)

/-- R81, R83, R85. STEP_ARM arms a step where a source is valid and no context is armed, and is otherwise refused; TWIN_SWITCH
follows the other plane without losing lock; a plane whose wait has ended becomes selectable. -/
def Obligations.ServoSelection : Prop :=
  (∀ (p : BitVec 2) (s : State), s.blk.check (portReq ⟨true, p⟩) 0x1400 true = .ok → s.blk.armedAny = false →
    (s.blk.estValid (.tsu .A) || s.blk.estValid (.tsu .B)) = true →
    exec (.stepArm ⟨true, p⟩ .tsu) s = .next { s with blk :=
      (s.blk.mServo .tsu fun x => { x with stepArm := true }).emit (.reg none 0 0) }) ∧
  (∀ (p : BitVec 2) (s : State), s.blk.check (portReq ⟨true, p⟩) 0x1400 true = .ok →
    (s.blk.armedAny || !(s.blk.estValid (.tsu .A) || s.blk.estValid (.tsu .B))) = true →
    exec (.stepArm ⟨true, p⟩ .tsu) s = .next { s with blk :=
      (s.blk.mServo .tsu fun x => { x with stepRef := true, stepArm := false }).emit (.reg none 0 0) }) ∧
  (∀ (p : BitVec 2) (s : State), s.blk.stepSource .dist = true →
    exec (.stepArm ⟨true, p⟩ .dist) s = .next { s with blk := s.blk.mServo .dist fun x => { x with stepArm := true } }) ∧
  (∀ s : State, s.blk.tsu.time.timeValid = true → s.blk.twinMode = true → s.blk.tsu.servo.selMade = true →
    s.blk.tsu.servo.state ≠ .hold → s.blk.tsu.servo.state ≠ .lost →
    s.blk.wtrKeep.selectable s.blk.selPlane = false → s.blk.wtrKeep.selectable (flipP s.blk.selPlane) = true →
    ∃ t, exec .twinSwitch s = .next t ∧ t.blk.selPlane = flipP s.blk.selPlane ∧ t.blk.tsu.servo.switched = true ∧
      t.blk.tsu.servo.switchCnt = sat1 s.blk.tsu.servo.switchCnt ∧
      t.blk.tsu.servo.unlocked = s.blk.tsu.servo.unlocked ∧ t.blk.tsu.servo.state = s.blk.tsu.servo.state ∧
      t.blk.tsu.time.lockAge = s.blk.tsu.time.lockAge ∧ t.blk.tsu.time.tc64 = s.blk.tsu.time.tc64 ∧
      t.blk.tsu.laneA = s.blk.tsu.laneA ∧ t.blk.tsu.laneB = s.blk.tsu.laneB ∧ t.blk.dist = s.blk.dist ∧
      t.blk.out = s.blk.out ∧ t.pending = s.pending) ∧
  (∀ (p : Plane) (s : State), s.blk.tsu.time.timeValid = true → s.blk.tsu.servo.state = .locked →
    s.blk.tsu.servo.selMade = true → p = flipP s.blk.selPlane → s.blk.estValid (.tsu p) = true →
    s.blk.tsu.servo.delta.toInt.natAbs ≤ 320 → s.blk.selectable s.blk.selPlane = true →
    s.blk.tsu.servo.revert = false → s.blk.tsu.servo.force = 0 →
    ∃ t, exec (.planeWtrExpire p) s = .next t ∧
      (match p with | .A => t.blk.tsu.servo.wtrA | .B => t.blk.tsu.servo.wtrB) = true ∧
      t.blk.tsu.time = s.blk.tsu.time ∧ t.blk.tsu.servo.switchCnt = s.blk.tsu.servo.switchCnt ∧
      t.blk.dist = s.blk.dist ∧ t.blk.out = s.blk.out ∧ t.pending = s.pending)

/-- R340, R379, R384, R390, R394, R403. What the two resets of the TSU clear and keep, what release starts, what the fuse words
become, and TOPO_REPORT on the lanes that are UP. -/
def Obligations.ResetsAndFuses : Prop :=
  (∀ s : State, exec .aonResetAssert s = .next { s with blk := { s.blk with tsu := {} } }) ∧
  (∀ s : State, s.blk.tsu.boot.aonRst = true → exec .aonResetRelease s = .next { s with blk :=
    { s.blk with tsu := { boot := { aonRst := false }, dbg := { level := 0, chal := Config.freeValue s.blk.free } }
                 free := s.blk.free + 1 } }) ∧
  (∀ s : State, s.blk.tsu.boot.tsuRst = false → exec .tsuResetAssert s = .next { s with blk := { s.blk with tsu :=
    { boot := { aonRst := s.blk.tsu.boot.aonRst }
      dbg := { lockout := s.blk.tsu.dbg.lockout, failCnt := s.blk.tsu.dbg.failCnt }
      tdc := { aonLost := s.blk.tsu.tdc.aonLost } } } }) ∧
  (∀ s : State, s.blk.tsu.boot.aonRst = false → s.blk.tsu.boot.tsuRst = true →
    ∃ t, exec .tsuResetRelease s = .next t ∧ t.blk.tsu.boot = { aonRst := false, tsuRst := false, fuseBusy := true } ∧
      t.blk.tsu.pwr = { req := ⟨true, true, true, true, true⟩ } ∧
      t.blk.tsu.dbg = { level := 0, lockout := s.blk.tsu.dbg.lockout, failCnt := s.blk.tsu.dbg.failCnt
                        chal := Config.freeValue s.blk.free } ∧
      t.blk.tsu.gen.stDone = true ∧ t.blk.tsu.ctxs = [] ∧ t.blk.tsu.tm = {} ∧ t.blk.tsu.gnt = {} ∧
      t.blk.tsu.time = {} ∧ t.blk.dist = s.blk.dist ∧ t.blk.out = s.blk.out ∧ t.pending = s.pending) ∧
  (∀ (ws : List (Nat × BitVec 32)) (s : State), s.blk.tsu.boot.fuseBusy = true →
    ∃ t, exec (.fuseReadDone .tsu ws) s = .next t ∧ t.blk.tsu.boot.fuseBusy = false ∧ t.blk.tsu.boot.fuseDone = true ∧
      t.blk.tsu.boot.fuseErr = s.blk.tsu.boot.fuseErr ∧ t.blk.tsu.boot.unitId = fuse ws 1 ++ fuse ws 0 ∧
      t.blk.tsu.boot.fver = (fuse ws 2).extractLsb' 8 8 ∧ t.blk.tsu.dbg.fullDis = (fuse ws 2).getLsbD 0 ∧
      t.blk.tsu.dbg.dkey.length = 32 ∧ t.blk.tsu.boot.spares = (spareEntries ws).1 ∧
      t.blk.tsu.boot.hostMap.length = min 255 (fuse ws 0x100).toNat ∧
      t.blk.tsu = { s.blk.tsu with boot := t.blk.tsu.boot, dbg := t.blk.tsu.dbg } ∧
      t.blk.dist = s.blk.dist ∧ t.blk.out = s.blk.out ∧ t.pending = s.pending) ∧
  (∀ (ws : List (Nat × BitVec 32)) (s : State), s.blk.dist.mod.powered = true → s.blk.dist.boot.fuseDone = false →
    badLanes ws = [] →
    exec (.fuseReadDone .dist ws) s = .next { s with blk := { s.blk with dist := { s.blk.dist with
      boot := { s.blk.dist.boot with fuseDone := true, unitId := fuse ws 1 ++ fuse ws 0
                                     fver := (fuse ws 2).extractLsb' 8 8, spares := hmSpares ws }
      mod := { s.blk.dist.mod with sliceOn := 0xFF, hmOn := 0xF } } } }) ∧
  (∀ s : State, s.blk.tsu.boot.fuseBusy = true →
    ∃ t, exec .fuseTimeout s = .next t ∧ t.blk.tsu.boot.fuseBusy = false ∧ t.blk.tsu.boot.fuseDone = false ∧
      t.blk.tsu.boot.fuseErr = true ∧ t.blk.tsu.boot.unitId = 0 ∧ t.blk.tsu.boot.hostMap = [] ∧
      t.blk.tsu.boot.spares = [] ∧ t.blk.tsu.dbg.fullDis = false ∧ t.blk.dist = s.blk.dist ∧
      t.blk.out = s.blk.out ∧ t.pending = s.pending) ∧
  (∀ (p q : Plane) (s : State), p ≠ q → s.blk.up (.tsu p) = true → s.blk.up (.tsu q) = false →
    ∃ (r : TopoReport) (t : State), exec .topoReportSend s = .next t ∧ t.blk = s.blk.send (.tsu p) true (.topoReport r) ∧
      t.pending = s.pending ∧ r.unitId = s.blk.tsu.boot.unitId ∧ r.pda = (s.blk.lane (.tsu p)).reg.peerPos ∧
      r.hostReady = s.blk.tsu.boot.hostReady ∧ r.admitted = s.blk.tsu.boot.admitted ∧
      r.cloak = s.blk.tsu.boot.inCloak ∧ r.timeValid = s.blk.tsu.time.timeValid ∧
      r.reason = (s.blk.lane (.tsu p)).reg.topoReason ∧ r.result = (s.blk.lane (.tsu p)).reg.topoRes ∧
      r.ldi = s.blk.tsu.boot.ldi ∧ r.tsuReady = s.blk.tsuReady) ∧
  (∀ s : State, s.blk.up (.tsu .A) = false → s.blk.up (.tsu .B) = false → exec .topoReportSend s = .next s)

/-- R122, R145, R146, R181, R182. A write of TSU_BSLOT_CFG sets the selected slot up afresh unless a translation names it or
its world forbids it; TSU_XLAT_DATA writes one entry; CNT_CLR; and a die whose MISSED launch is due arrives, or halts with
CLOSE_NOMAP where its closing VBID names no barrier. -/
def Obligations.BarrierSetup : Prop :=
  (∀ (a : Access) (d : BitVec 64) (s : State), s.blk.check (portReq a) 0x6008 true = .ok →
    worldOk (portReq a) (((s.blk.slot s.blk.tsu.bar.sel.toNat).kind != 0 && (s.blk.slot s.blk.tsu.bar.sel.toNat).world) ||
      s.blk.ctxWorld (fld d 4 6).toNat) = true → s.blk.mapped s.blk.tsu.bar.sel.toNat = false →
    exec (.bslotConfig a d) s = .next { s with blk := (s.blk.mSlot s.blk.tsu.bar.sel.toNat fun _ =>
      if fld d 0 2 = 0 ∨ fld d 0 2 = 3 then {} else
        { kind := fld d 0 2, scope := fld d 2 2, owner := fld d 4 6, world := s.blk.ctxWorld (fld d 4 6).toNat
          home := d.getLsbD 11, expect := fld d 12 20, hbid := fld d 32 16, group := fld d 48 12 }).emit (.reg none 0 0) }) ∧
  (∀ (a : Access) (d : BitVec 64) (s : State), s.blk.check (portReq a) 0x6008 true = .ok →
    worldOk (portReq a) (((s.blk.slot s.blk.tsu.bar.sel.toNat).kind != 0 && (s.blk.slot s.blk.tsu.bar.sel.toNat).world) ||
      s.blk.ctxWorld (fld d 4 6).toNat) = true → s.blk.mapped s.blk.tsu.bar.sel.toNat = true →
    exec (.bslotConfig a d) s = .next { s with blk :=
      (s.blk.mBar fun z => { z with cfgRef := true }).emit (.reg none 0 0) }) ∧
  (∀ (a : Access) (d : BitVec 32) (s : State),
    s.blk.check (portReq a) 0x5028 (worldOk (portReq a) (s.blk.ctxWorld s.blk.tsu.bar.selCtx.toNat)) = .ok →
    (d.getLsbD 15 = false ∨ ((s.blk.slot (d.setWidth 12 : BitVec 12).toNat).kind ≠ 0 ∧
      (s.blk.slot (d.setWidth 12 : BitVec 12).toNat).world = s.blk.ctxWorld s.blk.tsu.bar.selCtx.toNat)) →
    exec (.xlatWrite a d) s = .next { s with blk := (s.blk.mBar fun z => { z with
      xlat := smPut (false, 0) z.xlat (1024 * z.selCtx.toNat + z.selVbid.toNat)
        (d.getLsbD 15, d.setWidth 12) }).emit (.reg none 0 0) }) ∧
  (∀ (a : Access) (d : BitVec 32) (s : State),
    s.blk.check (portReq a) 0x5028 (worldOk (portReq a) (s.blk.ctxWorld s.blk.tsu.bar.selCtx.toNat)) = .ok →
    d.getLsbD 15 = true → (s.blk.slot (d.setWidth 12 : BitVec 12).toNat).kind = 0 →
    exec (.xlatWrite a d) s = .next { s with blk :=
      (s.blk.mBar fun z => { z with xlatRef := true }).emit (.reg none 0 0) }) ∧
  (∀ (a : Access) (s : State), s.blk.check (portReq a) 0x6018 true = .ok →
    exec (.barCntClr a) s = .next { s with blk :=
      (s.blk.mBar fun z => { z with overCnt := 0, stale := 0, semRet := 0 }).emit (.reg none 0 0) }) ∧
  (∀ (c : Ctx6) (d : Sched) (s : State), (s.blk.ctx c.toNat).sched = some d → d.cls = .missed →
    Tick.le d.at_ s.blk.tsu.time.tc64 = true → (s.blk.ctx c.toNat).st = .run →
    s.blk.xlat c.toNat (s.blk.ctx c.toNat).reg.closeVbid.toNat = none →
    ∃ t, exec (.missedArrival c) s = .next t ∧ (t.blk.ctx c.toNat).st = .halt ∧
      (t.blk.ctx c.toNat).reg.flags = { (s.blk.ctx c.toNat).reg.flags with missed := true, closeNomap := true } ∧
      (t.blk.ctx c.toNat).reg.missedCnt = sat1 (s.blk.ctx c.toNat).reg.missedCnt ∧
      (t.blk.ctx c.toNat).reg.step = (s.blk.ctx c.toNat).reg.step ∧ (t.blk.ctx c.toNat).sched = none ∧
      (∀ k, k ≠ c.toNat → t.blk.ctx k = s.blk.ctx k) ∧ t.blk.dist = s.blk.dist ∧ t.pending = s.pending) ∧
  (∀ (c : Ctx6) (d : Sched) (n : Nat) (s : State), (s.blk.ctx c.toNat).sched = some d → d.cls = .missed →
    Tick.le d.at_ s.blk.tsu.time.tc64 = true → (s.blk.ctx c.toNat).st = .run → (s.blk.ctx c.toNat).run.rplEn = false →
    s.blk.xlat c.toNat (s.blk.ctx c.toNat).reg.closeVbid.toNat = some n → (s.blk.slot n).kind = 1 →
    (s.blk.slot n).scope ≠ 0 → (s.blk.slot n).sent = false → s.blk.closers n = [c.toNat] →
    (∀ e ∈ s.blk.tsu.ws, e.2.op = none) →
    ∃ t, exec (.missedArrival c) s = .next t ∧ (t.blk.ctx c.toNat).st = .close ∧
      (t.blk.ctx c.toNat).reg.flags = { (s.blk.ctx c.toNat).reg.flags with missed := true } ∧
      (t.blk.ctx c.toNat).reg.missedCnt = sat1 (s.blk.ctx c.toNat).reg.missedCnt ∧
      (t.blk.ctx c.toNat).missedWin = true ∧ (t.blk.slot n).sent = true ∧
      (∀ k, k ≠ c.toNat → t.blk.ctx k = s.blk.ctx k) ∧ t.blk.dist = s.blk.dist ∧ t.pending = s.pending) ∧
  (∀ (c : Ctx6) (s : State), (s.blk.ctx c.toNat).sched = none → exec (.missedArrival c) s = .next s)

/-- R329 to R332, R331's time limit, R441. The load of a unit's Catalogue: LOAD fetches the image; DEFAULT, a failed fetch, a
failed check and the time limit each leave the defaults with their reason; LSTATE moves only from where the load stands. -/
def Obligations.CatalogueLoad : Prop :=
  (∀ (a : Access) (s : State), s.blk.check (portReq a) 0xC808 true = .ok → s.blk.tsu.cat.lstate = 0 →
    exec (.catImageLoad a) s = .next { s with blk := ((s.blk.mCat .tsu fun c => { c with lstate := 1 }).emit
      (.hmRead s.blk.tsu.cat.imgAddr s.blk.tsu.cat.imgLen.toNat 16 true 3)).emit (.reg none 0 0) }) ∧
  (∀ (a : Access) (s : State), s.blk.check (portReq a) 0xC808 true = .ok → s.blk.tsu.cat.lstate ≠ 0 →
    exec (.catImageLoad a) s = .next { s with blk := s.blk.emit (.reg none 0 0) } ∧
    exec (.catDefault a) s = .next { s with blk := s.blk.emit (.reg none 0 0) }) ∧
  (∀ (a : Access) (s : State), s.blk.check (portReq a) 0xC808 true = .ok → s.blk.tsu.cat.lstate = 0 →
    ∃ t, exec (.catDefault a) s = .next t ∧ t.blk.tsu.cat.lstate = 3 ∧ t.blk.tsu.cat.defaulted = true ∧
      t.blk.tsu.cat.reason = 10 ∧ t.blk.tsu.cat.vals = s.blk.tsu.cat.vals ∧ t.blk.dist = s.blk.dist ∧
      t.pending = s.pending) ∧
  (∀ (resp : BitVec 2) (img : Bytes) (s : State), s.blk.tsu.cat.lstate = 1 → resp ≠ 0 →
    ∃ t, exec (.catImageFetched resp img) s = .next t ∧ t.blk.tsu.cat.lstate = 3 ∧ t.blk.tsu.cat.defaulted = true ∧
      t.blk.tsu.cat.reason = 9 ∧ t.blk.dist = s.blk.dist ∧ t.pending = s.pending) ∧
  (∀ (img : Bytes) (s : State), s.blk.tsu.cat.lstate = 1 → imgOuter false s.blk.tsu.boot.unitId img ≠ 0 →
    ∃ t, exec (.catImageFetched 0 img) s = .next t ∧ t.blk.tsu.cat.lstate = 3 ∧ t.blk.tsu.cat.defaulted = true ∧
      t.blk.tsu.cat.reason = BitVec.ofNat 4 (imgOuter false s.blk.tsu.boot.unitId img) ∧ t.blk.dist = s.blk.dist ∧
      t.pending = s.pending) ∧
  (∀ (img : Bytes) (b : Block) (s : State), s.blk.tsu.cat.lstate = 1 → imgOuter false s.blk.tsu.boot.unitId img = 0 →
    s.blk.imgLoad .tsu img = .inr b →
    ∃ t, exec (.catImageFetched 0 img) s = .next t ∧ t.blk.tsu.cat.lstate = 2 ∧
      t.blk.tsu.cat.check = BitVec.ofNat 32 (leAt img (32 + imgLen img) 4) ∧ t.blk.tsu.cat.imageId = imgId img ∧
      t.blk.tsu.cat.reason = 0 ∧ t.pending = s.pending) ∧
  (∀ s : State, s.blk.live = true → s.blk.tsu.cat.lstate = 0 → Tick.le 1250000000 s.blk.tsu.time.tc64 = true →
    ∃ t, exec .catLoadTimeout s = .next t ∧ t.blk.tsu.cat.lstate = 3 ∧ t.blk.tsu.cat.defaulted = true ∧
      t.blk.tsu.cat.reason = 1 ∧ t.blk.dist = s.blk.dist ∧ t.pending = s.pending) ∧
  (∀ s : State, s.blk.dist.mod.powered = true → s.blk.dist.boot.fwBooted = true → s.blk.dist.boot.catLoaded = false →
    s.blk.dist.cat.flash0 = [] → s.blk.dist.cat.flash1 = [] →
    ∃ t, exec (.distCatLoadDone []) s = .next t ∧ t.blk.dist.cat.lstate = 3 ∧ t.blk.dist.cat.defaulted = true ∧
      t.blk.dist.cat.reason = 2 ∧ t.blk.dist.boot.catLoaded = true ∧ t.blk.tsu = s.blk.tsu ∧ t.pending = s.pending)

/-- R114, R115, R121, R140, R142, R406, R410. The control of a context by its page: EN, READY with its refusals, GO, STOP, CLEAR
and CNT_CLR, each for the context it names and no other. -/
def Obligations.ContextControl : Prop :=
  (∀ (a : Access) (c : Ctx6) (s : State), s.blk.check (portReq a) 0x5000 true = .ok →
    worldOk (portReq a) (s.blk.ctx c.toNat).world = true →
    exec (.ctxEnable a c) s = .next { s with
      blk := (s.blk.mCtx c.toNat fun x =>
      match x.st with
      | .stopping => { x with enPend := true }
      | .off => if s.blk.tsu.boot.inCloak then { x with enPend := true } else { x with st := .idle }
      | _ => x).emit (.reg none 0 0) }) ∧
  (∀ (a : Access) (c : Ctx6) (s : State),
    s.blk.check (portReq a) (0x100200 + 0x400 * c.toNat) (worldOk (portReq a) (s.blk.ctxWorld c.toNat)) = .ok →
    (s.blk.ctx c.toNat).st = .idle → (s.blk.ctx c.toNat).run.rplEn = false →
    ((s.blk.ctx c.toNat).reg.mode = 1 ∨ (s.blk.ctx c.toNat).reg.mode = 2 ∨
      ((s.blk.ctx c.toNat).reg.mode = 0 ∧ (s.blk.ctx c.toNat).reg.period ≠ 0)) →
    s.blk.regionsTaken c.toNat (s.blk.ctx c.toNat).reg.regions = false →
    (∀ n ∈ (s.blk.ctx c.toNat).reg.regionList, (s.blk.ep n).fit = true) →
    exec (.ready a c) s = .next { s with
      blk := (s.blk.mCtx c.toNat fun x => { x with
      st := .ready, window := [], firstDone := false, lastGo := none, heldGo := none, arm := none, sched := none
      reg := { x.reg with attempt := 0 }
      run := { x.run with lstepOk := false } }).emit (.reg none 0 0) }) ∧
  (∀ (a : Access) (c : Ctx6) (s : State),
    s.blk.check (portReq a) (0x100200 + 0x400 * c.toNat) (worldOk (portReq a) (s.blk.ctxWorld c.toNat)) = .ok →
    (s.blk.ctx c.toNat).st = .idle → (s.blk.ctx c.toNat).reg.mode = 0 → (s.blk.ctx c.toNat).reg.period = 0 →
    ∃ t, exec (.ready a c) s = .next t ∧ (t.blk.ctx c.toNat).st = .idle ∧
      (t.blk.ctx c.toNat).reg.flags.overlap = true ∧ (∀ k, k ≠ c.toNat → t.blk.ctx k = s.blk.ctx k)) ∧
  (∀ (a : Access) (c : Ctx6) (s : State),
    s.blk.check (portReq a) (0x100200 + 0x400 * c.toNat) (worldOk (portReq a) (s.blk.ctxWorld c.toNat)) = .ok →
    (s.blk.ctx c.toNat).st = .ready →
    ∃ t, exec (.go a c) s = .next t ∧ (t.blk.ctx c.toNat).st = .run ∧ (t.blk.ctx c.toNat).run.accOn = true ∧
      (t.blk.ctx c.toNat).run.rplStart = (s.blk.ctx c.toNat).reg.step ∧
      (t.blk.ctx c.toNat).sched = some
        { t := (s.blk.ctx c.toNat).reg.tat
          at_ := if Tick.diff (s.blk.tsu.time.tc64 + 32) (s.blk.ctx c.toNat).reg.tat ≤ 0
            then (s.blk.ctx c.toNat).reg.tat else s.blk.tsu.time.tc64 + 32
          cls := if Tick.diff (s.blk.tsu.time.tc64 + 32) (s.blk.ctx c.toNat).reg.tat ≤ 0 then .onTime
            else if Tick.diff (s.blk.tsu.time.tc64 + 32) (s.blk.ctx c.toNat).reg.tat ≤
              (s.blk.ctx c.toNat).reg.slack.toNat then .late else .missed
          ok := false, swap := false, slip := false, brim := (s.blk.ctx c.toNat).brimNow, restartSent := false } ∧
      (∀ k, k ≠ c.toNat → t.blk.ctx k = s.blk.ctx k) ∧ t.blk.dist = s.blk.dist ∧
      t.blk.out = s.blk.out ++ [.reg none 0 0] ∧ t.pending = s.pending) ∧
  (∀ (a : Access) (c : Ctx6) (s : State),
    s.blk.check (portReq a) (0x100200 + 0x400 * c.toNat) (worldOk (portReq a) (s.blk.ctxWorld c.toNat)) = .ok →
    (s.blk.ctx c.toNat).st.live = true →
    ∃ t, exec (.stop a c) s = .next t ∧ (t.blk.ctx c.toNat).st = .halt ∧ (t.blk.ctx c.toNat).sched = none ∧
      (t.blk.ctx c.toNat).reg.flags = (s.blk.ctx c.toNat).reg.flags ∧
      (t.blk.ctx c.toNat).reg.step = (s.blk.ctx c.toNat).reg.step ∧
      (∀ k, k ≠ c.toNat → t.blk.ctx k = s.blk.ctx k) ∧ t.blk.dist = s.blk.dist ∧ t.pending = s.pending) ∧
  (∀ (a : Access) (c : Ctx6) (s : State),
    s.blk.check (portReq a) (0x100200 + 0x400 * c.toNat) (worldOk (portReq a) (s.blk.ctxWorld c.toNat)) = .ok →
    ((s.blk.ctx c.toNat).st = .ready ∨ (s.blk.ctx c.toNat).st = .halt) →
    exec (.clear a c) s = .next { s with
      blk := (s.blk.mCtx c.toNat fun x =>
      { x with st := .idle, run := { x.run with accOn := false } }).emit (.reg none 0 0) }) ∧
  (∀ (a : Access) (c : Ctx6) (s : State),
    s.blk.check (portReq a) (0x100200 + 0x400 * c.toNat) (worldOk (portReq a) (s.blk.ctxWorld c.toNat)) = .ok →
    exec (.ctxCntClr a c) s = .next { s with
      blk := (s.blk.mCtxReg c.toNat fun r =>
      { r with launchCnt := 0, lateCnt := 0, missedCnt := 0, voidCnt := 0, slipCnt := 0 }).emit (.reg none 0 0) })

/-- R114, R120, R121, R124, R129, R135, R138, R370, R406. RESTART goes to a context's regions 32 ticks ahead of its launch
and quiesce 12 ticks ahead; on its tick the launch pulses, counts and begins its interval; NOSTART halts a job that was
armed and never committed; EN = 0 stops a context and its clearing ends in OFF, or in IDLE where an enable is held. -/
def Obligations.LaunchesAndStops : Prop :=
  (∀ (c : Ctx6) (d : Sched) (s : State), (s.blk.ctx c.toNat).sched = some d → d.restartSent = false → d.cls ≠ .missed →
    Tick.le (d.at_ - 32) s.blk.tsu.time.tc64 = true →
    ∃ t, exec (.restartSend c) s = .next t ∧
      (t.blk.ctx c.toNat) = { s.blk.ctx c.toNat with sched := some { d with restartSent := true } } ∧
      t.blk.out = s.blk.out ++ (s.blk.ctx c.toNat).reg.regionList.map (fun n =>
        Out.restart n d.at_ ((s.blk.ctx c.toNat).reg.swapSel != d.swap)) ∧
      (∀ k, k ≠ c.toNat → t.blk.ctx k = s.blk.ctx k) ∧ t.blk.tsu = { s.blk.tsu with ctxs := t.blk.tsu.ctxs } ∧
      t.blk.dist = s.blk.dist ∧ t.pending = s.pending) ∧
  (∀ (c : Ctx6) (d : Sched) (s : State), (s.blk.ctx c.toNat).sched = some d → d.restartSent = true →
    Tick.le (d.at_ - 12) s.blk.tsu.time.tc64 = true →
    ∃ t, exec (.rgQuiesceRaise c) s = .next t ∧
      (∀ n, (t.blk.ep n).quiesce = ((s.blk.ep n).quiesce || (s.blk.ctx c.toNat).reg.regionList.contains n)) ∧
      t.blk.tsu.ctxs = s.blk.tsu.ctxs ∧ t.blk.tsu.time = s.blk.tsu.time ∧ t.blk.dist = s.blk.dist ∧
      t.blk.out = s.blk.out ∧ t.pending = s.pending) ∧
  (∀ (c : Ctx6) (d : Sched) (e : Option (BitVec 8)) (s : State), (s.blk.ctx c.toNat).sched = some d → d.cls ≠ .missed →
    Tick.le d.at_ s.blk.tsu.time.tc64 = true →
    ∃ t, exec (.launch c e) s = .next t ∧ (t.blk.ctx c.toNat).sched = none ∧ (t.blk.ctx c.toNat).missedWin = false ∧
      (t.blk.ctx c.toNat).st = (s.blk.ctx c.toNat).st ∧
      (t.blk.ctx c.toNat).run.lstep = (s.blk.ctx c.toNat).reg.step ∧ (t.blk.ctx c.toNat).run.lstepOk = true ∧
      (t.blk.ctx c.toNat).reg.launchCnt = sat1 (s.blk.ctx c.toNat).reg.launchCnt ∧
      (t.blk.ctx c.toNat).reg.lateCnt = (if d.cls = .late then sat1 (s.blk.ctx c.toNat).reg.lateCnt
        else (s.blk.ctx c.toNat).reg.lateCnt) ∧
      (t.blk.ctx c.toNat).reg.missedCnt = (s.blk.ctx c.toNat).reg.missedCnt ∧
      (t.blk.ctx c.toNat).reg.swapSel = ((s.blk.ctx c.toNat).reg.swapSel != d.swap) ∧
      (t.blk.ctx c.toNat).reg.step = (s.blk.ctx c.toNat).reg.step ∧
      (t.blk.ctx c.toNat).interval.map (·.t) = some d.t ∧
      (∀ k, k ≠ c.toNat → t.blk.ctx k = s.blk.ctx k) ∧ t.blk.dist = s.blk.dist ∧ t.pending = s.pending) ∧
  (∀ (c : Ctx6) (m : ArmMsg) (s : State), (s.blk.ctx c.toNat).arm = some m → (s.blk.ctx c.toNat).st = .armed →
    Tick.le (m.tStart + 0x40000000) s.blk.tsu.time.tc64 = true →
    ∃ t, exec (.nostartExpire c) s = .next t ∧ (t.blk.ctx c.toNat).st = .halt ∧
      (t.blk.ctx c.toNat).reg.flags = { (s.blk.ctx c.toNat).reg.flags with nostart := true } ∧
      (∀ k, k ≠ c.toNat → t.blk.ctx k = s.blk.ctx k) ∧ t.blk.dist = s.blk.dist ∧ t.pending = s.pending) ∧
  (∀ (a : Access) (c : Ctx6) (s : State), s.blk.check (portReq a) 0x5000 true = .ok →
    worldOk (portReq a) (s.blk.ctx c.toNat).world = true → (s.blk.ctx c.toNat).st = .stopping →
    exec (.ctxDisable a c) s = .next { s with
      blk := (s.blk.mCtx c.toNat fun x => { x with enPend := false }).emit (.reg none 0 0) }) ∧
  (∀ (a : Access) (c : Ctx6) (s : State), s.blk.check (portReq a) 0x5000 true = .ok →
    worldOk (portReq a) (s.blk.ctx c.toNat).world = true → (s.blk.ctx c.toNat).st ≠ .off →
    (s.blk.ctx c.toNat).st ≠ .stopping →
    ∃ t, exec (.ctxDisable a c) s = .next t ∧ (t.blk.ctx c.toNat).st = .stopping ∧
      (t.blk.ctx c.toNat).sched = none ∧ (t.blk.ctx c.toNat).enPend = false ∧ (t.blk.ctx c.toNat).arm = none ∧
      (t.blk.ctx c.toNat).run.accOn = false ∧ (t.blk.ctx c.toNat).reg = (s.blk.ctx c.toNat).reg ∧
      (∀ k, k ≠ c.toNat → t.blk.ctx k = s.blk.ctx k) ∧ t.blk.dist = s.blk.dist ∧ t.pending = s.pending) ∧
  (∀ (c : Ctx6) (s : State), (s.blk.ctx c.toNat).st = .stopping →
    exec (.ctxClearingDone c) s = .next { s with
      blk := s.blk.mCtx c.toNat fun x =>
        if x.enPend && !s.blk.tsu.boot.inCloak then { x with st := .idle, enPend := false } else { x with st := .off } })

/-- R133 to R136. ARM takes a READY context of the job to ARMED, with its accession record and an ARMED on both lanes; COMMIT
schedules it at T_START; ABORT halts the contexts of the job that have not passed their first closing barrier. A
distributor passes the three down to the group and ARMED up, and a root sums ARMED. -/
def Obligations.JobStart : Prop :=
  (∀ (p : Plane) (h : Hdr) (g : BitVec 16) (m : ArmMsg) (c : Nat) (s : State),
    s.blk.rxOk (.tsu p) h 1 0 false = true →
    (s.blk.ctxsWhere fun x => (x.st.isArmed || x.st == .halt) && x.arm.any fun a => a.job == m.job) = [] →
    (s.blk.ctxsWhere fun x => x.st == .ready && x.reg.job == m.job) = [c] → s.blk.tsu.pwr.st ≠ .entering →
    0 ≤ Tick.diff (m.tStart - 64) s.blk.tsu.time.tc64 →
    ∃ t, exec (.armReceive (.tsu p) h g m) s = .next t ∧ (t.blk.ctx c).st = .armed ∧ (t.blk.ctx c).arm = some m ∧
      (t.blk.ctx c).run.accOn = true ∧ (t.blk.ctx c).reg = (s.blk.ctx c).reg ∧
      (∀ k, k ≠ c → t.blk.ctx k = s.blk.ctx k) ∧
      t.blk.lessLinks.tsu = { s.blk.lessLinks.tsu with ctxs := t.blk.tsu.ctxs } ∧ t.blk.dist = s.blk.dist ∧
      t.pending = s.pending) ∧
  (∀ (p : Plane) (h : Hdr) (g : BitVec 16) (m : CommitMsg) (c : Nat) (a : ArmMsg) (s : State),
    s.blk.rxOk (.tsu p) h 1 0 false = true →
    (s.blk.ctxsWhere fun x => x.st == .armed && x.reg.job == m.job) = [c] → (s.blk.ctx c).reg.job = m.job →
    (s.blk.ctx c).arm = some a → a.tStart = m.tStart →
    ∃ t, exec (.commitReceive (.tsu p) h g m) s = .next t ∧ (t.blk.ctx c).st = .run ∧
      (t.blk.ctx c).sched.map (fun d => (d.t, d.brim, d.swap, d.slip)) = some (m.tStart, a.brim0, false, false) ∧
      (∀ k, k ≠ c → t.blk.ctx k = s.blk.ctx k) ∧
      t.blk.lessLinks.tsu = { s.blk.lessLinks.tsu with ctxs := t.blk.tsu.ctxs } ∧ t.blk.dist = s.blk.dist ∧
      t.pending = s.pending) ∧
  (∀ (p : Plane) (h : Hdr) (g : BitVec 16) (m : AbortMsg) (c : Nat) (s : State),
    s.blk.rxOk (.tsu p) h 1 0 false = true →
    (s.blk.ctxsWhere fun x => x.st.isArmed && x.reg.job == m.job && !x.firstDone) = [c] →
    ∃ t, exec (.abortReceive (.tsu p) h g m) s = .next t ∧ (t.blk.ctx c).st = .halt ∧
      (t.blk.ctx c).reg.flags = { (s.blk.ctx c).reg.flags with aborted := true } ∧
      (∀ k, k ≠ c → t.blk.ctx k = s.blk.ctx k) ∧ t.blk.dist = s.blk.dist ∧ t.pending = s.pending) ∧
  (∀ (n : Nat) (h : Hdr) (g : BitVec 16) (m : ArmMsg) (s : State), 288 ≤ n → n < 312 → g.toNat < 4096 →
    s.blk.rxOk (.dist n) h 1 0 false = true →
    exec (.armReceive (.dist n) h g m) s = .next { s with
      blk := ((s.blk.rxBook (.dist n) h 1).mJob m.job fun _ => { group := g, tStart := m.tStart }).sendGroup g.toNat h.w
        (.arm g m) }) ∧
  (∀ (n : Nat) (h : Hdr) (g : BitVec 16) (m : CommitMsg) (s : State), 288 ≤ n → n < 312 → g.toNat < 4096 →
    s.blk.rxOk (.dist n) h 1 0 false = true →
    exec (.commitReceive (.dist n) h g m) s = .next { s with
      blk := (s.blk.rxBook (.dist n) h 1).sendGroup g.toNat h.w (.commit g m) }) ∧
  (∀ (n : Nat) (h : Hdr) (g : BitVec 16) (m : AbortMsg) (s : State), 288 ≤ n → n < 312 → g.toNat < 4096 →
    s.blk.rxOk (.dist n) h 1 0 false = true →
    exec (.abortReceive (.dist n) h g m) s = .next { s with
      blk := (s.blk.rxBook (.dist n) h 1).sendGroup g.toNat h.w (.abort g m) }) ∧
  (∀ (n : Nat) (h : Hdr) (g : BitVec 16) (job count : BitVec 32) (s : State), n < 288 → g.toNat < 4096 →
    s.blk.rxOk (.dist n) h 1 0 false = true → s.blk.dRole = 3 →
    exec (.armedReceive n h g job count) s = .next { s with
      blk := (s.blk.rxBook (.dist n) h 1).mJob job fun x =>
        { x with kids := smMod 0 x.kids (n / 24) fun k => k + count.toNat } }) ∧
  (∀ (n : Nat) (h : Hdr) (g : BitVec 16) (job count : BitVec 32) (s : State), n < 288 → g.toNat < 4096 →
    s.blk.rxOk (.dist n) h 1 0 false = true → s.blk.dRole = 2 →
    exec (.armedReceive n h g job count) s = .next { s with
      blk := ((s.blk.rxBook (.dist n) h 1).mJob job fun x =>
        { x with kids := smMod 0 x.kids (n / 24) fun k => k + count.toNat }).sendUp h.w (.armed g job count) })

/-- R296 to R306, R365. The stream port: credits, bursts in and out, discard, truncation, and the enables of channels. -/
def Obligations.StreamPort : Prop :=
  (∀ s : State, s.blk.tsu.str.outq = [] →
    exec .streamCreditReturn s = .next { s with blk := s.blk.mStr fun x =>
      { x with credits := if x.credits < 32 then x.credits + 1 else 32 } }) ∧
  (∀ (o : OutBurst) (k : Nat) (s : State), s.blk.tsu.str.outq = [(o, k)] → s.blk.tsu.str.credits = 0 → o.ch < 64 →
    k + 1 < beatsOf o.data →
    ∃ t, exec .streamCreditReturn s = .next t ∧ t.blk.tsu.str.outq = [(o, k + 1)] ∧ t.blk.tsu.str.credits = 0 ∧
      t.blk.out = s.blk.out ++ [.strBeat ⟨BitVec.ofNat 6 o.ch, k == 0, false, slice o.data (64 * k) 64, 0⟩] ∧
      t.blk.tsu = { s.blk.tsu with str := t.blk.tsu.str } ∧ t.blk.dist = s.blk.dist ∧ t.pending = s.pending) ∧
  (∀ s : State, s.blk.tsu.str.clkOk = false → s.blk.tsu.boot.tsuRst = false →
    exec .strClkStart s = .next { s with
      blk := (s.blk.mStr fun x => { x with clkOk := true, hostCr := 32 }).emit (.strCredit 32) }) ∧
  (∀ (x : Beat) (s : State), s.blk.tsu.boot.tsuRst = false → s.blk.tsu.str.clkOk = true → 1 < s.blk.tsu.str.hostCr →
    ((s.blk.strCh x.ch.toNat).st ≠ .on ∨ (s.blk.strCh x.ch.toNat).dir = true) →
    ∃ t, exec (.streamBeatReceive x) s = .next t ∧ (t.blk.strCh x.ch.toNat) = { s.blk.strCh x.ch.toNat with
        disc := true, discBeats := sat1 (s.blk.strCh x.ch.toNat).discBeats } ∧ t.blk.tsu.str.hostCr = s.blk.tsu.str.hostCr ∧
      (∀ c, c ≠ x.ch.toNat → t.blk.strCh c = s.blk.strCh c) ∧ t.blk.out = s.blk.out ++ [.strCredit 1] ∧
      t.blk.tsu = { s.blk.tsu with str := t.blk.tsu.str, pwr := t.blk.tsu.pwr } ∧ t.blk.dist = s.blk.dist ∧
      t.pending = s.pending) ∧
  (∀ (x : Beat) (s : State), s.blk.tsu.boot.tsuRst = false → s.blk.tsu.str.clkOk = true → s.blk.tsu.str.hostCr ≠ 0 →
    (s.blk.strCh x.ch.toNat).st = .on → (s.blk.strCh x.ch.toNat).dir = false →
    (s.blk.strCh x.ch.toNat).openBurst = none → (s.blk.strCh x.ch.toNat).late = false →
    s.blk.collAwaits x.ch.toNat = none → x.sob = true → x.eob = true →
    ∃ t, exec (.streamBeatReceive x) s = .next t ∧ (t.blk.strCh x.ch.toNat).inq = (s.blk.strCh x.ch.toNat).inq ++
        [{ data := x.data, beats := 1, held := 1, closed := true, corrupt := crc32c x.data != x.bcrc }] ∧
      (t.blk.strCh x.ch.toNat).crcCnt = (if crc32c x.data != x.bcrc then sat1 (s.blk.strCh x.ch.toNat).crcCnt
        else (s.blk.strCh x.ch.toNat).crcCnt) ∧
      t.blk.tsu.str.hostCr = s.blk.tsu.str.hostCr - 1 ∧ (∀ c, c ≠ x.ch.toNat → t.blk.strCh c = s.blk.strCh c) ∧
      t.blk.tsu = { s.blk.tsu with str := t.blk.tsu.str, pwr := t.blk.tsu.pwr } ∧ t.blk.out = s.blk.out ∧
      t.blk.dist = s.blk.dist ∧ t.pending = s.pending) ∧
  (∀ (ch : BitVec 6) (i : InBurst) (s : State), (s.blk.strCh ch.toNat).inq = [i] → i.closed = false →
    s.blk.tsu.str.hostCr ≠ 0 → s.blk.collAwaits ch.toNat = none →
    (s.blk.tsu.str.stall : Int) < Tick.diff s.blk.tsu.time.tc64 (s.blk.strCh ch.toNat).lastBeat →
    ∃ t, exec (.burstStallTrunc ch) s = .next t ∧
      (t.blk.strCh ch.toNat).inq = [{ i with data := [], held := 0, closed := true, corrupt := true }] ∧
      (t.blk.strCh ch.toNat).trunc = true ∧
      (t.blk.strCh ch.toNat).truncCnt = sat1 (s.blk.strCh ch.toNat).truncCnt ∧
      t.blk.tsu.str.hostCr = s.blk.tsu.str.hostCr + i.held ∧ (∀ c, c ≠ ch.toNat → t.blk.strCh c = s.blk.strCh c) ∧
      t.blk.dist = s.blk.dist ∧ t.pending = s.pending) ∧
  (∀ (a : Access) (ch : BitVec 6) (s : State),
    s.blk.check (portReq a) (0xB100 + 0x20 * ch.toNat) (worldOk (portReq a) (s.blk.strCh ch.toNat).world) = .ok →
    exec (.strChEnable a ch) s = .next { s with
      blk := (s.blk.mStrCh ch.toNat fun c => match c.st with
        | .stopping => { c with enPend := true }
        | .off => if s.blk.tsu.boot.inCloak then { c with enPend := true } else { c with st := .on }
        | .on => c).emit (.reg none 0 0) }) ∧
  (∀ (a : Access) (ch : BitVec 6) (s : State),
    s.blk.check (portReq a) (0xB100 + 0x20 * ch.toNat) (worldOk (portReq a) (s.blk.strCh ch.toNat).world) = .ok →
    (s.blk.strCh ch.toNat).st ≠ .on →
    exec (.strChDisable a ch) s = .next { s with
      blk := (s.blk.mStrCh ch.toNat fun c => { c with enPend := false }).emit (.reg none 0 0) }) ∧
  (∀ (a : Access) (ch : BitVec 6) (s : State),
    s.blk.check (portReq a) (0xB100 + 0x20 * ch.toNat) (worldOk (portReq a) (s.blk.strCh ch.toNat).world) = .ok →
    (s.blk.strCh ch.toNat).st = .on → (s.blk.strCh ch.toNat).dir = true → s.blk.tsu.str.outq = [] →
    s.blk.tsu.str.waits = [] →
    ∃ t, exec (.strChDisable a ch) s = .next t ∧ (t.blk.strCh ch.toNat).st = .off ∧
      (∀ c, c ≠ ch.toNat → t.blk.strCh c = s.blk.strCh c) ∧
      t.blk.tsu = { s.blk.tsu with str := t.blk.tsu.str } ∧ t.blk.out = s.blk.out ++ [.reg none 0 0] ∧
      t.blk.dist = s.blk.dist ∧ t.pending = s.pending) ∧
  (∀ (p : Producer) (o : OutBurst) (rest : List OutBurst) (s : State),
    takeWait p s.blk.tsu.str.waits = some (o, rest) → (s.blk.strCh o.ch).takes = true → s.blk.room o = true →
    s.blk.tsu.str.credits = 0 →
    (∀ n, p = .gen n → (s.blk.genSlot n.toNat).ncall.toNat ≤ (s.blk.genSlot n.toNat).formed) →
    exec (.outputBurstAdmit p) s = .next { s with
      blk := s.blk.mStr fun x => { x with waits := rest, outq := x.outq ++ [(o, 0)] } }) ∧
  (∀ (p : Producer) (o : OutBurst) (rest : List OutBurst) (s : State),
    takeWait p s.blk.tsu.str.waits = some (o, rest) → (s.blk.strCh o.ch).takes = true → s.blk.room o = false →
    Tick.le (o.since + s.blk.tsu.str.outWait.setWidth 64) s.blk.tsu.time.tc64 = true → (∀ n, p ≠ .gen n) →
    exec (.outWaitExpire p) s = .next { s with
      blk := ((s.blk.mStr fun x => { x with waits := rest }).mStrCh o.ch fun c =>
        { c with drop := true, dropCnt := sat1 c.dropCnt }).outDropped o.prod })

/-- R226, R231 to R237, R250. A generator slot is issued, forms its calls while ENGINE runs, completes and is cancelled; the
test call computes CG-128; the self-test; and a key half is written unless the context is armed. -/
def Obligations.GeneratorSlots : Prop :=
  (∀ (a : Access) (n : BitVec 3) (s : State),
    s.blk.check (portReq a) (0x9000 + 0x40 * n.toNat + 0x28)
      (worldOk (portReq a) (s.blk.ctxWorld (s.blk.genSlot n.toNat).ctx)) = .ok →
    (s.blk.genSlot n.toNat).st ≠ .run → (s.blk.genSlot n.toNat).ncall ≠ 0 → (s.blk.genSlot n.toNat).form < 2 →
    (s.blk.genSlot n.toNat).sigKind ≠ 3 →
    s.blk.chFits (s.blk.genSlot n.toNat).och true (s.blk.ctxWorld (s.blk.genSlot n.toNat).ctx) = true →
    ((s.blk.genSlot n.toNat).d0.getLsbD 8 = true ∨ (s.blk.ctx (s.blk.genSlot n.toNat).ctx).run.lstepOk = true) →
    s.blk.engOn = false →
    ∃ t, exec (.genIssue a n) s = .next t ∧ t.blk.genSlot n.toNat = { s.blk.genSlot n.toNat with
        st := .run, code := 0, outDrop := false, formed := 0, cancel := false
        used := if (s.blk.genSlot n.toNat).d0.getLsbD 8 then (s.blk.genSlot n.toNat).step
          else (s.blk.ctx (s.blk.genSlot n.toNat).ctx).run.lstep.setWidth 48
        key := (s.blk.ctx (s.blk.genSlot n.toNat).ctx).run.key } ∧
      (∀ k, k ≠ n.toNat → t.blk.genSlot k = s.blk.genSlot k) ∧ t.blk.tsu.pwr.engWanted = true ∧
      t.blk.tsu = { s.blk.tsu with gen := t.blk.tsu.gen, pwr := t.blk.tsu.pwr } ∧ t.blk.dist = s.blk.dist ∧
      t.blk.out = s.blk.out ++ [.reg none 0 0] ∧ t.pending = s.pending) ∧
  (∀ (a : Access) (n : BitVec 3) (s : State),
    s.blk.check (portReq a) (0x9000 + 0x40 * n.toNat + 0x28)
      (worldOk (portReq a) (s.blk.ctxWorld (s.blk.genSlot n.toNat).ctx)) = .ok →
    (s.blk.genSlot n.toNat).st ≠ .run → (s.blk.genSlot n.toNat).ncall ≠ 0 → (s.blk.genSlot n.toNat).form < 2 →
    (s.blk.genSlot n.toNat).sigKind ≠ 3 →
    s.blk.chFits (s.blk.genSlot n.toNat).och true (s.blk.ctxWorld (s.blk.genSlot n.toNat).ctx) = true →
    (s.blk.strCh (s.blk.genSlot n.toNat).och).takes = true → (s.blk.genSlot n.toNat).d0.getLsbD 8 = true →
    s.blk.engOn = true → s.blk.tsu.gen.stOk = true → (s.blk.genSlot n.toNat).ncall.toNat ≤ 256 →
    (∀ o ∈ s.blk.tsu.str.waits, o.prod ≠ .gen n) → s.blk.tsu.held.contains (.genSig n.toNat) = false →
    ∃ t, exec (.genIssue a n) s = .next t ∧ (t.blk.genSlot n.toNat).st = .run ∧
      (t.blk.genSlot n.toNat).formed = (s.blk.genSlot n.toNat).ncall.toNat ∧
      t.blk.tsu.gen.calls = satAdd s.blk.tsu.gen.calls (s.blk.genSlot n.toNat).ncall.toNat ∧
      t.blk.tsu.str.waits = s.blk.tsu.str.waits ++ [⟨.gen n, (s.blk.genSlot n.toNat).och,
        pad64 ((List.range (s.blk.genSlot n.toNat).ncall.toNat).flatMap fun j =>
          genBytes (s.blk.genSlot n.toNat).form (cg128 (s.blk.ctx (s.blk.genSlot n.toNat).ctx).run.key
            (cgCtr (s.blk.genSlot n.toNat).step (s.blk.genSlot n.toNat).stream
              ((s.blk.genSlot n.toNat).coord + BitVec.ofNat 64 j)))), s.blk.tsu.time.tc64⟩] ∧
      t.blk.dist = s.blk.dist ∧ t.blk.out = s.blk.out ++ [.reg none 0 0] ∧ t.pending = s.pending) ∧
  (∀ (a : Access) (n : BitVec 3) (s : State),
    s.blk.check (portReq a) (0x9000 + 0x40 * n.toNat + 0x28)
      (worldOk (portReq a) (s.blk.ctxWorld (s.blk.genSlot n.toNat).ctx)) = .ok →
    (s.blk.genSlot n.toNat).st = .run →
    exec (.genIssue a n) s = .next { s with
      blk := (s.blk.mGenSlot n.toNat fun x => { x with issueLost := true }).emit (.reg none 0 0) }) ∧
  (∀ (a : Access) (n : BitVec 3) (s : State),
    s.blk.check (portReq a) (0x9000 + 0x40 * n.toNat + 0x28)
      (worldOk (portReq a) (s.blk.ctxWorld (s.blk.genSlot n.toNat).ctx)) = .ok →
    (s.blk.genSlot n.toNat).st ≠ .run → (s.blk.genSlot n.toNat).ncall = 0 → (s.blk.genSlot n.toNat).sigKind = 0 →
    ∃ t, exec (.genIssue a n) s = .next t ∧ (t.blk.genSlot n.toNat).st = .done ∧ (t.blk.genSlot n.toNat).code = 1 ∧
      t.blk.tsu.gen.calls = s.blk.tsu.gen.calls ∧ t.blk.tsu.str = s.blk.tsu.str) ∧
  (∀ (n : BitVec 3) (s : State), (s.blk.genSlot n.toNat).st = .run → (s.blk.genSlot n.toNat).code = 0 →
    (s.blk.genSlot n.toNat).cancel = false → (s.blk.genSlot n.toNat).formed = (s.blk.genSlot n.toNat).ncall.toNat →
    s.blk.flushed (genProd n.toNat) = true → s.blk.tsu.held.contains (.genSig n.toNat) = false →
    (s.blk.genSlot n.toNat).sigKind = 0 →
    ∃ t, exec (.genComplete n) s = .next t ∧
      t.blk.genSlot n.toNat = { s.blk.genSlot n.toNat with st := .done, code := 0 } ∧
      (∀ k, k ≠ n.toNat → t.blk.genSlot k = s.blk.genSlot k) ∧
      t.blk.tsu = { s.blk.tsu with gen := { s.blk.tsu.gen with slots := t.blk.tsu.gen.slots } } ∧
      t.blk.dist = s.blk.dist ∧ t.blk.out = s.blk.out ∧ t.pending = s.pending) ∧
  (∀ (a : Access) (n : BitVec 3) (s : State),
    s.blk.check (portReq a) (0x9000 + 0x40 * n.toNat + 0x28)
      (worldOk (portReq a) (s.blk.ctxWorld (s.blk.genSlot n.toNat).ctx)) = .ok →
    (s.blk.genSlot n.toNat).st = .run → (s.blk.genSlot n.toNat).code = 0 →
    (s.blk.genSlot n.toNat).formed ≠ (s.blk.genSlot n.toNat).ncall.toNat →
    s.blk.flushed (genProd n.toNat) = true → s.blk.tsu.held.contains (.genSig n.toNat) = false →
    ∃ t, exec (.genCancel a n) s = .next t ∧
      t.blk.genSlot n.toNat = { s.blk.genSlot n.toNat with st := .done, code := 2, cancel := true } ∧
      (∀ k, k ≠ n.toNat → t.blk.genSlot k = s.blk.genSlot k) ∧
      t.blk.tsu = { s.blk.tsu with gen := { s.blk.tsu.gen with slots := t.blk.tsu.gen.slots } } ∧
      t.blk.dist = s.blk.dist ∧ t.blk.out = s.blk.out ++ [.reg none 0 0] ∧ t.pending = s.pending) ∧
  (∀ (a : Access) (s : State), s.blk.check (portReq a) 0x9830 true = .ok →
    exec (.genTestCall a) s = .next { s with
      blk := (s.blk.mGen fun g => { g with tout := cg128 g.tkey g.tctr }).emit (.reg none 0 0) }) ∧
  (∀ (a : Access) (s : State), s.blk.check (portReq a) 0x9830 true = .ok →
    exec (.genSelftestRun a) s = .next { s with
      blk := (s.blk.mGen fun g => { g with stDone := true, stOk := Config.selfTestWords03 }).emit (.reg none 0 0) }) ∧
  (∀ (a : Access) (c : Ctx6) (hi : Bool) (d : BitVec 64) (s : State),
    s.blk.check (portReq a) (0x9400 + 0x10 * c.toNat + (if hi then 8 else 0))
      (worldOk (portReq a) (s.blk.ctxWorld c.toNat)) = .ok →
    (s.blk.ctx c.toNat).st.isArmed = false → (s.blk.ctx c.toNat).run.accOn = false →
    exec (.genKeyWrite a c hi d) s = .next { s with
      blk := (s.blk.mCtxRun c.toNat fun u => { u with
        key := if hi then d ++ u.key.extractLsb' 0 64 else u.key.extractLsb' 64 64 ++ d }).emit (.reg none 0 0) }) ∧
  (∀ (a : Access) (c : Ctx6) (hi : Bool) (d : BitVec 64) (s : State),
    s.blk.check (portReq a) (0x9400 + 0x10 * c.toNat + (if hi then 8 else 0))
      (worldOk (portReq a) (s.blk.ctxWorld c.toNat)) = .ok →
    ((s.blk.ctx c.toNat).st.isArmed || (s.blk.ctx c.toNat).run.accOn) = true →
    exec (.genKeyWrite a c hi d) s = .next { s with
      blk := (s.blk.mGen fun g => { g with keyRef := true }).emit (.reg none 0 0) })

/-- R161 to R169, R335, R336. The six operations of a wait slot on a tagged word that is free: what the slot shows, what the word
holds after, and that no other word and no other slot changes; CONSUME and READ of an EMPTY word, and PRODUCE on a FULL
one, wait unless NOWAIT is set. -/
def Obligations.TaggedWordOperations : Prop :=
  (∀ (a : Access) (c : Ctx6) (k : BitVec 3) (f : WsFlags) (s : State),
    s.blk.slotFree a c.toNat k.toNat = true → (∀ e ∈ s.blk.tsu.ws, e.2.op = none) →
    s.blk.wordFree c.toNat ((s.blk.wslot (wsIdx c.toNat k.toNat)).addr.toNat % 524288) = true →
    let i := wsIdx c.toNat k.toNat
    let n := (s.blk.wslot i).addr.toNat % 524288
    let d := (s.blk.wslot i).wdata
    let w := s.blk.tsu.tm.get n
    let rw := s.blk.regionWorld n
    (w.fe = true → ∃ t, exec (.wsConsume a c k f) s = .next t ∧
      WordDone s t i n { status := 0x00, full := false, w := w.w, rdata := w.data } { w with fe := false }) ∧
    (w.fe = true → ∃ t, exec (.wsRead a c k f) s = .next t ∧
      WordDone s t i n { status := 0x00, full := true, w := w.w, rdata := w.data } w) ∧
    (w.fe = false → ∃ t, exec (.wsProduce a c k f) s = .next t ∧
      WordDone s t i n { status := 0x00, full := true, w := rw } { w with data := d, fe := true, w := rw }) ∧
    (∃ t, exec (.wsWriteForce a c k f) s = .next t ∧
      WordDone s t i n { status := 0x00, full := true, w := rw } { w with data := d, fe := true, w := rw }) ∧
    (∃ t, exec (.wsFillCount a c k f) s = .next t ∧
      WordDone s t i n
        { status := 0x00, full := (fillCount (d.setWidth 20) rw w).1.fe, w := rw
          sat := (fillCount (d.setWidth 20) rw w).2.1, count := (fillCount (d.setWidth 20) rw w).2.2
          rdata := (fillCount (d.setWidth 20) rw w).1.data } (fillCount (d.setWidth 20) rw w).1) ∧
    (∃ t, exec (.wsProbe a c k f) s = .next t ∧
      WordDone s t i n { status := 0x00, full := w.fe, w := w.w, rdata := w.data } w) ∧
    (w.fe = false → f.nowait = true → ∃ t, exec (.wsConsume a c k f) s = .next t ∧
      WordDone s t i n { status := 0x03, full := false, w := w.w } w) ∧
    (w.fe = false → f.nowait = true → ∃ t, exec (.wsRead a c k f) s = .next t ∧
      WordDone s t i n { status := 0x03, full := false, w := w.w } w) ∧
    (w.fe = true → f.nowait = true → ∃ t, exec (.wsProduce a c k f) s = .next t ∧
      WordDone s t i n { status := 0x02, full := true, w := w.w } w) ∧
    (w.fe = false → f.nowait = false → ∃ t, exec (.wsConsume a c k f) s = .next t ∧
      (t.blk.wslot i).op.isSome = true ∧ t.blk.tsu.tm = s.blk.tsu.tm)) ∧
  (∀ (x : BitVec 20) (rw : Bool) (w : TWord),
    let c := min ((fld w.data 0 20).toNat + x.toNat) 1048575
    let target := (fld w.data 32 20).toNat
    (w.fe = false → target ≤ c → (fillCount x rw w).1.fe = true ∧ (fillCount x rw w).2.2.toNat = c - target) ∧
    (w.fe = false → c < target → (fillCount x rw w).1.fe = false ∧ (fillCount x rw w).2.2.toNat = c) ∧
    (w.fe = true → (fillCount x rw w).1.fe = true ∧ (fillCount x rw w).2.2.toNat = c) ∧
    (fillCount x rw w).2.1 = decide (1048575 < (fld w.data 0 20).toNat + x.toNat) ∧
    (fillCount x rw w).1.w = rw)

/-- R254, R257 to R261, R265. An operation on a hall word that keeps the rules of its address is outstanding and sends HREQ on
the plane of its HA with the deadline of R259; one that breaks them, or has no way, completes at once with its status. -/
def Obligations.HallOperations : Prop :=
  ∀ (a : Access) (c : Ctx6) (k : BitVec 3) (f : WsFlags) (s : State), s.blk.slotFree a c.toNat k.toNat = true →
    let i := wsIdx c.toNat k.toNat
    let ha := (s.blk.wslot i).addr
    let sent (op : BitVec 4) : Block :=
      ((((s.blk.mWslot i fun w => { w with op := some (s.blk.newOp c.toNat i 1 op f) }).mTsu fun t =>
          { t with
            wseq := t.wseq + 1
            hall := { t.hall with out := t.hall.out ++
              [⟨wsTag i, ha.setWidth 39, op, s.blk.hallX f, haPlane ha, s.blk.ctxWorld c.toNat⟩] } }).send
          (.tsu (haPlane ha)) (s.blk.ctxWorld c.toNat)
          (.hreq { ha := ha.setWidth 39, pda := s.blk.myPda (haPlane ha), tag := wsTag i, op := op, nowait := f.nowait,
                   lcap := (s.blk.lane (.tsu (haPlane ha))).reg.featEff.getLsbD 17, x := s.blk.hallX f
                   wdata := (s.blk.wslot i).wdata }))).emit (.reg none 0 0)
    (s.blk.hallStop ha = none →
      exec (.hallConsume a c k f) s = .next { s with blk := sent 0 } ∧
      exec (.hallRead a c k f) s = .next { s with blk := sent 1 } ∧
      exec (.hallProduce a c k f) s = .next { s with blk := sent 2 } ∧
      exec (.hallWriteForce a c k f) s = .next { s with blk := sent 3 } ∧
      exec (.hallFillCount a c k f) s = .next { s with blk := sent 4 } ∧
      exec (.hallProbe a c k f) s = .next { s with blk := sent 5 }) ∧
    (∀ st, s.blk.hallStop ha = some st → ∃ t, exec (.hallConsume a c k f) s = .next t ∧
      (t.blk.wslot i).op = none ∧ (t.blk.wslot i).status = st ∧ (∀ j, j ≠ i → t.blk.wslot j = s.blk.wslot j) ∧
      t.blk.tsu.hall.out = s.blk.tsu.hall.out ∧
      t.blk.tsu.hall.nopath = (if st = 0x0C then sat1 s.blk.tsu.hall.nopath else s.blk.tsu.hall.nopath) ∧
      t.blk.tsu.tm = s.blk.tsu.tm ∧ t.blk.dist = s.blk.dist ∧ t.pending = s.pending)

/-- R146 to R150, R159, R169. ARRIVE counts max 1 (DATA[19:0]) into the phase it names and completes the phase of a DIE
barrier when EXPECT is reached; ARRIVE_WAIT stays outstanding; WAIT completes when the phase is over; SIGNAL adds, TAKE
subtracts and READ_COUNT reads a DIE semaphore's count. A VBID without a translation completes NOMAP. -/
def Obligations.BarrierAndSemaphoreOperations : Prop :=
  ∀ (a : Access) (c : Ctx6) (k : BitVec 3) (f : WsFlags) (s : State),
    s.blk.slotFree a c.toNat k.toNat = true → s.blk.engOn = true → (∀ e ∈ s.blk.tsu.ws, e.2.op = none) →
    let i := wsIdx c.toNat k.toNat
    let vbid := (s.blk.wslot i).addr.toNat % 1024
    let d : BitVec 20 := (s.blk.wslot i).wdata.setWidth 20
    (s.blk.xlat c.toNat vbid = none → ∃ t, exec (.wsArrive a c k f) s = .next t ∧ WaitDone s t i { status := 0x04 } ∧
      t.blk.tsu.bar = s.blk.tsu.bar) ∧
    (∀ n, s.blk.xlat c.toNat vbid = some n →
      let x := s.blk.slot n
      (x.kind = 1 → x.scope = 0 → x.sent = false →
        let m := x.count f.sense + max 1 d.toNat
        (f.sense = x.sense → m < x.need → m ≤ 1048575 →
          (∃ t, exec (.wsArrive a c k f) s = .next t ∧ WaitDone s t i { status := 0x00, count := BitVec.ofNat 20 m } ∧
            (t.blk.slot n).count f.sense = m ∧ (t.blk.slot n).sense = x.sense) ∧
          (∃ t, exec (.wsArriveWait a c k { f with nowait := false }) s = .next t ∧ (t.blk.slot n).count f.sense = m ∧
            (t.blk.wslot i).op.map (fun o => (o.phase, o.held, o.slot)) = some (some x.sense, false, some n))) ∧
        (f.sense = x.sense → x.need ≤ m → s.blk.closers n = [] → x.count (!x.sense) < x.need →
          ∃ t, exec (.wsArrive a c k f) s = .next t ∧ (t.blk.wslot i).op = none ∧ (t.blk.wslot i).status = 0x00 ∧
            (t.blk.wslot i).count.toNat = x.need ∧ (t.blk.wslot i).ovr = decide (x.need < min m 1048575) ∧
            (t.blk.slot n).sense = (!x.sense) ∧ (t.blk.slot n).sent = false ∧ (t.blk.slot n).count x.sense = 0 ∧
            (t.blk.slot n).void x.sense = false ∧ (∀ j, j ≠ n → t.blk.slot j = s.blk.slot j)) ∧
        (f.sense ≠ x.sense → ∃ t, exec (.wsWait a c k f) s = .next t ∧ WaitDone s t i { status := 0x00 } ∧
          t.blk.tsu.bar = s.blk.tsu.bar) ∧
        (f.sense = x.sense → f.nowait = true → ∃ t, exec (.wsWait a c k f) s = .next t ∧
          WaitDone s t i { status := 0x03 } ∧ t.blk.tsu.bar = s.blk.tsu.bar)) ∧
      (x.kind = 2 → x.scope = 0 →
        (∃ t, exec (.wsSignal a c k f) s = .next t ∧
          WaitDone s t i { status := 0x00, sat := decide (1048575 < x.c0 + d.toNat)
                           count := BitVec.ofNat 20 (min (x.c0 + d.toNat) 1048575) } ∧
          (t.blk.slot n).c0 = min (x.c0 + d.toNat) 1048575 ∧ (∀ j, j ≠ n → t.blk.slot j = s.blk.slot j)) ∧
        (d.toNat ≤ x.c0 → ∃ t, exec (.wsTake a c k f) s = .next t ∧
          WaitDone s t i { status := 0x00, count := BitVec.ofNat 20 (x.c0 - d.toNat) } ∧
          (t.blk.slot n).c0 = x.c0 - d.toNat ∧ (∀ j, j ≠ n → t.blk.slot j = s.blk.slot j)) ∧
        (x.c0 < d.toNat → f.nowait = true → ∃ t, exec (.wsTake a c k f) s = .next t ∧
          WaitDone s t i { status := 0x03, count := BitVec.ofNat 20 x.c0 } ∧ t.blk.tsu.bar = s.blk.tsu.bar) ∧
        (∃ t, exec (.wsReadCount a c k f) s = .next t ∧
          WaitDone s t i { status := 0x00, count := BitVec.ofNat 20 x.c0 } ∧ t.blk.tsu.bar = s.blk.tsu.bar)))

/-- R165, R169, R170, R336, R360. A read of WS_WAIT answers at once where nothing is outstanding and is held otherwise, and
REG_ABORT answers a held read with ERR 3; a time-out withdraws the operation; the direct window reads DATA whatever FE,
writes as WRITE_FORCE, and answers ERR 1 to an access of 32 bits. -/
def Obligations.WaitsAndWindow : Prop :=
  (∀ (a : Access) (c : Ctx6) (k : BitVec 3) (tag : BitVec 8) (s : State),
    (s.blk.tsu.heldReads.filter fun r => !r.dbg).length < 240 → s.blk.check (portReq a) (wsReg c.toNat k.toNat 0x18)
      (worldOk (portReq a) (s.blk.ctxWorld c.toNat)) = .ok →
    let w := s.blk.wslot (wsIdx c.toNat k.toNat)
    (w.op = none → exec (.wsWaitRead a c k tag) s = .next { s with
      blk := s.blk.emit (.reg (some tag) 0 w.waitWord) }) ∧
    (w.op.isSome = true → exec (.wsWaitRead a c k tag) s = .next { s with
      blk := s.blk.mTsu fun t => { t with heldReads := t.heldReads ++ [⟨tag, false, 0, c.toNat, k.toNat⟩] } })) ∧
  (∀ (tag : BitVec 8) (s : State),
    (s.blk.tsu.heldReads.any (fun r => !r.dbg && r.tag == tag) = true →
      exec (.regAbort tag) s = .next { s with
        blk := (s.blk.mTsu fun t =>
          { t with heldReads := t.heldReads.eraseP fun r => !r.dbg && r.tag == tag }).emit (.reg (some tag) 3 0) }) ∧
    (s.blk.tsu.heldReads.any (fun r => !r.dbg && r.tag == tag) = false → exec (.regAbort tag) s = .next s)) ∧
  (∀ (c : Ctx6) (k : BitVec 3) (o : WOp) (x : Tick) (s : State), (s.blk.wslot (wsIdx c.toNat k.toNat)).op = some o →
    o.expiry = some x → o.space = 0 → Tick.le x s.blk.tsu.time.tc64 = true →
    ∃ t, exec (.waitTimeout c k) s = .next t ∧ (t.blk.wslot (wsIdx c.toNat k.toNat)).op = none ∧
      (t.blk.wslot (wsIdx c.toNat k.toNat)).status = 0x01 ∧
      (∀ j, j ≠ wsIdx c.toNat k.toNat → t.blk.wslot j = s.blk.wslot j) ∧ t.blk.tsu.tm = s.blk.tsu.tm ∧
      t.blk.tsu.bar = s.blk.tsu.bar ∧ t.blk.dist = s.blk.dist ∧ t.pending = s.pending) ∧
  (∀ (c : Ctx6) (k : BitVec 3) (s : State), (s.blk.wslot (wsIdx c.toNat k.toNat)).op = none →
    exec (.waitTimeout c k) s = .next s) ∧
  (∀ (a : Access) (n : BitVec 19) (tag : BitVec 8) (d : BitVec 64) (s : State), s.blk.tsu.boot.tsuRst = false →
    (exec (.directWindowRead a false n tag) s = .next { s with
      blk := s.blk.emit (.reg (some tag) 1 0) }) ∧
    (exec (.directWindowWrite a false n d) s = .next { s with
      blk := s.blk.emit (.reg none 1 0) })) ∧
  (∀ (a : Access) (n : BitVec 19) (tag : BitVec 8) (d : BitVec 64) (s : State), s.blk.tsu.boot.tsuRst = false →
    s.blk.check (portReq a) (0x400000 + 8 * n.toNat) (worldOk (portReq a) (s.blk.regionWorld n.toNat)) = .ok →
    s.blk.engOn = true → s.blk.wordHeld n.toNat = false → (s.blk.tsu.tm.get n.toNat).ecc = .good →
    (a.secure = true ∨ s.blk.regionWorld n.toNat = false ∧ (s.blk.tsu.tm.get n.toNat).w = false) →
    (∀ e ∈ s.blk.tsu.ws, e.2.op = none) →
    (exec (.directWindowRead a true n tag) s = .next { s with
      blk := s.blk.demand.emit (.reg (some tag) 0 (s.blk.tsu.tm.get n.toNat).data) }) ∧
    (∃ t, exec (.directWindowWrite a true n d) s = .next t ∧
      t.blk.tsu.tm.get n.toNat = { data := d, fe := true, w := s.blk.regionWorld n.toNat, ecc := .good } ∧
      (∀ m, m ≠ n.toNat → t.blk.tsu.tm.get m = s.blk.tsu.tm.get m) ∧ t.blk.out = s.blk.out ++ [.reg none 0 0] ∧
      t.blk.tsu = { s.blk.tsu with tm := t.blk.tsu.tm, pwr := s.blk.demand.tsu.pwr } ∧ t.blk.dist = s.blk.dist ∧
      t.pending = s.pending))

/-- R310, R312, R313, R318, R325. A Catalogue request that comes through the network: what each of the six answers and
changes where the entry exists and the right and the value are good, and the refusals, which change no entry. -/
def Obligations.CatalogueRequests : Prop :=
  ∀ (q : CatReq) (e : EntryId) (r : CatEnt) (s : State), s.blk.netServes q = true →
    s.blk.catFind q.unit e.index.toNat e.sub.toNat = .ent r →
    let idx := e.index.toNat
    let sub := e.sub.toNat
    let u := q.unit
    let answer (b : Block) (st : Byte) (pay : Bytes) : Host.Outcome State Fault Refusal :=
      .next { s with blk := b.emit (.cat u q.src q.tid st pay) }
    (catNoRead q (s.blk.catAcc u idx sub r) = none → r.size ≤ 1024 →
      exec (.catRead q e false) s = answer (s.blk.catSlice u idx sub r 0 r.size).2 0x00
        ([BitVec.ofNat 8 r.vtype, 0] ++ toBE 2 r.size ++ wireValue r.vtype (s.blk.catSlice u idx sub r 0 r.size).1) ∧
      exec (.catRead q e true) s = answer s.blk 0x00
        ([BitVec.ofNat 8 r.vtype, 0] ++ toBE 2 r.size ++ wireValue r.vtype (s.blk.catStaged q idx sub r))) ∧
    (∀ c, catNoRead q (s.blk.catAcc u idx sub r) = some c → c ≠ 0x00 → ∀ (off : BitVec 32) (cnt : BitVec 16) (st : Bool),
      exec (.catRead q e st) s = answer s.blk c [] ∧ exec (.catReadBlock q e off cnt) s = answer s.blk c []) ∧
    (∀ (off : BitVec 32) (cnt : BitVec 16), catNoRead q (s.blk.catAcc u idx sub r) = none → cnt ≠ 0 → cnt.toNat ≤ 1024 →
      off.toNat + cnt.toNat ≤ r.size → r.vtype = 10 →
      exec (.catReadBlock q e off cnt) s = answer (s.blk.catSlice u idx sub r off.toNat cnt.toNat).2 0x00
        (toBE 4 off.toNat ++ toBE 4 r.size ++ (s.blk.catSlice u idx sub r off.toNat cnt.toNat).1)) ∧
    (∀ (vt : BitVec 8) (v : Bytes), catNoWrite q (s.blk.catAcc u idx sub r) = none → r.size ≤ 1024 →
      vt.toNat = r.vtype → v.length = r.size → s.blk.catBad u idx sub r v = none → catActs u idx sub = false →
      (s.blk.catIsRecord u idx = false → idx ≠ 0x2001 →
        exec (.catWrite q e vt v) s = answer ((s.blk.catPut u idx sub v).catAfter u idx) 0x00 []) ∧
      (s.blk.catIsRecord u idx = true → sub ≠ catCommitSub idx → idx ≠ 0x4201 →
        exec (.catWrite q e vt v) s = answer (s.blk.catStage q idx sub v) 0x00 [])) ∧
    (∀ (vt : BitVec 8) (v : Bytes), catNoWrite q (s.blk.catAcc u idx sub r) = some 0x05 → u = .tsu → q.secure = false →
      exec (.catWrite q e vt v) s = answer (s.blk.violate 7 (catReqAttr q) true (BitVec.ofNat 64 (256 * idx + sub))) 0x05 []) ∧
    (∀ (off : BitVec 32) (d : Bytes), catNoWrite q (s.blk.catAcc u idx sub r) = none → r.vtype = 10 → d ≠ [] →
      d.length ≤ 1024 → off.toNat + d.length ≤ r.size →
      exec (.catWriteBlock q e off d false) s = answer (s.blk.mCat u fun c => c.setOpen q.secure (catKey idx sub)
        (1 :: putAt (s.blk.catBuffer q idx sub r) off.toNat d)) 0x00 []) ∧
    (∀ (m l : BitVec 16) (k : Nat), catNoRead q (s.blk.catAcc u idx sub r) = none → l ≠ 0 → m ≠ 0 → r.size ≤ 1024 →
      u = .dist → (∀ j, j < 256 → ∀ x, smGet none (s.blk.catOf u).subs j = some x → ¬ (x.who = catWho q ∧ x.entry = e)) →
      k < 256 → smGet none (s.blk.catOf u).subs k = none → (∀ j, j < k → (smGet none (s.blk.catOf u).subs j).isSome = true) →
      exec (.catSubscribe q e m l) s = answer (s.blk.mCat u fun c => { c with
        subs := smPut none c.subs k (some ⟨catWho q, e, m, l, s.blk.tcOf u, s.blk.tcOf u, none, 0⟩) }) 0x00
          (toBE 2 k ++ [0, 0])) ∧
    (∀ b1 : Block, s.blk.catFind u idx 0xFF = .commit → q.priv ≠ 0 → s.blk.stagedOk q idx = true →
      s.blk.recRule q idx 1 (s.blk.staged q idx) = (0x00, b1) →
      exec (.catCommit q e.index) s = .next { s with
        blk := b1.committed q idx ((s.blk.catOf u).staged q.secure idx) })

/-- R136, R152, R156, R225, R264, R313, R400, R402, R405, R418, R426, R429, R434 to R436, R469. The rows that are one write or
one commit of a record: each is that request, and with every check passed each applies its record with the effect that its
chapter gives. -/
def Obligations.CatalogueRecords : Prop :=
  (∀ (q : CatReq) (s : State),
    exec (.jobArm q) s = exec (.catWrite q ⟨0x3010, 5⟩ 2 [1]) s ∧
    exec (.jobCommit q) s = exec (.catWrite q ⟨0x3010, 5⟩ 2 [2]) s ∧
    exec (.jobAbort q) s = exec (.catWrite q ⟨0x3010, 5⟩ 2 [3]) s ∧
    exec (.hbarCommit q) s = exec (.catCommit q 0x3210) s ∧ exec (.groupCommit q) s = exec (.catCommit q 0x3220) s ∧
    exec (.cobjCommit q) s = exec (.catCommit q 0x4010) s ∧ exec (.hmemRegionCommit q) s = exec (.catCommit q 0x8010) s ∧
    exec (.admitCommit q) s = exec (.catCommit q 0x7102) s ∧ exec (.distTopoCommit q) s = exec (.catCommit q 0x7110) s ∧
    exec (.memCommit q) s = exec (.catCommit q 0x7130) s ∧ exec (.rmCommit q) s = exec (.catCommit q 0x7132) s ∧
    exec (.purgeCommit q) s = exec (.catCommit q 0x7133) s ∧ exec (.seedCommit q) s = exec (.catCommit q 0x7134) s ∧
    exec (.ldiMapCommit q) s = exec (.catCommit q 0x7120) s ∧
    exec (.imgTaken q) s = exec (.catWrite q ⟨0x7204, 0⟩ 1 [1]) s ∧
    exec (.distDrain q) s = exec (.catWrite q ⟨0x7150, 1⟩ 1 [1]) s ∧
    exec (.catSave q) s = exec (.catWrite q ⟨0x1020, 5⟩ 1 [1]) s ∧
    exec (.rootManualStart q) s = exec (.catWrite q ⟨0x2231, 2⟩ 1 [1]) s) ∧
  (∀ (q : CatReq) (s : State), q.unit = .dist → s.blk.distServes = true → q.secure = true → q.priv ≠ 0 →
    let st (i : Nat) := s.blk.dist.cat.staged true i
    let v (i k : Nat) : Nat := ofLE (s.blk.staged q i k)
    let done (i : Nat) (b : Block) : Host.Outcome State Fault Refusal := .next { s with blk := b.committed q i (st i) }
    let id : BitVec 32 := BitVec.ofNat 32 (v 0x3010 1)
    let g : BitVec 16 := BitVec.ofNat 16 (v 0x3010 2)
    let ts : Tick := BitVec.ofNat 64 (v 0x3010 3)
    let js := ((s.blk.jobOf id).getD {}).state
    (s.blk.dRole = 3 → s.blk.stagedOk q 0x3010 = true →
      (s.blk.jobOf id = none → exec (.jobArm q) s = done 0x3010 (((s.blk.mObjs fun o => { o with job := some id }).mJob id
        fun _ => { group := g, tStart := ts, state := 1 }).sendGroup g.toNat true
          (.arm g ⟨id, ts, BitVec.ofNat 16 (v 0x3010 4)⟩))) ∧
      (js ≠ 2 → js ≠ 3 → exec (.jobCommit q) s = done 0x3010 (((s.blk.mObjs fun o => { o with job := some id }).mJob id
        fun x => { x with group := g, state := 2 }).sendGroup g.toNat true (.commit g ⟨id, ts⟩))) ∧
      (js ≠ 2 → js ≠ 3 → exec (.jobAbort q) s = done 0x3010 (((s.blk.mObjs fun o => { o with job := some id }).mJob id
        fun x => { x with group := g, state := 3 }).sendGroup g.toNat true
          (.abort g ⟨id, false, ldiList (s.blk.staged q 0x3010 6)⟩))) ∧
      (js = 2 ∨ js = 3 → exec (.jobCommit q) s = done 0x3010 s.blk ∧ exec (.jobAbort q) s = done 0x3010 s.blk)) ∧
    (s.blk.stagedOk q 0x3210 = true →
      let x := s.blk.hbar (v 0x3210 1)
      (x.c0 = 0 ∧ x.c1 = 0 ∧ x.takes = [] → exec (.hbarCommit q) s = done 0x3210 (s.blk.mHbar (v 0x3210 1) fun x =>
        { kind := BitVec.ofNat 2 (v 0x3210 2), scope := BitVec.ofNat 2 (v 0x3210 3)
          expect := BitVec.ofNat 20 (v 0x3210 4), group := BitVec.ofNat 16 (v 0x3210 5), world := v 0x3210 6 != 0
          rshare := x.rshare, removed := x.removed })) ∧
      (x.c0 ≠ 0 → exec (.hbarCommit q) s = .next { s with blk := s.blk.emit (.cat .dist q.src q.tid 0x08 []) })) ∧
    (s.blk.stagedOk q 0x3220 = true → exec (.groupCommit q) s = done 0x3220 (s.blk.mObjs fun o => { o with
      groups := smPut 0 o.groups (v 0x3220 1) (BitVec.ofNat 288 (v 0x3220 2)) })) ∧
    (s.blk.stagedOk q 0x4010 = true → (s.blk.cobj (v 0x4010 1)).ops = [] →
      exec (.cobjCommit q) s = done 0x4010 (s.blk.mCobj (v 0x4010 1) fun _ =>
        { scope := BitVec.ofNat 2 (v 0x4010 2), group := BitVec.ofNat 16 (v 0x4010 3)
          expect := BitVec.ofNat 32 (v 0x4010 4), world := v 0x4010 5 != 0 })) ∧
    (s.blk.stagedOk q 0x8010 = true → s.blk.hm.waits = [] → v 0x8010 4 = 0 →
      exec (.hmemRegionCommit q) s = done 0x8010 (s.blk.mHm fun m => { m with
        regions := smPut {} m.regions (v 0x8010 1) ⟨v 0x8010 2 != 0, v 0x8010 3 != 0⟩ })) ∧
    (s.blk.stagedOk q 0x7110 = true → exec (.distTopoCommit q) s = done 0x7110 s.blk) ∧
    (s.blk.stagedOk q 0x7120 = true → exec (.ldiMapCommit q) s = done 0x7120 s.blk) ∧
    (s.blk.dRole = 3 → s.blk.stagedOk q 0x7130 = true →
      let ep : BitVec 32 := BitVec.ofNat 32 (v 0x7130 1)
      (newer ep s.blk.dist.boot.ep = true →
        exec (.memCommit q) s = done 0x7130 (s.blk.fenceDist ⟨ep, false, ldiList (s.blk.staged q 0x7130 2)⟩)) ∧
      (newer ep s.blk.dist.boot.ep = false →
        exec (.memCommit q) s = .next { s with blk := s.blk.emit (.cat .dist q.src q.tid 0x07 []) })) ∧
    (s.blk.dRole = 1 → s.blk.stagedOk q 0x7132 = true → s.blk.portOut (v 0x7132 1) = true →
      (∀ i, i < 512 → leAt (s.blk.staged q 0x7132 2) (8 * i + 4) 4 % 2 ^ 20 = 0) →
      exec (.rmCommit q) s = done 0x7132 s.blk) ∧
    (s.blk.stagedOk q 0x7133 = true → (∀ i, i < 1024 → leAt (s.blk.staged q 0x7133 1) (4 * i) 4 = 0) →
      exec (.purgeCommit q) s = done 0x7133 s.blk) ∧
    (s.blk.stagedOk q 0x7134 = true →
      let x := s.blk.hbar (v 0x7134 1)
      x.kind = 2 → x.c0 = 0 → x.c1 = 0 → x.takes = [] →
      exec (.seedCommit q) s = done 0x7134 (s.blk.mHbar (v 0x7134 1) fun x => { x with c0 := v 0x7134 2 % 2 ^ 20 })) ∧
    exec (.distDrain q) s = .next { s with
      blk := (s.blk.mDBoot fun d => { d with draining := true }).emit (.cat .dist q.src q.tid 0x00 []) } ∧
    exec (.catSave q) s = .next { s with
      blk := (if s.blk.dist.cat.saving.isSome then s.blk else s.blk.mCat .dist fun c =>
        { c with saving := some s.blk.saveImage }).emit (.cat .dist q.src q.tid 0x00 []) } ∧
    (∀ n, n < 312 → exec (.portWake q n) s = .next { s with
      blk := (s.blk.wakePort n).emit (.cat .dist q.src q.tid 0x00 []) }) ∧
    (∀ t : Tick, s.blk.dRole = 3 → s.blk.dist.root.role = 2 → s.blk.dist.time.timeValid = false →
      (List.range 6).any s.blk.candEligible = false →
      ht96ToTc64 s.blk.dist.time.epoch (htOf (s.blk.catVal .dist 0x2231 1)) = some t →
      exec (.rootManualStart q) s = .next { s with
        blk := (s.blk.mTime .dist fun x => { x with tc64 := t }).emit (.cat .dist q.src q.tid 0x00 []) })) ∧
  (∀ (q : CatReq) (s : State), q.unit = .tsu → q.src ≠ .local → s.blk.live = true → q.secure = true → q.priv ≠ 0 →
    (let ldi : BitVec 16 := BitVec.ofNat 16 (ofLE (s.blk.staged q 0x7102 1))
     let ep : BitVec 32 := BitVec.ofNat 32 (ofLE (s.blk.staged q 0x7102 2))
     s.blk.stagedOk q 0x7102 = true → s.blk.topoPass = true → s.blk.tsu.boot.hostReady = true → s.blk.timeOk = true →
     s.blk.tsu.cat.defaulted = false → s.blk.tsu.boot.admitted = false → s.blk.tsu.boot.fenced = false → ldi ≠ 0xFFFF →
     exec (.admitCommit q) s = .next { s with
       blk := (((s.blk.tAdopt ep).mBoot fun t => { t with admitted := true, ldi := ldi, fenced := false }).sendTopo).committed
         q 0x7102 (s.blk.tsu.cat.staged true 0x7102) }) ∧
    exec (.imgTaken q) s = .next { s with
      blk := (s.blk.mImg .tsu fun x => { x with taken := true, untaken := false }).emit (.cat .tsu q.src q.tid 0x00 []) } ∧
    (∀ pda : BitVec 16, exec (.topoExpectCommit q pda) s = .next { s with
      blk := ((s.blk.catSet .tsu 0x7101 0 (toLE 2 pda.toNat)).tsuTopo).emit (.cat .tsu q.src q.tid 0x00 []) }))

/-- R317, R320 to R326, R332. Rysaob: a UDP message not in form, with a bad MAC or an old SEQ is answered and reaches no entry;
one for this distributor is served in the non-secure world unless authenticated; CTRL messages for a unit are served there;
a forwarded message times out; samples and the end of subscriptions; the end of a save. -/
def Obligations.CatalogueNetwork : Prop :=
  (∀ (src : UdpSource) (m : Bytes) (s : State), s.blk.distServes = true →
    (∀ c, msgBad m = some c → exec (.udpMessageReceive src m) s = .next { s with
      blk := s.blk.emit (.udp src (msgResp m c [])) }) ∧
    (msgBad m = none → msgAuth m = false → msgDst m = 0x100000 →
      let r := s.blk.catDo ⟨.dist, .udp, false, 1, msgTid m⟩ (.udp src false) true (msgIndex m) (msgSub m) (msgOp m)
      exec (.udpMessageReceive src m) s = .next { s with
        blk := r.2.emit (.udp src (msgResp m r.1.status (r.1.payload (msgOp m)))) }) ∧
    (msgBad m = none → msgAuth m = true → allZero s.blk.macKey = true →
      exec (.udpMessageReceive src m) s = .next { s with
        blk := (s.blk.mCat .dist fun c => { c with authFail := sat1 c.authFail }).udpSend src (some (msgSeq m))
          (msgResp m 0x0B []) }) ∧
    (msgBad m = none → msgAuth m = true → allZero s.blk.macKey = false →
      s.blk.macOf (m.take (24 + msgLen m)) = m.drop (24 + msgLen m) →
      (ofBE (msgSeq m) ≤ s.blk.dist.cat.macLast.toNat → exec (.udpMessageReceive src m) s = .next { s with
        blk := s.blk.udpSend src (some (msgSeq m)) (msgResp m 0x0C []) }) ∧
      (s.blk.seqOk (ofBE (msgSeq m)) = true → msgDst m = 0x100000 →
        let b := s.blk.mCat .dist fun c => { c with macLast := BitVec.ofNat 64 (ofBE (msgSeq m)) }
        let r := b.catDo ⟨.dist, .udp, true, 3, msgTid m⟩ (.udp src true) true (msgIndex m) (msgSub m) (msgOp m)
        exec (.udpMessageReceive src m) s = .next { s with
          blk := r.2.udpSend src (some (msgSeq m)) (msgResp m r.1.status (r.1.payload (msgOp m))) }))) ∧
  (∀ (src : UdpSource) (m : Bytes) (s : State), s.blk.distServes = true → msgBad m = none → msgAuth m = false →
    msgDst m ≠ 0x100000 → s.blk.ctrlWay (msgDst m) ≠ .here → 256 ≤ s.blk.dist.cat.fwds.length →
    exec (.udpMessageReceive src m) s = .next { s with blk := s.blk.emit (.udp src (msgResp m 0x0D [])) }) ∧
  (∀ (tag : BitVec 24) (f : Fwd) (s : State), smGet none s.blk.dist.cat.fwds tag.toNat = some f →
    ((s.blk.catNat .dist 0x1031 0 : Int) ≤ Tick.diff s.blk.dist.time.tc64 f.at_ → exec (.fwdTimeout tag) s = .next { s with
      blk := (s.blk.mCat .dist fun c => { c with fwds := smPut none c.fwds tag.toNat none }).udpSend f.src f.seq
        (msgResp f.head 0x0F []) }) ∧
    (Tick.diff s.blk.dist.time.tc64 f.at_ < (s.blk.catNat .dist 0x1031 0 : Int) → exec (.fwdTimeout tag) s = .next s)) ∧
  (∀ (p : Plane) (h : Hdr) (csf : BitVec 48) (m : Bytes) (s : State),
    s.blk.rxOk (.tsu p) h 5 (frameFeature (.ctrl csf m)) false = true →
    let b := s.blk.rxBook (.tsu p) h 5
    (msgBack m = false → b.ctrlMine p (msgDst m) = true → msgBad m = none →
      let r := b.catDo ⟨.tsu, .tree, h.w, if h.w then 3 else 1, msgTid m⟩ (.tree csf h.w) true (msgIndex m) (msgSub m) (msgOp m)
      exec (.ctrlFrameReceive (.tsu p) h csf m) s = .next { s with
        blk := r.2.send (.tsu p) h.w (.ctrl csf (msgResp m r.1.status (r.1.payload (msgOp m)))) }) ∧
    (b.ctrlMine p (msgDst m) = false → exec (.ctrlFrameReceive (.tsu p) h csf m) s = .next { s with blk := b })) ∧
  (∀ (n : Nat) (h : Hdr) (csf : BitVec 48) (m : Bytes) (s : State), n < 312 →
    s.blk.rxOk (.dist n) h 5 (frameFeature (.ctrl csf m)) false = true →
    let b := s.blk.rxBook (.dist n) h 5
    b.distServes = true → b.dRole ≠ 0 → msgBack m = false → b.ctrlWay (msgDst m) ≠ .here →
    (∀ b1, b.ctrlSend (msgDst m) h.w csf m = (none, b1) →
      exec (.ctrlFrameReceive (.dist n) h csf m) s = .next { s with blk := b1 }) ∧
    (∀ c, b.ctrlSend (msgDst m) h.w csf m = (some c, b) →
      exec (.ctrlFrameReceive (.dist n) h csf m) s = .next { s with
        blk := (b.ctrlSend (csfEntry csf) h.w csf (msgResp m c [])).2 })) ∧
  (∀ (n : Nat) (x : Sub) (r : CatEnt) (s : State), smGet none s.blk.tsu.cat.subs n = some x → s.blk.live = true →
    (x.minInt.toNat * 2 ^ 20 : Int) ≤ Tick.diff s.blk.tsu.time.tc64 x.sampled →
    s.blk.catFind .tsu x.entry.index.toNat x.entry.sub.toNat = .ent r →
    let v := slice (s.blk.catNow .tsu x.entry.index.toNat x.entry.sub.toNat r) 0 r.size
    (x.last = some v → exec (.notifySample .tsu n) s = .next { s with
      blk := s.blk.mCat .tsu fun c => { c with subs := smPut none c.subs n (some { x with sampled := s.blk.tsu.time.tc64 }) } }) ∧
    (∀ w, x.last ≠ some v → x.who = .world w → exec (.notifySample .tsu n) s = .next { s with
      blk := (s.blk.mCat .tsu fun c => { c with
        subs := smPut none c.subs n (some { x with sampled := s.blk.tsu.time.tc64, last := some v, nseq := x.nseq + 1 }) }).mCat
          .tsu fun c => c.mPort w fun p => { p with pend := p.pend ||| (1#16 <<< (n % 16)) } })) ∧
  (∀ (u : UnitRef) (n : Nat) (x : Sub) (s : State), smGet none (s.blk.catOf u).subs n = some x → s.blk.catRuns u = true →
    ((x.lifetime.toNat * 1250000000 : Int) ≤ Tick.diff (s.blk.tcOf u) x.since →
      exec (.subscriptionExpire u n) s = .next { s with
        blk := s.blk.mCat u fun c => { c with subs := smPut none c.subs n none } }) ∧
    (Tick.diff (s.blk.tcOf u) x.since < (x.lifetime.toNat * 1250000000 : Int) →
      exec (.subscriptionExpire u n) s = .next s)) ∧
  (∀ (d : Bytes) (s : State), s.blk.dist.cat.saving = some d → s.blk.dist.cat.inUse ≤ 1 →
    ∃ t, exec .catSaveDone s = .next t ∧ t.blk.dist.cat.saving = none ∧ t.blk.dist.cat.inUse = 1 - s.blk.dist.cat.inUse ∧
      (if s.blk.dist.cat.inUse = 0 then t.blk.dist.cat.flash1 = d ∧ t.blk.dist.cat.flash0 = s.blk.dist.cat.flash0
        else t.blk.dist.cat.flash0 = d ∧ t.blk.dist.cat.flash1 = s.blk.dist.cat.flash1) ∧
      t.blk.dist.cat.generation = BitVec.ofNat 32 (imgGen d) ∧ t.blk.dist.cat.vals = s.blk.dist.cat.vals ∧
      t.blk.tsu = s.blk.tsu ∧ t.blk.out = s.blk.out ++ [.flash (1 - s.blk.dist.cat.inUse) d] ∧ t.pending = s.pending)

/-- R380, R389, R406, R407, R410. Cloakroom: entry withdraws and stops every context that is not OFF; a channel still
stopping 1 ms after entry is forced to OFF with LOST_ACK; CR_ACK rises when everything is OFF; exit lowers IN_CLOAK and
CR_ACK, and before CR_ACK has risen it is held. -/
def Obligations.Cloakroom : Prop :=
  (∀ s : State, s.blk.live = true → s.blk.tsu.boot.inCloak = true → exec .cloakroomEntry s = .next { s with
    blk := s.blk.mBoot fun t => { t with computeRst := true, exitPend := false } }) ∧
  (∀ s : State, s.blk.live = true → s.blk.tsu.boot.inCloak = false →
    (∀ e ∈ s.blk.tsu.dm.chs, e.2.st = .off) → (∀ e ∈ s.blk.tsu.str.chs, e.2.st = .off) →
    (∀ e ∈ s.blk.tsu.ctxs, e.2.st = .off) →
    ∃ t, exec .cloakroomEntry s = .next t ∧
      t.blk.tsu.boot = { s.blk.tsu.boot with
        inCloak := true, hostReady := false, computeRst := true, exitPend := false, crCnt := sat1 s.blk.tsu.boot.crCnt
        cloakAt := s.blk.tsu.time.tc64 } ∧
      t.blk.tsu.time = s.blk.tsu.time ∧ t.blk.tsu.tm = s.blk.tsu.tm ∧ t.blk.tsu.ctxs = s.blk.tsu.ctxs ∧
      t.blk.dist = s.blk.dist ∧ t.pending = s.pending) ∧
  (∀ (c : Nat) (s : State), s.blk.live = true → s.blk.tsu.boot.inCloak = false →
    (s.blk.ctxsWhere fun x => x.st != .off) = [c] → (s.blk.ctx c).st ≠ .stopping →
    ∃ t, exec .cloakroomEntry s = .next t ∧ (t.blk.ctx c).st = .stopping ∧ (t.blk.ctx c).reg.flags.withdrawn = true ∧
      (t.blk.ctx c).sched = none ∧ (∀ k, k ≠ c → t.blk.ctx k = s.blk.ctx k) ∧ t.blk.tsu.boot.inCloak = true ∧
      t.blk.dist = s.blk.dist ∧ t.pending = s.pending) ∧
  (∀ (n : BitVec 3) (s : State), s.blk.tsu.boot.inCloak = true → (s.blk.dmCh n.toNat).st = .stopping →
    (Tick.diff s.blk.tsu.time.tc64 s.blk.tsu.boot.cloakAt < 1250000 → exec (.cloakroomForcedStop n) s = .next s) ∧
    (1250000 ≤ Tick.diff s.blk.tsu.time.tc64 s.blk.tsu.boot.cloakAt →
      ∃ t, exec (.cloakroomForcedStop n) s = .next t ∧ (t.blk.dmCh n.toNat).st = .off ∧
        (t.blk.dmCh n.toNat).wrs = [] ∧ t.blk.tsu.boot = { s.blk.tsu.boot with lostAck := true } ∧
        (∀ k, k ≠ n.toNat → t.blk.dmCh k = s.blk.dmCh k) ∧ t.blk.tsu.ctxs = s.blk.tsu.ctxs ∧ t.blk.dist = s.blk.dist ∧
        t.blk.out = s.blk.out ∧ t.pending = s.pending)) ∧
  (∀ s : State, s.blk.tsu.boot.inCloak = false → exec .cloakroomExit s = .next s) ∧
  (∀ s : State, s.blk.tsu.boot.inCloak = true → s.blk.tsu.boot.crAck = false → exec .cloakroomExit s = .next { s with
    blk := s.blk.mBoot fun t => { t with exitPend := true, computeRst := false } }) ∧
  (∀ s : State, s.blk.tsu.boot.inCloak = true → s.blk.tsu.boot.crAck = true →
    (∀ e ∈ s.blk.tsu.dm.chs, e.2.enPend = false) → (∀ e ∈ s.blk.tsu.str.chs, e.2.enPend = false) →
    (s.blk.ctxsWhere fun x => x.enPend) = [] → exec .cloakroomExit s = .next { s with
      blk := (s.blk.mBoot fun t =>
        { t with inCloak := false, crAck := false, exitPend := false, computeRst := false }).sendTopo.dmGo }) ∧
  (∀ s : State, s.blk.tsu.boot.inCloak = true → s.blk.tsu.boot.crAck = false →
    (s.blk.cloakDrained = true → s.blk.tsu.boot.exitPend = false → exec .cloakroomDrainDone s = .next { s with
      blk := (s.blk.mBoot fun t => { t with crAck := true }).sendTopo }) ∧
    (s.blk.cloakDrained = false → exec .cloakroomDrainDone s = .next s))

/-- R187 to R189, R215, R216, R218, R221, R223, R224. An operation slot of the collective engine: ISSUE with a bad descriptor
completes BADDESC, with no lane UNSUPPORTED, and otherwise awaits its sources; ISSUE while busy is lost; CANCEL completes
with code 5 and no burst; the end of RES_GRACE completes NORES; the end of the output burst makes DONE. -/
def Obligations.CollectiveSlots : Prop :=
  (∀ (a : Access) (k : BitVec 4) (s : State),
    s.blk.check (portReq a) (0x8030 + 0x80 * k.toNat) (worldOk (portReq a) (s.blk.collWorld k.toNat)) = .ok →
    let n := k.toNat
    let x := s.blk.collSlot n
    (x.st.busy = true → exec (.collIssue a k) s = .next { s with
      blk := (s.blk.mCollSlot n fun x => { x with issueLost := true }).emit (.reg none 0 0) }) ∧
    (x.st.busy = false → s.blk.collBad n = true → ∃ t, exec (.collIssue a k) s = .next t ∧
      (t.blk.collSlot n).st = .output ∧ (t.blk.collSlot n).fin.code = 4 ∧ (t.blk.collSlot n).desc = x.desc ∧
      (∀ j, j ≠ n → t.blk.collSlot j = s.blk.collSlot j) ∧ t.blk.tsu.ctxs = s.blk.tsu.ctxs ∧ t.blk.dist = s.blk.dist ∧
      t.pending = s.pending) ∧
    (x.st.busy = false → s.blk.collBad n = false → x.desc.scope ≠ 0 →
      s.blk.usable (.tsu .A) 3 (opFeature x.desc.op) = false → s.blk.usable (.tsu .B) 3 (opFeature x.desc.op) = false →
      ∃ t, exec (.collIssue a k) s = .next t ∧ (t.blk.collSlot n).st = .output ∧ (t.blk.collSlot n).fin.code = 2 ∧
        (t.blk.collSlot n).desc = x.desc ∧ (∀ j, j ≠ n → t.blk.collSlot j = s.blk.collSlot j) ∧
        t.blk.dist = s.blk.dist ∧ t.pending = s.pending) ∧
    (x.st.busy = false → s.blk.collBad n = false → x.desc.scope = 0 →
      (∀ i, i < x.desc.nsrc → (s.blk.strCh (x.desc.ich + i)).inq = []) →
      ∃ t, exec (.collIssue a k) s = .next t ∧ (t.blk.collSlot n).st = .gather ∧
        (t.blk.collSlot n).srcs = List.replicate x.desc.nsrc .wait ∧ (t.blk.collSlot n).desc = x.desc ∧
        (∀ j, j ≠ n → t.blk.collSlot j = s.blk.collSlot j) ∧ t.blk.tsu.ctxs = s.blk.tsu.ctxs ∧ t.blk.dist = s.blk.dist ∧
        t.blk.out = s.blk.out ++ [.reg none 0 0] ∧ t.pending = s.pending) ∧
    (x.st.awaits = false → exec (.collCancel a k) s = .next { s with blk := s.blk.emit (.reg none 0 0) }) ∧
    (x.st.awaits = true → x.desc.scope = 0 ∨ x.st ≠ .gather → ∃ t, exec (.collCancel a k) s = .next t ∧
      (t.blk.collSlot n).st = .done ∧ (t.blk.collSlot n).code = 5 ∧ (t.blk.collSlot n).srcs = [] ∧
      (∀ j, j ≠ n → t.blk.collSlot j = s.blk.collSlot j) ∧ t.blk.tsu.coll.ops = sat1 s.blk.tsu.coll.ops ∧
      t.blk.tsu.coll.notOk = sat1 s.blk.tsu.coll.notOk ∧ t.blk.tsu.tm = s.blk.tsu.tm ∧ t.blk.tsu.bar = s.blk.tsu.bar ∧
      t.blk.dist = s.blk.dist ∧ t.blk.out = s.blk.out ++ [.reg none 0 0] ∧ t.pending = s.pending)) ∧
  (∀ (a : Access) (s : State), s.blk.check (portReq a) 0x8800 true = .ok → exec (.collCntClr a) s = .next { s with
    blk := (s.blk.mColl fun c => { c with diff := 0, late := 0, ops := 0, notOk := 0 }).emit (.reg none 0 0) }) ∧
  (∀ (k : BitVec 4) (s : State),
    let n := k.toNat
    let x := s.blk.collSlot n
    (x.st.awaits = false → exec (.resGraceExpire k) s = .next s) ∧
    (x.st.awaits = true → x.desc.scope ≠ 0 → Tick.le (s.blk.graceTick x) s.blk.tsu.time.tc64 = true → x.resA.last = none →
      x.resB.last = none → ∃ t, exec (.resGraceExpire k) s = .next t ∧ (t.blk.collSlot n).st = .output ∧
        (t.blk.collSlot n).fin = { code := 1, flags := 0x80, nmiss := 0, nempty := 0, npres := 0 } ∧
        (∀ j, j ≠ n → t.blk.collSlot j = s.blk.collSlot j) ∧ t.blk.dist = s.blk.dist ∧ t.pending = s.pending) ∧
    (x.st ≠ .output → exec (.collOutputDone k) s = .next s) ∧
    (x.st = .output → s.blk.flushed (.coll k) = true → s.blk.tsu.held.contains (.collSig n) = false → x.desc.sigKind = 0 →
      exec (.collOutputDone k) s = .next { s with
        blk := (s.blk.mCollSlot n fun y => { y with
          st := .done, code := x.fin.code, flags := x.fin.flags, nmiss := x.fin.nmiss, nempty := x.fin.nempty
          npres := x.fin.npres }).mColl fun c =>
            { c with ops := sat1 c.ops, notOk := if x.fin.code = 0 then c.notOk else sat1 c.notOk } }))

/-- R337 to R343, R353, R355. The debug level, its unlock, the step freeze and the Gauntlet's fields: who may change them, what
a change counts, and what a refused access sets instead. -/
def Obligations.DebugAndGauntlet : Prop :=
  (∀ (a : Access) (c : Ctx6) (v : BitVec 64) (on : Bool) (s : State), (portReq a).monitor = true →
    (s.blk.check (portReq a) 0xE140 true = .ok → exec (.freezeArm (.port a) (.sel c)) s = .next { s with
      blk := (s.blk.mDbg fun d => { d with frzSel := c }).emit (.reg none 0 0) }) ∧
    (s.blk.check (portReq a) 0xE148 true = .ok → exec (.freezeArm (.port a) (.at v)) s = .next { s with
      blk := (s.blk.mCtxRun s.blk.tsu.dbg.frzSel.toNat fun r => { r with frzAt := v }).emit (.reg none 0 0) }) ∧
    (s.blk.check (portReq a) 0xE150 true = .ok → exec (.freezeArm (.port a) (.arm on)) s = .next { s with
      blk := (s.blk.mCtxRun s.blk.tsu.dbg.frzSel.toNat fun r => { r with frzArm := on, frzDbg := false }).emit
        (.reg none 0 0) }) ∧
    (s.blk.check (portReq a) 0xE150 true = .ok →
      let k := s.blk.tsu.dbg.frzSel.toNat
      let b := s.blk.mCtx k fun x => { x with heldGo := none, run := { x.run with frzArm := false, frzDbg := false } }
      exec (.freezeRelease (.port a)) s = .next { s with
        blk := (match (s.blk.ctx k).heldGo with | some (g, _) => b.deliver k g | none => b).emit (.reg none 0 0) })) ∧
  (∀ (a : Access) (w : FrzWrite) (s : State), (portReq a).monitor = false →
    s.blk.check (portReq a) 0xE150 true = .ok → s.blk.check (portReq a) 0xE140 true = .ok →
    s.blk.check (portReq a) 0xE148 true = .ok →
    exec (.freezeArm (.port a) w) s = .next { s with
      blk := (s.blk.mDbg fun d => { d with frzRef := true }).emit (.reg none 0 0) } ∧
    exec (.freezeRelease (.port a)) s = .next { s with
      blk := (s.blk.mDbg fun d => { d with frzRef := true }).emit (.reg none 0 0) }) ∧
  (∀ (a : Access) (l : BitVec 2) (s : State), s.blk.check (portReq a) 0xE100 true = .ok →
    (l = 1 → s.blk.tsu.dbg.level = 0 → (portReq a).monitor = true → exec (.dbgSet (.port a) l) s = .next { s with
      blk := (s.blk.mDbg fun d => { d with reqLevel := 1, level := 1 }).emit (.reg none 0 0) }) ∧
    (s.blk.tsu.dbg.level.toNat < l.toNat → (l ≠ 1 ∨ (portReq a).monitor = false) →
      exec (.dbgSet (.port a) l) s = .next { s with
        blk := (s.blk.mDbg fun d => { d with reqLevel := l, dbgRef := true }).emit (.reg none 0 0) }) ∧
    (l.toNat < s.blk.tsu.dbg.level.toNat → (s.blk.ctxsWhere fun x => x.run.frzDbg) = [] →
      exec (.dbgSet (.port a) l) s = .next { s with
        blk := (s.blk.mDbg fun d => { d with reqLevel := l, level := l }).emit (.reg none 0 0) }) ∧
    (s.blk.tsu.dbg.lockout = true → exec (.dbgUnlock (.port a) l) s = .next { s with
      blk := (s.blk.mDbg fun d => { d with reqLevel := l }).emit (.reg none 0 0) }) ∧
    (s.blk.tsu.dbg.lockout = false → l ≠ 3 → (l = 2 → allZero s.blk.tsu.dbg.dkey = false ∧ s.blk.tsu.dbg.fullDis = false) →
      toLE 16 s.blk.tsu.dbg.resp.toNat = s.blk.dbgMac l → (s.blk.ctxsWhere fun x => x.run.frzDbg) = [] →
      ∃ t, exec (.dbgUnlock (.port a) l) s = .next t ∧
        t.blk.tsu.dbg = { s.blk.tsu.dbg with
          reqLevel := l, level := l, failCnt := 0, chal := t.blk.tsu.dbg.chal } ∧ t.blk.tsu.gnt = s.blk.tsu.gnt ∧
        t.blk.tsu.time = s.blk.tsu.time ∧ t.blk.dist = s.blk.dist ∧ t.pending = s.pending) ∧
    (s.blk.tsu.dbg.lockout = false → toLE 16 s.blk.tsu.dbg.resp.toNat ≠ s.blk.dbgMac l →
      ∃ t, exec (.dbgUnlock (.port a) l) s = .next t ∧
        t.blk.tsu = { s.blk.tsu with dbg := { s.blk.tsu.dbg with
          reqLevel := l, failCnt := sat1 s.blk.tsu.dbg.failCnt, lockout := decide (2 ≤ s.blk.tsu.dbg.failCnt.toNat)
          chal := t.blk.tsu.dbg.chal } } ∧ t.blk.dist = s.blk.dist ∧ t.blk.out = s.blk.out ++ [.reg none 0 0] ∧
        t.pending = s.pending)) ∧
  (∀ (b : Bool) (s : State), s.blk.tsu.boot.tsuRst = false → s.blk.tsu.dbg.level = 0 →
    exec (.freezeRelease (.debug b)) s = .next { s with
      blk := (s.blk.mDbg fun d => { d with dbgRef := true }).emit (.dbg 0 0 0) }) ∧
  (∀ (a : Access) (d : BitVec 64) (e : BitVec 32) (s : State),
    let up (b : Block) : Block := b.mGnt fun g => { g with gen := g.gen + 1 }
    (s.blk.check (portReq a) 0xD000 true = .ok → exec (.gauntletWrite a (.blk d)) s = .next { s with
      blk := (if s.blk.tsu.gnt.blk = blkOf d then s.blk else up (s.blk.mGnt fun g => { g with blk := blkOf d })).emit
        (.reg none 0 0) }) ∧
    (s.blk.check (portReq a) 0xD008 true = .ok → (∀ x ∈ s.blk.tsu.ws, x.2.op = none) → s.blk.tsu.held = [] →
      exec (.gauntletWrite a (.tmw d)) s = .next { s with
        blk := (if s.blk.tsu.gnt.tmw = d then s.blk else up (s.blk.mGnt fun g => { g with tmw := d })).emit
          (.reg none 0 0) }) ∧
    (s.blk.check (portReq a) 0xD018 true = .ok →
      let i := s.blk.tsu.gnt.crsel.toNat
      exec (.gauntletWrite a (.crdata e)) s = .next { s with
        blk := (if smGet 0 s.blk.tsu.gnt.raise i = e &&& 0x81FFFFFF then s.blk
          else up (s.blk.mGnt fun g => { g with raise := smPut 0 g.raise i (e &&& 0x81FFFFFF) })).emit (.reg none 0 0) }) ∧
    (s.blk.check (portReq a) 0xD028 true = .ok → exec (.gauntletWrite a (.vctrl e)) s = .next { s with
      blk := (s.blk.mGnt fun g => { g with violIrq := e.getLsbD 0, vCnt := if e.getLsbD 1 then 0 else g.vCnt }).emit
        (.reg none 0 0) }) ∧
    (s.blk.check (portReq a) 0x5018 true = .ok → (portReq a).monitor = false →
      ((List.range 64).any fun c => (s.blk.ctx c).st == .off && !(s.blk.ctx c).enPend &&
        (s.blk.ctx c).world != d.getLsbD c) = true →
      exec (.gauntletWrite a (.ctxWorld d)) s = .next { s with
        blk := (s.blk.violate 0 (portReq a) true 0x5018).emit (.reg none 0 0) }) ∧
    (s.blk.check (portReq a) 0x5018 true = .ok → (portReq a).monitor = true →
      ∃ t, exec (.gauntletWrite a (.ctxWorld d)) s = .next t ∧
        (∀ c, c < 64 → t.blk.ctx c = (if (s.blk.ctx c).st = .off ∧ (s.blk.ctx c).enPend = false then
          { s.blk.ctx c with world := d.getLsbD c } else s.blk.ctx c)) ∧
        t.blk.tsu.time = s.blk.tsu.time ∧ t.blk.tsu.tm = s.blk.tsu.tm ∧ t.blk.dist = s.blk.dist ∧ t.pending = s.pending) ∧
    (∀ ch : BitVec 6, s.blk.check (portReq a) (0xB100 + 0x20 * ch.toNat) (worldOk (portReq a) (s.blk.strCh ch.toNat).world) = .ok →
      (portReq a).monitor = true → (s.blk.strCh ch.toNat).st = .off → (s.blk.strCh ch.toNat).enPend = false →
      (s.blk.strCh ch.toNat).world = false → exec (.gauntletWrite a (.strWorld ch true)) s = .next { s with
        blk := (up (s.blk.mStrCh ch.toNat fun c => { c with world := true })).emit (.reg none 0 0) }))

/-- R119, R120, R148, R152 to R154, R156, R159, R160, R434, R441. Hall barrier and semaphore objects: what an arrival, a
completion, SIGNAL, TAKE, CANCEL and TAKE_RESP do at a distributor, and DONE, STEP_GO and TAKE_RESP at a TSU. A frame that
names no such object is dropped and counted. -/
def Obligations.HallBarriers : Prop :=
  (∀ (n : Nat) (h : Hdr) (a : BarAddr) (p : ArriveMsg) (s : State), n < 288 → s.blk.rxOk (.dist n) h 2 1 false = true →
    let b := s.blk.rxBook (.dist n) h 2
    let i := a.hbid.toNat
    let x := s.blk.hbar i
    let arrived (b : Block) : Block := b.mHbar i fun x =>
      if b.dRole = 1 then (x.arrive a.sense p).setMap a.sense ((x.arrive a.sense p).map a.sense ||| (1#256 <<< n))
      else x.arrive a.sense p
    let m := x.count a.sense + max 1 p.count.toNat
    (s.blk.barOk a h.w 1 = false → exec (.arriveReceive n h a p) s = .next { s with
      blk := b.mObjs fun o => { o with dropCount := sat1 o.dropCount } }) ∧
    (s.blk.barOk a h.w 1 = true → s.blk.isRemoved x n = false → a.sense = x.sense → x.sent = true →
      exec (.arriveReceive n h a p) s = .next { s with
        blk := b.mObjs fun o => { o with overCount := sat1 o.overCount } }) ∧
    (s.blk.barOk a h.w 1 = true → s.blk.isRemoved x n = false → a.sense = x.sense → x.sent = false → m < x.need →
      exec (.arriveReceive n h a p) s = .next { s with blk := arrived b }) ∧
    (s.blk.barOk a h.w 1 = true → s.blk.isRemoved x n = false → a.sense = x.sense → x.sent = false → m = x.need →
      m ≤ 1048575 → s.blk.isHome x.scope = false → exec (.arriveReceive n h a p) s = .next { s with
        blk := ((arrived b).sendUp x.world (.arrive (x.addr i x.sense)
          ⟨x.expect, ((arrived b).hbar i).sat x.sense, ((arrived b).hbar i).outFields⟩)).mHbar i fun x =>
            { x.setCount x.sense 0 with sent := true } }) ∧
    (s.blk.barOk a h.w 1 = true → s.blk.isRemoved x n = false → a.sense = x.sense → x.sent = false → m = x.need →
      m ≤ 1048575 → s.blk.isHome x.scope = true → p.closing = none → x.fields x.sense = none →
      x.count (!x.sense) < x.need → exec (.arriveReceive n h a p) s = .next { s with
        blk := ((arrived b).sendGroup x.group.toNat x.world (.done (x.addr i x.sense)
          (((arrived b).hbar i).sat x.sense))).mHbar i HBar.complete })) ∧
  (∀ (n : Nat) (h : Hdr) (a : BarAddr) (sat : Bool) (g : StepGo) (s : State), 288 ≤ n → n < 312 →
    let i := a.hbid.toNat
    let x := s.blk.hbar i
    s.blk.barOk a h.w 1 = true → a.sense = x.sense → x.count (!x.sense) < x.need →
    (s.blk.rxOk (.dist n) h 2 1 false = true → exec (.doneReceive (.dist n) h a sat) s = .next { s with
      blk := ((s.blk.rxBook (.dist n) h 2).mHbar i HBar.complete).sendGroup a.group.toNat h.w (.done a sat) }) ∧
    (s.blk.rxOk (.dist n) h 1 0 false = true → exec (.stepGoReceive (.dist n) h a g) s = .next { s with
      blk := ((s.blk.rxBook (.dist n) h 1).mHbar i HBar.complete).sendGroup a.group.toNat h.w (.stepGo a g) })) ∧
  (∀ (p : Plane) (h : Hdr) (a : BarAddr) (sat : Bool) (n : Nat) (s : State), s.blk.rxOk (.tsu p) h 2 1 false = true →
    s.blk.slotsAt 1 a = [n] → s.blk.closing n = [] →
    ((s.blk.slot n).sense ≠ a.sense → exec (.doneReceive (.tsu p) h a sat) s = .next { s with
      blk := (s.blk.rxBook (.tsu p) h 2).mBar fun z => { z with stale := sat1 z.stale } }) ∧
    ((s.blk.slot n).sense = a.sense → (s.blk.slot n).count (!a.sense) < (s.blk.slot n).need →
      (∀ e ∈ s.blk.tsu.ws, e.2.op = none) → ∃ t, exec (.doneReceive (.tsu p) h a sat) s = .next t ∧
        (t.blk.slot n).sense = (!a.sense) ∧ (t.blk.slot n).sent = false ∧ (t.blk.slot n).count a.sense = 0 ∧
        (t.blk.slot n).sat = ((s.blk.slot n).sat || sat) ∧ (∀ k, k ≠ n → t.blk.slot k = s.blk.slot k) ∧
        t.blk.tsu.ctxs = s.blk.tsu.ctxs ∧ t.blk.dist = s.blk.dist ∧ t.pending = s.pending)) ∧
  (∀ (p : Plane) (h : Hdr) (a : BarAddr) (g : StepGo) (n c : Nat) (s : State), s.blk.rxOk (.tsu p) h 1 0 false = true →
    let x := s.blk.ctx c
    s.blk.slotsAt 1 a = [n] → s.blk.ctxsAt a = [c] → s.blk.closing n = [c] → (s.blk.slot n).sense = a.sense →
    x.copies a.sense g = false → x.freezes g = false → x.run.rplEn = false → g.outcome = 0 → g.step = x.reg.step →
    g.attempt = x.reg.attempt → g.lkey = x.lkey → (s.blk.slot n).count (!a.sense) < (s.blk.slot n).need →
    (∀ e ∈ s.blk.tsu.ws, e.2.op = none) →
    ∃ t, exec (.stepGoReceive (.tsu p) h a g) s = .next t ∧ (t.blk.ctx c).reg.step = x.reg.step + 1 ∧
      (t.blk.ctx c).reg.attempt = 0 ∧ (t.blk.ctx c).st = .run ∧
      (t.blk.ctx c).sched.map (·.t) = some (launchTick x.reg.mode x.reg.t0 x.reg.period.toNat x.reg.tat g.e) ∧
      (t.blk.slot n).sense = (!a.sense) ∧ (∀ k, k ≠ c → t.blk.ctx k = s.blk.ctx k) ∧ t.blk.dist = s.blk.dist ∧
      t.pending = s.pending) ∧
  (∀ (n : Nat) (h : Hdr) (a : BarAddr) (v : BitVec 32) (pt : TakeMsg) (pda tag : BitVec 16) (s : State), n < 288 →
    s.blk.rxOk (.dist n) h 2 1 false = true → s.blk.barOk a h.w 2 = true →
    let b := s.blk.rxBook (.dist n) h 2
    let i := a.hbid.toNat
    let x := s.blk.hbar i
    (s.blk.isHome a.scope = false →
      exec (.signalReceive n h a v) s = .next { s with blk := b.sendUp h.w (.signal a v) } ∧
      exec (.takeReceive n h a pt) s = .next { s with blk := b.sendUp h.w (.take a pt) } ∧
      exec (.cancelReceive n h a pda tag) s = .next { s with blk := b.sendUp h.w (.cancel a pda tag) }) ∧
    (s.blk.isHome a.scope = true →
      (x.takes = [] → exec (.signalReceive n h a v) s = .next { s with blk := b.mHbar i fun x =>
        { x with c0 := min (x.c0 + v.toNat) 0xFFFFF, sat0 := x.sat0 || decide (0xFFFFF < x.c0 + v.toNat) } }) ∧
      (x.takes = [] → pt.count.toNat ≤ x.c0 → exec (.takeReceive n h a pt) s = .next { s with
        blk := (b.mHbar i fun x => { x with c0 := x.c0 - pt.count.toNat }).takeRespDown a h.w
          ⟨pt.pda, pt.tag, 0x00, pt.count⟩ }) ∧
      (x.c0 < pt.count.toNat → pt.nowait = true → exec (.takeReceive n h a pt) s = .next { s with
        blk := b.takeRespDown a h.w ⟨pt.pda, pt.tag, 0x03, 0⟩ }) ∧
      (x.c0 < pt.count.toNat → pt.nowait = false → x.takes.length < 256 → exec (.takeReceive n h a pt) s = .next { s with
        blk := b.mHbar i fun x => { x with takes := x.takes ++ [⟨pt.pda, pt.tag, pt.count.toNat, h.w⟩] } }) ∧
      (x.c0 < pt.count.toNat → pt.nowait = false → 256 ≤ x.takes.length → exec (.takeReceive n h a pt) s = .next { s with
        blk := (b.mObjs fun o => { o with semRefused := sat1 o.semRefused }).takeRespDown a h.w ⟨pt.pda, pt.tag, 0x02, 0⟩ }) ∧
      ((x.takes.filter fun t => !(t.pda == pda && t.tag == tag)) = [] →
        exec (.cancelReceive n h a pda tag) s = .next { s with blk := b.mHbar i fun x => { x with takes := [] } }))) ∧
  (∀ (n : Nat) (h : Hdr) (a : BarAddr) (r : TakeResp) (s : State), 288 ≤ n → n < 312 →
    s.blk.rxOk (.dist n) h 2 1 false = true → s.blk.barOk a h.w 2 = true →
    exec (.takeRespReceive (.dist n) h a r) s = .next { s with
      blk := (s.blk.rxBook (.dist n) h 2).takeRespDown a h.w r }) ∧
  (∀ (p : Plane) (h : Hdr) (a : BarAddr) (r : TakeResp) (s : State), s.blk.rxOk (.tsu p) h 2 1 false = true →
    (s.blk.wslot r.tag.toNat).op = none → exec (.takeRespReceive (.tsu p) h a r) s = .next { s with
      blk := if r.status = 0x00 then ((s.blk.rxBook (.tsu p) h 2).mBar fun z => { z with semRet := sat1 z.semRet }).send
        (.tsu p) h.w (.signal a r.count) else s.blk.rxBook (.tsu p) h 2 }) ∧
  (∀ (p : Plane) (h : Hdr) (a : BarAddr) (r : TakeResp) (o : WOp) (n : Nat) (s : State),
    s.blk.rxOk (.tsu p) h 2 1 false = true → r.tag.toNat < 512 → (s.blk.wslot r.tag.toNat).op = some o → o.space = 2 →
    o.op = 0xC → o.held = false → o.slot = some n → (s.blk.slotsAt 2 a).contains n = true →
    exec (.takeRespReceive (.tsu p) h a r) s = .next { s with
      blk := (s.blk.rxBook (.tsu p) h 2).wsDone r.tag.toNat { status := r.status, count := r.count.setWidth 20 } })

/-- R190, R205, R207, R215, R219 to R221, R225, R441. Collective objects: a contribution that comes first opens its operation and
waits for the other parties, ABSENT lists what is missing, a frame past the cut or for no object is counted and dropped,
KDOWN and RESULT go down to the group; at a TSU KDOWN begins phase 2 and an OK RESULT is delivered. -/
def Obligations.HallCollectives : Prop :=
  (∀ (l : Nat) (h : Hdr) (a : CollAddr) (p : Contrib) (s : State), l < 288 →
    s.blk.rxOk (.dist l) h 3 (opFeature p.op.toNat) false = true →
    let b := s.blk.rxBook (.dist l) h 3
    let n := a.cobj.toNat
    let home := s.blk.isHome (s.blk.cobj n).scope
    (s.blk.cobjOk a p.scope h.w = false →
      exec (.contribReceive l h a p) s = .next { s with blk := b.mObjs fun o => { o with dropCount := sat1 o.dropCount } } ∧
      exec (.ssum2Receive l h a p) s = .next { s with blk := b.mObjs fun o => { o with dropCount := sat1 o.dropCount } }) ∧
    (s.blk.cobjOk a p.scope h.w = true → s.blk.pastCut home false p.deadline = true →
      exec (.contribReceive l h a p) s = .next { s with blk := b.mObjs fun o => { o with lateCount := sat1 o.lateCount } }) ∧
    (s.blk.cobjOk a p.scope h.w = true → s.blk.pastCut home true p.deadline = true →
      exec (.ssum2Receive l h a p) s = .next { s with blk := b.mObjs fun o => { o with lateCount := sat1 o.lateCount } }) ∧
    (∀ (rs : List CRec) (k : Nat), s.blk.cobjOk a p.scope h.w = true → s.blk.pastCut home false p.deadline = false →
      (s.blk.cobj n).ops = [] → a.group = (s.blk.cobj n).group → crc32c p.recs = p.ccrc → p.last = true → p.raw = false →
      p.missing = [] → p.nmiss = 0 → p.op.toNat ≠ 5 →
      decRecs (fun _ => recKind p.op.toNat) (fmtD p.fmt.toNat).width p.nel.toNat p.first.toNat p.recs = some rs →
      (s.blk.cobjPorts n).contains k = true → k ≠ s.blk.childOf l → s.blk.dist.boot.fencedPorts = [] →
      p.npres.toNat < (s.blk.cobj n).expect.toNat →
      ∃ t o, exec (.contribReceive l h a p) s = .next t ∧ (t.blk.cobj n).ops = [o] ∧ o.seq = a.seq ∧ o.recs = some rs ∧
        o.npres = p.npres.toNat ∧ o.missing = [] ∧ o.sent = false ∧ (o.kid (s.blk.childOf l)).last = true ∧
        (∀ j, j ≠ n → t.blk.cobj j = s.blk.cobj j) ∧ t.blk.dist.lanes = b.dist.lanes ∧ t.blk.tsu = s.blk.tsu ∧
        t.blk.out = s.blk.out ∧ t.pending = s.pending) ∧
    (∀ (rs : List CRec) (k : Nat) (o : COp), s.blk.cobjOk a p.scope h.w = true → s.blk.pastCut home true p.deadline = false →
      (s.blk.cobj n).ops = [o] → o.seq = a.seq → o.phase2 = true → o.sent = false → o.recs = none →
      (o.kid (s.blk.childOf l)) = {} → sameOp p o.hdr = true → a.group = (s.blk.cobj n).group → crc32c p.recs = p.ccrc →
      p.last = true → p.raw = false → p.missing = [] → p.nmiss = 0 →
      decRecs (fun _ => RecKind.sum) (fmtD p.fmt.toNat).width p.nel.toNat p.first.toNat p.recs = some rs →
      (s.blk.cobjPorts n).contains k = true → k ≠ s.blk.childOf l → (o.kid k).last = false →
      o.npres + p.npres.toNat < (s.blk.cobj n).expect.toNat →
      ∃ t o2, exec (.ssum2Receive l h a p) s = .next t ∧ (t.blk.cobj n).ops = [o2] ∧ o2.recs = some rs ∧
        o2.npres = o.npres + p.npres.toNat ∧ (o2.kid (s.blk.childOf l)).last = true ∧ o2.one = o.one ∧
        (∀ j, j ≠ n → t.blk.cobj j = s.blk.cobj j) ∧ t.blk.tsu = s.blk.tsu ∧ t.blk.out = s.blk.out ∧
        t.pending = s.pending)) ∧
  (∀ (l : Nat) (h : Hdr) (a : CollAddr) (p : Contrib) (s : State), l < 288 → s.blk.rxOk (.dist l) h 3 2 false = true →
    let n := a.cobj.toNat
    s.blk.cobjOk a p.scope h.w = true → s.blk.pastCut (s.blk.isHome (s.blk.cobj n).scope) false p.deadline = false →
    (s.blk.cobj n).ops = [] → a.group = (s.blk.cobj n).group → p.raw = false → s.blk.dist.boot.fencedPorts = [] →
    ∃ t o, exec (.absentReceive l h a p) s = .next t ∧ (t.blk.cobj n).ops = [o] ∧ o.seq = a.seq ∧ o.recs = none ∧
      o.npres = 0 ∧ o.nmiss = p.nmiss.toNat ∧ o.missing = addMiss [] p.missing ∧ (o.kid (s.blk.childOf l)).gone = true ∧
      (∀ j, j ≠ n → t.blk.cobj j = s.blk.cobj j) ∧ t.blk.tsu = s.blk.tsu ∧ t.blk.out = s.blk.out ∧ t.pending = s.pending) ∧
  (∀ (k : BitVec 14) (seq : BitVec 16) (o : COp) (s : State), s.blk.cop k.toNat seq = some o →
    let n := k.toNat
    let home := s.blk.isHome (s.blk.cobj n).scope
    (Tick.le (s.blk.dCut home o.phase2 o.hdr.deadline) s.blk.dist.time.tc64 = false →
      exec (.collCut (.dist k seq)) s = .next s) ∧
    (Tick.le (s.blk.dCut home o.phase2 o.hdr.deadline) s.blk.dist.time.tc64 = true → o.sent = false →
      let o2 := (s.blk.cobjPorts n).foldl (fun o c => if (o.kid c).last then o else o.missKid c (s.blk.missEntry c)) o
      exec (.collCut (.dist k seq)) s = .next { s with
        blk := if home then (s.blk.mCop n seq fun _ => o2).copEnd n o2 else (s.blk.mCop n seq fun _ => o2).copUp n o2 })) ∧
  (∀ (k : BitVec 4) (s : State), (s.blk.collSlot k.toNat).st = .gather → (s.blk.collSlot k.toNat).desc.scope = 0 →
    (s.blk.collSlot k.toNat).srcs.contains .wait = true →
    (Tick.le (s.blk.collSlot k.toNat).desc.deadline s.blk.tsu.time.tc64 = false → exec (.collCut (.tsu k)) s = .next s) ∧
    (Tick.le (s.blk.collSlot k.toNat).desc.deadline s.blk.tsu.time.tc64 = true →
      ∃ t, exec (.collCut (.tsu k)) s = .next t ∧ (t.blk.collSlot k.toNat).st = .output ∧
        (t.blk.collSlot k.toNat).fin = { code := 1, flags := 0, nmiss := 1, nempty := 0, npres := 0 } ∧
        (∀ j, j ≠ k.toNat → t.blk.collSlot j = s.blk.collSlot j) ∧ t.blk.dist = s.blk.dist ∧ t.pending = s.pending)) ∧
  (∀ (l : Nat) (h : Hdr) (a : CollAddr) (p : Contrib) (r : CollResult) (s : State), 288 ≤ l → l < 312 →
    s.blk.cop a.cobj.toNat a.seq = none →
    let down (c : Contrib) (b : Block) : Block :=
      if crc32c c.recs != c.ccrc then b.mObjs fun o => { o with ccrcErr := sat1 o.ccrcErr } else b
    (s.blk.rxOk (.dist l) h 3 (opFeature p.op.toNat) false = true → s.blk.cobjOk a p.scope h.w = true →
      exec (.kdownReceive (.dist l) h a p) s = .next { s with
        blk := (down p (s.blk.rxBook (.dist l) h 3)).sendGroup a.group.toNat h.w (.kdown a p) }) ∧
    (s.blk.rxOk (.dist l) h 3 (opFeature r.c.op.toNat) false = true → s.blk.cobjOk a r.c.scope h.w = true →
      exec (.resultReceive (.dist l) h a r) s = .next { s with
        blk := (down r.c (s.blk.rxBook (.dist l) h 3)).sendGroup a.group.toNat h.w (.result a r) })) ∧
  (∀ (pl : Plane) (h : Hdr) (a : CollAddr) (p : Contrib) (r : CollResult) (s : State), s.blk.collFind a = none →
    (s.blk.rxOk (.tsu pl) h 3 (opFeature p.op.toNat) false = true →
      exec (.kdownReceive (.tsu pl) h a p) s = .next { s with blk := s.blk.rxBook (.tsu pl) h 3 }) ∧
    (s.blk.rxOk (.tsu pl) h 3 (opFeature r.c.op.toNat) false = true →
      exec (.resultReceive (.tsu pl) h a r) s = .next { s with blk := s.blk.rxBook (.tsu pl) h 3 })) ∧
  (∀ (pl : Plane) (h : Hdr) (a : CollAddr) (p : Contrib) (n : Nat) (s : State), s.blk.collFind a = some n →
    s.blk.rxOk (.tsu pl) h 3 (opFeature p.op.toNat) false = true →
    let x := s.blk.collSlot n
    x.uses pl = true → x.desc.op = 6 → crc32c p.recs = p.ccrc → p.last = true → x.kdown = none → x.kdA = [] → x.kdB = [] →
    x.kbadA = false → x.kbadB = false → x.st = .sent → x.whole = true →
    ∃ t, exec (.kdownReceive (.tsu pl) h a p) s = .next t ∧ (t.blk.collSlot n).kdown = some (ksOfFrame p) ∧
      (t.blk.collSlot n).st = .phase2 ∧ (∀ j, j ≠ n → t.blk.collSlot j = s.blk.collSlot j) ∧
      t.blk.tsu.coll.diff = s.blk.tsu.coll.diff ∧ t.blk.tsu.ctxs = s.blk.tsu.ctxs ∧ t.blk.dist = s.blk.dist ∧
      t.pending = s.pending) ∧
  (∀ (pl : Plane) (h : Hdr) (a : CollAddr) (p : CollResult) (n : Nat) (rs : List CRec) (s : State),
    s.blk.collFind a = some n → s.blk.rxOk (.tsu pl) h 3 (opFeature p.c.op.toNat) false = true →
    let x := s.blk.collSlot n
    x.uses pl = true → crc32c p.c.recs = p.c.ccrc → x.st.awaits = true → p.rcode = 0 → p.c.last = true → x.acc pl = {} →
    s.blk.rcode n a p = p → p.c.op.toNat = x.desc.op → p.c.fmt.toNat = x.desc.fmt → x.desc.permEn = false →
    decRecs (resKind x.desc.op x.desc.vl) (fmtD x.desc.fmt).width p.c.nel.toNat p.c.first.toNat p.c.recs = some rs →
    ∃ t, exec (.resultReceive (.tsu pl) h a p) s = .next t ∧ (t.blk.collSlot n).st = .output ∧
      (t.blk.collSlot n).fin.code = 0 ∧ (t.blk.collSlot n).fin.npres = p.c.npres ∧ (t.blk.collSlot n).desc = x.desc ∧
      (∀ j, j ≠ n → t.blk.collSlot j = s.blk.collSlot j) ∧ t.blk.tsu.ctxs = s.blk.tsu.ctxs ∧ t.blk.dist = s.blk.dist ∧
      t.pending = s.pending)

/-- R277, R279, R287 to R293, R363, R406, R407, R410. The data mover: what each write of a channel's control register and each
answer of the host fabric changes in the channel, before the engines run as far as they can. A channel that is not in
HALT_ERR takes no RESTART, SKIP or ABORT. -/
def Obligations.DataMover : Prop :=
  (∀ (a : Access) (k : BitVec 3) (s : State),
    s.blk.check (portReq a) (0xA108 + 0x100 * k.toNat)
      (worldOk (portReq a) (s.blk.ctxWorld (s.blk.dmCh k.toNat).ctx.toNat)) = .ok →
    let n := k.toNat
    let c := s.blk.dmCh n
    let runs (b : Block) : Host.Outcome State Fault Refusal := .next { s with blk := b.dmGo.emit (.reg none 0 0) }
    exec (.dmEnable a k) s = runs (s.blk.mDmCh n fun c =>
      if c.st = .stopping ∨ c.st = .off ∧ s.blk.tsu.boot.inCloak then { c with enPend := true }
      else if c.st = .off then { c with st := if c.pause then .paused else .idle } else c) ∧
    (c.st = .off ∨ c.st = .stopping → exec (.dmDisable a k) s = runs (s.blk.mDmCh n fun c => { c with enPend := false })) ∧
    (c.st ≠ .off → c.st ≠ .stopping → c.st ≠ .haltErr → exec (.dmDisable a k) s = runs (s.blk.mDmCh n fun c =>
      { c with enPend := false, st := .stopping, poll := none })) ∧
    (c.st = .haltErr → exec (.dmDisable a k) s = runs (s.blk.mDmCh n fun c => { c with
      enPend := false, st := .off, step := .none, cur := {}, shadow := {}, shadowValid := false, rd := 0, hold := [], hb := 0
      wr := 0, acked := 0, fetch := false, poll := none, kick := false, errAt := none })) ∧
    exec (.dmLoad a k) s = runs (s.blk.mDmCh n fun c =>
      if c.ring = true ∨ c.shadowValid = true then { c with loadLost := true } else { c with shadowValid := true }) ∧
    exec (.dmKick a k) s = runs (s.blk.mDmCh n fun c =>
      if c.ring = false then c else if c.fetch then { c with kick := true } else { c with poll := none }) ∧
    (c.errAt = none → exec (.dmPause a k) s = runs (s.blk.mDmCh n fun c => { c with
      pause := true, st := if c.st = .run then .pausing else if c.st = .idle then .paused else c.st })) ∧
    (c.errAt.isSome = true → exec (.dmPause a k) s = runs (s.blk.mDmCh n fun c => { c with pause := true })) ∧
    exec (.dmResume a k) s = runs (s.blk.mDmCh n fun c => { c with
      pause := false
      st := if c.st = .pausing then .run else if c.st = .paused then (if c.step = .none then .idle else .run) else c.st }) ∧
    (c.st ≠ .haltErr → exec (.dmRestart a k) s = runs s.blk ∧ exec (.dmSkip a k) s = runs s.blk ∧
      exec (.dmAbort a k) s = runs s.blk) ∧
    (c.st = .haltErr → c.step = .move → c.pause = false →
      exec (.dmRestart a k) s = runs (s.blk.mDmCh n fun c => { c with errAt := none, errValid := false, st := .run }) ∧
      (c.ring = false →
        exec (.dmSkip a k) s = runs (s.blk.mDmCh n fun c => { c with
          errAt := none, errValid := false, st := .run, code := 2, err := c.errCode.setWidth 8, step := .none
          doneCnt := sat1 c.doneCnt, done := c.done || c.cur.irq }) ∧
        exec (.dmAbort a k) s = runs (s.blk.mDmCh n fun c => { c with
          errAt := none, errValid := false, shadowValid := false, st := .run, code := 3, err := c.errCode.setWidth 8
          step := .none, doneCnt := sat1 c.doneCnt, done := c.done || c.cur.irq })))) ∧
  (∀ (k : BitVec 3) (resp : BitVec 2) (d : Bytes) (s : State),
    let n := k.toNat
    let c := s.blk.dmCh n
    (c.fetch = true → resp = 0 → c.st ≠ .stopping → (d.getD 63 0).getLsbD 7 = true →
      exec (.dmDescFetchDone k resp d) s = .next { s with blk := (s.blk.mDmCh n fun c => { c with
        fetch := false, kick := false, shadow := dmSetOf d, shadowValid := true, entryS := c.head
        head := c.next c.head }).dmGo }) ∧
    (c.fetch = true → c.kick = false → resp = 0 → c.st ≠ .stopping → (d.getD 63 0).getLsbD 7 = false →
      exec (.dmDescFetchDone k resp d) s = .next { s with blk := (s.blk.mDmCh n fun c => { c with
        fetch := false, kick := false
        poll := some (s.blk.tsu.time.tc64 + s.blk.tsu.dm.pollInt.setWidth 64) }).dmGo }) ∧
    (∀ t, c.poll = some t → Tick.le t s.blk.tsu.time.tc64 = true → exec (.dmPollExpire k) s = .next { s with
      blk := (s.blk.mDmCh n fun c => { c with poll := none }).dmGo }) ∧
    (c.poll = none → exec (.dmPollExpire k) s = .next s) ∧
    (∀ i rest, c.lostRds = 0 → c.rds = i :: rest → c.errAt = none → resp = 0 →
      exec (.dmReadData k resp d) s = .next { s with blk := (s.blk.mDmCh n fun c =>
        ({ c with rds := rest } : DmCh).take (slice d 0 c.cur.srcSide.width)).dmGo }) ∧
    (∀ i rest, c.lostRds = 0 → c.rds = i :: rest → c.errAt = none → c.st ≠ .stopping → resp ≠ 0 →
      exec (.dmReadData k resp d) s = .next { s with blk := (s.blk.mDmCh n fun c => { c with
        rds := rest, errCnt := sat1 c.errCnt, errAt := some i, errDir := false, errSrc := false
        errCode := resp.setWidth 3, errAddr := c.cur.srcSide.addr i, errValid := true, halted := true }).dmGo }) ∧
    (∀ i rest, c.lostAcks = 0 → c.wrs = .unit i :: rest → resp = 0 → exec (.dmWriteAck k resp) s = .next { s with
      blk := (s.blk.mDmCh n fun c => { c with wrs := rest, acked := i + c.cur.dstSide.width }).dmGo }) ∧
    (∀ rest, c.lostAcks = 0 → c.wrs = .own :: rest → resp = 0 → c.code ≠ 3 → exec (.dmWriteAck k resp) s = .next { s with
      blk := (s.blk.mDmCh n fun c => { c with
        wrs := rest, step := .none, doneCnt := sat1 c.doneCnt, done := c.done || c.cur.irq }).dmGo }) ∧
    (0 < c.lostAcks → exec (.dmWriteAck k resp) s = .next { s with
      blk := ((s.blk.mDmCh n fun c => { c with lostAcks := c.lostAcks - 1 }).mBoot fun t => { t with lostAck := true }).dmGo }) ∧
    (c.errAt = none → exec (.dmHaltDrained k) s = .next s) ∧
    (∀ i, c.errAt = some i → c.st ≠ .stopping → c.st ≠ .haltErr → c.drained = true → s.blk.dmCanWrite n = false →
      c.step = .move → c.errSrc = false → c.errDir = false → exec (.dmHaltDrained k) s = .next { s with
        blk := s.blk.mDmCh n fun c => { c with st := .haltErr, rd := if i < c.rd then i else c.rd } }))

/-- R162 to R164, R346. ENGINE on demand and tagged memory: a demand requests ENGINE, its first cycle takes up what was held,
the lead of an armed launch is a demand, ENG_IDLE stops it; initialisation and a scrub leave every word of their regions DATA
0 and EMPTY with W of the region's world. -/
def Obligations.EngineAndTaggedMemory : Prop :=
  (∀ s : State, s.blk.live = true → s.blk.tsu.pwr.st = .idle → s.blk.tsu.pwr.on.engine = false →
    s.blk.tsu.pwr.ack.engine = false → exec .engineDemand s = .next { s with blk := s.blk.mPwr fun p => { p with
      demandAt := s.blk.tsu.time.tc64, engWanted := true, req := { p.req with engine := true } } }) ∧
  (∀ s : State, s.blk.live = true → s.blk.tsu.pwr.on.engine = true → exec .engineDemand s = .next { s with
    blk := s.blk.mPwr fun p => { p with demandAt := s.blk.tsu.time.tc64 } }) ∧
  (∀ s : State, s.blk.live = true → s.blk.tsu.pwr.st = .idle → s.blk.tsu.pwr.on.engine = false →
    s.blk.tsu.pwr.on.mem = true → s.blk.tsu.pwr.req.engine = true → s.blk.tsu.pwr.ack.engine = true →
    exec .engineStarted s = .next { s with blk := (s.blk.mPwr fun p => { p with
      on := { p.on with engine := true }, st := .on, engStarts := sat1 p.engStarts, engWanted := false
      demandAt := s.blk.tsu.time.tc64 }).runHeld }) ∧
  (∀ (c : Ctx6) (m : ArmMsg) (s : State), s.blk.live = true → (s.blk.ctx c.toNat).st = .armed →
    (s.blk.ctx c.toNat).arm = some m →
    let lead := max 2500 s.blk.tsu.pwr.engLead.toNat
    (Tick.le (m.tStart - BitVec.ofNat 64 lead) s.blk.tsu.time.tc64 = true →
      exec (.engLeadExpire c) s = .next { s with blk := s.blk.demand }) ∧
    (Tick.le (m.tStart - BitVec.ofNat 64 lead) s.blk.tsu.time.tc64 = false → exec (.engLeadExpire c) s = .next s)) ∧
  (∀ s : State, s.blk.live = true → s.blk.tsu.pwr.st = .on → s.blk.tsu.pwr.on.engine = true →
    (s.blk.tsu.pwr.engAuto = true → s.blk.engBusy = false → s.blk.anyRuns = false →
      (s.blk.tsu.pwr.engIdle.toNat : Int) ≤ Tick.diff s.blk.tsu.time.tc64 s.blk.tsu.pwr.demandAt →
      exec .engIdleExpire s = .next { s with blk := s.blk.mPwr fun p => { p with
        on := { p.on with engine := false }, req := { p.req with engine := false }, st := .idle } }) ∧
    (s.blk.anyRuns = true ∨ s.blk.tsu.pwr.engAuto = false → exec .engIdleExpire s = .next s)) ∧
  (∀ s : State, s.blk.live = true → s.blk.tsu.pwr.on.mem = true → s.blk.tsu.tm.initDone = false →
    s.blk.tsu.boot.fuseBusy = false → s.blk.engOn = false →
    ∃ t, exec .tmInitDone s = .next t ∧ t.blk.tsu.tm.initDone = true ∧
      (∀ n, n < 524288 → (t.blk.tsu.tm.get n).data = 0 ∧ (t.blk.tsu.tm.get n).fe = false ∧
        (t.blk.tsu.tm.get n).w = s.blk.tsu.gnt.tmw.getLsbD (n / 8192)) ∧
      t.blk.tsu.gnt = s.blk.tsu.gnt ∧ t.blk.dist = s.blk.dist ∧ t.pending = s.pending) ∧
  (∀ (a : Access) (r : BitVec 6) (s : State), s.blk.check (portReq a) 0x7008 true = .ok →
    (worldOk (portReq a) (s.blk.tsu.gnt.tmw.getLsbD r.toNat) = true → exec (.tmScrubStart a r) s = .next { s with
      blk := (s.blk.mTm fun m => { m with
        scrubSel := r, scrub := if m.scrub.isSome then m.scrub else some r }).emit (.reg none 0 0) }) ∧
    (worldOk (portReq a) (s.blk.tsu.gnt.tmw.getLsbD r.toNat) = false → exec (.tmScrubStart a r) s = .next { s with
      blk := (s.blk.violate 0 (portReq a) true 0x7008).emit (.reg none 0 0) })) ∧
  (∀ (r : BitVec 6) (s : State), s.blk.tsu.tm.scrub = some r → s.blk.live = true → s.blk.tsu.pwr.on.mem = true →
    s.blk.tsu.held = [] → (∀ e ∈ s.blk.tsu.ws, e.2.op = none) → s.blk.engOn = false →
    ∃ t, exec .tmScrubDone s = .next t ∧ t.blk.tsu.tm.scrub = none ∧
      (∀ n, n / 8192 = r.toNat → (t.blk.tsu.tm.get n).data = 0 ∧ (t.blk.tsu.tm.get n).fe = false ∧
        (t.blk.tsu.tm.get n).w = s.blk.tsu.gnt.tmw.getLsbD r.toNat) ∧
      (∀ n, n / 8192 ≠ r.toNat → t.blk.tsu.tm.get n = s.blk.tsu.tm.get n) ∧ t.blk.tsu.ctxs = s.blk.tsu.ctxs ∧
      t.blk.dist = s.blk.dist ∧ t.pending = s.pending)

/-- R253 to R264, R267, R268, R393. Hall memory. The owner performs a request on its word and answers, keeps one that has to
wait, and answers DENIED, NOPATH or TIMEOUT; other distributors pass requests and responses on; the TSU completes the
operation that a response names, or counts an orphan; a scrub and the self-test clear words. -/
def Obligations.HallMemory : Prop :=
  (∀ (l : Nat) (h : Hdr) (p : HReq) (s : State), l < 312 → s.blk.rxOk (.dist l) h 4 10 false = true →
    let b := s.blk.rxBook (.dist l) h 4
    let n := (p.ha.extractLsb' 0 27).toNat
    let rg := s.blk.hm.region (n / 98304)
    let w := s.blk.hm.get n
    let resp (st : Byte) : HResp := ⟨p.pda, p.tag, st, false, false, false, false, 0⟩
    let now := p.nowait || p.tag.extractLsb' 12 4 != 0
    (s.blk.hmWay p.ha = .here → s.blk.dist.boot.hmReady = false →
      exec (.hreqReceive (.dist l) h p) s = .next { s with blk := b.hrespSend h.w (resp 0x0C) }) ∧
    (s.blk.hmWay p.ha = .here → s.blk.dist.boot.hmReady = true → n < 100663296 →
      s.blk.hm.scrub.contains (n / 98304) = true →
      exec (.hreqReceive (.dist l) h p) s = .next { s with blk := b.mHm fun m => { m with held := m.held ++ [⟨p, h.w⟩] } }) ∧
    (s.blk.hmWay p.ha = .here → s.blk.dist.boot.hmReady = true → n < 100663296 →
      s.blk.hm.scrub.contains (n / 98304) = false → s.blk.hm.waits = [] →
      (h.w = false → rg.world = true → exec (.hreqReceive (.dist l) h p) s = .next { s with
        blk := (b.mHm fun m => { m with denied := sat1 m.denied }).hrespSend h.w (resp 0x05) }) ∧
      (rg.ledger = true → p.lcap = false → (h.w = true ∨ rg.world = false) →
        exec (.hreqReceive (.dist l) h p) s = .next { s with blk := b.hrespSend h.w (resp 0x0B) }) ∧
      (rg.ledger = false → w.ecc = .good → s.blk.hmBadRow n = false → (h.w = true ∨ rg.world = false ∧ w.w = false) →
        (∀ r x, wordOp p.op.toNat p.wdata (!now) rg.world w = some (r, x) →
          exec (.hreqReceive (.dist l) h p) s = .next { s with
            blk := (b.mHm fun m => m.set n x).hrespSend h.w
              ⟨p.pda, p.tag, r.status, r.full, r.w, r.sat, false, r.rdata⟩ }) ∧
        (wordOp p.op.toNat p.wdata (!now) rg.world w = none → exec (.hreqReceive (.dist l) h p) s = .next { s with
          blk := b.mHm fun m => { m with waits := [⟨p, h.w⟩] } }))) ∧
    (∀ k, s.blk.hmWay p.ha ≠ .here → s.blk.hmLane p.ha = some k → (s.blk.lane (.dist k)).reg.featEff.getLsbD 10 = true →
      exec (.hreqReceive (.dist l) h p) s = .next { s with
        blk := b.send (.dist k) h.w
          (.hreq { p with lcap := p.lcap && (s.blk.lane (.dist k)).reg.featEff.getLsbD 17 }) }) ∧
    (s.blk.hmWay p.ha ≠ .here → s.blk.hmLane p.ha = none →
      exec (.hreqReceive (.dist l) h p) s = .next { s with blk := b.hrespSend h.w (resp 0x0C) })) ∧
  (∀ (l : Nat) (h : Hdr) (ha : BitVec 39) (pda tag : BitVec 16) (r : HResp) (s : State), l < 312 →
    s.blk.rxOk (.dist l) h 4 10 false = true →
    let b := s.blk.rxBook (.dist l) h 4
    let out (q : HWait) : Bool := !(q.p.pda == pda && q.p.tag == tag && q.p.ha == ha)
    (s.blk.hmWay ha = .here → exec (.hcancelReceive (.dist l) h ha pda tag) s = .next { s with
      blk := b.mHm fun m => { m with waits := m.waits.filter out, held := m.held.filter out } }) ∧
    (∀ k, s.blk.hmWay ha ≠ .here → s.blk.hmLane ha = some k → exec (.hcancelReceive (.dist l) h ha pda tag) s = .next { s with
      blk := b.send (.dist k) h.w (.hcancel ha pda tag) }) ∧
    exec (.hrespReceive (.dist l) h r) s = .next { s with blk := b.hrespSend h.w r }) ∧
  (∀ (pl : Plane) (h : Hdr) (p : HReq) (ha : BitVec 39) (pda tag : BitVec 16) (s : State),
    s.blk.rxOk (.tsu pl) h 4 10 false = true →
    exec (.hreqReceive (.tsu pl) h p) s = .next { s with blk := s.blk.rxBook (.tsu pl) h 4 } ∧
    exec (.hcancelReceive (.tsu pl) h ha pda tag) s = .next { s with blk := s.blk.rxBook (.tsu pl) h 4 }) ∧
  (∀ (pda tag : BitVec 16) (q : HWait) (s : State),
    (s.blk.hm.waits.find? fun q => q.p.pda == pda && q.p.tag == tag) = some q →
    (Tick.le q.p.x s.blk.dist.time.tc64 = true → exec (.hreqExpiry pda tag) s = .next { s with
      blk := (s.blk.mHm fun m => { m with waits := m.waits.filter fun x => x != q }).hrespSend q.w
        ⟨pda, tag, 0x01, false, false, false, false, 0⟩ }) ∧
    (Tick.le q.p.x s.blk.dist.time.tc64 = false → exec (.hreqExpiry pda tag) s = .next s)) ∧
  (∀ (pl : Plane) (h : Hdr) (r : HResp) (s : State), s.blk.rxOk (.tsu pl) h 4 10 false = true →
    let b := s.blk.rxBook (.tsu pl) h 4
    (∀ (g : HOut) (i : Nat), (s.blk.tsu.hall.out.find? fun x => x.tag == r.tag) = some g → hallSrc g.tag = .slot i →
      r.status ≠ 0x0C → exec (.hrespReceive (.tsu pl) h r) s = .next { s with
        blk := (b.mHall fun x => { x with out := x.out.eraseP fun y => y.tag == r.tag }).wsDone i (hrespRes g.op r) }) ∧
    ((s.blk.tsu.hall.out.find? fun x => x.tag == r.tag) = none → (s.blk.tsu.hall.gone.find? fun x => x.tag == r.tag) = none →
      exec (.hrespReceive (.tsu pl) h r) s = .next { s with
        blk := b.mHall fun x => { x with orphanCnt := sat1 x.orphanCnt } })) ∧
  (∀ (tag : BitVec 16) (g : HOut) (i : Nat) (s : State), (s.blk.tsu.hall.out.find? fun x => x.tag == tag) = some g →
    hallSrc g.tag = .slot i →
    let x := g.x + s.blk.tsu.hall.grace.setWidth 64
    (Tick.le x s.blk.tsu.time.tc64 = false → exec (.hmGraceExpire tag) s = .next s) ∧
    (Tick.le x s.blk.tsu.time.tc64 = true → exec (.hmGraceExpire tag) s = .next { s with
      blk := (s.blk.mHall fun y => { y with
        out := y.out.eraseP fun z => z.tag == tag, gone := y.gone ++ [g], nopath := sat1 y.nopath }).wsDone i
          { status := 0x0C } })) ∧
  (∀ (r : BitVec 10) (s : State), s.blk.hm.waits = [] → s.blk.hm.held = [] →
    (s.blk.hm.scrub.contains r.toNat = false → exec (.hmemScrubDone r) s = .next s) ∧
    (s.blk.hm.scrub.contains r.toNat = true → ∃ t, exec (.hmemScrubDone r) s = .next t ∧
      t.blk.hm.scrub = s.blk.hm.scrub.filter (fun x => x != r.toNat) ∧
      (∀ n, n / 98304 = r.toNat → (t.blk.hm.get n).data = 0 ∧ (t.blk.hm.get n).fe = false ∧
        (t.blk.hm.get n).w = (s.blk.hm.region r.toNat).world) ∧
      (∀ n, n / 98304 ≠ r.toNat → t.blk.hm.get n = s.blk.hm.get n) ∧ t.blk.tsu = s.blk.tsu ∧
      t.blk.dist.lanes = s.blk.dist.lanes ∧ t.blk.out = s.blk.out ∧ t.pending = s.pending)) ∧
  (∀ s : State, s.blk.dist.mod.powered = true → s.blk.dist.boot.fuseDone = true → s.blk.dist.boot.hmReady = false →
    ∃ t, exec (.hmemSelftestDone []) s = .next t ∧
      t.blk.dist.boot = { s.blk.dist.boot with hmUnrepaired := [], hmReady := true } ∧
      (∀ n, (t.blk.hm.get n).data = 0 ∧ (t.blk.hm.get n).fe = false) ∧ t.blk.tsu = s.blk.tsu ∧ t.blk.out = s.blk.out ∧
      t.pending = s.pending)

/-- R411 to R419. Image delivery at a target TSU: START begins a delivery, blocks are written to img.buf, END and the timers
ask for what is missing, the image read back is confirmed or refused with its reason, COMMIT, activation at T_ACT and
ROLLBACK. -/
def Obligations.ImageTargets : Prop :=
  (∀ (p : Plane) (h : Hdr) (a : ImgAddr) (m : ImgStart) (s : State), s.blk.rxOk (.tsu p) h 6 3 false = true →
    let b := s.blk.rxBook (.tsu p) h 6
    (m.target ≠ 0 → exec (.imgStartReceive (.tsu p) h a m) s = .next { s with blk := b }) ∧
    (m.target = 0 → s.blk.tsu.img.st = 0 → s.blk.tsu.img.untaken = false → imgTakes .tsu m.itype.toNat = true →
      s.blk.catNat .tsu 0x7201 2 ≠ 0 → m.total.toNat ≤ s.blk.catNat .tsu 0x7201 2 → m.nblk ≠ 0 →
      exec (.imgStartReceive (.tsu p) h a m) s = .next { s with
        blk := b.mImg .tsu fun x =>
        { ih := a.ih, group := a.group, start := m, st := 1, startAt := s.blk.tsu.time.tc64, planeA := p == .A
          planeB := p == .B, dropped := x.dropped, next := x.next, prev := x.prev, taken := x.taken
          untaken := x.untaken } })) ∧
  (∀ (p : Plane) (h : Hdr) (a : ImgAddr) (d : Bytes) (s : State), s.blk.rxOk (.tsu p) h 6 3 false = true →
    let b := s.blk.rxBook (.tsu p) h 6
    let x := s.blk.tsu.img
    let k := a.block.toNat
    (x.mine a = true → (x.st = 1 ∨ x.st = 2) → k < x.start.nblk.toNat → smGet false x.got k = false →
      s.blk.tsu.boot.inCloak = false → x.writes.length < 16 →
      exec (.imgBlockReceive (.tsu p) h a d) s = .next { s with
        blk := (b.mImg .tsu fun x => { x with got := smPut false x.got k true, writes := x.writes ++ [k] }).emit
          (.hmWrite (BitVec.ofNat 64 (s.blk.catNat .tsu 0x7201 1 + 2048 * k)) d 17 true 3) }) ∧
    (x.mine a = true → (x.st = 1 ∨ x.st = 2) → k < x.start.nblk.toNat → smGet false x.got k = false →
      16 ≤ x.writes.length → exec (.imgBlockReceive (.tsu p) h a d) s = .next { s with
        blk := b.mImg .tsu fun x => { x with dropped := sat1 x.dropped } }) ∧
    (smGet false x.got k = true → exec (.imgBlockReceive (.tsu p) h a d) s = .next { s with blk := b })) ∧
  (∀ (p : Plane) (h : Hdr) (a : ImgAddr) (nb : BitVec 16) (t0 : BitVec 64) (s : State),
    s.blk.rxOk (.tsu p) h 6 3 false = true → s.blk.tsu.img.mine a = true →
    let b := s.blk.rxBook (.tsu p) h 6
    let x := s.blk.tsu.img
    (x.st = 1 → x.ended = false → x.missing = [] → exec (.imgEndReceive (.tsu p) h a nb) s = .next { s with
      blk := b.mImg .tsu fun x => { x with ended := true } }) ∧
    (x.st = 1 → x.ended = false → x.missing ≠ [] → exec (.imgEndReceive (.tsu p) h a nb) s = .next { s with
      blk := (b.mImg .tsu fun x => { x with ended := true, st := 2, rounds := 1, nackAt := s.blk.tsu.time.tc64 }).imgUp .tsu
        (.imgNack x.addr (imgRanges x.missing)) }) ∧
    (x.st = 4 → x.tAct = none → Tick.le s.blk.tsu.time.tc64 t0 = true → exec (.imgCommitReceive (.tsu p) h a t0) s = .next { s with
      blk := b.mImg .tsu fun x => { x with tAct := some t0 } }) ∧
    (x.st = 4 → x.tAct = none → Tick.le s.blk.tsu.time.tc64 t0 = false → exec (.imgCommitReceive (.tsu p) h a t0) s = .next { s with
      blk := (b.mImg .tsu fun x => { x with st := 7 }).imgUp .tsu (.imgActed x.addr 0 1) }) ∧
    (x.st = 6 → exec (.imgRollbackReceive (.tsu p) h a) s = .next { s with
      blk := b.mImg .tsu fun x => { x with
      st := 8, tAct := none, next := smPut 0 x.next x.start.itype.toNat (smGet 0 x.prev x.start.itype.toNat)
      untaken := false } }) ∧
    (x.st ≠ 6 → x.st ≠ 8 → exec (.imgRollbackReceive (.tsu p) h a) s = .next { s with
      blk := b.mImg .tsu fun x => { x with st := 8, tAct := none } })) ∧
  (∀ (resp : BitVec 2) (img : Bytes) (s : State),
    let x := s.blk.tsu.img
    let fail (x : ImgRx) (r : Byte) (b : Block) : Block :=
      (b.mImg .tsu fun y => { y with st := 5, reason := r }).imgUp .tsu (.imgReport x.addr 0 1)
    (x.writes = [] → exec (.imgBlockWriteAck resp) s = .next s) ∧
    (∀ k rest, x.writes = k :: rest → x.st = 1 → resp ≠ 0 → exec (.imgBlockWriteAck resp) s = .next { s with
      blk := fail x 7 (s.blk.mImg .tsu fun x => { x with writes := rest }) }) ∧
    (∀ k rest, x.writes = k :: rest → x.st = 1 → resp = 0 → x.missing ≠ [] → exec (.imgBlockWriteAck resp) s = .next { s with
      blk := s.blk.mImg .tsu fun x => { x with writes := rest } }) ∧
    (∀ k, x.writes = [k] → x.st = 1 → resp = 0 → x.missing = [] → exec (.imgBlockWriteAck resp) s = .next { s with
      blk := (s.blk.mImg .tsu fun x => { x with writes := [], st := 3 }).emit
        (.hmRead (BitVec.ofNat 64 (s.blk.catNat .tsu 0x7201 1)) x.start.total.toNat 17 true 3) }) ∧
    (x.st ≠ 3 → exec (.imgVerifyDone .tsu resp img) s = .next s) ∧
    (x.st = 3 → resp ≠ 0 → exec (.imgVerifyDone .tsu resp img) s = .next { s with blk := fail x 7 s.blk }) ∧
    (x.st = 3 → resp = 0 → imgVerify false s.blk.tsu.boot.unitId x.start img = 0 →
      exec (.imgVerifyDone .tsu resp img) s = .next { s with
        blk := (s.blk.mImg .tsu fun x => { x with st := 4 }).imgUp .tsu (.imgReport x.addr 1 0) }) ∧
    (∀ r, x.st = 3 → resp = 0 → imgVerify false s.blk.tsu.boot.unitId x.start img = r → r ≠ 0 →
      exec (.imgVerifyDone .tsu resp img) s = .next { s with blk := fail x (BitVec.ofNat 8 r) s.blk }) ∧
    (∀ t0, x.tAct = some t0 → x.st = 4 →
      (Tick.le t0 s.blk.tsu.time.tc64 = false → exec (.imgActivate .tsu) s = .next s) ∧
      (Tick.le t0 s.blk.tsu.time.tc64 = true → exec (.imgActivate .tsu) s = .next { s with
        blk := (s.blk.mImg .tsu fun x => { x with
          st := 6, prev := smPut 0 x.prev x.start.itype.toNat (smGet 0 x.next x.start.itype.toNat)
          next := smPut 0 x.next x.start.itype.toNat x.start.imageId, taken := false, untaken := true }).imgUp .tsu
            (.imgActed x.addr 1 0) })) ∧
    (x.st = 2 → (s.blk.catNat .tsu 0x7220 1 : Int) ≤ Tick.diff s.blk.tsu.time.tc64 x.nackAt → x.missing ≠ [] →
      (s.blk.catNat .tsu 0x7220 2 ≤ x.rounds → exec (.imgNackTimer .tsu) s = .next { s with blk := fail x 1 s.blk }) ∧
      (x.rounds < s.blk.catNat .tsu 0x7220 2 → exec (.imgNackTimer .tsu) s = .next { s with
        blk := (s.blk.mImg .tsu fun x => { x with rounds := x.rounds + 1, nackAt := s.blk.tsu.time.tc64 }).imgUp .tsu
          (.imgNack x.addr (imgRanges x.missing)) })) ∧
    (x.st ≠ 2 → exec (.imgNackTimer .tsu) s = .next s) ∧
    (((x.start.nblk.toNat * 64 + s.blk.catNat .tsu 0x7220 1 : Nat) : Int) ≤ Tick.diff s.blk.tsu.time.tc64 x.startAt →
      x.st = 1 → x.ended = false → x.missing = [] → exec (.imgEndTimeout .tsu) s = .next { s with
        blk := s.blk.mImg .tsu fun x => { x with ended := true } }))

/-- R412 to R417, R419. Image delivery at a distributor: a root checks its slot before START and sends a block at a time, each
distributor keeps the blocks and passes them down, answers NACK from what it holds marked REPAIR, and sums reports; COMMIT
of less than 62,500 ticks ahead is refused. -/
def Obligations.ImageDelivery : Prop :=
  (∀ (n : Nat) (h : Hdr) (a : ImgAddr) (m : ImgStart) (d : Bytes) (nb : BitVec 16) (t0 : BitVec 64) (s : State), 288 ≤ n → n < 312 →
    s.blk.rxOk (.dist n) h 6 3 false = true → a.ih.toNat < 4 →
    let b := s.blk.rxBook (.dist n) h 6
    let i := a.ih.toNat
    let x := s.blk.slotOf i
    (m.target = 0 → a.group.toNat < 4096 → exec (.imgStartReceive (.dist n) h a m) s = .next { s with
      blk := (b.mImgSlot i fun _ => { used := true, group := a.group, start := m }).imgDown
        { used := true, group := a.group, start := m } (.imgStart a m) }) ∧
    (m.target ≠ 1 → 4096 ≤ a.group.toNat → exec (.imgStartReceive (.dist n) h a m) s = .next { s with
      blk := b.mObjs fun o => { o with dropCount := sat1 o.dropCount } }) ∧
    (x.start.target = 0 → x.used = true → a.block.toNat < x.start.nblk.toNat → a.repair = false →
      exec (.imgBlockReceive (.dist n) h a d) s = .next { s with
        blk := (b.mImgSlot i fun s => { s with
          blocks := smPut [] s.blocks a.block.toNat d
          waiters := s.waiters.filter fun w => w.1 != a.block.toNat }).imgDown x (.imgBlock a d) }) ∧
    (x.start.target = 0 → exec (.imgEndReceive (.dist n) h a nb) s = .next { s with
      blk := (b.mImgSlot i fun s => { s with ended := true }).imgDown { x with ended := true } (.imgEnd a nb) }) ∧
    (x.start.target = 0 →
      let c := (b.mImgSlot i fun s => { s with closed := true }).imgFree i
      exec (.imgCommitReceive (.dist n) h a t0) s = .next { s with blk := c.imgDown (c.slotOf i) (.imgCommit a t0) } ∧
      exec (.imgRollbackReceive (.dist n) h a) s = .next { s with blk := c.imgDown (c.slotOf i) (.imgRollback a) })) ∧
  (∀ (n : Nat) (h : Hdr) (a : ImgAddr) (okn failn : BitVec 32) (s : State), n < 288 →
    s.blk.rxOk (.dist n) h 6 3 false = true → a.ih.toNat < 4 → s.blk.dRole = 3 →
    let b := s.blk.rxBook (.dist n) h 6
    let i := a.ih.toNat
    let k := smGet (0, 0, 0, 0) (s.blk.slotOf i).childs (n / 24)
    let kept (v : BitVec 32 × BitVec 32 × BitVec 32 × BitVec 32) (b : Block) : Block :=
      (b.mImgSlot i fun s => { s with childs := smPut (0, 0, 0, 0) s.childs (n / 24) v }).imgFree i
    exec (.imgReportReceive n h a okn failn) s = .next { s with
      blk := kept (k.1 + okn, k.2.1 + failn, k.2.2.1 + 0, k.2.2.2 + 0) (b.imgAdd i okn.toNat failn.toNat 0 0) } ∧
    exec (.imgActedReceive n h a okn failn) s = .next { s with
      blk := kept (k.1 + 0, k.2.1 + 0, k.2.2.1 + okn, k.2.2.2 + failn) (b.imgAdd i 0 0 okn.toNat failn.toNat) }) ∧
  (∀ (n : Nat) (h : Hdr) (a : ImgAddr) (k : Nat) (d : Bytes) (r : List (BitVec 16 × BitVec 16)) (s : State), n < 288 →
    s.blk.rxOk (.dist n) h 6 3 false = true → a.ih.toNat < 4 →
    let b := s.blk.rxBook (.dist n) h 6
    let x := s.blk.slotOf a.ih.toNat
    x.used = true → imgAsked x.start.nblk.toNat r = [k] → x.blk k = d →
    (d ≠ [] → exec (.imgNackReceive n h a r) s = .next { s with
      blk := b.send (.dist n) true (.imgBlock ⟨a.ih, BitVec.ofNat 16 k, x.group, true⟩ d) }) ∧
    (d = [] → x.waiters = [] → exec (.imgNackReceive n h a r) s = .next { s with
      blk := b.mImgSlot a.ih.toNat fun s => { s with waiters := [(k, n)] } })) ∧
  (∀ (i : Nat) (x : ImgTx) (s : State), s.blk.dist.tx = [(i, x)] → i < 4 → x.active = true →
    let sl := s.blk.slotOf i
    let at_ : Tick := x.startAt + BitVec.ofNat 64 (256 + x.next * x.interval.toNat)
    (Tick.le at_ s.blk.dist.time.tc64 = false → exec .imgBlockSend s = .next s) ∧
    (Tick.le at_ s.blk.dist.time.tc64 = true → x.next < sl.start.nblk.toNat → exec .imgBlockSend s = .next { s with
      blk := (s.blk.mTx i fun t => { t with next := t.next + 1 }).imgDown sl
        (.imgBlock ⟨BitVec.ofNat 8 i, BitVec.ofNat 16 x.next, sl.group, false⟩ (sl.blk x.next)) })) ∧
  (∀ (q : CatReq) (s : State), q.unit = .dist → s.blk.distServes = true → q.secure = true → q.priv ≠ 0 → s.blk.dRole = 3 →
    s.blk.stagedOk q 0x7210 = true →
    let st := s.blk.dist.cat.staged true 0x7210
    let v := s.blk.staged q 0x7210
    let i := ofLE (v 1)
    let x := s.blk.slotOf i
    let t0 : Tick := BitVec.ofNat 64 (ofLE (v 6))
    let a : ImgAddr := ⟨BitVec.ofNat 8 i, 0, x.group, false⟩
    (36 + imgLen x.bytes ≤ 67108864 → sha256 (slice x.bytes 0 (36 + imgLen x.bytes)) ≠ slice (v 4) 0 32 → exec (.imgTxStart q) s = .next { s with
      blk := s.blk.emit (.cat .dist q.src q.tid 0x09 []) }) ∧
    (imgHdrOk x.bytes none = true → 36 + imgLen x.bytes = x.bytes.length → x.bytes.length ≤ 67108864 →
      imgCrcOk x.bytes = true → sha256 x.bytes = slice (v 4) 0 32 → ofLE (v 3) = 0 →
      let bl := imgBlocks 32768 x.bytes
      let p : ImgStart := ⟨imgId x.bytes, BitVec.ofNat 32 x.bytes.length, BitVec.ofNat 16 bl.length,
        BitVec.ofNat 8 (imgType x.bytes), 0, sha256 x.bytes⟩
      let g : BitVec 16 := BitVec.ofNat 16 (ofLE (v 2))
      let slot : ImgSlot := { used := true, group := g, start := p, blocks := (List.range bl.length).zip bl }
      exec (.imgTxStart q) s = .next { s with
        blk := (((s.blk.mImgSlot i fun _ => slot).mTx i fun _ =>
          { active := true, startAt := s.blk.dist.time.tc64, next := 0, interval := BitVec.ofNat 16 (ofLE (v 5)) }).imgDown slot
            (.imgStart ⟨BitVec.ofNat 8 i, 0, g, false⟩ p)).committed q 0x7210 st }) ∧
    (Tick.diff t0 s.blk.dist.time.tc64 < 62500 → exec (.imgTxCommit q) s = .next { s with
      blk := s.blk.emit (.cat .dist q.src q.tid 0x07 []) }) ∧
    (62500 ≤ Tick.diff t0 s.blk.dist.time.tc64 → x.start.target = 0 → exec (.imgTxCommit q) s = .next { s with
      blk := (((s.blk.imgDown x (.imgCommit a t0)).mImgSlot i fun s => { s with closed := true }).imgFree i).committed
        q 0x7210 st }) ∧
    (x.start.target = 0 → exec (.imgTxRollback q) s = .next { s with
      blk := ((((s.blk.mTx i fun _ => {}).imgDown x (.imgRollback a)).mImgSlot i fun s => { s with closed := true }).imgFree i).committed
        q 0x7210 st }))

/-- R48, R64, R69, R70, R396, R397, R402, R406, R456. Lanes: ENABLE starts training, or is held while the lane shuts down;
ENABLE = 0 takes a lane DOWN; a retrain is counted and clears REFINED; training, alignment and negotiation follow each other,
fall back and fail; HELLO with ACK both ways leads to UP; a listening lane wakes without a retrain being counted. -/
def Obligations.LaneStates : Prop :=
  (∀ (a : Access) (l : LaneRef) (s : State), s.blk.lanePass a l = true →
    let b := s.blk
    let r := (b.lane l).reg
    (r.shutting = true → exec (.laneEnable a l) s = .next { s with
      blk := (b.mReg l fun r => { r with enPend := true }).laneAns l }) ∧
    (r.shutting = false → r.enable = true → exec (.laneEnable a l) s = .next { s with blk := b.laneAns l }) ∧
    (∀ p, l = .tsu p → r.shutting = false → r.enable = false → b.live = true → b.linkOn p = true →
      b.tsu.pwr.st ≠ .entering → b.tsu.pwr.st ≠ .mitten → exec (.laneEnable a l) s = .next { s with
        blk := (b.mReg l fun r => { r with
        enable := true, state := .training, backoff := false, fullTrain := !r.fastStart || allZero (b.eqSaved l) }).laneAns l }) ∧
    (∀ n, l = .dist n → r.shutting = false → r.enable = false → b.dist.mod.powered = true → r.bad = false → r.cageOff = false →
      b.roleUses n = true → exec (.laneEnable a l) s = .next { s with
        blk := (b.mReg l fun r => { r with
        enable := true, state := .training, backoff := false, fullTrain := !r.fastStart || allZero (b.eqSaved l) }).octets }) ∧
    (r.enable = false → exec (.laneDisable a l) s = .next { s with
      blk := (b.mReg l fun r => { r with enPend := false }).laneAns l }) ∧
    (∀ p, l = .tsu p → r.enable = true → r.state ≠ .up → exec (.laneDisable a l) s = .next { s with
      blk := ((b.mReg l fun r => { r with
      enPend := false, enable := false, shutting := true, state := .down, retrainReq := false, backoff := false
      failStarts := 0 }).hallEndAll p stNOPATH).emit (.reg none 0 0) }) ∧
    (∀ n, l = .dist n → r.enable = true → r.state ≠ .up → exec (.laneDisable a l) s = .next { s with
      blk := (b.mReg l fun r => { r with
      enPend := false, enable := false, shutting := true, state := .down, retrainReq := false, backoff := false
      failStarts := 0 }).octets }) ∧
    ((r.state = .down ∨ r.state = .listen) → exec (.retrain a l) s = .next { s with blk := b.laneAns l }) ∧
    (r.state ≠ .down → r.state ≠ .listen → exec (.retrain a l) s = .next { s with
      blk := ((b.mReg l fun r => { r with retrainReq := true }).retrainLane l).laneAns l }) ∧
    exec (.laneCntClr a l) s = .next { s with
      blk := (b.mLink l fun k => { k with cnt := {}, telCorr := 0, telReplay := 0, telDrop := 0 }).laneAns l }) ∧
  (∀ (l : LaneRef) (s : State), l.ok = true →
    let b := s.blk
    let r := (b.lane l).reg
    (r.shutting = false → exec (.laneShutdownDone l) s = .next s) ∧
    (r.shutting = true → r.enPend = false → exec (.laneShutdownDone l) s = .next { s with
      blk := (b.mReg l fun r => { r with shutting := false, enPend := false }).mLink l LaneLink.discard }) ∧
    (r.shutting = true → r.enPend = true → exec (.laneShutdownDone l) s = .next { s with
      blk := ((b.mReg l fun r => { r with shutting := false, enPend := false }).mLink l LaneLink.discard).laneEnable l }) ∧
    (∀ eye st, r.state = .training → r.backoff = false →
      (r.fullTrain = false → eye.toNat < b.eyeFail (laneUnit l) → exec (.trainingDone l eye st) s = .next { s with
        blk := b.mReg l fun r => { r with fullTrain := true } }) ∧
      (r.fullTrain = true ∨ b.eyeFail (laneUnit l) ≤ eye.toNat → exec (.trainingDone l eye st) s = .next { s with
        blk := b.mReg l fun r => { r with state := .aligning, settings := slice st 0 64 } })) ∧
    (r.state = .aligning → exec (.codewordLock l) s = .next { s with
      blk := b.mReg l fun r => { r with state := .negotiating, helloSeen := false, ackRx := false, ackTx := false } }) ∧
    (r.state ≠ .aligning → exec (.codewordLock l) s = .next { s with blk := b.mReg l id }) ∧
    ((r.state = .training ∨ r.state = .aligning ∨ r.state = .negotiating) → r.backoff = false →
      (2 ≤ r.failStarts → exec (.trainingTimeout l) s = .next { s with
        blk := b.mReg l fun r => { r with state := .training, failStarts := r.failStarts + 1, backoff := true } }) ∧
      (r.failStarts < 2 → exec (.trainingTimeout l) s = .next { s with
        blk := (b.mReg l fun r => { r with state := .training, failStarts := r.failStarts + 1, backoff := false }).retrainLane l })) ∧
    (r.backoff = true → exec (.trainingTimeout l) s = .next s) ∧
    (r.backoff = true → exec (.retrainBackoffExpire l) s = .next { s with blk := b.retrainLane l }) ∧
    (r.backoff = false → exec (.retrainBackoffExpire l) s = .next s) ∧
    (r.state = .negotiating → 2 ≤ r.failStarts → exec (.negTimeout l) s = .next { s with
      blk := b.mReg l fun r => { r with
      negFail := true, state := .training, failStarts := r.failStarts + 1, backoff := true } }) ∧
    (r.state = .negotiating → r.failStarts < 2 → exec (.negTimeout l) s = .next { s with
      blk := (b.mReg l fun r => { r with
      negFail := true, state := .training, failStarts := r.failStarts + 1, backoff := false }).retrainLane l }) ∧
    (r.state ≠ .negotiating → exec (.negTimeout l) s = .next s) ∧
    ((r.state = .down ∨ r.state = .training ∨ r.state = .listen) → exec (.cdrLockLoss l) s = .next s) ∧
    ((r.state = .aligning ∨ r.state = .negotiating ∨ r.state = .up) → exec (.cdrLockLoss l) s = .next { s with
      blk := (b.mReg l fun r => { r with refLost := true }).retrainLane l }) ∧
    (r.state = .negotiating → (r.ackRx && (r.ackTx || r.helloSeen)) = false → exec (.helloSend l) s = .next { s with
      blk := (b.mReg l fun r => { r with featAdv := (b.helloOf l).feat, ackTx := r.ackTx || r.helloSeen }).emit
        (.frame l 0 false ⟨0, true, b.epochOf (laneUnit l), .hello (b.helloOf l)⟩) }) ∧
    (r.state = .negotiating → (r.ackRx && (r.ackTx || r.helloSeen)) = true → exec (.helloSend l) s = .next { s with
      blk := ((b.mReg l fun r => { r with featAdv := (b.helloOf l).feat, ackTx := r.ackTx || r.helloSeen }).emit
        (.frame l 0 false ⟨0, true, b.epochOf (laneUnit l), .hello (b.helloOf l)⟩)).goUp l }) ∧
    (r.state ≠ .negotiating → exec (.helloSend l) s = .next s) ∧
    (∀ (h : Hdr) (p : Hello), r.state = .negotiating → h.fmt = 1 → h.cls = 0 →
      let x := (b.corrected l h.corr).mReg l fun r => { r with
        verPartner := p.ver, featPartner := p.feat, peerPos := p.pos, peerPlane := p.plane, peerRole := p.role
        peerUnit := p.unitId, posValid := true }
      (p.ver.toNat < 0x100 ∨ p.role.toNat = b.roleOf (laneUnit l) → exec (.helloReceive l h p) s = .next { s with
        blk := x.negFail l }) ∧
      (0x100 ≤ p.ver.toNat → p.role.toNat ≠ b.roleOf (laneUnit l) → ((r.ackRx || p.ack) && r.ackTx) = false →
        exec (.helloReceive l h p) s = .next { s with
          blk := x.mReg l fun r => { r with helloSeen := true, ackRx := r.ackRx || p.ack } }) ∧
      (0x100 ≤ p.ver.toNat → p.role.toNat ≠ b.roleOf (laneUnit l) → ((r.ackRx || p.ack) && r.ackTx) = true →
        exec (.helloReceive l h p) s = .next { s with
          blk := (x.mReg l fun r => { r with helloSeen := true, ackRx := r.ackRx || p.ack }).goUp l })) ∧
    (∀ h p, r.state ≠ .negotiating → exec (.helloReceive l h p) s = .next s) ∧
    (r.state = .up → ∃ t, exec (.cdrLockLoss l) s = .next t ∧ (t.blk.lane l).reg.refLost = true ∧
      (t.blk.lane l).reg.refined = false ∧ (t.blk.lane l).reg.tvRx = false ∧
      (t.blk.lane l).link.cnt.retrain = sat1 (s.blk.lane l).link.cnt.retrain ∧ t.pending = s.pending)) ∧
  (∀ (n : Nat) (s : State), n < 312 →
    let b := s.blk
    let r := (b.lane (.dist n)).reg
    (288 ≤ n ∨ r.state = .down ∨ r.state = .listen → exec (.portListen n) s = .next s) ∧
    (n < 288 → r.state ≠ .down → r.state ≠ .listen → r.state ≠ .up → exec (.portListen n) s = .next { s with
      blk := b.mReg (.dist n) fun r => { r with state := .listen, backoff := false, failStarts := 0, retrainReq := false } }) ∧
    (r.state ≠ .listen → exec (.portEnergyDetect n) s = .next s) ∧
    (r.state = .listen → b.canTrain (.dist n) = true → exec (.portEnergyDetect n) s = .next { s with
      blk := b.mReg (.dist n) fun r => { r with
      state := .training, backoff := false, fullTrain := !r.fastStart || allZero (b.eqSaved (.dist n)) } })) ∧
  (∀ (n : Nat) (a : Access) (x : FrameErr) (tm : Bool) (h : Hdr) (p : Hello) (eye : BitVec 8) (st : Bytes) (s : State), 312 ≤ n →
    ∀ c ∈ [Instr.laneEnable a (.dist n), .laneDisable a (.dist n), .laneShutdownDone (.dist n), .retrain a (.dist n),
        .laneCntClr a (.dist n), .trainingDone (.dist n) eye st, .codewordLock (.dist n), .trainingTimeout (.dist n),
        .retrainBackoffExpire (.dist n), .negTimeout (.dist n), .cdrLockLoss (.dist n), .helloSend (.dist n),
        .helloReceive (.dist n) h p, .frameCorrupt (.dist n) x tm, .linkctlSend (.dist n), .portListen n, .portEnergyDetect n],
      exec c s = .fault (.noSuchLane n))

/-- R45, R46, R48, R445, R448. Corrupted frames and link control: the counters, a NAK for any class but TIME, a retrain above
16 uncorrectable codewords within 2^20 ticks, LINKCTL sent with the acknowledgement and the credits, and a received LINKCTL
taken, with replay on NAK and a retrain after 8 replays of one frame. -/
def Obligations.LinkControl : Prop :=
  ∀ (l : LaneRef) (s : State), l.ok = true →
    let b := s.blk
    let k := (b.lane l).link
    let now := b.tcOf (laneUnit l)
    (b.up l = false → exec (.linkctlSend l) s = .next s ∧ ∀ e t, exec (.frameCorrupt l e t) s = .next s) ∧
    (∀ t, b.up l = true → (k.uncs.filter fun u => decide (Tick.diff now u.1 < 2 ^ 20)) = k.uncs →
      k.uncs.foldl (fun n u => n + u.2) 0 ≤ 16 → exec (.frameCorrupt l .crc t) s = .next { s with
        blk := b.mLink l fun x => { x with
        cnt := { x.cnt with crcErr := sat1 x.cnt.crcErr, syncDrop := if t then sat1 x.cnt.syncDrop else x.cnt.syncDrop }
        rxDiscard := x.rxDiscard || !t, nakDue := x.nakDue || !t } }) ∧
    (∀ n t, 1 ≤ n → b.up l = true →
      let unc := (now, n) :: k.uncs.filter fun u => decide (Tick.diff now u.1 < 2 ^ 20)
      let c := b.mLink l fun x => { x with
        cnt := { x.cnt with fecUnc := satAdd x.cnt.fecUnc n, syncDrop := if t then sat1 x.cnt.syncDrop else x.cnt.syncDrop }
        rxDiscard := x.rxDiscard || !t, nakDue := x.nakDue || !t, uncs := unc }
      (unc.foldl (fun n u => n + u.2) 0 ≤ 16 → exec (.frameCorrupt l (.unc n) t) s = .next { s with blk := c }) ∧
      (16 < unc.foldl (fun n u => n + u.2) 0 → exec (.frameCorrupt l (.unc n) t) s = .next { s with blk := c.retrainLane l })) ∧
    (b.up l = true → exec (.linkctlSend l) s = .next { s with
      blk := (b.mLink l fun k => { k with nakDue := false }).send l true (.linkctl ⟨k.rxSeq - 1, k.nakDue,
        [64 + k.credRx.c2, 128 + k.credRx.c3, 64 + k.credRx.c4, 16 + k.credRx.c5, 32 + k.credRx.c6], k.bypTx⟩) }) ∧
    (∀ (h : Hdr) (p : LinkCtl), b.rxOk l h 0 0 false = true →
      let took := (b.rxBook l h 0).mLink l fun k => { k with
        replay := ackTo p.ack k.replay, bypRx := p.byp
        credTx := ⟨p.cred.getD 0 0, p.cred.getD 1 0, p.cred.getD 2 0, p.cred.getD 3 0, p.cred.getD 4 0⟩ }
      let again := took.resend l
      (p.nak = false → (∀ e ∈ ackTo p.ack k.replay, e.tries < 8) → exec (.linkctlReceive l h p) s = .next { s with
        blk := Block.pump l 64 took }) ∧
      (p.nak = true → (∀ e ∈ ackTo p.ack k.replay, e.tries < 7) → exec (.linkctlReceive l h p) s = .next { s with
        blk := Block.pump l 64 again }) ∧
      (p.nak = true → (∃ e ∈ ackTo p.ack k.replay, 7 ≤ e.tries) → exec (.linkctlReceive l h p) s = .next { s with
        blk := again.retrainLane l }))

/-- R400 to R404, R427 to R431, R439, R440. Membership: a T1 keeps each port's report, a child's sum is kept and the sum goes
up, a newer FENCE is applied and relayed by a distributor and fences or moves a die to the new epoch, an older one changes
nothing, and the shadow ends after its seconds. -/
def Obligations.Membership : Prop :=
  (∀ (n : Nat) (h : Hdr) (r : TopoReport) (s : State), n < 312 → s.blk.rxOk (.dist n) h 5 3 false = true →
    let b := s.blk.rxBook (.dist n) h 5
    let mapped : Bool := r.ldi != 0xFFFF && s.blk.ldiMap r.ldi.toNat == s.blk.portPda n
    (s.blk.dRole ≠ 1 ∨ 256 ≤ n → exec (.topoReportReceive n h r) s = .next { s with blk := b }) ∧
    (s.blk.dRole = 1 → n < 256 → exec (.topoReportReceive n h r) s = .next { s with
      blk := b.mDBoot fun d => { d with
      reports := smPut none d.reports n (some (r, h.mepoch))
      mapDiff := if r.ldi != 0xFFFF && !mapped then sat1 d.mapDiff else d.mapDiff
      fencedPorts := match smGet none d.fencedPorts n with
        | some e => if r.admitted && newer h.mepoch e && mapped then smPut none d.fencedPorts n none else d.fencedPorts
        | none => d.fencedPorts } })) ∧
  (∀ (n : Nat) (h : Hdr) (k : BitVec 32) (s : State), n < 312 → s.blk.rxOk (.dist n) h 5 3 false = true →
    let b := s.blk.rxBook (.dist n) h 5
    (s.blk.dRole = 1 ∨ 288 ≤ n → exec (.topoSumReceive n h k) s = .next { s with blk := b }) ∧
    (s.blk.dRole ≠ 1 → n < 288 → exec (.topoSumReceive n h k) s = .next { s with
      blk := b.mDBoot fun d => { d with sums := smPut 0 d.sums (n / 24) k } })) ∧
  (∀ (s : State),
    let b := s.blk
    let d := b.dist.boot
    (b.dRole = 3 → exec .topoSumSend s = .next s) ∧
    (∀ n, b.dRole = 1 → b.upLane = some n → exec .topoSumSend s = .next { s with
      blk := b.send (.dist n) true (.topoSum (BitVec.ofNat 32 (d.reports.filter fun e => e.2.any fun x => x.1.admitted).length)) }) ∧
    (∀ n, b.dRole = 2 → b.upLane = some n → exec .topoSumSend s = .next { s with
      blk := b.send (.dist n) true (.topoSum (BitVec.ofNat 32 ((d.sums.map fun e => e.2.toNat).foldl (· + ·) 0))) }) ∧
    (d.shadow = true → b.dist.servo.state = .locked →
      (1250000000 * b.catNat .dist 0x7150 2 : Int) ≤ Tick.diff b.dist.time.tc64 d.shadowAt →
      exec .shadowEnd s = .next { s with
        blk := b.mDBoot fun d => { d with shadow := false } }) ∧
    (d.shadow = false ∨ b.dist.servo.state ≠ .locked → exec .shadowEnd s = .next s)) ∧
  (∀ (n : Nat) (h : Hdr) (f : FenceMsg) (s : State), n < 312 → s.blk.rxOk (.dist n) h 1 0 true = true →
    let b := s.blk.rxBook (.dist n) h 1
    (n < 288 ∨ newer f.epoch s.blk.dist.boot.ep = false → exec (.fenceReceiveDist n h f) s = .next { s with blk := b }) ∧
    (288 ≤ n → newer f.epoch s.blk.dist.boot.ep = true → s.blk.dRole ≠ 1 → s.blk.upDown = [] →
      exec (.fenceReceiveDist n h f) s = .next { s with
        blk := b.mDBoot fun d => { d with
        prev := d.ep, ep := f.epoch, adoptAt := s.blk.dist.time.tc64, stored := some f } }) ∧
    (288 ≤ n → newer f.epoch s.blk.dist.boot.ep = true → exec (.fenceReceiveDist n h f) s = .next { s with
      blk := (((b.fencePorts f).dAdopt f.epoch).mDBoot fun d => { d with stored := some f }).each
        ((((b.fencePorts f).dAdopt f.epoch).mDBoot fun d => { d with stored := some f }).upDown)
        fun b n => b.send (.dist n) true (.fence f) })) ∧
  (∀ (p : Plane) (h : Hdr) (f : FenceMsg) (s : State), s.blk.rxOk (.tsu p) h 1 0 true = true →
    let b := s.blk.rxBook (.tsu p) h 1
    let t := s.blk.tsu.boot
    (newer f.epoch t.ep = false → exec (.fenceReceiveTsu p h f) s = .next { s with blk := b }) ∧
    (newer f.epoch t.ep = true → f.ldis.contains t.ldi = false → exec (.fenceReceiveTsu p h f) s = .next { s with
      blk := b.mBoot fun t => { t with
      prev := t.ep, ep := f.epoch, adoptAt := s.blk.tc, adoptCnt := sat1 t.adoptCnt } }) ∧
    (newer f.epoch t.ep = true → f.ldis.contains t.ldi = true → s.blk.tsu.ctxs = [] → s.blk.tsu.coll.slots = [] →
      s.blk.tsu.hall.out = [] → s.blk.tsu.dm.chs = [] → exec (.fenceReceiveTsu p h f) s = .next { s with
        blk := ((b.mHall fun h => { h with gone := [] }).mBoot fun t => { t with
        fenced := true, fenceRx := true, fenceEp := f.epoch, admitted := false, ldi := 0xFFFF }).sendTopo }))

/-- R398, R442 to R444, R449, R452, R453, R463 to R465, R468. The HZM-288 module and the Curator: rails up and down with their
causes, thermal warning and trip, cages, oscillator and firmware, a measure's state after an update, the buckets' leak, and
the congestion window. -/
def Obligations.ModuleAndCurator : Prop :=
  (∀ (s : State),
    let b := s.blk
    let m := b.dist.mod
    let v := Config.freeValue b.free
    let p := Config.freeValue (b.free + 1)
    (m.powered = true ∨ m.tripped = true → exec .distPowerUp s = .next s ∧ exec .inputRecovered s = .next s) ∧
    (m.powered = false → m.tripped = false →
      let up := { b with
        free := b.free + 2
        dist := { b.dist with mod := { m with powered := true, inOk := true, vIn := v.setWidth 16, pIn := p.setWidth 16 } } }
      exec .distPowerUp s = .next { s with blk := up } ∧ exec .inputRecovered s = .next { s with blk := up }) ∧
    exec .inputOff s = .next { s with
      blk := { b with dist := b.dist.dark {} } } ∧
    (m.powered = true → exec .ocxoWarm s = .next { s with
      blk := b.mMod fun m => { m with ocxoWarm := true } }) ∧
    (m.powered = false → exec .ocxoWarm s = .next s) ∧
    (m.powered = true → b.dist.boot.fuseDone = true → exec .firmwareBootDone s = .next { s with
      blk := b.mDBoot fun d => { d with fwBooted := true } }) ∧
    (m.powered = false ∨ b.dist.boot.fuseDone = false → exec .firmwareBootDone s = .next s)) ∧
  (∀ (v : BitVec 16) (tj : BitVec 8) (ls : List Nat) (s : State), s.blk.dist.mod.powered = true →
    let b := s.blk
    let m := b.dist.mod
    let off (f : Module → Module) : Block := { b with
      dist := b.dist.dark (f { uvWarn := m.uvWarn, ov := m.ov, thermWarn := m.thermWarn, thermTrip := m.thermTrip,
                               tripped := m.tripped, cageLimit := m.cageLimit, tjMax := m.tjMax, vIn := m.vIn }) }
    (v.toNat < 4000 → exec (.inputUndervoltage v) s = .next { s with
      blk := off fun m => { m with uvWarn := true, vIn := v } }) ∧
    (6200 < v.toNat → exec (.inputUndervoltage v) s = .next { s with
      blk := off fun m => { m with ov := true, vIn := v } }) ∧
    (4000 ≤ v.toNat → v.toNat ≤ 6200 → exec (.inputUndervoltage v) s = .next { s with
      blk := b.mMod fun m => { m with vIn := v } }) ∧
    (100 < tj.toNat → exec (.thermWarn tj) s = .next { s with
      blk := (b.mMod fun m => { m with thermWarn := true, tjMax := tj }).each (List.range 24) Block.predict }) ∧
    (tj.toNat ≤ 100 → exec (.thermWarn tj) s = .next s) ∧
    (115 < tj.toNat → exec (.thermTrip tj) s = .next { s with
      blk := off fun m => { m with thermTrip := true, tripped := true, tjMax := tj } }) ∧
    (tj.toNat ≤ 115 → exec (.thermTrip tj) s = .next s) ∧
    exec (.cageLimit ls) s = .next { s with
      blk := (b.mMod fun m => { m with cageLimit := true }).each (ls.filter fun n => decide (n < 312)) fun b n =>
        (b.laneDown (.dist n)).mReg (.dist n) fun r => { r with cageOff := true } }) ∧
  (∀ (v : BitVec 16) (tj : BitVec 8) (ls : List Nat) (s : State), s.blk.dist.mod.powered = false →
    exec (.inputUndervoltage v) s = .next s ∧ exec (.thermWarn tj) s = .next s ∧ exec (.thermTrip tj) s = .next s ∧
    exec (.cageLimit ls) s = .next s) ∧
  (∀ (p : Plane) (v : Byte) (w : BitVec 16) (s : State),
    let b := s.blk
    let h := (b.lane (.tsu p)).health
    let t := b.tsu.hlth
    let e : BitVec 2 × Nat :=
      if v.toNat < t.eyeFail.toNat then (2, 0) else if v.toNat < t.eyeWarn.toNat then (1, 0)
      else if 3 ≤ h.eyeRun then (0, h.eyeRun + 1) else (h.eyeSt, h.eyeRun + 1)
    let q : BitVec 2 × Nat :=
      if t.resFail.toNat < w.toNat then (2, 0) else if t.resWarn.toNat < w.toNat then (1, 0)
      else if 3 ≤ h.resRun then (0, h.resRun + 1) else (h.resSt, h.resRun + 1)
    exec (.curatorUpdate (.eye (.tsu p) v)) s = .next { s with
      blk := b.mHealth (.tsu p) fun h => { h with
      eye := v, eyeLow := if v.toNat < h.eyeLow.toNat then v else h.eyeLow, eyeSt := e.1, eyeRun := e.2
      warn := h.warn || (e.1 == 1 && h.eyeSt != 1), fail := h.fail || (e.1 == 2 && h.eyeSt != 2) } } ∧
    exec (.curatorUpdate (.res (.tsu p) w)) s = .next { s with
      blk := b.mHealth (.tsu p) fun h => { h with
      res := w, resSt := q.1, resRun := q.2
      warn := h.warn || (q.1 == 1 && h.resSt != 1), fail := h.fail || (q.1 == 2 && h.resSt != 2) } }) ∧
  (∀ (c : BitVec 3) (w : BitVec 16) (s : State),
    let b := s.blk
    (6 ≤ c.toNat ∨ b.dRole ≠ 3 → exec (.curatorUpdate (.refRes c w)) s = .next s) ∧
    (c.toNat < 6 → b.dRole = 3 → ∃ t, exec (.curatorUpdate (.refRes c w)) s = .next t ∧ t.blk.tsu = b.tsu ∧
      t.pending = s.pending ∧ t.blk.out = b.out ∧ t.blk.dist.lanes = b.dist.lanes ∧
      smGet 0 t.blk.dist.curator.refRes c.toNat = w ∧
      (b.catNat .dist 0x7001 4 < w.toNat → smGet 0 t.blk.dist.curator.refSt c.toNat = 2) ∧
      (w.toNat ≤ b.catNat .dist 0x7001 4 → b.catNat .dist 0x7001 3 < w.toNat →
        smGet 0 t.blk.dist.curator.refSt c.toNat = 1))) ∧
  (∀ (s : State),
    let b := s.blk
    exec .bucketLeak s = .next { s with
      blk := (b.mDist fun d => { d with curator := { d.curator with
      buckets := smMap 0 (fun (x : BitVec 32) => BitVec.ofNat 32 (x.toNat - b.catNat .dist 0x7002 6)) d.curator.buckets } }).each
        (List.range 30) Block.predict }) ∧
  (∀ (w : CongMeasure) (s : State),
    let b := s.blk
    let hot := w.stalls.filter fun x => decide (b.catNat .dist 0x7140 2 * 2 ^ 20 < 256 * x.2)
    let set (f : Curator → Curator) : Block := b.mDist fun d => { d with curator := f d.curator }
    (∀ x r, hot = x :: r → exec (.congestionWindow w) s = .next { s with
      blk := set fun q => { q with congested := true, below := 0, where_ := if q.congested then q.where_ else congCode x.1 } }) ∧
    (hot = [] → 3 ≤ b.dist.curator.below → exec (.congestionWindow w) s = .next { s with
      blk := set fun q => { q with congested := false, below := 0 } }) ∧
    (hot = [] → b.dist.curator.below < 3 → exec (.congestionWindow w) s = .next { s with
      blk := set fun q => { q with below := q.below + 1 } }))

/-- R344 to R351, R382, R383, R406. The power handshake and MITTEN: acknowledgements and their loss, the request with its
reasons, entry in its steps, the accumulator, every wake and what is held of it, and exit. -/
def Obligations.PowerAndMitten : Prop :=
  (∀ (d : PwrDomain) (v : Bool) (s : State),
    let b := s.blk
    let p := b.tsu.pwr
    (b.tsu.boot.aonRst = true ∨ p.ack.get d = v → exec (.powerAck d v) s = .next s) ∧
    (b.tsu.boot.aonRst = false → p.ack.get d = false → (p.req.get d = false ∨ p.on.get d = true) →
      exec (.powerAck d true) s = .next { s with
        blk := b.mPwr fun p => { p with ack := p.ack.set d true } }) ∧
    (b.tsu.boot.aonRst = false → p.ack.mem = false → p.req.mem = true → p.on.mem = false →
      exec (.powerAck .mem true) s = .next { s with
        blk := b.mPwr fun p => { p with ack := { p.ack with mem := true }, on := { p.on with mem := true } } }) ∧
    (b.tsu.boot.aonRst = false → p.ack.get d = true → p.req.get d = false → d ≠ .engine ∨ p.engWanted = false →
      exec (.powerAck d false) s = .next { s with
        blk := b.mPwr fun p => { p with ack := p.ack.set d false } }) ∧
    (b.tsu.boot.aonRst = false → p.ack.engine = true → p.req.engine = false → p.engWanted = true →
      exec (.powerAck .engine false) s = .next { s with
        blk := (b.mPwr fun p => { p with ack := { p.ack with engine := false } }).demand }) ∧
    (b.tsu.boot.aonRst = false → p.ack.engine = true → p.req.engine = true →
      let lost := { s with
        blk := b.mPwr fun p => { p with
        pwrLost := true, ack := { p.ack with engine := false }, on := { p.on with engine := false }
        st := if p.st = .on then .idle else p.st } }
      exec (.pwrAckLoss .engine) s = .next lost ∧ exec (.powerAck .engine false) s = .next lost) ∧
    (b.tsu.boot.aonRst = true ∨ p.req.get d = false ∨ p.ack.get d = false → exec (.pwrAckLoss d) s = .next s)) ∧
  (∀ (a : Access) (s : State), s.blk.check (portReq a) 0xE000 true = .ok →
    let b := s.blk
    let p := b.tsu.pwr
    let ok (b : Block) := b.emit (.reg none 0 0)
    (a.secure = true → (p.st = .on ∨ p.st = .idle) → b.mitReason = 0 → exec (.mittenRequest a) s = .next { s with
      blk := ok (b.mPwr fun p => { p with
      st := .entering, mittenReq := true, incDone := false, heldCause := 0, enPend := false }) }) ∧
    (a.secure = true → (p.st = .on ∨ p.st = .idle) → b.mitReason ≠ 0 → exec (.mittenRequest a) s = .next { s with
      blk := ok (b.mPwr fun p => { p with mitRef := true, mitReason := b.mitReason, mittenReq := false }) }) ∧
    (a.secure = true → p.st = .entering → exec (.mittenRequest a) s = .next { s with
      blk := ok (b.mPwr fun p => { p with enPend := false, heldCause := 0 }) }) ∧
    (a.secure = true → p.st = .exiting → exec (.mittenRequest a) s = .next { s with
      blk := ok (b.mPwr fun p => { p with mittenReq := true }) }) ∧
    (a.secure = true → (p.st = .on ∨ p.st = .idle ∨ p.st = .exiting) → exec (.softwareWake a) s = .next { s with
      blk := ok (b.mPwr fun p => { p with mittenReq := false }) }) ∧
    (a.secure = true → p.st = .entering → exec (.softwareWake a) s = .next { s with
      blk := ok (b.mPwr fun p => { p with enPend := true, heldCause := p.heldCause ||| 32 }) }) ∧
    (a.secure = false → p.mittenReq = false → exec (.mittenRequest a) s =
      .next { s with
        blk := ok (b.violate 0 (portReq a) true 0xE000) } ∧ exec (.softwareWake a) s = .next { s with blk := ok b }) ∧
    (a.secure = false → p.mittenReq = true → exec (.softwareWake a) s =
      .next { s with
        blk := ok (b.violate 0 (portReq a) true 0xE000) } ∧ exec (.mittenRequest a) s = .next { s with blk := ok b })) ∧
  (∀ (inc : BitVec 64) (s : State),
    let b := s.blk
    let p := b.tsu.pwr
    (p.st ≠ .entering ∨ p.incDone = true → exec (.mittenIncMeasured inc) s = .next s) ∧
    (p.st = .entering → p.incDone = false → b.tsu.ctxs = [] → b.tsu.dm.chs = [] → b.tsu.str.chs = [] →
      exec (.mittenIncMeasured inc) s = .next { s with
        blk := (((b.mPwr fun p => { p with inc := inc, incDone := true }).laneDown (.tsu .A)).laneDown (.tsu .B)).mTime .tsu
          fun t => { t with lockAge := 0, promise := false } }) ∧
    (p.st ≠ .entering ∨ p.incDone = false ∨ b.quiet = false → exec .mittenEntryComplete s = .next s) ∧
    (p.st = .entering → p.incDone = true → b.tsu.ctxs = [] → b.quiet = true → p.enPend = false →
      exec .mittenEntryComplete s = .next { s with
        blk := b.memLost.mPwr fun p => { p with
        st := .mitten, acc := b.tc ++ (0 : BitVec 32), on := .none, req := .none, mitCnt := sat1 p.mitCnt, engWanted := false } })) ∧
  (∀ (q : Plane) (s : State),
    let b := s.blk
    let p := b.tsu.pwr
    let woken (c : BitVec 6) : State := { s with
      blk := b.mPwr fun p => { p with
      st := .exiting, mittenReq := false, enPend := false, heldCause := 0, wakeCause := p.wakeCause ||| c
      req := { p.req with time := true } } }
    let held (c : BitVec 6) : State := { s with
      blk := b.mPwr fun p => { p with enPend := true, heldCause := p.heldCause ||| c } }
    let listens : Bool := match q with | .A => p.listenA | .B => p.listenB
    let lane : BitVec 6 := match q with | .A => 4 | .B => 8
    (p.st = .mitten → exec .hostWakeRequest s = .next (woken 1)) ∧
    (p.st = .entering → exec .hostWakeRequest s = .next (held 1)) ∧
    (p.st ≠ .mitten → p.st ≠ .entering → exec .hostWakeRequest s = .next s) ∧
    (p.st = .mitten → listens = true → exec (.laneEnergyWake q) s = .next (woken lane)) ∧
    (p.st = .entering → listens = true → exec (.laneEnergyWake q) s = .next (held lane)) ∧
    (listens = false → exec (.laneEnergyWake q) s = .next s) ∧
    (p.st = .mitten → p.wakeAtEn = true → Tick.le p.wakeAt (p.acc.extractLsb' 32 64) = true →
      exec .wakeAtReached s = .next (woken 2)) ∧
    (p.st = .entering → p.wakeAtEn = true → Tick.le p.wakeAt b.tc = true → exec .wakeAtReached s = .next (held 2)) ∧
    (p.wakeAtEn = false → exec .wakeAtReached s = .next s) ∧
    (∀ a : Access, b.check (portReq a) 0xE100 true = .ok → p.st = .mitten →
      (b.tsu.dbg.level ≠ 0 → exec (.dbgWake (.port a)) s = .next { woken 16 with
        blk := (woken 16).blk.emit (.reg none 0 0) }) ∧
      (b.tsu.dbg.level = 0 → exec (.dbgWake (.port a)) s = .next { s with
        blk := b.dbgRefused.emit (.reg none 0 0) })) ∧
    (∀ a : Access, b.check (portReq a) 0xE000 true = .ok → a.secure = true → p.st = .mitten →
      exec (.softwareWake a) s = .next { woken 32 with
        blk := (woken 32).blk.emit (.reg none 0 0) })) ∧
  (∀ (s : State),
    let b := s.blk
    let p := b.tsu.pwr
    let lanesOn : Bool := (p.on.linkA || !p.req.linkA) && (p.on.linkB || !p.req.linkB)
    (p.st ≠ .exiting ∨ p.on.time = false ∨ p.on.mem = false ∨ b.tsu.tm.initDone = false ∨ lanesOn = false →
      exec .mittenExitDone s = .next s) ∧
    (p.st = .exiting → p.on.time = true → p.on.mem = true → b.tsu.tm.initDone = true → lanesOn = true → p.mittenReq = false →
      (p.engAuto = true → exec .mittenExitDone s = .next { s with
        blk := b.mPwr fun p => { p with st := .idle } }) ∧
      (p.engAuto = false → exec .mittenExitDone s = .next { s with
        blk := (b.mPwr fun p => { p with st := .idle }).demand })) ∧
    (p.st = .exiting → p.on.time = true → p.on.mem = true → b.tsu.tm.initDone = true → lanesOn = true → p.mittenReq = true →
      b.mitReason = 0 → exec .mittenExitDone s = .next { s with
        blk := b.mPwr fun p => { p with
        st := .entering, mittenReq := true, incDone := false, heldCause := 0, enPend := false } }))

/-- R126, R130, R131, R370, R372, R374, R375. Refresh grants with their windows, restart calibration, and stretch reports. -/
def Obligations.RefreshAndRestart : Prop :=
  (∀ (g : BitVec 6) (s : State),
    let b := s.blk
    let l := b.tsu.lctl
    (b.live = false → exec (.refreshRequest g) s = .next s ∧ exec (.refreshUrgent g) s = .next s) ∧
    (b.live = true → l.req = 0 → l.gnt.getLsbD g.toNat = false → b.aligned = false → exec (.refreshRequest g) s = .next { s with
      blk := (b.mLctl fun l => { l with req := setBit64 0 g.toNat true }).grant g.toNat false }) ∧
    (b.live = true → b.aligned = true → l.winEnd = none → exec (.refreshRequest g) s = .next { s with
      blk := b.mLctl fun l => { l with req := setBit64 l.req g.toNat true } }) ∧
    (b.live = true → l.req.getLsbD g.toNat = true → l.gnt.getLsbD g.toNat = false → exec (.refreshUrgent g) s = .next { s with
      blk := { b with tsu := { b.tsu with
        lctl := { l with
          urg := setBit64 l.urg g.toNat true, gnt := setBit64 l.gnt g.toNat true
          ends := (g.toNat, (b.tc + l.refDur.setWidth 64, false)) :: l.ends.filter fun e => e.1 != g.toNat }
        ctxs := smMap {} (fun x => { x with interval := x.interval.map fun i => { i with ref := sat1 i.ref } }) b.tsu.ctxs } } }) ∧
    (b.live = true → (l.req.getLsbD g.toNat = false ∨ l.gnt.getLsbD g.toNat = true) → exec (.refreshUrgent g) s = .next s) ∧
    ((l.ends.find? fun e => e.1 == g.toNat) = none → exec (.refreshGrantEnd g) s = .next s) ∧
    (∀ e, (l.ends.find? fun e => e.1 == g.toNat) = some e → b.due e.2.1 = false → exec (.refreshGrantEnd g) s = .next s) ∧
    (∀ e, (l.ends.find? fun e => e.1 == g.toNat) = some e → b.due e.2.1 = true → setBit64 l.req g.toNat false = 0 →
      exec (.refreshGrantEnd g) s = .next { s with
        blk := b.mLctl fun l => { l with
        gnt := setBit64 l.gnt g.toNat false, req := 0, urg := setBit64 l.urg g.toNat false
        ends := l.ends.filter fun x => x.1 != g.toNat } }) ∧
    (l.winT = none → exec .quietWindowOpen s = .next s) ∧
    (∀ t, l.winT = some t → b.due (t + l.qwOff.setWidth 64) = false → exec .quietWindowOpen s = .next s) ∧
    (∀ t, l.winT = some t → b.due (t + l.qwOff.setWidth 64) = true → l.req = 0 → exec .quietWindowOpen s = .next { s with
      blk := b.mLctl fun l => { l with winT := none, winEnd := some (t + l.qwOff.setWidth 64 + l.qwLen.setWidth 64) } })) ∧
  (∀ (a : Access) (s : State), s.blk.check (portReq a) 0x4000 true = .ok →
    let b := s.blk
    let ok (b : Block) := b.emit (.reg none 0 0)
    (b.tsu.pwr.st = .entering → exec (.rstCalStart a) s = .next { s with blk := ok b }) ∧
    (b.tsu.pwr.st ≠ .entering → b.armedAny = true → exec (.rstCalStart a) s = .next { s with
      blk := ok (b.mLctl fun l => { l with rstFail := true }) }) ∧
    (b.tsu.pwr.st ≠ .entering → b.armedAny = false → (b.tsu.spine.calBusy = true ∨ b.tsu.lctl.rstBusy = true) →
      exec (.rstCalStart a) s = .next { s with blk := ok b }) ∧
    (b.tsu.pwr.st ≠ .entering → b.armedAny = false → b.tsu.spine.calBusy = false → b.tsu.lctl.rstBusy = false →
      exec (.rstCalStart a) s = .next { s with
        blk := ok { b with tsu := { b.tsu with
          lctl := { b.tsu.lctl with rstStart := true, rstBusy := true }
          spine := { b.tsu.spine with
            eps := smMap {} (fun e => if e.enAtCal && e.calOk then { e with rstOk := false } else e) b.tsu.spine.eps } } } })) ∧
  (∀ (m : RstMeas) (s : State),
    let b := s.blk
    let t : Int := (b.tsu.lctl.rlatTgt.toNat * 640 : Nat) - m.rl
    (b.tsu.lctl.rstBusy = false → exec (.rstCalDone [m]) s = .next s) ∧
    (b.tsu.lctl.rstBusy = true → smKeys Endpoint.restarts b.tsu.spine.eps = [] → exec (.rstCalDone [m]) s = .next { s with
      blk := (b.mLctl fun l => { l with rstStart := false, rstBusy := false, rstDone := true }).mBoot fun t =>
        { t with rstEnded := true } }) ∧
    (b.tsu.lctl.rstBusy = true → smKeys Endpoint.restarts b.tsu.spine.eps = [m.ep.toNat] → 0 ≤ t → t ≤ 4095 →
      -8 ≤ m.resid.toInt → m.resid.toInt ≤ 8 → exec (.rstCalDone [m]) s = .next { s with
        blk := (((b.mEp m.ep.toNat fun e => { e with rtrim := BitVec.ofInt 12 t, rresid := m.resid, rstOk := true }).emit
          (.rtrim m.ep.toNat (BitVec.ofInt 12 t))).mLctl fun l => { l with rstStart := false, rstBusy := false, rstDone := true }).mBoot
            fun t => { t with rstEnded := true } }) ∧
    (b.tsu.lctl.rstBusy = true → smKeys Endpoint.restarts b.tsu.spine.eps = [m.ep.toNat] → (t < 0 ∨ 4095 < t) →
      exec (.rstCalDone [m]) s = .next { s with
        blk := ((b.mEp m.ep.toNat fun e => { e with rstOk := false, rstFault := true }).mLctl fun l => { l with
          rstStart := false, rstBusy := false, rstDone := true, rstFail := true }).mBoot fun t => { t with rstEnded := true } })) ∧
  (∀ (ep : BitVec 6) (amt : BitVec 12) (s : State),
    let b := s.blk
    let counts : Bool := (b.tsu.ctxs.any fun e => e.2.st.isArmed && e.2.reg.regions.getLsbD ep.toNat) && !(b.ep ep.toNat).quiesce
    (counts = true → exec (.stretchReport ep amt) s = .next { s with
      blk := b.mEp ep.toNat fun e => { e with cell := satAdd e.cell amt.toNat } }) ∧
    (counts = false → exec (.stretchReport ep amt) s = .next s))

/-- R269 to R272, R275, R387. Deadline timers and telemetry: a timer's registers written and refused, a timer that fires, one
whose time has passed, and the telemetry record with its counters' bases. -/
def Obligations.TimersAndTelemetry : Prop :=
  (∀ (a : Access) (d : BitVec 64) (s : State), s.blk.check (portReq a) 0x7808 true = .ok →
    let b := s.blk
    let n := b.tsu.timers.sel.toNat
    let t := b.timer n
    let mine := worldOk (portReq a) (b.ctxWorld t.ctx.toNat || b.ctxWorld (fld d 4 6 : BitVec 6).toNat)
    let t' : Timer := { t with
      en := d.getLsbD 0, action := fld d 1 2, irq := d.getLsbD 3, ctx := fld d 4 6, addr := fld d 12 19, data := fld d 32 20 }
    let ok (b : Block) := b.emit (.reg none 0 0)
    (mine = false → exec (.dtConfigWrite a (.cfg d)) s = .next { s with
      blk := ok ((b.violate 0 (portReq a) true 0x7808).mTimers fun t => { t with dtRef := true }) }) ∧
    (mine = true → d.getLsbD 0 = true → b.timeOk = false → exec (.dtConfigWrite a (.cfg d)) s = .next { s with
      blk := ok (b.mTimers fun t => { t with dtRef := true }) }) ∧
    (mine = true → d.getLsbD 0 = false → exec (.dtConfigWrite a (.cfg d)) s = .next { s with
      blk := ok (b.mTimer n fun _ => t') }) ∧
    (mine = true → d.getLsbD 0 = true → b.timeOk = true → (b.due t.at_ = false ∨ t.at_ = b.tc) →
      exec (.dtConfigWrite a (.cfg d)) s = .next { s with
        blk := ok (b.mTimer n fun _ => t') }) ∧
    (mine = true → d.getLsbD 0 = true → b.timeOk = true → b.due t.at_ = true → t.at_ ≠ b.tc →
      (fld d 1 2 : BitVec 2) = 0 → exec (.dtConfigWrite a (.cfg d)) s = .next { s with
        blk := ok ((b.mTimer n fun _ => t').mTimer n fun t => { t with en := false, fired := true, past := true }) })) ∧
  (∀ (a : Access) (x : BitVec 64) (s : State), s.blk.check (portReq a) 0x7810 true = .ok →
    let b := s.blk
    let n := b.tsu.timers.sel.toNat
    let t := b.timer n
    let mine := worldOk (portReq a) (b.ctxWorld t.ctx.toNat)
    let ok (b : Block) := b.emit (.reg none 0 0)
    (mine = false → exec (.dtConfigWrite a (.at x)) s = .next { s with
      blk := ok ((b.violate 0 (portReq a) true 0x7810).mTimers fun t => { t with dtRef := true }) }) ∧
    (mine = true → b.timeOk = false → exec (.dtConfigWrite a (.at x)) s = .next { s with blk := ok b }) ∧
    (mine = true → b.timeOk = true → (t.en = false ∨ b.due x = false ∨ x = b.tc) →
      exec (.dtConfigWrite a (.at x)) s = .next { s with
        blk := ok (b.mTimer n fun t => { t with at_ := x }) })) ∧
  (∀ (n : BitVec 12) (s : State),
    let b := s.blk
    let t := b.timer n.toNat
    let fired := b.mTimer n.toNat fun t => { t with en := false, fired := true }
    (b.live = false ∨ t.en = false ∨ b.due t.at_ = false → exec (.dtFire n) s = .next s) ∧
    (b.live = true → t.en = true → b.due t.at_ = true → t.action = 0 → exec (.dtFire n) s = .next { s with blk := fired }) ∧
    (b.live = true → t.en = true → b.due t.at_ = true → t.action ≠ 0 → t.action ≠ 3 →
      exec (.dtFire n) s = .next { s with
        blk := fired.onWord t.addr.toNat (.timer n.toNat) fun b => b.timerAct n.toNat }) ∧
    (b.live = true → t.en = true → b.due t.at_ = true → t.action = 3 → exec (.dtFire n) s = .next { s with
      blk := fired.onEngine (.timer n.toNat) fun b => b.timerAct n.toNat })) ∧
  (∀ (s : State),
    let b := s.blk
    let base (k : LaneLink) : LaneLink :=
      { k with telCorr := k.cnt.fecCorr, telReplay := k.cnt.replay, telDrop := k.cnt.syncDrop }
    (b.telDue = false → exec .telemetryRecord s = .next s) ∧
    (b.telDue = true → exec .telemetryRecord s = .next { s with
      blk := ({ b with tsu := { b.tsu with
        tel := { b.tsu.tel with seq := b.tsu.tel.seq + 1 }
        laneA := { b.tsu.laneA with link := base b.tsu.laneA.link }
        laneB := { b.tsu.laneB with link := base b.tsu.laneB.link } } } : Block).present
          .telemetry b.tsu.tel.ch.toNat b.telRecord }) ∧
    b.telRecord.length = 64)

/-- R97 to R109, R444. A root's candidates: edges in and out of their window, labels, ToD messages, the losses of an input and
of its 10 MHz, PTP and ESMC with their time-outs, and the AON clock monitor. -/
def Obligations.ReferenceInputs : Prop :=
  (∀ (n : BitVec 2) (t : Ts) (s : State),
    let b := s.blk
    let k := n.toNat
    let r := b.ref k
    let e := tsUnits t
    let inWin := match r.lastEdge with
      | none => true
      | some x => decide ((e - x - 800000000000).natAbs ≤ 800000)
    (b.dRole ≠ 3 ∨ b.refType k ≠ 1 ∨ t.fine = 0x3FF → exec (.ppsEdge n t) s = .next s) ∧
    (b.dRole = 3 → b.refType k = 1 → t.fine ≠ 0x3FF → inWin = true → r.label = none → exec (.ppsEdge n t) s = .next { s with
      blk := (b.mRef k fun r => { r with lastEdge := some e, miss := 0, label := none, goodRun := 0 }).refsChange }) ∧
    (b.dRole = 3 → b.refType k = 1 → t.fine ≠ 0x3FF → inWin = false → r.miss = 0 → exec (.ppsEdge n t) s = .next { s with
      blk := (b.bucket (some (24 + k)) 5 1).mRef k fun r => { r with miss := 1, goodRun := 0 } }) ∧
    (b.dRole = 3 → b.refType k = 1 → t.fine ≠ 0x3FF → inWin = false → 1 ≤ r.miss → r.good = true →
      exec (.ppsEdge n t) s = .next { s with
        blk := (((b.bucket (some (24 + k)) 5 1).mRef k fun r => { r with miss := r.miss + 1, goodRun := 0 }).mRef k fun r =>
          { r with good := false, goodRun := 0, miss := 0, lastEdge := none, hist := [] }).candLost k }) ∧
    (∀ sec, b.dRole = 3 → b.refType k = 1 → t.fine ≠ 0x3FF → inWin = true → r.label = some sec →
      ht96ToTc64 b.dist.time.epoch ⟨sec, 0, 0⟩ = none → b.dist.root.role = 2 → exec (.ppsEdge n t) s = .next { s with
        blk := b.mRef k fun r => { r with
        lastEdge := some e, miss := 0, label := none, goodRun := r.goodRun + 1
        good := r.good || decide (4 ≤ r.goodRun + 1) } }) ∧
    (b.refType k ≠ 1 → exec (.ppsEdgeMissing n) s = .next s) ∧
    (b.refType k = 1 → r.miss = 0 → exec (.ppsEdgeMissing n) s = .next { s with
      blk := b.mRef k fun r => { r with miss := 1, goodRun := 0 } }) ∧
    (b.refType k = 1 → 1 ≤ r.miss → r.good = true → exec (.ppsEdgeMissing n) s = .next { s with
      blk := ((b.mRef k fun r => { r with miss := r.miss + 1, goodRun := 0 }).mRef k fun r =>
        { r with good := false, goodRun := 0, miss := 0, lastEdge := none, hist := [] }).candLost k }) ∧
    exec (.tenmhzLoss n) s = .next { s with
      blk := b.mRef k fun r => { r with tenGood := false } } ∧
    (b.refType k = 2 → exec (.tenmhzRecover n) s = .next { s with
      blk := b.mRef k fun r => { r with tenGood := true } }) ∧
    (b.refType k ≠ 2 → exec (.tenmhzRecover n) s = .next s) ∧
    (b.candValid k = false → exec (.todTimeout n) s = .next { s with
      blk := b.mRef k fun r => { r with todGood := false, todRun := 0, todBad := 0, prevSec := none, ql := 15 } }) ∧
    (b.candValid k = true → exec (.todTimeout n) s = .next { s with
      blk := (b.mRef k fun r => { r with todGood := false, todRun := 0, todBad := 0, prevSec := none, ql := 15 }).candLost k })) ∧
  (∀ (n : BitVec 2) (m : Bytes) (sec : BitVec 48) (ql : BitVec 4) (fl : Byte) (s : State),
    let b := s.blk
    let k := n.toNat
    let r := b.ref k
    (b.dRole ≠ 3 ∨ todParse m = none → exec (.todMessageReceive n m) s = .next s) ∧
    (b.dRole = 3 → todParse m = some (sec, ql, fl) → r.lastEdge = none → r.prevSec = none →
      exec (.todMessageReceive n m) s = .next { s with
        blk := (b.mRef k fun r => { r with
        label := some sec, prevSec := some sec, ql := todQl ql fl, todRun := r.todRun + 1, todBad := 0
        todGood := r.todGood || decide (3 ≤ r.todRun + 1) }).refsChange }) ∧
    (∀ p, b.dRole = 3 → todParse m = some (sec, ql, fl) → r.prevSec = some p → sec ≠ p + 1 →
      exec (.todMessageReceive n m) s = .next s) ∧
    (∀ e, b.dRole = 3 → todParse m = some (sec, ql, fl) → r.lastEdge = some e →
      (b.dist.time.tc64.toNat : Int) * 640 - e < 80000000000 ∨ 720000000000 < (b.dist.time.tc64.toNat : Int) * 640 - e →
      exec (.todMessageReceive n m) s = .next s)) ∧
  (∀ (n : Bool) (dom cls acc : Byte) (ts : Bool) (off : Int) (s : State),
    let b := s.blk
    let k := n.toNat
    let was := b.candValid (4 + k)
    (b.dRole ≠ 3 ∨ b.catNat .dist (0x2205 + k) 1 ≠ 1 ∨ dom.toNat ≠ b.catNat .dist (0x2205 + k) 2 →
      exec (.ptpMessageReceive n (.announce dom cls acc ts)) s = .next s ∧
      exec (.ptpMessageReceive n (.exchange dom off)) s = .next s) ∧
    (b.dRole = 3 → b.catNat .dist (0x2205 + k) 1 = 1 → dom.toNat = b.catNat .dist (0x2205 + k) 2 →
      (was = false → ts = true → exec (.ptpMessageReceive n (.announce dom cls acc ts)) s = .next { s with
        blk := (b.mPtp k fun p => { p with announced := true, ql := ptpQl cls acc }).refsChange }) ∧
      (was = true → ts = true → ptpQl cls acc = (b.ptp k).ql → exec (.ptpMessageReceive n (.announce dom cls acc ts)) s = .next { s with
        blk := (b.mPtp k fun p => { p with announced := true, ql := ptpQl cls acc }).refsChange }) ∧
      (was = false → exec (.ptpMessageReceive n (.exchange dom off)) s = .next s) ∧
      (was = true → exec (.ptpMessageReceive n (.exchange dom off)) s = .next { s with
        blk := (b.mPtp k fun p => { p with hist := (2 * (off - b.catInt .dist (0x2205 + k) 7) :: p.hist).take 16 }).rootIn (4 + k)
          (2 * (off - b.catInt .dist (0x2205 + k) 7)) ((2 * (off - b.catInt .dist (0x2205 + k) 7) :: (b.ptp k).hist).take 16) })) ∧
    (was = false → exec (.ptpAnnounceTimeout n) s = .next { s with
      blk := b.mPtp k fun p => { p with announced := false } }) ∧
    (was = true → exec (.ptpAnnounceTimeout n) s = .next { s with
      blk := (b.mPtp k fun p => { p with announced := false }).candLost (4 + k) }) ∧
    (∀ code ext, exec (.esmcReceive n code ext) s = .next { s with
      blk := b.mPtp k fun p => { p with syncE := esmcQl (b.catNat .dist (0x2205 + k) 6) code ext } }) ∧
    exec (.esmcTimeout n) s = .next { s with
      blk := b.mPtp k fun p => { p with syncE := 15 } }) ∧
  (∀ (s : State),
    let b := s.blk
    exec (.aonClockLoss .tsu) s = .next { s with
      blk := { b with tsu := { b.tsu with
        tdc := { b.tsu.tdc with aonLost := true }, servo := { b.tsu.servo with refLost := true } } } } ∧
    exec (.aonClockLoss .dist) s = .next { s with
      blk := { b with dist := { b.dist with
        tdc := { b.dist.tdc with aonLost := true }, servo := { b.dist.servo with refLost := true } } } } ∧
    exec (.aonClockRecover .tsu) s = .next { s with
      blk := { b with tsu := { b.tsu with tdc := { b.tsu.tdc with aonLost := false } } } } ∧
    exec (.aonClockRecover .dist) s = .next { s with
      blk := { b with dist := { b.dist with tdc := { b.dist.tdc with aonLost := false } } } })

/-- R94, R104, R105, R107, R109. A root's selection and roles: what a hold-off and a wait-to-restore choose, the tie hold-off's
three situations, the planned switch, and learning of the ageing, whose estimate is a free value (log entry 3). -/
def Obligations.RootSelection : Prop :=
  ∀ (s : State),
    let b := s.blk
    let r := b.dist.root
    let t := BitVec.ofNat 64 (b.catNat .dist 0x2120 2)
    let pref := b.catNat .dist 0x2120 1
    (r.holdoff = none → exec .refHoldoffExpire s = .next s) ∧
    (∀ h c, r.holdoff = some h → b.candBest = some c → exec .refHoldoffExpire s = .next { s with
      blk := b.mRoot fun r => { r with
      selected := some (BitVec.ofNat 3 c), holdoff := none, refLost := false
      rsrc := if b.dist.time.timeValid then (if c < 4 then 1 else 2) else r.rsrc } }) ∧
    (∀ h, r.holdoff = some h → b.candBest = none → exec .refHoldoffExpire s = .next { s with
      blk := (b.mRoot fun r => { r with
      selected := none, holdoff := none, refLost := true
      rsrc := if b.dist.time.timeValid then 4 else r.rsrc }).runNominal }) ∧
    (∀ c : BitVec 3, b.candValid c.toNat = false → exec (.refWtrExpire c) s = .next s) ∧
    (∀ c : BitVec 3, b.candValid c.toNat = true → exec (.refWtrExpire c) s = .next { s with
      blk := (b.mRoot fun r => { r with wtr := r.wtr &&& ~~~(1#6 <<< c.toNat) }).refsChange }) ∧
    (b.dRole ≠ 3 → exec .tieHoldoffExpire s = .next s ∧ exec .tieSwitchAt s = .next s ∧ exec .ageingLearn s = .next s) ∧
    (b.dRole = 3 → r.role = 0 → b.dist.time.timeValid = false → b.xmst = false → r.tieValid = false →
      exec .tieHoldoffExpire s = .next { s with
        blk := b.mRoot fun r => { r with role := 1 } }) ∧
    (b.dRole = 3 → r.role = 2 → b.xmst = false → r.tieValid = false → exec .tieHoldoffExpire s = .next { s with
      blk := (b.mRoot fun r => { r with role := 1, tlk := false, holdoff := none }).selectCand b.candBest }) ∧
    (b.dRole = 3 → r.role = 1 → b.xmst = true → exec .tieHoldoffExpire s = .next { s with
      blk := if (if pref = Config.otherRolePref then b.dPlane == .B else pref == 1) then
        (b.mRoot fun r => { r with
        role := 2, tlk := false, small := 0, large := 0, tieWins := 0, tieHist := [], selected := none, holdoff := none
        rsrc := if b.dist.time.timeValid then 3 else 0 }).measure .dist
        else b }) ∧
    (t = 0 ∨ Tick.le t b.dist.time.tc64 = false → exec .tieSwitchAt s = .next s) ∧
    (b.dRole = 3 → t ≠ 0 → Tick.le t b.dist.time.tc64 = true → r.role = 1 → exec .tieSwitchAt s = .next { s with
      blk := b.mRoot fun r => { r with
      role := 2, tlk := false, small := 0, large := 0, tieWins := 0, tieHist := [], selected := none, holdoff := none
      rsrc := if b.dist.time.timeValid then 3 else 0 } }) ∧
    (b.dRole = 3 → t ≠ 0 → Tick.le t b.dist.time.tc64 = true → r.role = 2 → exec .tieSwitchAt s = .next { s with
      blk := (b.mRoot fun r => { r with role := 1, tlk := false, holdoff := none }).selectCand b.candBest }) ∧
    (b.dRole = 3 → r.selected = none → b.catNat .dist 0x2220 4 ≠ 1 → exec .ageingLearn s = .next s) ∧
    (b.dRole = 3 → r.selected ≠ none → b.catNat .dist 0x2220 4 ≠ 1 → exec .ageingLearn s = .next { s with
      blk := { b with
        free := b.free + 1
        dist := { b.dist with root := { r with ageingEst := (Config.freeValue b.free).setWidth 32 } } } }) ∧
    (b.dRole = 3 → r.selected = none → b.catNat .dist 0x2220 4 = 1 → exec .ageingLearn s = .next { s with
      blk := b.catSetNat .dist 0x2220 3 r.ageingEst.toNat })

/-- R10, R36, R110, R123, R143, R279, R341, R346, R358, R359. A register write: refused where no register decodes, otherwise
done by its block; RW fields, write-1-to-clear bits and limits, registers that an EN or a state protects, and RW-S bits, whose
change from the non-secure world is a violation while the other fields are applied. -/
def Obligations.RegisterWrites : Prop :=
  (∀ (a : Access) (w : Bool) (x : BitVec 24) (d : BitVec 64) (s : State),
    let b := s.blk
    let q := portReq a
    let c := x.toNat / 8 * 8
    let m : BitVec 64 := if w then BitVec.allOnes 64 else if x.toNat % 8 = 4 then 0xFFFFFFFF00000000 else 0xFFFFFFFF
    let v : BitVec 64 := if !w && x.toNat % 8 == 4 then d <<< 32 else d
    (b.tsu.boot.tsuRst = true → exec (.registerWrite a w x d) s = .next s) ∧
    (b.tsu.boot.tsuRst = false → regAssigned x.toNat = false → exec (.registerWrite a w x d) s = .next { s with
      blk := b.emit (.reg none 1 0) }) ∧
    (b.tsu.boot.tsuRst = false → regAssigned x.toNat = true → x.toNat < 0x400000 → isFreeze c = false →
      (b.check q x.toNat (b.wrWorldOk q c) = .ok → exec (.registerWrite a w x d) s = .next { s with
        blk := (b.regWrite q x.toNat v m).emit (.reg none 0 0) }) ∧
      (b.check q x.toNat (b.wrWorldOk q c) = .violation → exec (.registerWrite a w x d) s = .next { s with
        blk := (b.violate 0 q true (BitVec.ofNat 64 x.toNat)).emit (.reg none 0 0) }) ∧
      (b.check q x.toNat (b.wrWorldOk q c) = .power → exec (.registerWrite a w x d) s = .next { s with
        blk := (b.mPwr fun p => { p with pwrAcc := true }).emit (.reg none 2 0) }))) ∧
  (∀ (q : Req) (d : BitVec 64) (b : Block),
    let all := BitVec.allOnes 64
    let lim (v : BitVec 28) : BitVec 28 := if 219902326 < v.toNat then 219902326 else v
    let brim (v : BitVec 16) : BitVec 16 := if v.toNat < 64 then 64 else v
    b.regWrite q 0x10 d all = (b.mPwr fun p => { p with pwrLost := p.pwrLost && !d.getLsbD 7 }) ∧
    (q.secure = true → b.regWrite q 0x1408 d all = b.mServo .tsu fun s => { s with slew := lim (fld d 0 28) }) ∧
    (q.secure = false → (d ^^^ b.regRead q 0x1408) &&& 0x0FFFFFFF ≠ 0 → b.regWrite q 0x1408 d all =
      (b.violate q.src q true 0x1408).mServo .tsu fun s => { s with slew := lim (fld (b.regRead q 0x1408) 0 28) }) ∧
    b.regWrite q 0x1418 d all = b.mServo .tsu (fun s => { s with lockThr := fld d 0 16, unlockThr := fld d 16 16 }) ∧
    b.regWrite q 0x4010 d all = b.mLctl (fun l => { l with qwOff := fld d 0 32, qwLen := fld d 32 16, refDur := fld d 48 16 }) ∧
    b.regWrite q 0x6000 d all = b.mBar (fun x => { x with sel := fld d 0 12 }) ∧
    b.regWrite q 0x7800 d all = b.mTimers (fun t => { t with sel := fld d 0 12 }) ∧
    b.regWrite q 0xA000 d all = b.mDm (fun x => { x with pollInt := fld d 0 16 }) ∧
    b.regWrite q 0xB000 d all = b.mStr (fun s => { s with stallLimit := fld d 0 16, outWait := fld d 16 32 }) ∧
    b.regWrite q 0xD010 d all = b.mGnt (fun g => { g with crsel := fld d 0 6 }) ∧
    b.regWrite q 0xE008 d all = b.mPwr (fun p => { p with engIdle := fld d 0 32, engLead := fld d 32 16 }) ∧
    (∀ c : Ctx6,
      let page := 0x100000 + 0x400 * c.toNat
      ((b.ctx c.toNat).st = .idle → b.regWrite q (page + 0x220) d all = b.mCtxReg c.toNat fun r => { r with job := fld d 0 32 }) ∧
      ((b.ctx c.toNat).st ≠ .idle → b.regWrite q (page + 0x220) d all = b) ∧
      b.regWrite q (page + 0x258) d all = b.mCtxReg c.toNat (fun r => { r with
        brimInit := fld d 16 16, brimMin := brim (fld d 32 16), brimMax := brim (fld d 48 16) }))) ∧
  (∀ (r : DebugReq) (s : State),
    let b := s.blk
    let x := r.addr.toNat
    let c := x / 8 * 8
    let m : BitVec 64 := if r.size64 then BitVec.allOnes 64 else if x % 8 = 4 then 0xFFFFFFFF00000000 else 0xFFFFFFFF
    let v : BitVec 64 := if !r.size64 && x % 8 == 4 then r.data <<< 32 else r.data
    let part : BitVec 64 :=
      if r.size64 then b.regRead ⟨r.secure, 2, true⟩ c else if x % 8 = 4 then b.regRead ⟨r.secure, 2, true⟩ c >>> 32
      else b.regRead ⟨r.secure, 2, true⟩ c &&& 0xFFFFFFFF
    (b.tsu.boot.tsuRst = true → exec (.debugAccess r) s = .next s) ∧
    (b.tsu.boot.tsuRst = false → b.tsu.dbg.level = 0 → 0x1000 ≤ x → isUnlockReg x = false →
      (r.write = true → isFreeze c = false) → exec (.debugAccess r) s = .next { s with
        blk := (b.mDbg fun d => { d with dbgRef := true }).emit (.dbg r.tag 0 0) }) ∧
    (b.tsu.boot.tsuRst = false → b.tsu.dbg.level = 1 → r.secure = true → 0x1000 ≤ x → isUnlockReg x = false →
      (r.write = true → isFreeze c = false) → exec (.debugAccess r) s = .next { s with
        blk := (b.violate 8 ⟨r.secure, 2, true⟩ r.write (BitVec.ofNat 64 x)).emit (.dbg r.tag 0 0) }) ∧
    (b.tsu.boot.tsuRst = false → 2 ≤ b.tsu.dbg.level.toNat → 0x1000 ≤ x → x < 0x100000 → (x < 0xD000 ∨ 0xE000 ≤ x) →
      isUnlockReg x = false → regAssigned x = true → b.nibbleOk ⟨r.secure, 2, true⟩ x = true → b.targetOn x = true →
      (r.write = true → isFreeze c = false → b.wrWorldOk ⟨r.secure, 2, true⟩ c = true →
        exec (.debugAccess r) s = .next { s with
          blk := (b.regWrite ⟨r.secure, 2, true⟩ x v m).emit (.dbg r.tag 0 0) }) ∧
      (r.write = false → worldOk ⟨r.secure, 2, true⟩ (b.regSecure c) = true → exec (.debugAccess r) s = .next { s with
        blk := b.emit (.dbg r.tag 0 part) })))

/-- R49 to R57, R61, R91, R92. The sync exchange: the two frames sent with their timestamps, a received frame that completes
an exchange, accepted with d2 and th2 or counted in SYNC_DROP, one that completes none, a compressed frame read as the
extended one, and the loss of sync. -/
def Obligations.SyncExchange : Prop :=
  (∀ (n : Nat) (tx : Ts) (s : State), n < 288 →
    let b := s.blk
    let l := LaneRef.dist n
    let x := b.lane l
    let f : SyncFrame :=
      { cmp := b.compress l, sseq := x.sync.sseqTx, tv := b.dist.time.timeValid, pcal := b.pcalDown, dir := false
        pmv := b.dist.root.tieValid, txPrev := x.sync.prevTx.getD ⟨0, 0x3FF⟩, rxSeq := x.sync.rxSeq
        rxTs := x.sync.rxTs.getD ⟨0, 0x3FF⟩, epoch := b.dist.time.epoch, pmean := b.dist.root.mean, dsum := 0, dcnt := 0
        servo := if x.reg.featEff.getLsbD 16 then b.servoDown else 0 }
    (b.up l = false ∨ b.sendsDown = false → exec (.syncSendDown n tx) s = .next s) ∧
    (b.up l = true → b.sendsDown = true → exec (.syncSendDown n tx) s = .next { s with
      blk := ((b.send l false (.sync f)).sentAt l x.sync.sseqTx tx).mSync l fun y => { y with sseqTx := x.sync.sseqTx + 1 } })) ∧
  (∀ (l : LaneRef) (tx : Ts) (s : State), l.ok = true →
    let b := s.blk
    let x := b.lane l
    let f : SyncFrame :=
      { cmp := b.compress l, sseq := x.sync.rxSeq, tv := (b.timeOf (laneUnit l)).timeValid, pcal := false, dir := true
        pmv := false, txPrev := x.sync.prevTx.getD ⟨0, 0x3FF⟩, rxSeq := x.sync.rxSeq
        rxTs := x.sync.rxTs.getD ⟨0, 0x3FF⟩, epoch := ⟨0, 0, 0⟩, pmean := 0, dsum := (b.sumsUp l).1, dcnt := (b.sumsUp l).2
        servo := if x.reg.featEff.getLsbD 16 then putB 63 (b.xmstUp l) else 0 }
    (b.up l = false ∨ x.sync.answer = false → exec (.syncSendUp l tx) s = .next s) ∧
    (b.up l = true → x.sync.answer = true → exec (.syncSendUp l tx) s = .next { s with
      blk := ((b.send l false (.sync f)).sentAt l x.sync.rxSeq tx).mSync l fun y => { y with answer := false } }) ∧
    (b.up l = false → exec (.syncLossDetect l) s = .next s) ∧
    (b.up l = true → 16 * 4096 ≤ Tick.diff (b.tcOf (laneUnit l)) x.sync.lastRxAt → exec (.syncLossDetect l) s = .next { s with
      blk := (b.mLane l fun x => { x with
      reg := { x.reg with syncLoss := true, pcalRx := false, tvRx := false, refined := false }
      sync := { x.sync with periods := List.replicate 16 false } }).servoLoss l }) ∧
    (b.up l = true → Tick.diff (b.tcOf (laneUnit l)) x.sync.lastRxAt < 16 * 4096 → exec (.syncLossDetect l) s = .next { s with
      blk := (b.mLane l fun x => { x with
      reg := { x.reg with syncLoss := true }, sync := { x.sync with periods := List.replicate 16 false } }).servoLoss l })) ∧
  (∀ (l : LaneRef) (h : Hdr) (f : SyncFrame) (rx : Ts) (s : State), l.ok = true → f.cmp = true →
    exec (.syncFrameReceive l h f rx) s = exec (.syncFrameReceive l h { f with
      cmp := false, txPrev := extendTs (s.blk.tcOf (laneUnit l)) f.txPrev
      rxTs := extendTs (s.blk.tcOf (laneUnit l)) f.rxTs } rx) s) ∧
  (∀ (p : Plane) (h : Hdr) (f : SyncFrame) (rx t2 t3 : Ts) (s : State), s.blk.rxOk (.tsu p) h 0 0 false = true →
    s.blk.dRole ≠ 3 → f.cmp = false →
    let l := LaneRef.tsu p
    let b := s.blk.rxBook l h 0
    let x := s.blk.lane l
    let now := s.blk.tc
    let took := (b.mLane l fun x => x.takeFields f (if x.sync.dllLock && rx.fine != 0x3FF then some rx else none) now).takeEpoch l f
    let d2 := tsDiff t2 f.txPrev + tsDiff f.rxTs t3
    let th2 := tsDiff t2 f.txPrev - tsDiff f.rxTs t3 - (aClass x.reg.cableClass + x.reg.aRef.toInt)
    (f.dir = true → exec (.syncFrameReceive l h f rx) s = .next { s with blk := b }) ∧
    (f.dir = false → (f.sseq ≠ x.sync.rxSeq + 1 ∨ f.rxSeq ≠ x.sync.rxSeq ∨ x.sync.prevTxSeq ≠ x.sync.rxSeq ∨
        f.txPrev.fine = 0x3FF ∨ f.rxTs.fine = 0x3FF ∨ x.sync.rxTs = none ∨ x.sync.prevTx = none) →
      exec (.syncFrameReceive l h f rx) s = .next { s with
        blk := (took.mLane l fun x => { x with sync := { x.sync with periods := (false :: x.sync.periods).take 16 } }).servoLoss l }) ∧
    (f.dir = false → f.sseq = x.sync.rxSeq + 1 → f.rxSeq = x.sync.rxSeq → x.sync.prevTxSeq = x.sync.rxSeq →
      f.txPrev.fine ≠ 0x3FF → f.rxTs.fine ≠ 0x3FF → x.sync.rxTs = some t2 → x.sync.prevTx = some t3 →
      let ok : Bool := decide (0 ≤ d2) && (decide (x.sync.accN < 16) ||
        decide ((d2 - median x.sync.d2s).natAbs ≤ 2 * x.reg.delayWin.toNat))
      (ok = true → exec (.syncFrameReceive l h f rx) s = .next { s with
        blk := ((took.mLane l fun x => { x with
        reg := { x.reg with delay2 := BitVec.ofInt 32 d2, offset2 := BitVec.ofInt 64 th2 }
        sync := { x.sync with
          accN := x.sync.accN + 1, d2s := (d2 :: x.sync.d2s).take 15, th2s := (th2 :: x.sync.th2s).take 16
          periods := (true :: x.sync.periods).take 16, winSum := x.sync.winSum + th2
          winN := x.sync.winN + 1 } }).tsuExchange p th2).promise }) ∧
      (ok = false → exec (.syncFrameReceive l h f rx) s = .next { s with
        blk := ((took.mLane l fun x => { x with sync := { x.sync with periods := (false :: x.sync.periods).take 16 } }).mCnt l
          fun c => { c with syncDrop := sat1 c.syncDrop }).servoLoss l }))) ∧
  (∀ (n : Nat) (h : Hdr) (f : SyncFrame) (rx t1 t2 t4 : Ts) (s : State), n < 288 →
    s.blk.rxOk (.dist n) h 0 0 false = true → s.blk.dRole ≠ 3 → f.cmp = false → f.dir = true →
    let l := LaneRef.dist n
    let x := s.blk.lane l
    let took := (s.blk.rxBook l h 0).mLane l fun x => x.takeFields f (x.capture rx) s.blk.dist.time.tc64
    let d2 := tsDiff t2 t1 + tsDiff t4 f.txPrev
    let th2 := tsDiff t2 t1 - tsDiff t4 f.txPrev - (aClass x.reg.cableClass + x.reg.aRef.toInt)
    f.sseq = x.sync.rxSeq + 1 → x.sync.prevTxSeq = x.sync.rxSeq + 1 → f.txPrev.fine ≠ 0x3FF → x.sync.prev2Tx = some t1 →
    x.sync.peerRx = some t2 → x.sync.rxTs = some t4 → 0 ≤ d2 → x.sync.accN < 16 →
    exec (.syncFrameReceive l h f rx) s = .next { s with
      blk := took.mLane l fun x => x.accept d2 th2 })

/-- R53 to R55, R58, R60 to R63, R71, R72, R109, R348, R394. The TDC's channels and its code-density calibration, and the end
of a refinement window at a die and at a distributor. -/
def Obligations.TdcAndRefinement : Prop :=
  (∀ (p : Plane) (n : Nat) (s : State), n < 312 →
    let b := s.blk
    let ch : TdcCh := match p with | .A => .laneA | .B => .laneB
    exec (.dllUnlock ch) s = .next { s with
      blk := (b.mSync (.tsu p) fun x => { x with dllLock := false }).mTdc .tsu fun t => { t with dllUnlock := true } } ∧
    exec (.dllUnlock (.dist n)) s = .next { s with
      blk := (b.mSync (.dist n) fun x => { x with dllLock := false }).mTdc .dist fun t => { t with dllUnlock := true } } ∧
    exec (.dllUnlock .spine) s = .next { s with
      blk := b.mTdc .tsu fun t => { t with spineLock := false, dllUnlock := true } } ∧
    exec (.dllLockRegain ch) s = .next { s with
      blk := b.mSync (.tsu p) fun x => { x with dllLock := true } } ∧
    exec (.dllLockRegain (.dist n)) s = .next { s with
      blk := b.mSync (.dist n) fun x => { x with dllLock := true } } ∧
    exec (.dllLockRegain .spine) s = .next { s with
      blk := b.mTdc .tsu fun t => { t with spineLock := true } } ∧
    exec (.tdcCaptureDiscard ch) s = .next { s with
      blk := b.mSync (.tsu p) fun x => { x with tdcOvf := true, prevTx := none, rxTs := none } } ∧
    exec (.tdcCaptureDiscard (.dist n)) s = .next { s with
      blk := b.mSync (.dist n) fun x => { x with tdcOvf := true, prevTx := none, rxTs := none } } ∧
    exec (.tdcCaptureDiscard .spine) s = .next { s with
      blk := b.mTdc .tsu fun t => { t with spineOvf := true } }) ∧
  (∀ (a : Access) (inl : BitVec 8) (s : State),
    let b := s.blk
    let t := b.tsu.tdc
    let d := b.dist.tdc
    (b.check (portReq a) 0x3000 true = .ok → t.busy = false → t.aonLost = false → b.tsu.pwr.st ≠ .entering →
      exec (.cdcStart a .tsu) s = .next { s with
        blk := (b.mTdc .tsu fun t => { t with busy := true }).emit (.reg none 0 0) }) ∧
    (b.check (portReq a) 0x3000 true = .ok → (t.busy = true ∨ t.aonLost = true ∨ b.tsu.pwr.st = .entering) →
      exec (.cdcStart a .tsu) s = .next { s with
        blk := b.emit (.reg none 0 0) }) ∧
    (d.busy = false → d.aonLost = false → exec (.cdcStart a .dist) s = .next { s with
      blk := b.mTdc .dist fun t => { t with busy := true } }) ∧
    (d.busy = true ∨ d.aonLost = true → exec (.cdcStart a .dist) s = .next s) ∧
    (t.busy = false → exec (.cdcDone .tsu inl) s = .next s) ∧
    (t.busy = true → b.tsu.boot.cdcEnded = true → exec (.cdcDone .tsu inl) s = .next { s with
      blk := b.mTdc .tsu fun t => { t with busy := false, done := true, inlMax := inl, table := t.table + 1 } }) ∧
    (t.busy = true → b.tsu.boot.cdcEnded = false → exec (.cdcDone .tsu inl) s = .next { s with
      blk := ((b.mTdc .tsu fun t => { t with busy := false, done := true, inlMax := inl, table := t.table + 1 }).mBoot fun t =>
        { t with cdcEnded := true }).calBegin }) ∧
    (d.busy = true → exec (.cdcDone .dist inl) s = .next { s with
      blk := b.mTdc .dist fun t => { t with busy := false, done := true, inlMax := inl, table := t.table + 1 } }) ∧
    (d.busy = false → exec (.cdcDone .dist inl) s = .next s)) ∧
  (∀ (s : State),
    let b := s.blk
    let x := b.tsu.laneA
    let y := b.tsu.laneB
    let m : Int := x.winMean - y.winMean
    ((x.sync.winN = 0 ∨ y.sync.winN = 0) → ∃ t, exec (.refineWindowEnd .tsu) s = .next t ∧ t.pending = s.pending ∧
      t.blk.tsu.abDiff = 0 ∧ t.blk.tsu.laneA.sync.dcnt = 0 ∧ t.blk.tsu.laneB.sync.dcnt = 0 ∧
      t.blk.tsu.laneA.sync.dsum = 0 ∧ t.blk.tsu.laneA.sync.winN = 0 ∧ t.blk.tsu.laneA.reg = x.reg ∧
      t.blk.tsu.laneB.reg = y.reg ∧ t.blk.tsu.laneA.link = x.link ∧ t.blk.tsu.ctxs = b.tsu.ctxs ∧
      t.blk.dist = b.dist ∧ t.blk.out = b.out) ∧
    (x.sync.winN ≠ 0 → y.sync.winN ≠ 0 → aBound x.reg.cableClass ≠ none → aBound y.reg.cableClass ≠ none →
      x.reg.topoRes ≠ 2 → y.reg.topoRes ≠ 2 → b.tsu.time.epochDiff = false →
      ∃ t, exec (.refineWindowEnd .tsu) s = .next t ∧ t.pending = s.pending ∧ t.blk.dist = b.dist ∧ t.blk.out = b.out ∧
        t.blk.tsu.abDiff = BitVec.ofInt 32 m ∧ t.blk.tsu.laneA.sync.dsum = BitVec.ofInt 48 m ∧
        t.blk.tsu.laneB.sync.dsum = BitVec.ofInt 48 m ∧ t.blk.tsu.laneA.sync.dcnt = 1 ∧ t.blk.tsu.laneB.sync.dcnt = 1 ∧
        (∀ k, aBound x.reg.cableClass = some k → x.reg.refineEn = true → x.reg.pcalRx = true → x.sync.pmv = true →
          let e := Int.tdiv (m - x.reg.pmean.toInt) (if x.reg.refined then 32 else 4)
          t.blk.tsu.laneA.reg.aRef = BitVec.ofInt 16 (clampI (-k) k (x.reg.aRef.toInt + e)) ∧
          (k < (x.reg.aRef.toInt + e).natAbs → t.blk.tsu.laneA.reg.asymLimit = true)) ∧
        (∀ k, aBound y.reg.cableClass = some k → y.reg.refineEn = true → y.reg.pcalRx = true → y.sync.pmv = true →
          let e := Int.tdiv (m - y.reg.pmean.toInt) (if y.reg.refined then 32 else 4)
          t.blk.tsu.laneB.reg.aRef = BitVec.ofInt 16 (clampI (-k) k (y.reg.aRef.toInt - e))) ∧
        (x.reg.refineEn = false → t.blk.tsu.laneA.reg = x.reg))) ∧
  (∀ (s : State),
    let b := s.blk
    let ch := b.dist.lanes.filter fun e => e.1 < 288 && e.2.reg.state == .up
    let n : Nat := ch.foldl (fun a e => a + e.2.sync.dcnt.toNat) 0
    let d : Int := ch.foldl (fun a e => a + e.2.sync.dsum.toInt) 0
    b.dRole ≠ 3 → b.dist.servo.timing = none → ∃ t, exec (.refineWindowEnd .dist) s = .next t ∧ t.pending = s.pending ∧
      t.blk.tsu = b.tsu ∧ t.blk.out = b.out ∧ t.blk.dist.root.sumD = BitVec.ofInt 48 d ∧
      t.blk.dist.root.sumN = BitVec.ofNat 16 n ∧ t.blk.dist.root.tieValid = decide (8 ≤ n) ∧
      t.blk.dist.root.mean = satI 32 (if n = 0 then 0 else Int.tdiv d n))

/-- A step takes the command at the front of the queue and runs it with the queue's rest (this model's form of a block: its
commands wait in a queue, first in, first out). -/
def Obligations.StepServesFront : Prop :=
  ∀ (c : Instr) (q : List Instr) (s : State),
    step { s with pending := c :: q } = exec c { s with pending := q } ∧
    (s.pending = c :: q → step s = exec c { s with pending := q })

/-- With an empty queue one tick of hall time passes (R13, R22, R349; that a step on an empty queue is one tick is the model's
choice, log entry 1): each unit whose clock runs counts one, LOCK_AGE with it while the servo is LOCKED, in MITTEN the
accumulator takes its increment, and a TSU in reset keeps its count. Where the data mover has no channel in use and no refresh
is requested nothing else changes. -/
def Obligations.IdleTick : Prop :=
  ∀ (s : State), s.pending = [] →
    let b := s.blk
    let d := b.dist
    let t := b.tsu
    let tick (t : TimeSt) (locked : Bool) : TimeSt :=
      { t with tc64 := t.tc64 + 1, lockAge := if locked then sat1 t.lockAge else t.lockAge }
    let runs : Dist := { d with time := tick d.time (d.servo.state == .locked) }
    (∃ u, step s = .next u ∧ u.pending = []) ∧
    (t.dm.chs = [] → t.lctl.req = 0 → d.mod.powered = true →
      (t.boot.tsuRst = false → t.pwr.on.time = true → step s = .next { s with
        blk := { b with
        dist := runs, tsu := { t with
          time := tick t.time (t.servo.state == .locked), spine := { t.spine with replica := t.spine.replica + 1 } } } }) ∧
      (t.boot.tsuRst = false → t.pwr.on.time = false → t.pwr.st = .mitten → step s = .next { s with
        blk := { b with
        dist := runs, tsu := { t with pwr := { t.pwr with acc := t.pwr.acc + t.pwr.inc.setWidth 96 } } } }) ∧
      (t.boot.tsuRst = true ∨ t.pwr.on.time = false ∧ t.pwr.st ≠ .mitten → step s = .next { s with
        blk := { b with dist := runs } })) ∧
    (t.dm.chs = [] → t.lctl.req = 0 → d.mod.powered = false → t.boot.tsuRst = true → step s = .next s)

/-- The state after reset shows the reset values that the register tables give: of the registers whose reset value is not zero,
for every context, channel and lane that has one, and no command waits. -/
def Obligations.ResetValues : Prop :=
  State.reset.pending = [] ∧
  (∀ (q : Req),
    let r (a : Nat) := State.reset.blk.regRead q a
    r 0x0000 = 0x03C05A54 ∧ r 0x0028 = 0xFFFFFFFF ∧ r 0x1000 = 0 ∧ r 0x1100 = 0x2 ∧ r 0x2000 = 0xC ∧ r 0x2100 = 0xC ∧
    r 0x2050 = 64 ∧ r 0x2150 = 64 ∧ r 0x1400 = 0xA3 ∧ r 0x1408 = 21990233 ∧ r 0x1410 = 219902326 ∧
    r 0x1418 = 0x03200050 ∧ r 0x1440 = 0xE0F ∧ r 0x1448 = 0xE0F ∧ r 0x4000 = 0x08000128 ∧ r 0x4010 = 0x0100000000000000 ∧
    r 0x5000 = 0 ∧ r 0x5018 = BitVec.allOnes 64 ∧ r 0x7100 = 65536 ∧ r 0x7808 = 0x400 ∧ r 0x8810 = 0x18002000 ∧
    r 0xA000 = 1024 ∧ r 0xB000 = 0x100001000 ∧ r 0xD000 = 0x1171111111115501 ∧ r 0xD008 = BitVec.allOnes 64 ∧
    r 0xD028 = 1 ∧ r 0xE000 = 0x1A ∧ r 0xE008 = 0x1000001312D0 ∧ r 0xE018 = 0x3F0 ∧ r 0xE020 = 0x3200000000 ∧
    r 0xF800 = 0x1B0000 ∧ r 0xF100 = 0x3000102040 ∧ r 0xF110 = 0xFF00 ∧ r 0xF118 = 0xFF00) ∧
  (∀ (q : Req) (c : Ctx6),
    let r (o : Nat) := State.reset.blk.regRead q (0x100000 + 0x400 * c.toNat + o)
    r 0x200 = 0 ∧ r 0x208 = 0 ∧ r 0x210 = 0 ∧ r 0x218 = 0x300 ∧ r 0x258 = 0xFFFF004010001000 ∧ r 0x260 = 0x60040) ∧
  (∀ (q : Req) (n : BitVec 3) (ch : BitVec 6),
    State.reset.blk.regRead q (0xA100 + 0x100 * n.toNat) = 0x80100 ∧
    State.reset.blk.regRead q (0xA118 + 0x100 * n.toNat) = 1 ∧ State.reset.blk.regRead q (0xB100 + 0x20 * ch.toNat) = 4) ∧
  State.reset.blk.tsu.boot.aonRst = true ∧ State.reset.blk.tsu.boot.tsuRst = true ∧ State.reset.blk.tsu.tm.wf = true ∧
  State.reset.blk.dist.objs.hmem.wf = true ∧ State.reset.blk.out = []

/-- Whatever the state, a step on a queue of well-formed commands answers a next state with the rest of that queue, well
formed: no command stops the block, and none writes the queue. -/
def Obligations.QueueInvariant : Prop :=
  ∀ (s : State), s.queueOk = true → ∃ t, step s = .next t ∧ t.queueOk = true ∧ t.pending = s.pending.tail

/-- State.reset meets it: its queue is empty. -/
def Obligations.ResetQueue : Prop := State.reset.queueOk = true ∧ State.reset.pending = []

/-- Every waiting command is served, in order, within as many steps as there are commands. -/
def Obligations.QueueServed : Prop :=
  ∀ (q r : List Instr) (s : State), (∀ c ∈ q, c.wf = true) → s.pending = q ++ r →
    ∃ t, stepN q.length s = .next t ∧ t.pending = r

/-- R161 to R167, R256. A command on a tagged word at a wait slot leaves tagged memory in its canonical form (log entry 2), in
every state that has it. -/
def Obligations.TaggedMemoryForm : Prop :=
  ∀ (a : Access) (c : Ctx6) (k : BitVec 3) (f : WsFlags) (i : Instr) (s t : State),
    i ∈ [Instr.wsConsume a c k f, .wsRead a c k f, .wsProduce a c k f, .wsWriteForce a c k f, .wsFillCount a c k f, .wsProbe a c k f] →
    s.blk.tsu.tm.wf = true → exec i s = .next t → t.blk.tsu.tm.wf = true

/-- R21, R22. The conversions between TC64 and HT96: ticks to fine units rounds up, fine units to ticks rounds down, and with
these roundings the TC64 of a tick's HT96 is the tick, which lies less than 2^-16 ns before the instant; an instant that is
earlier than the epoch, 2^64 ticks or more after it, or malformed has no TC64. -/
def Obligations.Ht96Conversion : Prop :=
  (∀ (t : Nat), ticksToFine t = (t * 262144 + 4) / 5 ∧ t * 262144 ≤ 5 * ticksToFine t ∧ 5 * ticksToFine t < t * 262144 + 5) ∧
  (∀ (d : Nat), fineToTicks d = d * 5 / 262144 ∧ 262144 * fineToTicks d ≤ d * 5 ∧ d * 5 < 262144 * (fineToTicks d + 1)) ∧
  (∀ (e : Ht96) (t : Tick), htBad e = false → e.sec.toNat + 2 ^ 34 < 2 ^ 48 →
    htFine (tc64ToHt96 e t) = htFine e + ticksToFine t.toNat ∧ htBad (tc64ToHt96 e t) = false ∧
    ht96ToTc64 e (tc64ToHt96 e t) = some t) ∧
  (∀ (e h : Ht96), (htBad h = true ∨ htFine h < htFine e ∨ 2 ^ 64 ≤ (htFine h - htFine e) * 5 / 262144 →
      ht96ToTc64 e h = none) ∧
    (htBad h = false → htFine e ≤ htFine h → (htFine h - htFine e) * 5 / 262144 < 2 ^ 64 →
      ∃ t, ht96ToTc64 e h = some t ∧ t.toNat = (htFine h - htFine e) * 5 / 262144))

/-- R167. FILL_COUNT on every word, from every source: n is added to COUNT, saturating with SAT; an EMPTY word whose COUNT
reaches TARGET becomes FULL and TARGET is subtracted, so that with TARGET 0 every fill makes it FULL; on a FULL word the
addition alone is made; the other bits are kept, the resulting DATA is returned and nothing waits. At a wait slot whose context
can reach the word, while no operation waits at another slot, the word and the slot then hold just that. -/
def Obligations.FillCount : Prop :=
  let filled (w v : TWord) (r : WRes) (x : Nat) : Prop :=
    let target := (fld w.data 32 20).toNat
    let sum := (fld w.data 0 20).toNat + x
    let count := if 1048575 < sum then 1048575 else sum
    let fills : Bool := !w.fe && decide (target ≤ count)
    v.fe = (w.fe || fills) ∧ (fld v.data 0 20).toNat = (if fills then count - target else count) ∧
      fld v.data 32 20 = fld w.data 32 20 ∧ fld v.data 20 12 = fld w.data 20 12 ∧ fld v.data 52 12 = fld w.data 52 12 ∧
      (target = 0 → v.fe = true) ∧ v.ecc = w.ecc ∧ r.status = 0 ∧ r.sat = decide (1048575 < sum) ∧ r.rdata = v.data ∧
      r.count = fld v.data 0 20 ∧ r.full = v.fe
  (∀ (d : BitVec 64) (waits rw : Bool) (w : TWord), ∃ r v, wordOp 4 d waits rw w = some (r, v) ∧ v.w = rw ∧
    filled w v r (d.toNat % 1048576)) ∧
  (∀ (a : Access) (c : Ctx6) (k : BitVec 3) (f : WsFlags) (s : State),
    s.blk.slotFree a c.toNat k.toNat = true →
    let i := wsIdx c.toNat k.toNat
    let n := (s.blk.wslot i).addr.toNat % 524288
    s.blk.wordFree c.toNat n = true → (∀ e ∈ s.blk.tsu.ws, e.2.op = none) →
    ∃ t r, exec (.wsFillCount a c k f) s = .next t ∧
      filled (s.blk.tsu.tm.get n) (t.blk.tsu.tm.get n) r ((s.blk.wslot i).wdata.toNat % 1048576) ∧
      (t.blk.tsu.tm.get n).w = s.blk.regionWorld n ∧
      (let w := t.blk.wslot i
       w.op = none ∧ w.status = 0 ∧ w.sat = r.sat ∧ w.full = r.full ∧ w.w = s.blk.regionWorld n ∧ w.count = r.count ∧
        w.rdata = r.rdata) ∧
      (∀ j, j ≠ n → t.blk.tsu.tm.get j = s.blk.tsu.tm.get j) ∧
      (∀ j, j ≠ i → t.blk.wslot j = s.blk.wslot j) ∧ t.blk.dist = s.blk.dist ∧ t.pending = s.pending)

/-- R13. TC64 counts in plain binary and wraps from 2^64 - 1 to 0 with no other effect; a difference is taken modulo 2^64 and
read as a signed 64-bit value, and a comparison is the sign of the difference. -/
def Obligations.TickArithmetic : Prop :=
  (∀ (t : TimeSt), (t.tick false).tc64 = t.tc64 + 1 ∧ t.tick false = { t with tc64 := t.tc64 + 1 } ∧
    (t.tc64 = 0xFFFFFFFFFFFFFFFF → t.tick false = { t with tc64 := 0 })) ∧
  (∀ (x y : Tick), Tick.diff x y = (x - y).toInt ∧ -(2 ^ 63) ≤ Tick.diff x y ∧ Tick.diff x y < 2 ^ 63 ∧
    (Tick.diff x y - ((x.toNat : Int) - y.toNat)) % 2 ^ 64 = 0 ∧
    (Tick.le x y = true ↔ 0 ≤ Tick.diff y x)) ∧
  (∀ (x : Tick) (d : Nat), d < 2 ^ 63 → Tick.diff (x + BitVec.ofNat 64 d) x = d ∧ Tick.le x (x + BitVec.ofNat 64 d) = true)

/-- R120. The launch decision: in GRID mode T is T0 or the first grid point at or after E, in RELEASE mode E, in TIMED mode
the later of T_AT and E; with the delivery tick D = now + 32, D up to T is on time at T, D up to T + SLACK is LATE at D, and a
later D is MISSED. -/
def Obligations.LaunchDecision : Prop :=
  (∀ (t0 tat e : Tick) (p : Nat),
    (Tick.diff e t0 ≤ 0 → launchTick 0 t0 p tat e = t0) ∧
    (0 < p → 0 < Tick.diff e t0 → Tick.diff e t0 + p < 2 ^ 63 →
      ∃ k : Nat, launchTick 0 t0 p tat e = t0 + BitVec.ofNat 64 (k * p) ∧ Tick.diff e t0 ≤ (k * p : Nat) ∧
        ((k * p : Nat) : Int) < Tick.diff e t0 + p ∧ Tick.le e (launchTick 0 t0 p tat e) = true) ∧
    launchTick 1 t0 p tat e = e ∧
    (0 < Tick.diff tat e → launchTick 2 t0 p tat e = tat) ∧ (Tick.diff tat e ≤ 0 → launchTick 2 t0 p tat e = e)) ∧
  (∀ (b : Block) (c : Nat) (t : Tick) (ok swap slip : Bool) (brim : BitVec 16),
    let d := b.tc + 32
    let late := Tick.diff d t
    let slack := (b.ctx c).reg.slack.toNat
    let x := (b.schedule c t ok swap slip brim).ctx c
    x.st = .run ∧ x.reg = { (b.ctx c).reg with lastT := t, lastD := d } ∧
    (∀ k, k ≠ c → (b.schedule c t ok swap slip brim).ctx k = b.ctx k) ∧
    ∃ y, x.sched = some y ∧ y.t = t ∧ y.restartSent = false ∧
      (late ≤ 0 → y.cls = .onTime ∧ y.at_ = t) ∧
      (0 < late → late ≤ slack → y.cls = .late ∧ y.at_ = d) ∧
      ((slack : Int) < late → 0 < late → y.cls = .missed))

/-- R123. The brim after a delivery of latency L: with FIX = 1 it is BRIM_INIT; otherwise it is at most BRIM_MAX, at least
BRIM_MIN unless BRIM_MAX is below that, and covers L + MARGIN and every latency of the window unless BRIM_MAX cuts it, which
sets BRIM_SAT; it is BRIM_MIN, BRIM_MAX or some latency of the window plus MARGIN. -/
def Obligations.BrimWindow : Prop :=
  ∀ (x : Ctx) (l : Nat),
    let y := x.deliverBrim l
    let win := y.window.take x.reg.winLen
    let r := x.reg
    (r.fix = true → y.brimNow = r.brimInit) ∧
    (r.fix = false →
      y.brimNow.toNat ≤ r.brimMax.toNat ∧
      (r.brimMin.toNat ≤ r.brimMax.toNat → r.brimMin.toNat ≤ y.brimNow.toNat) ∧
      (∀ k ∈ win, k + r.margin.toNat ≤ y.brimNow.toNat ∨ y.brimNow = r.brimMax) ∧
      (l + r.margin.toNat ≤ y.brimNow.toNat ∨ y.brimNow = r.brimMax) ∧
      (y.brimNow = r.brimMin ∨ y.brimNow = r.brimMax ∨ ∃ k ∈ win, y.brimNow.toNat = k + r.margin.toNat) ∧
      (r.flags.brimSat = false → (y.reg.flags.brimSat = true ↔ r.brimMax.toNat < r.brimMin.toNat ∨
        ∃ k ∈ win, r.brimMax.toNat < k + r.margin.toNat))) ∧
    y.st = x.st ∧ y.sched = x.sched ∧ y.reg.step = r.step ∧ y.reg.brimMax = r.brimMax

/-- R40, R41, R45, R46, R67, R404, R428. A received frame that a check turns away does nothing but what the check says,
whatever it carries: a lane that is not UP takes no frame, a wrong FMT is counted in PROTO_ERR, a frame out of LSEQ order is
dropped, one whose feature is not in effect is counted in PROTO_ERR, and at an admitted TSU one of a wrong MEPOCH in
EPOCH_DROP. -/
def Obligations.FrameTurnedAway : Prop :=
  ∀ (p : Plane) (h : Hdr) (g : BitVec 16) (ba : BarAddr) (ca : CollAddr) (arm : ArmMsg) (com : CommitMsg) (ab : AbortMsg)
    (go : StepGo) (sat : Bool) (tr : TakeResp) (kd : Contrib) (re : CollResult) (hq : HReq) (hr : HResp)
    (ha : BitVec 39) (pda tag : BitVec 16) (c : Instr) (cls feat : Nat) (s : State),
    let l := LaneRef.tsu p
    let b := s.blk
    let t := b.tsu.boot
    (c, cls, feat) ∈ [(Instr.armReceive l h g arm, 1, 0), (.commitReceive l h g com, 1, 0), (.abortReceive l h g ab, 1, 0),
      (.stepGoReceive l h ba go, 1, 0), (.doneReceive l h ba sat, 2, 1), (.takeRespReceive l h ba tr, 2, 1),
      (.kdownReceive l h ca kd, 3, opFeature kd.op.toNat), (.resultReceive l h ca re, 3, opFeature re.c.op.toNat),
      (.hreqReceive l h hq, 4, 10), (.hcancelReceive l h ha pda tag, 4, 10), (.hrespReceive l h hr, 4, 10)] →
    (b.up l = false → exec c s = .next s) ∧
    (b.up l = true →
      (h.fmt ≠ 1 ∨ 7 ≤ h.cls.toNat → exec c s = .next { s with
        blk := (b.corrected l h.corr).mCnt l fun x => { x with protoErr := sat1 x.protoErr } }) ∧
      (h.fmt = 1 → h.cls.toNat = cls → h.lseq ≠ (b.lane l).link.rxSeq → exec c s = .next { s with
        blk := b.corrected l h.corr }) ∧
      (h.fmt = 1 → h.cls.toNat = cls → h.lseq = (b.lane l).link.rxSeq →
        ((b.lane l).reg.featEff.getLsbD feat = false → exec c s = .next { s with
          blk := (b.rxBook l h cls).mCnt l fun x => { x with protoErr := sat1 x.protoErr } }) ∧
        ((b.lane l).reg.featEff.getLsbD feat = true →
          (t.admitted = false ∨ (h.mepoch ≠ t.ep ∧
            (h.mepoch ≠ t.prev ∨ (b.catNat .tsu 0x7131 3 : Int) < Tick.diff b.tc t.adoptAt))) →
          exec c s = .next { s with
            blk := (b.rxBook l h cls).mCnt l fun x => { x with epochDrop := sat1 x.epochDrop } })))

/-- R41, R46, R67, R401, R404, R427, R446. Sending on a lane: a TIME frame leaves at once with LSEQ 0; a frame that the lane
cannot carry is not sent; a frame without credit waits in order; a frame on an idle lane with credit and room leaves with the
next LSEQ and the unit's MEPOCH, is kept for replay, and counts against the credit. -/
def Obligations.FrameSent : Prop :=
  ∀ (l : LaneRef) (w : Bool) (body : FrameBody) (b : Block),
    let cls := frameCls body
    let k := (b.lane l).link
    let ep : BitVec 32 := match l with
      | .tsu _ => if b.tsu.boot.admitted then b.tsu.boot.ep else 0
      | .dist _ => b.dist.boot.ep
    let f : TxFrame := ⟨cls, w, ep, body⟩
    (cls = 0 → b.send l w body = b.emit (.frame l 0 false f)) ∧
    (cls ≠ 0 → b.usable l cls (frameFeature body) = false → b.send l w body = b) ∧
    (cls ≠ 0 → cls < 7 → b.usable l cls (frameFeature body) = true → k.txq = [] → k.credit cls = false →
      b.send l w body = b.mLink l fun k => { k with txq := [f] }) ∧
    (cls ≠ 0 → cls < 7 → b.usable l cls (frameFeature body) = true → k.txq = [] → k.replay.length < 256 →
      k.credit cls = true → frameBytes body ≤ 2068 →
      b.send l w body = (b.mLink l fun k => { k with
        txq := [], txSeq := k.txSeq + 1, sent := k.sent.inc cls, replay := k.replay ++ [⟨k.txSeq, 0, f⟩] }).emit
          (.frame l k.txSeq false f))

/-- R336, R339, R352. A command of the register port that a check turns away has no effect of its own: a failed Gauntlet check
is a violation, counted and latched; a powered-off target gets a power error and PWR_ACC; a TSU in reset gives no response. -/
def Obligations.PortTurnedAway : Prop :=
  ∀ (a : Access) (ch : BitVec 6) (n : BitVec 3) (m : BitVec 4) (c : Ctx6) (k : BitVec 3) (f : WsFlags) (d : BitVec 64)
    (e : BitVec 32) (p : Plane) (rg : BitVec 6) (hi : Bool) (i : Instr) (x : Nat) (res : Bool) (s : State),
    let b := s.blk
    let q := portReq a
    let mine := worldOk q (b.ctxWorld c.toNat)
    let all : List (Instr × Nat) := [(Instr.vitCapture a, 0x1040), (.vitArmAt a .setArm, 0x1040), (.vitArmAt a (.writeAt d), 0x1048),
      (.calStart a, 0x1100), (.stepArm a .tsu, 0x1400), (.laneEnable a (.tsu p), lnkReg p 0), (.laneDisable a (.tsu p), lnkReg p 0),
      (.retrain a (.tsu p), lnkReg p 0), (.laneCntClr a (.tsu p), lnkReg p 0), (.cdcStart a .tsu, 0x3000), (.rstCalStart a, 0x4000),
      (.ctxEnable a c, 0x5000), (.ctxDisable a c, 0x5000), (.bslotConfig a d, 0x6008), (.barCntClr a, 0x6018),
      (.tmScrubStart a rg, 0x7008), (.dtConfigWrite a (.cfg d), 0x7808), (.dtConfigWrite a (.at d), 0x7810), (.collCntClr a, 0x8800),
      (.genTestCall a, 0x9830), (.genSelftestRun a, 0x9830), (.catImageLoad a, 0xC808), (.catDefault a, 0xC808),
      (.gauntletWrite a (.blk d), 0xD000), (.gauntletWrite a (.tmw d), 0xD008), (.gauntletWrite a (.crdata e), 0xD018),
      (.gauntletWrite a (.ctxWorld d), 0x5018), (.mittenRequest a, 0xE000), (.softwareWake a, 0xE000)]
    let page := 0x100200 + 0x400 * c.toNat
    let slot := wsReg c.toNat k.toNat 0x10
    let owned : List (Instr × Nat) := [(.ready a c, page), (.go a c, page), (.stop a c, page), (.clear a c, page), (.ctxCntClr a c, page),
      (.wsConsume a c k f, slot), (.wsRead a c k f, slot), (.wsProduce a c k f, slot), (.wsWriteForce a c k f, slot),
      (.wsFillCount a c k f, slot), (.wsProbe a c k f, slot), (.hallConsume a c k f, slot), (.hallRead a c k f, slot),
      (.hallProduce a c k f, slot), (.hallWriteForce a c k f, slot), (.hallFillCount a c k f, slot), (.hallProbe a c k f, slot),
      (.wsArrive a c k f, slot), (.wsArriveWait a c k f, slot), (.wsWait a c k f, slot), (.wsSignal a c k f, slot),
      (.wsTake a c k f, slot), (.wsReadCount a c k f, slot)]
    let channel : List (Instr × Nat × Bool) := [(.collIssue a m, collReg m.toNat 0x30, b.collWorld m.toNat),
      (.collCancel a m, collReg m.toNat 0x30, b.collWorld m.toNat), (.genIssue a n, genReg n.toNat 0x28, b.ctxWorld (b.genSlot n.toNat).ctx),
      (.genCancel a n, genReg n.toNat 0x28, b.ctxWorld (b.genSlot n.toNat).ctx),
      (.genKeyWrite a c hi d, 0x9400 + 0x10 * c.toNat + (if hi then 8 else 0), b.ctxWorld c.toNat),
      (.xlatWrite a e, 0x5028, b.ctxWorld b.tsu.bar.selCtx.toNat), (.gauntletWrite a (.strWorld ch hi), strReg ch, (b.strCh ch.toNat).world),
      (.strChEnable a ch, strReg ch, (b.strCh ch.toNat).world), (.strChDisable a ch, strReg ch, (b.strCh ch.toNat).world)]
    let mover : List Instr := [.dmEnable a n, .dmDisable a n, .dmLoad a n, .dmKick a n, .dmPause a n, .dmResume a n, .dmRestart a n,
      .dmSkip a n, .dmAbort a n]
    ((i, x) ∈ all ∧ res = true ∨ (i, x) ∈ owned ∧ res = mine ∨ (∃ w, (i, x, w) ∈ channel ∧ res = worldOk q w) ∨
      i ∈ mover ∧ x = dmReg n 0x08 ∧ res = worldOk q (b.ctxWorld (b.dmCh n.toNat).ctx.toNat)) →
    (b.tsu.boot.tsuRst = true → exec i s = .next s) ∧
    (b.tsu.boot.tsuRst = false → (b.nibbleOk q x = false ∨ res = false) → exec i s = .next { s with
      blk := (b.violate 0 q true (BitVec.ofNat 64 x)).emit (.reg none 0 0) }) ∧
    (b.tsu.boot.tsuRst = false → b.nibbleOk q x = true → res = true → b.targetOn x = false → exec i s = .next { s with
      blk := (b.mPwr fun p => { p with pwrAcc := true }).emit (.reg none 2 0) }) ∧
    (b.violate 0 q true (BitVec.ofNat 64 x)).tsu.gnt.vCnt = sat1 b.tsu.gnt.vCnt ∧
    (b.tsu.gnt.vValid = true → b.violate 0 q true (BitVec.ofNat 64 x) = b.mGnt fun g => { g with vCnt := sat1 g.vCnt }) ∧
    (b.tsu.gnt.vValid = false → b.violate 0 q true (BitVec.ofNat 64 x) = b.mGnt fun g => { g with
      vCnt := sat1 g.vCnt, vValid := true, vSrc := 0, vWorld := a.secure, vPriv := a.priv, vDbg := false, vWrite := true
      vGen := g.gen, vAddr := BitVec.ofNat 64 x })

/-- R342, R339. A debug access never writes the Gauntlet block: at DBG_OFF and at DBG_FULL the write is ignored and sets
DBG_REF, at DBG_NS it is a violation with DEBUG = 1. -/
def Obligations.DebugLeavesGauntlet : Prop :=
  ∀ (r : DebugReq) (s : State),
    let b := s.blk
    let x := r.addr.toNat
    b.tsu.boot.tsuRst = false → r.write = true → 0xD000 ≤ x → x < 0xE000 →
    (b.tsu.dbg.level ≠ 1 → exec (.debugAccess r) s = .next { s with
      blk := (b.mDbg fun d => { d with dbgRef := true }).emit (.dbg r.tag 0 0) }) ∧
    (b.tsu.dbg.level = 1 → ∃ t, exec (.debugAccess r) s = .next t ∧ t.pending = s.pending ∧ t.blk.dist = b.dist ∧
      t.blk.tsu = { b.tsu with gnt := { b.tsu.gnt with
        vCnt := sat1 b.tsu.gnt.vCnt, vValid := true, vSrc := t.blk.tsu.gnt.vSrc, vWorld := t.blk.tsu.gnt.vWorld
        vPriv := t.blk.tsu.gnt.vPriv, vDbg := t.blk.tsu.gnt.vDbg, vWrite := t.blk.tsu.gnt.vWrite
        vGen := t.blk.tsu.gnt.vGen, vAddr := t.blk.tsu.gnt.vAddr } } ∧
      (b.tsu.gnt.vValid = false → t.blk.tsu.gnt.vDbg = true) ∧ t.blk.out = b.out ++ [.dbg r.tag 0 0])

/-- R204, R205. The ranking of TOPK is a strict total order on pairs that differ in key or index; the best K of two ranked
lists is ranked, has K entries where there are that many, and every pair it leaves out is outranked by, or equal to, every
pair it keeps. -/
def Obligations.TopkRanking : Prop :=
  (∀ (f : Fmt) (x y z : BitVec 64 × BitVec 64),
    ranks f x x = false ∧ (ranks f x y = true → ranks f y x = false) ∧
    (ranks f x y = true → ranks f y z = true → ranks f x z = true) ∧
    (ranks f x y = false → ranks f y x = false → f.key x.1.toNat = f.key y.1.toNat ∧ x.2 = y.2)) ∧
  (∀ (f : Fmt) (k : Nat) (x y : List (BitVec 64 × BitVec 64)),
    x.Pairwise (fun a b => ranks f b a = false) →
    (bestK f k x y).Pairwise (fun a b => ranks f b a = false) ∧ (bestK f k x y).length = min k (x.length + y.length) ∧
    (∀ e ∈ bestK f k x y, e ∈ x ∨ e ∈ y) ∧
    (∀ e, e ∈ x ∨ e ∈ y → e ∈ bestK f k x y ∨ ∀ g ∈ bestK f k x y, ranks f e g = false))

/-- R197, R201, R207, R210. Records of SUM, COUNT, SSUM and TOPK's inputs combine to the same record in any order and grouping:
the first three are commutative and associative, C saturates, and the greatest key is kept (the model keeps C's saturation,
log entry 54). -/
def Obligations.CombineAnyOrder : Prop :=
  (∀ (op : Nat) (f : Fmt) (k : Nat) (n p m u z n' p' m' u' z' n'' p'' m'' u'' z'' : Bool) (x y w : Int),
    let a := CRec.sum n p m u z x
    let b := CRec.sum n' p' m' u' z' y
    let c := CRec.sum n'' p'' m'' u'' z'' w
    combineRec op f k a b = combineRec op f k b a ∧
    combineRec op f k (combineRec op f k a b) c = combineRec op f k a (combineRec op f k b c)) ∧
  (∀ (op : Nat) (f : Fmt) (k : Nat) (x y w : Nat),
    combineRec op f k (.cnt x) (.cnt y) = combineRec op f k (.cnt y) (.cnt x) ∧
    combineRec op f k (combineRec op f k (.cnt x) (.cnt y)) (.cnt w) =
      combineRec op f k (.cnt x) (combineRec op f k (.cnt y) (.cnt w))) ∧
  (∀ (op : Nat) (f : Fmt) (k : Nat) (n u n' u' n'' u'' : Bool) (km km' km'' : Int) (x y w : Nat),
    let a := CRec.ssum n u km x
    let b := CRec.ssum n' u' km' y
    let c := CRec.ssum n'' u'' km'' w
    combineRec op f k a b = combineRec op f k b a ∧
    combineRec op f k (combineRec op f k a b) c = combineRec op f k a (combineRec op f k b c))

/-- R337, R339, R142, R306. Only an access with WORLD = 1 and PRIV = 3 changes the Gauntlet: from any other access of the register
port, a GAUNTLET_WRITE, and a REGISTER_WRITE to any offset of the Gauntlet block or to TSU_CTX_WORLD, leaves every Gauntlet
field, GNT_GEN, the world of every context and the world of every stream channel as they were, in every state. -/
def Obligations.GauntletGuard : Prop :=
  let kept (s t : State) : Prop :=
    let g := s.blk.tsu.gnt
    let h := t.blk.tsu.gnt
    h.blk = g.blk ∧ h.tmw = g.tmw ∧ h.crsel = g.crsel ∧ h.raise = g.raise ∧ h.gen = g.gen ∧ h.violIrq = g.violIrq ∧
      (∀ c, (t.blk.ctx c).world = (s.blk.ctx c).world) ∧ (∀ n, (t.blk.strCh n).world = (s.blk.strCh n).world) ∧
      t.blk.tsu.tm = s.blk.tsu.tm ∧ t.blk.dist = s.blk.dist ∧ t.pending = s.pending
  (∀ (a : Access) (w : GntWrite) (s : State), (portReq a).monitor = false →
    ∃ t, exec (.gauntletWrite a w) s = .next t ∧ kept s t) ∧
  (∀ (a : Access) (size64 : Bool) (addr : BitVec 24) (data : BitVec 64) (s : State), (portReq a).monitor = false →
    0xD000 ≤ addr.toNat ∧ addr.toNat < 0xE000 ∨ addr.toNat / 8 * 8 = 0x5018 →
    ∃ t, exec (.registerWrite a size64 addr data) s = .next t ∧ kept s t)
end

