-- ==== Sys2Proof/Laws/SMap.lean ====
section
/-! SUPPORT. What a sparse map answers after a write, and that every write keeps its canonical form. -/

namespace Sys2Proof.Machine

variable {α : Type}

/-- Every listed number lies above `lo`. -/
def smAbove (lo : Nat) (l : List (Nat × α)) : Prop := ∀ e ∈ l, lo < e.1

@[simp] theorem smGet_nil (d : α) (n : Nat) : smGet d [] n = d := rfl

theorem smGet_cons (d : α) (m : Nat) (v : α) (t : List (Nat × α)) (n : Nat) :
    smGet d ((m, v) :: t) n = if m = n then v else smGet d t n := rfl

theorem smGet_above (d : α) (l : List (Nat × α)) (n : Nat) (h : smAbove n l) : smGet d l n = d := by
  induction l with
  | nil => rfl
  | cons e t ih =>
    obtain ⟨m, v⟩ := e
    have hm : n < m := h (m, v) (by simp)
    rw [smGet_cons, if_neg (by omega)]
    exact ih fun e he => h e (List.mem_cons_of_mem _ he)

theorem smGet_smIns (d : α) (l : List (Nat × α)) (n : Nat) (v : α) (k : Nat) :
    smGet d (smIns l n v) k = if n = k then v else smGet d l k := by
  induction l with
  | nil => rfl
  | cons e t ih =>
    obtain ⟨m, w⟩ := e
    rw [smIns]
    split
    · rfl
    · split
      · rename_i hlt heq
        subst heq
        by_cases hk : n = k <;> simp [smGet_cons, hk]
      · rename_i hlt hne
        rw [smGet_cons, smGet_cons, ih]
        by_cases hk : n = k
        · rw [if_pos hk, if_pos hk, if_neg (by omega)]
        · rw [if_neg hk, if_neg hk]

theorem smGet_filter (d : α) (l : List (Nat × α)) (n k : Nat) :
    smGet d (l.filter fun e => e.1 != n) k = if n = k then d else smGet d l k := by
  induction l with
  | nil => by_cases hk : n = k <;> simp [hk]
  | cons e t ih =>
    obtain ⟨m, w⟩ := e
    by_cases hm : m = n
    · subst hm
      rw [List.filter_cons, if_neg (by simp), ih, smGet_cons]
      by_cases hk : m = k <;> simp [hk]
    · rw [List.filter_cons, if_pos (by simpa using hm), smGet_cons, smGet_cons, ih]
      by_cases hk : n = k
      · rw [if_pos hk, if_pos hk, if_neg (by omega)]
      · rw [if_neg hk, if_neg hk]

theorem smIns_smIns (l : List (Nat × α)) (n : Nat) (v w : α) : smIns (smIns l n v) n w = smIns l n w := by
  induction l with
  | nil => simp [smIns]
  | cons e t ih =>
    obtain ⟨m, x⟩ := e
    by_cases h1 : n < m
    · simp [smIns, h1]
    · by_cases h2 : n = m
      · simp [smIns, h2]
      · simp [smIns, h1, h2, ih]

theorem smIns_filter (l : List (Nat × α)) (n : Nat) (v : α) :
    (smIns l n v).filter (fun e => e.1 != n) = l.filter fun e => e.1 != n := by
  induction l with
  | nil => simp [smIns]
  | cons e t ih =>
    obtain ⟨m, x⟩ := e
    by_cases h1 : n < m
    · simp [smIns, h1]
    · by_cases h2 : n = m
      · subst h2; simp [smIns]
      · simp [smIns, h1, h2, ih, List.filter_cons]

variable [DecidableEq α]

/-- A write answers itself and leaves every other number as it was. -/
@[simp] theorem smGet_smPut (d : α) (l : List (Nat × α)) (n : Nat) (v : α) (k : Nat) :
    smGet d (smPut d l n v) k = if n = k then v else smGet d l k := by
  have hd : smGet d (smDel l n) k = if n = k then d else smGet d l k := smGet_filter d l n k
  rw [smPut]
  split
  · rename_i hv; rw [hd, hv]
  · rw [smGet_smIns, hd]
    by_cases hk : n = k <;> simp [hk]

/-- What a change at `n` leaves at `k`. -/
@[simp] theorem smGet_smMod (d : α) (l : List (Nat × α)) (n : Nat) (f : α → α) (k : Nat) :
    smGet d (smMod d l n f) k = if n = k then f (smGet d l n) else smGet d l k :=
  smGet_smPut d l n _ k

omit [DecidableEq α] in
theorem smDel_smDel (l : List (Nat × α)) (n : Nat) : smDel (smDel l n) n = smDel l n := by
  simp [smDel, List.filter_filter]

omit [DecidableEq α] in
theorem smDel_smIns (l : List (Nat × α)) (n : Nat) (v : α) : smDel (smIns l n v) n = smDel l n := smIns_filter l n v

/-- The later of two writes at one number stands. -/
@[simp] theorem smPut_smPut (d : α) (l : List (Nat × α)) (n : Nat) (v w : α) :
    smPut d (smPut d l n v) n w = smPut d l n w := by
  have e : smDel (smPut d l n v) n = smDel l n := by
    rw [smPut]; split
    · exact smDel_smDel l n
    · rw [smDel_smIns, smDel_smDel]
  rw [smPut, e]; rfl

/-- Two changes at one number are one. -/
@[simp] theorem smMod_smMod (d : α) (l : List (Nat × α)) (n : Nat) (f g : α → α) :
    smMod d (smMod d l n f) n g = smMod d l n fun x => g (f x) := by
  have h : smGet d (smMod d l n f) n = f (smGet d l n) := by rw [smGet_smMod, if_pos rfl]
  show smPut d (smMod d l n f) n (g (smGet d (smMod d l n f) n)) = _
  rw [h]
  exact smPut_smPut d l n _ _

theorem mem_smPut {d : α} {l : List (Nat × α)} {n : Nat} {v : α} {e : Nat × α} (h : e ∈ smPut d l n v) :
    e ∈ l ∨ e = (n, v) := by
  rw [smPut] at h
  split at h
  · exact .inl (List.mem_of_mem_filter h)
  · have hs : ∀ x ∈ smDel l n, x ∈ l := fun x hx => List.mem_of_mem_filter hx
    suffices h' : ∀ r : List (Nat × α), e ∈ smIns r n v → e ∈ r ∨ e = (n, v) from (h' _ h).imp (hs e) id
    clear * -
    intro l h
    induction l with
    | nil => right; simpa [smIns] using h
    | cons x t ih =>
      obtain ⟨m, w⟩ := x
      rw [smIns] at h
      split at h
      · rcases List.mem_cons.1 h with h | h
        · exact .inr h
        · exact .inl h
      · split at h
        · rcases List.mem_cons.1 h with h | h
          · exact .inr h
          · exact .inl (List.mem_cons_of_mem _ h)
        · rcases List.mem_cons.1 h with h | h
          · exact .inl (h ▸ List.mem_cons_self)
          · rcases ih h with h | h
            · exact .inl (List.mem_cons_of_mem _ h)
            · exact .inr h

/-- The tail of a canonical list lies above its head. -/
theorem smWfFrom_above (d : Nat → α) (l : List (Nat × α)) (lo : Option Nat) (k : Nat) (h : smWfFrom d lo l = true)
    (hk : lo = some k) : smAbove k l := by
  induction l generalizing lo k with
  | nil => intro e he; cases he
  | cons e t ih =>
    obtain ⟨m, v⟩ := e
    subst hk
    simp only [smWfFrom, Bool.and_eq_true, decide_eq_true_eq] at h
    intro e he
    rcases List.mem_cons.1 he with rfl | he
    · exact h.1.1
    · exact lt_trans h.1.1 (ih (some m) m h.2 rfl e he)

/-- A lower bound may be lowered. -/
theorem smWfFrom_mono (d : Nat → α) (l : List (Nat × α)) (lo lo' : Option Nat) (h : smWfFrom d lo l = true)
    (hl : ∀ k, lo' = some k → ∃ j, lo = some j ∧ k ≤ j) : smWfFrom d lo' l = true := by
  cases l with
  | nil => rfl
  | cons e t =>
    obtain ⟨m, v⟩ := e
    simp only [smWfFrom, Bool.and_eq_true, decide_eq_true_eq] at h ⊢
    refine ⟨⟨?_, h.1.2⟩, h.2⟩
    cases lo' with
    | none => rfl
    | some k =>
      obtain ⟨j, rfl, hkj⟩ := hl k rfl
      simpa using lt_of_le_of_lt hkj (by simpa using h.1.1)

theorem smFilter_wfFrom (d : Nat → α) (l : List (Nat × α)) (n : Nat) (lo : Option Nat) (h : smWfFrom d lo l = true) :
    smWfFrom d lo (l.filter fun e => e.1 != n) = true := by
  induction l generalizing lo with
  | nil => rfl
  | cons e t ih =>
    obtain ⟨m, v⟩ := e
    have h' := h
    simp only [smWfFrom, Bool.and_eq_true, decide_eq_true_eq] at h'
    obtain ⟨⟨hlo, hv⟩, ht⟩ := h'
    by_cases hm : m = n
    · rw [List.filter_cons, if_neg (by simp [hm])]
      refine smWfFrom_mono d _ (some m) lo (ih (some m) ht) ?_
      intro k hk
      subst hk
      exact ⟨m, rfl, by simpa using le_of_lt (by simpa using hlo)⟩
    · rw [List.filter_cons, if_pos (by simpa using hm)]
      simp only [smWfFrom, Bool.and_eq_true, decide_eq_true_eq]
      exact ⟨⟨hlo, hv⟩, ih (some m) ht⟩

theorem smIns_wfFrom (d : Nat → α) (l : List (Nat × α)) (n : Nat) (v : α) (lo : Option Nat)
    (h : smWfFrom d lo l = true) (hv : v ≠ d n) (hn : ∀ k, lo = some k → k < n) :
    smWfFrom d lo (smIns l n v) = true := by
  induction l generalizing lo with
  | nil =>
    cases lo with
    | none => simp [smIns, hv, smWfFrom]
    | some k => simp [smIns, hv, smWfFrom, hn k rfl]
  | cons e t ih =>
    obtain ⟨m, w⟩ := e
    have h' := h
    simp only [smWfFrom, Bool.and_eq_true, decide_eq_true_eq] at h'
    obtain ⟨⟨hlo, hw⟩, ht⟩ := h'
    rw [smIns]
    split
    · rename_i hlt
      cases lo with
      | none => simp [smWfFrom, hv, hlt, hw, ht]
      | some k => simp [smWfFrom, hv, hlt, hw, ht, hn k rfl]
    · split
      · rename_i hlt heq
        subst heq
        cases lo with
        | none => simp [smWfFrom, hv, ht]
        | some k => simp [smWfFrom, hv, ht, hn k rfl]
      · rename_i hlt hne
        simp only [smWfFrom, Bool.and_eq_true, decide_eq_true_eq]
        refine ⟨⟨hlo, hw⟩, ih (some m) ht ?_⟩
        intro k hk
        cases hk
        omega

/-- Every memory and table operation keeps the canonical form. -/
theorem smPut_wf (d : α) (l : List (Nat × α)) (n : Nat) (v : α) (h : smWf (fun _ => d) l = true) :
    smWf (fun _ => d) (smPut d l n v) = true := by
  rw [smPut]
  split
  · exact smFilter_wfFrom _ l n none h
  · rename_i hv; exact smIns_wfFrom _ _ n v none (smFilter_wfFrom _ l n none h) hv (by simp)

theorem smMod_wf (d : α) (l : List (Nat × α)) (n : Nat) (f : α → α) (h : smWf (fun _ => d) l = true) :
    smWf (fun _ => d) (smMod d l n f) = true :=
  smPut_wf d l n _ h

/-- A write at a number whose unlisted value is `d n` keeps a form whose unlisted values differ by number. -/
theorem smPut_wf_fun (d : Nat → α) (l : List (Nat × α)) (n : Nat) (v : α) (h : smWf d l = true) :
    smWf d (smPut (d n) l n v) = true := by
  rw [smPut]
  split
  · exact smFilter_wfFrom _ l n none h
  · rename_i hv; exact smIns_wfFrom _ _ n v none (smFilter_wfFrom _ l n none h) hv (by simp)

/-- Equal contents are equal lists. -/
theorem smWf_ext (d : α) (l r : List (Nat × α)) (lo : Option Nat) (hl : smWfFrom (fun _ => d) lo l = true)
    (hr : smWfFrom (fun _ => d) lo r = true) (h : ∀ n, smGet d l n = smGet d r n) : l = r := by
  induction l generalizing r lo with
  | nil =>
    cases r with
    | nil => rfl
    | cons e t =>
      obtain ⟨m, v⟩ := e
      simp only [smWfFrom, Bool.and_eq_true, decide_eq_true_eq] at hr
      have := h m
      rw [smGet_nil, smGet_cons, if_pos rfl] at this
      exact absurd this.symm hr.1.2
  | cons e t ih =>
    obtain ⟨m, v⟩ := e
    have hl' := hl
    simp only [smWfFrom, Bool.and_eq_true, decide_eq_true_eq] at hl'
    cases r with
    | nil =>
      have := h m
      rw [smGet_nil, smGet_cons, if_pos rfl] at this
      exact absurd this hl'.1.2
    | cons e' t' =>
      obtain ⟨m', v'⟩ := e'
      have hr' := hr
      simp only [smWfFrom, Bool.and_eq_true, decide_eq_true_eq] at hr'
      have ha := smWfFrom_above _ t _ m hl'.2 rfl
      have ha' := smWfFrom_above _ t' _ m' hr'.2 rfl
      have hm : m = m' := by
        rcases Nat.lt_trichotomy m m' with hlt | heq | hgt
        · have := h m
          rw [smGet_cons, if_pos rfl, smGet_cons, if_neg (by omega),
            smGet_above d t' m fun e he => lt_trans hlt (ha' e he)] at this
          exact absurd this hl'.1.2
        · exact heq
        · have := h m'
          rw [smGet_cons, if_neg (by omega), smGet_above d t m' (fun e he => lt_trans hgt (ha e he)), smGet_cons,
            if_pos rfl] at this
          exact absurd this.symm hr'.1.2
      subst hm
      have hv : v = v' := by simpa [smGet_cons] using h m
      subst hv
      have : t = t' := ih t' (some m) hl'.2 hr'.2 fun n => by
        by_cases hn : m = n
        · subst hn; rw [smGet_above d t m ha, smGet_above d t' m ha']
        · simpa [smGet_cons, hn] using h n
      rw [this]

end Sys2Proof.Machine
end

