-- ==== Sys2Proof/Laws/State.lean ====
section
/-! SUPPORT. What each named update of the block leaves in each of its parts, every one true by definition. -/

namespace Sys2Proof.Machine

variable (b : Block)

@[simp] theorem Block.mTsu_tsu (f : Tsu → Tsu) : (b.mTsu f).tsu = f b.tsu := rfl
@[simp] theorem Block.mTsu_dist (f : Tsu → Tsu) : (b.mTsu f).dist = b.dist := rfl
@[simp] theorem Block.mTsu_out (f : Tsu → Tsu) : (b.mTsu f).out = b.out := rfl
@[simp] theorem Block.mTsu_free (f : Tsu → Tsu) : (b.mTsu f).free = b.free := rfl

@[simp] theorem Block.mBar_tsu (f : BarSt → BarSt) : (b.mBar f).tsu = { b.tsu with bar := f b.tsu.bar } := rfl
@[simp] theorem Block.mBar_dist (f : BarSt → BarSt) : (b.mBar f).dist = b.dist := rfl
@[simp] theorem Block.mBar_out (f : BarSt → BarSt) : (b.mBar f).out = b.out := rfl
@[simp] theorem Block.mBar_free (f : BarSt → BarSt) : (b.mBar f).free = b.free := rfl

@[simp] theorem Block.mBoot_tsu (f : Boot → Boot) : (b.mBoot f).tsu = { b.tsu with boot := f b.tsu.boot } := rfl
@[simp] theorem Block.mBoot_dist (f : Boot → Boot) : (b.mBoot f).dist = b.dist := rfl
@[simp] theorem Block.mBoot_out (f : Boot → Boot) : (b.mBoot f).out = b.out := rfl
@[simp] theorem Block.mBoot_free (f : Boot → Boot) : (b.mBoot f).free = b.free := rfl

@[simp] theorem Block.mColl_tsu (f : Coll → Coll) : (b.mColl f).tsu = { b.tsu with coll := f b.tsu.coll } := rfl
@[simp] theorem Block.mColl_dist (f : Coll → Coll) : (b.mColl f).dist = b.dist := rfl
@[simp] theorem Block.mColl_out (f : Coll → Coll) : (b.mColl f).out = b.out := rfl
@[simp] theorem Block.mColl_free (f : Coll → Coll) : (b.mColl f).free = b.free := rfl

@[simp] theorem Block.mCtx_tsu (c : Nat) (f : Ctx → Ctx) : (b.mCtx c f).tsu = { b.tsu with ctxs := smMod {} b.tsu.ctxs c f } := rfl
@[simp] theorem Block.mCtx_dist (c : Nat) (f : Ctx → Ctx) : (b.mCtx c f).dist = b.dist := rfl
@[simp] theorem Block.mCtx_out (c : Nat) (f : Ctx → Ctx) : (b.mCtx c f).out = b.out := rfl
@[simp] theorem Block.mCtx_free (c : Nat) (f : Ctx → Ctx) : (b.mCtx c f).free = b.free := rfl

@[simp] theorem Block.mCtxReg_tsu (c : Nat) (f : CtxReg → CtxReg) : (b.mCtxReg c f).tsu = { b.tsu with ctxs := smMod {} b.tsu.ctxs c fun x => { x with reg := f x.reg } } := rfl
@[simp] theorem Block.mCtxReg_dist (c : Nat) (f : CtxReg → CtxReg) : (b.mCtxReg c f).dist = b.dist := rfl
@[simp] theorem Block.mCtxReg_out (c : Nat) (f : CtxReg → CtxReg) : (b.mCtxReg c f).out = b.out := rfl
@[simp] theorem Block.mCtxReg_free (c : Nat) (f : CtxReg → CtxReg) : (b.mCtxReg c f).free = b.free := rfl

@[simp] theorem Block.mCtxRun_tsu (c : Nat) (f : CtxRun → CtxRun) : (b.mCtxRun c f).tsu = { b.tsu with ctxs := smMod {} b.tsu.ctxs c fun x => { x with run := f x.run } } := rfl
@[simp] theorem Block.mCtxRun_dist (c : Nat) (f : CtxRun → CtxRun) : (b.mCtxRun c f).dist = b.dist := rfl
@[simp] theorem Block.mCtxRun_out (c : Nat) (f : CtxRun → CtxRun) : (b.mCtxRun c f).out = b.out := rfl
@[simp] theorem Block.mCtxRun_free (c : Nat) (f : CtxRun → CtxRun) : (b.mCtxRun c f).free = b.free := rfl

@[simp] theorem Block.mDbg_tsu (f : Dbg → Dbg) : (b.mDbg f).tsu = { b.tsu with dbg := f b.tsu.dbg } := rfl
@[simp] theorem Block.mDbg_dist (f : Dbg → Dbg) : (b.mDbg f).dist = b.dist := rfl
@[simp] theorem Block.mDbg_out (f : Dbg → Dbg) : (b.mDbg f).out = b.out := rfl
@[simp] theorem Block.mDbg_free (f : Dbg → Dbg) : (b.mDbg f).free = b.free := rfl

@[simp] theorem Block.mDm_tsu (f : Dm → Dm) : (b.mDm f).tsu = { b.tsu with dm := f b.tsu.dm } := rfl
@[simp] theorem Block.mDm_dist (f : Dm → Dm) : (b.mDm f).dist = b.dist := rfl
@[simp] theorem Block.mDm_out (f : Dm → Dm) : (b.mDm f).out = b.out := rfl
@[simp] theorem Block.mDm_free (f : Dm → Dm) : (b.mDm f).free = b.free := rfl

@[simp] theorem Block.mGen_tsu (f : Gen → Gen) : (b.mGen f).tsu = { b.tsu with gen := f b.tsu.gen } := rfl
@[simp] theorem Block.mGen_dist (f : Gen → Gen) : (b.mGen f).dist = b.dist := rfl
@[simp] theorem Block.mGen_out (f : Gen → Gen) : (b.mGen f).out = b.out := rfl
@[simp] theorem Block.mGen_free (f : Gen → Gen) : (b.mGen f).free = b.free := rfl

@[simp] theorem Block.mGnt_tsu (f : Gnt → Gnt) : (b.mGnt f).tsu = { b.tsu with gnt := f b.tsu.gnt } := rfl
@[simp] theorem Block.mGnt_dist (f : Gnt → Gnt) : (b.mGnt f).dist = b.dist := rfl
@[simp] theorem Block.mGnt_out (f : Gnt → Gnt) : (b.mGnt f).out = b.out := rfl
@[simp] theorem Block.mGnt_free (f : Gnt → Gnt) : (b.mGnt f).free = b.free := rfl

@[simp] theorem Block.mHall_tsu (f : HallReq → HallReq) : (b.mHall f).tsu = { b.tsu with hall := f b.tsu.hall } := rfl
@[simp] theorem Block.mHall_dist (f : HallReq → HallReq) : (b.mHall f).dist = b.dist := rfl
@[simp] theorem Block.mHall_out (f : HallReq → HallReq) : (b.mHall f).out = b.out := rfl
@[simp] theorem Block.mHall_free (f : HallReq → HallReq) : (b.mHall f).free = b.free := rfl

@[simp] theorem Block.mLctl_tsu (f : LaunchCtl → LaunchCtl) : (b.mLctl f).tsu = { b.tsu with lctl := f b.tsu.lctl } := rfl
@[simp] theorem Block.mLctl_dist (f : LaunchCtl → LaunchCtl) : (b.mLctl f).dist = b.dist := rfl
@[simp] theorem Block.mLctl_out (f : LaunchCtl → LaunchCtl) : (b.mLctl f).out = b.out := rfl
@[simp] theorem Block.mLctl_free (f : LaunchCtl → LaunchCtl) : (b.mLctl f).free = b.free := rfl

@[simp] theorem Block.mPwr_tsu (f : Pwr → Pwr) : (b.mPwr f).tsu = { b.tsu with pwr := f b.tsu.pwr } := rfl
@[simp] theorem Block.mPwr_dist (f : Pwr → Pwr) : (b.mPwr f).dist = b.dist := rfl
@[simp] theorem Block.mPwr_out (f : Pwr → Pwr) : (b.mPwr f).out = b.out := rfl
@[simp] theorem Block.mPwr_free (f : Pwr → Pwr) : (b.mPwr f).free = b.free := rfl

@[simp] theorem Block.mSpine_tsu (f : Spine → Spine) : (b.mSpine f).tsu = { b.tsu with spine := f b.tsu.spine } := rfl
@[simp] theorem Block.mSpine_dist (f : Spine → Spine) : (b.mSpine f).dist = b.dist := rfl
@[simp] theorem Block.mSpine_out (f : Spine → Spine) : (b.mSpine f).out = b.out := rfl
@[simp] theorem Block.mSpine_free (f : Spine → Spine) : (b.mSpine f).free = b.free := rfl

@[simp] theorem Block.mStr_tsu (f : Str → Str) : (b.mStr f).tsu = { b.tsu with str := f b.tsu.str } := rfl
@[simp] theorem Block.mStr_dist (f : Str → Str) : (b.mStr f).dist = b.dist := rfl
@[simp] theorem Block.mStr_out (f : Str → Str) : (b.mStr f).out = b.out := rfl
@[simp] theorem Block.mStr_free (f : Str → Str) : (b.mStr f).free = b.free := rfl

@[simp] theorem Block.mTimers_tsu (f : Timers → Timers) : (b.mTimers f).tsu = { b.tsu with timers := f b.tsu.timers } := rfl
@[simp] theorem Block.mTimers_dist (f : Timers → Timers) : (b.mTimers f).dist = b.dist := rfl
@[simp] theorem Block.mTimers_out (f : Timers → Timers) : (b.mTimers f).out = b.out := rfl
@[simp] theorem Block.mTimers_free (f : Timers → Timers) : (b.mTimers f).free = b.free := rfl

@[simp] theorem Block.mTm_tsu (f : TagMem → TagMem) : (b.mTm f).tsu = { b.tsu with tm := f b.tsu.tm } := rfl
@[simp] theorem Block.mTm_dist (f : TagMem → TagMem) : (b.mTm f).dist = b.dist := rfl
@[simp] theorem Block.mTm_out (f : TagMem → TagMem) : (b.mTm f).out = b.out := rfl
@[simp] theorem Block.mTm_free (f : TagMem → TagMem) : (b.mTm f).free = b.free := rfl

@[simp] theorem Block.mWslot_tsu (i : Nat) (f : WSlot → WSlot) : (b.mWslot i f).tsu = { b.tsu with ws := smMod {} b.tsu.ws i f } := rfl
@[simp] theorem Block.mWslot_dist (i : Nat) (f : WSlot → WSlot) : (b.mWslot i f).dist = b.dist := rfl
@[simp] theorem Block.mWslot_out (i : Nat) (f : WSlot → WSlot) : (b.mWslot i f).out = b.out := rfl
@[simp] theorem Block.mWslot_free (i : Nat) (f : WSlot → WSlot) : (b.mWslot i f).free = b.free := rfl

@[simp] theorem Block.mDist_dist (f : Dist → Dist) : (b.mDist f).dist = f b.dist := rfl
@[simp] theorem Block.mDist_tsu (f : Dist → Dist) : (b.mDist f).tsu = b.tsu := rfl
@[simp] theorem Block.mDist_out (f : Dist → Dist) : (b.mDist f).out = b.out := rfl
@[simp] theorem Block.mDist_free (f : Dist → Dist) : (b.mDist f).free = b.free := rfl

@[simp] theorem Block.mDBoot_dist (f : DBoot → DBoot) : (b.mDBoot f).dist = { b.dist with boot := f b.dist.boot } := rfl
@[simp] theorem Block.mDBoot_tsu (f : DBoot → DBoot) : (b.mDBoot f).tsu = b.tsu := rfl
@[simp] theorem Block.mDBoot_out (f : DBoot → DBoot) : (b.mDBoot f).out = b.out := rfl
@[simp] theorem Block.mDBoot_free (f : DBoot → DBoot) : (b.mDBoot f).free = b.free := rfl

@[simp] theorem Block.mMod_dist (f : Module → Module) : (b.mMod f).dist = { b.dist with mod := f b.dist.mod } := rfl
@[simp] theorem Block.mMod_tsu (f : Module → Module) : (b.mMod f).tsu = b.tsu := rfl
@[simp] theorem Block.mMod_out (f : Module → Module) : (b.mMod f).out = b.out := rfl
@[simp] theorem Block.mMod_free (f : Module → Module) : (b.mMod f).free = b.free := rfl

@[simp] theorem Block.mObjs_dist (f : Objs → Objs) : (b.mObjs f).dist = { b.dist with objs := f b.dist.objs } := rfl
@[simp] theorem Block.mObjs_tsu (f : Objs → Objs) : (b.mObjs f).tsu = b.tsu := rfl
@[simp] theorem Block.mObjs_out (f : Objs → Objs) : (b.mObjs f).out = b.out := rfl
@[simp] theorem Block.mObjs_free (f : Objs → Objs) : (b.mObjs f).free = b.free := rfl

@[simp] theorem Block.mRoot_dist (f : Root → Root) : (b.mRoot f).dist = { b.dist with root := f b.dist.root } := rfl
@[simp] theorem Block.mRoot_tsu (f : Root → Root) : (b.mRoot f).tsu = b.tsu := rfl
@[simp] theorem Block.mRoot_out (f : Root → Root) : (b.mRoot f).out = b.out := rfl
@[simp] theorem Block.mRoot_free (f : Root → Root) : (b.mRoot f).free = b.free := rfl

@[simp] theorem Block.emit_out (o : Out) : (b.emit o).out = b.out ++ [o] := rfl
@[simp] theorem Block.emit_tsu (o : Out) : (b.emit o).tsu = b.tsu := rfl
@[simp] theorem Block.emit_dist (o : Out) : (b.emit o).dist = b.dist := rfl
@[simp] theorem Block.emit_free (o : Out) : (b.emit o).free = b.free := rfl
@[simp] theorem Block.draw_free : b.draw.2.free = b.free + 1 := rfl
@[simp] theorem Block.draw_tsu : b.draw.2.tsu = b.tsu := rfl
@[simp] theorem Block.draw_dist : b.draw.2.dist = b.dist := rfl
@[simp] theorem Block.draw_out : b.draw.2.out = b.out := rfl

@[simp] theorem Block.mTime_tsu_tsu (f : TimeSt → TimeSt) : (b.mTime .tsu f).tsu = { b.tsu with time := f b.tsu.time } := rfl
@[simp] theorem Block.mTime_tsu_dist (f : TimeSt → TimeSt) : (b.mTime .tsu f).dist = b.dist := rfl
@[simp] theorem Block.mTime_dist_dist (f : TimeSt → TimeSt) : (b.mTime .dist f).dist = { b.dist with time := f b.dist.time } := rfl
@[simp] theorem Block.mTime_dist_tsu (f : TimeSt → TimeSt) : (b.mTime .dist f).tsu = b.tsu := rfl
@[simp] theorem Block.mTime_out (u : UnitRef) (f : TimeSt → TimeSt) : (b.mTime u f).out = b.out := by cases u <;> rfl
@[simp] theorem Block.mTime_free (u : UnitRef) (f : TimeSt → TimeSt) : (b.mTime u f).free = b.free := by cases u <;> rfl

@[simp] theorem Block.mServo_tsu_tsu (f : Servo → Servo) : (b.mServo .tsu f).tsu = { b.tsu with servo := f b.tsu.servo } := rfl
@[simp] theorem Block.mServo_tsu_dist (f : Servo → Servo) : (b.mServo .tsu f).dist = b.dist := rfl
@[simp] theorem Block.mServo_dist_dist (f : Servo → Servo) : (b.mServo .dist f).dist = { b.dist with servo := f b.dist.servo } := rfl
@[simp] theorem Block.mServo_dist_tsu (f : Servo → Servo) : (b.mServo .dist f).tsu = b.tsu := rfl
@[simp] theorem Block.mServo_out (u : UnitRef) (f : Servo → Servo) : (b.mServo u f).out = b.out := by cases u <;> rfl
@[simp] theorem Block.mServo_free (u : UnitRef) (f : Servo → Servo) : (b.mServo u f).free = b.free := by cases u <;> rfl

@[simp] theorem Block.mTdc_tsu_tsu (f : Tdc → Tdc) : (b.mTdc .tsu f).tsu = { b.tsu with tdc := f b.tsu.tdc } := rfl
@[simp] theorem Block.mTdc_tsu_dist (f : Tdc → Tdc) : (b.mTdc .tsu f).dist = b.dist := rfl
@[simp] theorem Block.mTdc_dist_dist (f : Tdc → Tdc) : (b.mTdc .dist f).dist = { b.dist with tdc := f b.dist.tdc } := rfl
@[simp] theorem Block.mTdc_dist_tsu (f : Tdc → Tdc) : (b.mTdc .dist f).tsu = b.tsu := rfl
@[simp] theorem Block.mTdc_out (u : UnitRef) (f : Tdc → Tdc) : (b.mTdc u f).out = b.out := by cases u <;> rfl
@[simp] theorem Block.mTdc_free (u : UnitRef) (f : Tdc → Tdc) : (b.mTdc u f).free = b.free := by cases u <;> rfl

@[simp] theorem Block.mCat_tsu_tsu (f : CatSt → CatSt) : (b.mCat .tsu f).tsu = { b.tsu with cat := f b.tsu.cat } := rfl
@[simp] theorem Block.mCat_tsu_dist (f : CatSt → CatSt) : (b.mCat .tsu f).dist = b.dist := rfl
@[simp] theorem Block.mCat_dist_dist (f : CatSt → CatSt) : (b.mCat .dist f).dist = { b.dist with cat := f b.dist.cat } := rfl
@[simp] theorem Block.mCat_dist_tsu (f : CatSt → CatSt) : (b.mCat .dist f).tsu = b.tsu := rfl
@[simp] theorem Block.mCat_out (u : UnitRef) (f : CatSt → CatSt) : (b.mCat u f).out = b.out := by cases u <;> rfl
@[simp] theorem Block.mCat_free (u : UnitRef) (f : CatSt → CatSt) : (b.mCat u f).free = b.free := by cases u <;> rfl

@[simp] theorem Block.mImg_tsu_tsu (f : ImgRx → ImgRx) : (b.mImg .tsu f).tsu = { b.tsu with img := f b.tsu.img } := rfl
@[simp] theorem Block.mImg_tsu_dist (f : ImgRx → ImgRx) : (b.mImg .tsu f).dist = b.dist := rfl
@[simp] theorem Block.mImg_dist_dist (f : ImgRx → ImgRx) : (b.mImg .dist f).dist = { b.dist with img := f b.dist.img } := rfl
@[simp] theorem Block.mImg_dist_tsu (f : ImgRx → ImgRx) : (b.mImg .dist f).tsu = b.tsu := rfl
@[simp] theorem Block.mImg_out (u : UnitRef) (f : ImgRx → ImgRx) : (b.mImg u f).out = b.out := by cases u <;> rfl
@[simp] theorem Block.mImg_free (u : UnitRef) (f : ImgRx → ImgRx) : (b.mImg u f).free = b.free := by cases u <;> rfl

@[simp] theorem Block.mLane_laneA (f : Lane → Lane) : (b.mLane (.tsu .A) f).tsu = { b.tsu with laneA := f b.tsu.laneA } := rfl
@[simp] theorem Block.mLane_laneB (f : Lane → Lane) : (b.mLane (.tsu .B) f).tsu = { b.tsu with laneB := f b.tsu.laneB } := rfl
@[simp] theorem Block.mLane_tsu_dist (p : Plane) (f : Lane → Lane) : (b.mLane (.tsu p) f).dist = b.dist := by cases p <;> rfl
@[simp] theorem Block.mLane_dist_dist (n : Nat) (f : Lane → Lane) : (b.mLane (.dist n) f).dist = { b.dist with lanes := smMod {} b.dist.lanes n f } := rfl
@[simp] theorem Block.mLane_dist_tsu (n : Nat) (f : Lane → Lane) : (b.mLane (.dist n) f).tsu = b.tsu := rfl
@[simp] theorem Block.mLane_out (l : LaneRef) (f : Lane → Lane) : (b.mLane l f).out = b.out := by
  rcases l with (_ | _) | _ <;> rfl
@[simp] theorem Block.mLane_free (l : LaneRef) (f : Lane → Lane) : (b.mLane l f).free = b.free := by
  rcases l with (_ | _) | _ <;> rfl

@[simp] theorem Block.mReg_laneA (f : LaneReg → LaneReg) : (b.mReg (.tsu .A) f).tsu = { b.tsu with laneA := { b.tsu.laneA with reg := f b.tsu.laneA.reg } } := rfl
@[simp] theorem Block.mReg_laneB (f : LaneReg → LaneReg) : (b.mReg (.tsu .B) f).tsu = { b.tsu with laneB := { b.tsu.laneB with reg := f b.tsu.laneB.reg } } := rfl
@[simp] theorem Block.mReg_tsu_dist (p : Plane) (f : LaneReg → LaneReg) : (b.mReg (.tsu p) f).dist = b.dist := by cases p <;> rfl
@[simp] theorem Block.mReg_dist_dist (n : Nat) (f : LaneReg → LaneReg) : (b.mReg (.dist n) f).dist = { b.dist with lanes := smMod {} b.dist.lanes n (fun x => { x with reg := f x.reg }) } := rfl
@[simp] theorem Block.mReg_dist_tsu (n : Nat) (f : LaneReg → LaneReg) : (b.mReg (.dist n) f).tsu = b.tsu := rfl
@[simp] theorem Block.mReg_out (l : LaneRef) (f : LaneReg → LaneReg) : (b.mReg l f).out = b.out := by
  rcases l with (_ | _) | _ <;> rfl
@[simp] theorem Block.mReg_free (l : LaneRef) (f : LaneReg → LaneReg) : (b.mReg l f).free = b.free := by
  rcases l with (_ | _) | _ <;> rfl

@[simp] theorem Block.mLink_laneA (f : LaneLink → LaneLink) : (b.mLink (.tsu .A) f).tsu = { b.tsu with laneA := { b.tsu.laneA with link := f b.tsu.laneA.link } } := rfl
@[simp] theorem Block.mLink_laneB (f : LaneLink → LaneLink) : (b.mLink (.tsu .B) f).tsu = { b.tsu with laneB := { b.tsu.laneB with link := f b.tsu.laneB.link } } := rfl
@[simp] theorem Block.mLink_tsu_dist (p : Plane) (f : LaneLink → LaneLink) : (b.mLink (.tsu p) f).dist = b.dist := by cases p <;> rfl
@[simp] theorem Block.mLink_dist_dist (n : Nat) (f : LaneLink → LaneLink) : (b.mLink (.dist n) f).dist = { b.dist with lanes := smMod {} b.dist.lanes n (fun x => { x with link := f x.link }) } := rfl
@[simp] theorem Block.mLink_dist_tsu (n : Nat) (f : LaneLink → LaneLink) : (b.mLink (.dist n) f).tsu = b.tsu := rfl
@[simp] theorem Block.mLink_out (l : LaneRef) (f : LaneLink → LaneLink) : (b.mLink l f).out = b.out := by
  rcases l with (_ | _) | _ <;> rfl
@[simp] theorem Block.mLink_free (l : LaneRef) (f : LaneLink → LaneLink) : (b.mLink l f).free = b.free := by
  rcases l with (_ | _) | _ <;> rfl

@[simp] theorem Block.mSync_laneA (f : LaneSync → LaneSync) : (b.mSync (.tsu .A) f).tsu = { b.tsu with laneA := { b.tsu.laneA with sync := f b.tsu.laneA.sync } } := rfl
@[simp] theorem Block.mSync_laneB (f : LaneSync → LaneSync) : (b.mSync (.tsu .B) f).tsu = { b.tsu with laneB := { b.tsu.laneB with sync := f b.tsu.laneB.sync } } := rfl
@[simp] theorem Block.mSync_tsu_dist (p : Plane) (f : LaneSync → LaneSync) : (b.mSync (.tsu p) f).dist = b.dist := by cases p <;> rfl
@[simp] theorem Block.mSync_dist_dist (n : Nat) (f : LaneSync → LaneSync) : (b.mSync (.dist n) f).dist = { b.dist with lanes := smMod {} b.dist.lanes n (fun x => { x with sync := f x.sync }) } := rfl
@[simp] theorem Block.mSync_dist_tsu (n : Nat) (f : LaneSync → LaneSync) : (b.mSync (.dist n) f).tsu = b.tsu := rfl
@[simp] theorem Block.mSync_out (l : LaneRef) (f : LaneSync → LaneSync) : (b.mSync l f).out = b.out := by
  rcases l with (_ | _) | _ <;> rfl
@[simp] theorem Block.mSync_free (l : LaneRef) (f : LaneSync → LaneSync) : (b.mSync l f).free = b.free := by
  rcases l with (_ | _) | _ <;> rfl

/-- A command's meaning leaves the queue alone. -/
@[simp] theorem State.run_eq (f : Block → Block) (s : State) : s.run f = .next { s with blk := f s.blk } := rfl

@[simp] theorem State.runLane_tsu (p : Plane) (f : Block → Block) (s : State) :
    s.runLane (.tsu p) f = .next { s with blk := f s.blk } := rfl

/-- A command that names a lane the unit has. -/
theorem State.runLane_ok (l : LaneRef) (f : Block → Block) (s : State) (h : l.ok = true) :
    s.runLane l f = .next { s with blk := f s.blk } := by
  cases l with
  | tsu p => rfl
  | dist n =>
    have : n < 312 := by simpa [LaneRef.ok] using h
    simp [State.runLane, this]

end Sys2Proof.Machine
end

