-- ==== Sys2Proof/Laws/Send.lean ====
section
/-! SUPPORT. What sending a frame can change: the link state of the lane it is sent on, and what leaves the unit. -/

namespace Sys2Proof.Machine

/-- `b'` is `b` but for the link state of lane `l` and frames that left after `b`'s. -/
def LinkOnly (l : LaneRef) (b b' : Block) : Prop :=
  match l with
  | .tsu p => ∃ k os, b' = { b.mLink (.tsu p) fun _ => k with out := b.out ++ os }
  | .dist _ => ∃ ls os, b' = { b with dist := { b.dist with lanes := ls }, out := b.out ++ os }

theorem LinkOnly.refl (l : LaneRef) (b : Block) : LinkOnly l b b := by
  cases l with
  | tsu p => cases p <;> exact ⟨_, [], by simp [Block.mLink, Block.mLane]; rfl⟩
  | dist n => exact ⟨_, [], by simp; rfl⟩

theorem LinkOnly.trans {l : LaneRef} {b c d : Block} (h : LinkOnly l b c) (g : LinkOnly l c d) : LinkOnly l b d := by
  cases l with
  | tsu p =>
    obtain ⟨k, os, rfl⟩ := h
    obtain ⟨k', os', rfl⟩ := g
    refine ⟨k', os ++ os', ?_⟩
    cases p <;> simp [Block.mLink, Block.mLane]
  | dist n =>
    obtain ⟨k, os, rfl⟩ := h
    obtain ⟨k', os', rfl⟩ := g
    exact ⟨k', os ++ os', by simp⟩

theorem linkOnly_mLink (l : LaneRef) (b : Block) (f : LaneLink → LaneLink) : LinkOnly l b (b.mLink l f) := by
  cases l with
  | tsu p => cases p <;> exact ⟨_, [], by simp [Block.mLink, Block.mLane]; rfl⟩
  | dist n => exact ⟨_, [], by simp [Block.mLink, Block.mLane]; rfl⟩

theorem linkOnly_emit (l : LaneRef) (b : Block) (o : Out) : LinkOnly l b (b.emit o) := by
  cases l with
  | tsu p => cases p <;> exact ⟨_, [o], by simp [Block.mLink, Block.mLane, Block.emit]; rfl⟩
  | dist n => exact ⟨_, [o], by simp [Block.emit]; rfl⟩

theorem sendOne_linkOnly (b : Block) (l : LaneRef) (cls u : Nat) (b' : Block) (h : b.sendOne l cls = some (u, b')) :
    LinkOnly l b b' := by
  unfold Block.sendOne at h
  simp only at h
  split at h
  · cases ht : takeFirst (fun f => f.cls == cls) (b.lane l).link.txq with
    | none => rw [ht] at h; cases h
    | some r =>
      rw [ht] at h
      simp only [Option.map_some, Option.some.injEq, Prod.mk.injEq] at h
      rw [← h.2]
      exact (linkOnly_mLink l b _).trans (linkOnly_emit l _ _)
  · cases h

theorem sendRun_linkOnly (l : LaneRef) (cls n d : Nat) (b : Block) : LinkOnly l b (Block.sendRun l cls n d b) := by
  induction n generalizing d b with
  | zero => exact LinkOnly.refl l b
  | succ n ih =>
    unfold Block.sendRun
    split
    · exact LinkOnly.refl l b
    · split
      · exact LinkOnly.refl l b
      · split
        · exact LinkOnly.refl l b
        · rename_i h
          exact (sendOne_linkOnly b l cls _ _ h).trans (ih _ _)

theorem drr_linkOnly (l : LaneRef) (cs : List Nat) (b c : Block) (h : LinkOnly l b c) :
    LinkOnly l b (cs.foldl (fun b k => Block.sendRun l k 256 (2048 * b.weight k + 2068) b) c) := by
  induction cs generalizing c with
  | nil => exact h
  | cons k cs ih => exact ih _ (h.trans (sendRun_linkOnly l k 256 _ c))

theorem pump_linkOnly (l : LaneRef) (n : Nat) (b : Block) : LinkOnly l b (Block.pump l n b) := by
  induction n generalizing b with
  | zero => exact LinkOnly.refl l b
  | succ n ih =>
    unfold Block.pump
    have h := drr_linkOnly l [2, 3, 4, 5, 6] b _ (sendRun_linkOnly l 1 256 (256 * 4096) b)
    generalize hx : List.foldl (fun b k => Block.sendRun l k 256 (2048 * b.weight k + 2068) b)
      (Block.sendRun l 1 256 (256 * 4096) b) [2, 3, 4, 5, 6] = x at h
    split
    · simp only [hx]
      by_cases hl : (x.lane l).link.txq.length < (b.lane l).link.txq.length
      · rw [if_pos hl]; exact h.trans (ih x)
      · rw [if_neg hl]; exact h
    · exact LinkOnly.refl l b

/-- Sending changes nothing but the lane's link state and what has left. -/
theorem send_linkOnly (b : Block) (l : LaneRef) (w : Bool) (f : FrameBody) : LinkOnly l b (b.send l w f) := by
  unfold Block.send
  dsimp only
  split
  · exact linkOnly_emit l b _
  · split
    · exact (linkOnly_mLink l b _).trans (pump_linkOnly l 64 _)
    · exact LinkOnly.refl l b

/-- At the TSU a send leaves everything but the lanes' link state. -/
theorem send_tsu (b : Block) (p : Plane) (w : Bool) (f : FrameBody) :
    ∃ k os, b.send (.tsu p) w f = { b.mLink (.tsu p) fun _ => k with out := b.out ++ os } :=
  send_linkOnly b (.tsu p) w f

/-- At a distributor a send leaves everything but the lanes. -/
theorem send_dist (b : Block) (n : Nat) (w : Bool) (f : FrameBody) :
    ∃ ls os, b.send (.dist n) w f = { b with dist := { b.dist with lanes := ls }, out := b.out ++ os } :=
  send_linkOnly b (.dist n) w f

theorem send_reg (b : Block) (p q : Plane) (w : Bool) (f : FrameBody) :
    ((b.send (.tsu p) w f).lane (.tsu q)).reg = (b.lane (.tsu q)).reg := by
  obtain ⟨k, os, h⟩ := send_tsu b p w f
  rw [h]; cases p <;> cases q <;> rfl

theorem send_tsu_dist (b : Block) (p : Plane) (w : Bool) (f : FrameBody) : (b.send (.tsu p) w f).dist = b.dist := by
  obtain ⟨k, os, h⟩ := send_tsu b p w f
  rw [h]; cases p <;> rfl

theorem send_tsu_free (b : Block) (p : Plane) (w : Bool) (f : FrameBody) : (b.send (.tsu p) w f).free = b.free := by
  obtain ⟨k, os, h⟩ := send_tsu b p w f
  rw [h]; cases p <;> rfl

/-- The TSU after a send, lanes apart. -/
theorem send_tsu_tsu (b : Block) (p : Plane) (w : Bool) (f : FrameBody) :
    ∃ x y, (b.send (.tsu p) w f).tsu = { b.tsu with laneA := x, laneB := y } := by
  obtain ⟨k, os, h⟩ := send_tsu b p w f
  rw [h]; cases p <;> exact ⟨_, _, rfl⟩

/-- The TSU after a send on both lanes, lanes apart. -/
theorem sendBoth_tsu (b : Block) (w : Bool) (f : FrameBody) :
    ∃ x y, (b.sendBoth w f).tsu = { b.tsu with laneA := x, laneB := y } := by
  obtain ⟨x, y, h⟩ := send_tsu_tsu b .A w f
  obtain ⟨x', y', h'⟩ := send_tsu_tsu (b.send (.tsu .A) w f) .B w f
  exact ⟨x', y', by unfold Block.sendBoth; rw [h', h]⟩

theorem sendBoth_dist (b : Block) (w : Bool) (f : FrameBody) : (b.sendBoth w f).dist = b.dist := by
  unfold Block.sendBoth; rw [send_tsu_dist, send_tsu_dist]

theorem send_dist_tsu (b : Block) (n : Nat) (w : Bool) (f : FrameBody) : (b.send (.dist n) w f).tsu = b.tsu := by
  obtain ⟨k, os, h⟩ := send_dist b n w f
  rw [h]

/-- The distributor after a send, lanes apart. -/
theorem send_dist_dist (b : Block) (n : Nat) (w : Bool) (f : FrameBody) :
    ∃ ls, (b.send (.dist n) w f).dist = { b.dist with lanes := ls } := by
  obtain ⟨k, os, h⟩ := send_dist b n w f
  exact ⟨k, by rw [h]⟩

end Sys2Proof.Machine
end

