-- ==== Sys2Proof/Laws/Waits.lean ====
section
/-! SUPPORT. What completing and withdrawing waits can change. -/

namespace Sys2Proof.Machine

@[simp] theorem lessLinks_emit (b : Block) (o : Out) : (b.emit o).lessLinks = b.lessLinks := rfl
@[simp] theorem lessWaits_emit (b : Block) (o : Out) : (b.emit o).lessWaits = b.lessWaits := rfl

/-- At the TSU a send stays within the lanes' link state. -/
@[simp] theorem lessLinks_send (b : Block) (p : Plane) (w : Bool) (f : FrameBody) :
    (b.send (.tsu p) w f).lessLinks = b.lessLinks := by
  obtain ⟨k, os, h⟩ := send_tsu b p w f
  rw [h]; cases p <;> rfl

@[simp] theorem lessLinks_sendBoth (b : Block) (w : Bool) (f : FrameBody) : (b.sendBoth w f).lessLinks = b.lessLinks := by
  unfold Block.sendBoth; rw [lessLinks_send, lessLinks_send]

/-- At a distributor a send stays within its lanes. -/
@[simp] theorem lessLanes_send (b : Block) (n : Nat) (w : Bool) (f : FrameBody) :
    (b.send (.dist n) w f).lessLanes = b.lessLanes := by
  obtain ⟨k, os, h⟩ := send_dist b n w f
  rw [h]; rfl

@[simp] theorem lessWaits_send (b : Block) (p : Plane) (w : Bool) (f : FrameBody) :
    (b.send (.tsu p) w f).lessWaits = b.lessWaits := by
  unfold Block.lessWaits; rw [lessLinks_send]

@[simp] theorem lessWaits_sendBoth (b : Block) (w : Bool) (f : FrameBody) : (b.sendBoth w f).lessWaits = b.lessWaits := by
  unfold Block.lessWaits; rw [lessLinks_sendBoth]

/-- A part of the block that every turn leaves alone is left alone by all. -/
theorem each_keeps {α β : Type} (g : Block → β) (l : List α) (f : Block → α → Block)
    (h : ∀ b a, g (f b a) = g b) (b : Block) : g (b.each l f) = g b := by
  unfold Block.each
  induction l generalizing b with
  | nil => rfl
  | cons a t ih => exact (ih (f b a)).trans (h b a)

@[simp] theorem lessWaits_answer (b : Block) (d : Bool) (t : Option Byte) (e : BitVec 2) (v : BitVec 64) :
    (b.answer d t e v).lessWaits = b.lessWaits := by
  cases d <;> rfl

@[simp] theorem lessWaits_answerReads (b : Block) (i : Nat) : (b.answerReads i).lessWaits = b.lessWaits := by
  unfold Block.answerReads
  dsimp only
  rw [each_keeps Block.lessWaits _ _ (fun b _ => lessWaits_answer b _ _ _ _)]
  rfl

@[simp] theorem lessWaits_mWslot (b : Block) (i : Nat) (f : WSlot → WSlot) :
    (b.mWslot i f).lessWaits = b.lessWaits := rfl

@[simp] theorem lessWaits_mSlot (b : Block) (i : Nat) (f : Slot → Slot) :
    (b.mSlot i f).lessWaits = b.lessWaits := rfl

@[simp] theorem lessWaits_wsDone (b : Block) (i : Nat) (r : WRes) : (b.wsDone i r).lessWaits = b.lessWaits := by
  unfold Block.wsDone
  rw [lessWaits_answerReads, lessWaits_mWslot]

theorem lessWaits_semServeList (n : Nat) (l : List (Nat × WOp)) (b : Block) :
    (Block.semServeList n l b).lessWaits = b.lessWaits := by
  induction l generalizing b with
  | nil => rfl
  | cons x t ih =>
    obtain ⟨i, o⟩ := x
    unfold Block.semServeList
    dsimp only
    split
    · rw [ih, lessWaits_wsDone, lessWaits_mSlot]
    · rfl

@[simp] theorem lessWaits_semServe (b : Block) (n : Nat) : (b.semServe n).lessWaits = b.lessWaits := by
  unfold Block.semServe
  dsimp only
  split
  · exact lessWaits_semServeList _ _ _
  · rfl

@[simp] theorem lessWaits_hallGone (b : Block) (tag : BitVec 16) (e : HallEnd) :
    (b.hallGone tag e).lessWaits = b.lessWaits := by
  unfold Block.hallGone
  split
  · rfl
  · cases e
    · simp only [lessWaits_send]; rfl
    · rfl

@[simp] theorem lessWaits_wsWithdraw (b : Block) (i : Nat) (st : Byte) (arr cancel : Bool) (e : HallEnd) :
    (b.wsWithdraw i st arr cancel e).lessWaits = b.lessWaits := by
  unfold Block.wsWithdraw
  split
  · rfl
  · rename_i o _
    have h : ∀ r, ((b.wsDone i r).mTsu fun t =>
        { t with held := t.held.filter fun x => x != .waitOp (i / 8) (i % 8) }).lessWaits = b.lessWaits :=
      fun r => lessWaits_wsDone b i r
    have tail : ∀ b1 : Block,
        (if o.space = 1 then b1.hallGone (wsTag i) e
          else if o.space = 2 ∧ o.op = 0xC ∧ !o.held then
            match o.slot with
            | none => b1
            | some n =>
              if (b1.slot n).scope = 0 then b1.semServe n
              else if cancel then b1.send (.tsu (b1.slot n).plane) (b1.slot n).world
                (.cancel ((b1.slot n).addr false) (b1.myPda (b1.slot n).plane) (wsTag i))
              else b1
          else b1).lessWaits = b1.lessWaits := by
      intro b1
      split
      · exact lessWaits_hallGone _ _ _
      · split
        · split
          · rfl
          · split
            · exact lessWaits_semServe _ _
            · split
              · exact lessWaits_send _ _ _ _
              · rfl
        · rfl
    exact (tail _).trans (h _)

@[simp] theorem lessWaits_wsWithdrawCtx (b : Block) (c : Nat) (st : Byte) (cancel : Bool) (e : HallEnd) :
    (b.wsWithdrawCtx c st cancel e).lessWaits = b.lessWaits :=
  each_keeps Block.lessWaits _ _ (fun b _ => lessWaits_wsWithdraw b _ _ _ _ _) b

@[simp] theorem lessWaits_releaseAwait (b : Block) (c : Nat) (st : Byte) :
    (b.releaseAwait c st).lessWaits = b.lessWaits :=
  each_keeps Block.lessWaits _ _ (fun b _ => lessWaits_wsDone b _ _) b

@[simp] theorem lessWaits_releasePhase (b : Block) (n : Nat) (ph : Bool) :
    (b.releasePhase n ph).lessWaits = b.lessWaits :=
  each_keeps Block.lessWaits _ _ (fun b _ => lessWaits_wsDone b _ _) b

@[simp] theorem lessWaits_bindPhase (b : Block) (n : Nat) (ph : Bool) (cs : List Nat) (c : Nat) :
    (b.bindPhase n ph cs c).lessWaits = b.lessWaits :=
  each_keeps Block.lessWaits _ _ (fun b _ => lessWaits_mWslot b _ _) b

/-! ### What agreement on `lessWaits` gives -/

theorem lessWaits_ctxs {b c : Block} (h : b.lessWaits = c.lessWaits) : b.tsu.ctxs = c.tsu.ctxs :=
  congrArg (fun x => x.tsu.ctxs) h

theorem lessWaits_dist {b c : Block} (h : b.lessWaits = c.lessWaits) : b.dist = c.dist :=
  congrArg (fun x => x.dist) h

theorem lessWaits_ctx {b c : Block} (h : b.lessWaits = c.lessWaits) (n : Nat) : b.ctx n = c.ctx n := by
  unfold Block.ctx; rw [lessWaits_ctxs h]

theorem lessWaits_xlat {b c : Block} (h : b.lessWaits = c.lessWaits) (n v : Nat) : b.xlat n v = c.xlat n v := by
  have e : b.tsu.bar.xlat = c.tsu.bar.xlat := congrArg (fun x => x.tsu.bar.xlat) h
  unfold Block.xlat; rw [e]

/-- No operation of a wait slot is outstanding. -/
theorem wslot_op_none (b : Block) (h : ∀ e ∈ b.tsu.ws, e.2.op = none) (i : Nat) : (b.wslot i).op = none := by
  unfold Block.wslot
  induction hl : b.tsu.ws generalizing b with
  | nil => rfl
  | cons e t ih =>
    rw [hl] at h
    rw [smGet]
    split
    · exact h e (by simp)
    · exact ih { b with tsu := { b.tsu with ws := t } } (fun e he => h e (by simp [show e ∈ t from he])) rfl

theorem wsWhere_nil (b : Block) (h : ∀ e ∈ b.tsu.ws, e.2.op = none) (p : Nat → WOp → Bool) : b.wsWhere p = [] := by
  unfold Block.wsWhere
  dsimp only
  generalize hl : List.filterMap _ b.tsu.ws = l
  have : l = [] := by
    rw [← hl, List.filterMap_eq_nil_iff]
    intro a ha
    rw [h a ha]
  rw [this]; rfl

theorem wsWithdrawCtx_idle (b : Block) (h : ∀ e ∈ b.tsu.ws, e.2.op = none) (c : Nat) (st : Byte) (k : Bool)
    (e : HallEnd) : b.wsWithdrawCtx c st k e = b := by
  unfold Block.wsWithdrawCtx Block.each
  have : ∀ l : List Nat, l.foldl (fun b k' => b.wsWithdraw (wsIdx c k') st false k e) b = b := by
    intro l
    induction l with
    | nil => rfl
    | cons a t ih =>
      rw [List.foldl_cons]
      have : b.wsWithdraw (wsIdx c a) st false k e = b := by
        unfold Block.wsWithdraw; rw [wslot_op_none b h]
      rw [this]; exact ih
  exact this _

theorem releaseAwait_idle (b : Block) (h : ∀ e ∈ b.tsu.ws, e.2.op = none) (c : Nat) (st : Byte) :
    b.releaseAwait c st = b := by
  unfold Block.releaseAwait; rw [wsWhere_nil b h]; rfl

end Sys2Proof.Machine
end

