-- ==== Sys2Proof/Laws/Halt.lean ====
section
/-! SUPPORT. The contexts after changes of one of them: intervals that end, and HALT. -/

namespace Sys2Proof.Machine

@[simp] theorem ctx_mCtx (b : Block) (c k : Nat) (f : Ctx → Ctx) :
    (b.mCtx c f).ctx k = if c = k then f (b.ctx c) else b.ctx k := by
  unfold Block.mCtx Block.ctx; rw [smGet_smMod]

@[simp] theorem ctx_mCtxReg (b : Block) (c k : Nat) (f : CtxReg → CtxReg) :
    (b.mCtxReg c f).ctx k = if c = k then { b.ctx c with reg := f (b.ctx c).reg } else b.ctx k := by
  unfold Block.mCtxReg; rw [ctx_mCtx]

@[simp] theorem ctx_mCtxRun (b : Block) (c k : Nat) (f : CtxRun → CtxRun) :
    (b.mCtxRun c f).ctx k = if c = k then { b.ctx c with run := f (b.ctx c).run } else b.ctx k := by
  unfold Block.mCtxRun; rw [ctx_mCtx]

@[simp] theorem ctx_mFlags (b : Block) (c k : Nat) (f : CtxFlags → CtxFlags) :
    (b.mFlags c f).ctx k =
      if c = k then { b.ctx c with reg := { (b.ctx c).reg with flags := f (b.ctx c).reg.flags } } else b.ctx k := by
  unfold Block.mFlags; rw [ctx_mCtxReg]

theorem outDropped_ctxs (b : Block) (p : Producer) : (b.outDropped p).tsu.ctxs = b.tsu.ctxs := by
  cases p <;> rfl

theorem demand_ctxs (b : Block) : b.demand.tsu.ctxs = b.tsu.ctxs := rfl

/-- A burst presented leaves the contexts as they are. -/
theorem present_ctxs (b : Block) (p : Producer) (ch : Nat) (d : Bytes) : (b.present p ch d).tsu.ctxs = b.tsu.ctxs := by
  unfold Block.present
  dsimp only
  split
  · rfl
  · unfold Block.dropBurst; rw [outDropped_ctxs]; rfl

theorem outDropped_dist (b : Block) (p : Producer) : (b.outDropped p).dist = b.dist := by cases p <;> rfl

theorem present_dist (b : Block) (p : Producer) (ch : Nat) (d : Bytes) : (b.present p ch d).dist = b.dist := by
  unfold Block.present
  dsimp only
  split
  · rfl
  · unfold Block.dropBurst; rw [outDropped_dist]; rfl

theorem takeDebt_ctxs (b : Block) (rs : List Nat) (x : Bool) : (b.takeDebt rs x).tsu.ctxs = b.tsu.ctxs :=
  each_keeps (fun b => b.tsu.ctxs) rs _ (fun b _ => by dsimp only; split <;> rfl) b

theorem takeDebt_dist (b : Block) (rs : List Nat) (x : Bool) : (b.takeDebt rs x).dist = b.dist :=
  each_keeps (fun b => b.dist) rs _ (fun b _ => by dsimp only; split <;> rfl) b

theorem ctx_of_ctxs {b c : Block} (h : b.tsu.ctxs = c.tsu.ctxs) (k : Nat) : b.ctx k = c.ctx k := by
  unfold Block.ctx; rw [h]

/-- What the end of a counting interval leaves of the contexts (R129). -/
theorem endInterval_ctx (b : Block) (c k : Nat) (r : Bool) :
    ∃ retry ref sum mx, (b.endInterval c r).ctx k = if c = k then
      { b.ctx c with interval := none
                     reg := { (b.ctx c).reg with retry := retry, ref := ref, strSum := sum, strMaxReg := mx } }
      else b.ctx k := by
  unfold Block.endInterval
  split
  · rename_i h
    refine ⟨(b.ctx c).reg.retry, (b.ctx c).reg.ref, (b.ctx c).reg.strSum, (b.ctx c).reg.strMaxReg, ?_⟩
    by_cases hk : c = k
    · subst hk; rw [if_pos rfl]
      exact Eq.symm (by rw [← h])
    · rw [if_neg hk]
  · rename_i i h
    let b1 := b.takeDebt (b.ctx c).reg.regionList (!r)
    let ds := b1.debtSum (b.ctx c).reg.regionList
    refine ⟨satAdd (0 : BitVec 16) (b1.resent - i.resent0), i.ref, ds.1, BitVec.ofNat 6 ds.2, ?_⟩
    dsimp only
    have e : ∀ x, (b.takeDebt (b.ctx c).reg.regionList (!r)).ctx x = b.ctx x := ctx_of_ctxs (takeDebt_ctxs _ _ _)
    split
    · rw [ctx_of_ctxs (present_ctxs _ _ _ _), ctx_mCtx, e c, e k]
    · rw [ctx_mCtx, e c, e k]

theorem endInterval_dist (b : Block) (c : Nat) (r : Bool) : (b.endInterval c r).dist = b.dist := by
  unfold Block.endInterval
  split
  · rfl
  · dsimp only
    split
    · rw [present_dist]; exact takeDebt_dist _ _ _
    · exact takeDebt_dist _ _ _

/-- HALT (R114): the context's state and flags; every other context stays as it was. -/
theorem halt_ctx (b : Block) (c : Nat) (why : CtxFlags → CtxFlags) (fenced : Bool) (k : Nat) :
    ∃ retry ref sum mx, (b.halt c why fenced).ctx k = if c = k then
      { b.ctx c with
        st := .halt, sched := none, heldGo := none, missedWin := false, interval := none
        reg := { (b.ctx c).reg with retry := retry, ref := ref, strSum := sum, strMaxReg := mx
                                    flags := why (b.ctx c).reg.flags } }
      else b.ctx k := by
  unfold Block.halt
  dsimp only
  obtain ⟨p, q, r, m, h⟩ := endInterval_ctx b c c false
  rw [if_pos rfl] at h
  obtain ⟨p', q', r', m', h'⟩ := endInterval_ctx b c k false
  refine ⟨p, q, r, m, ?_⟩
  rw [lessWaits_ctx (lessWaits_releaseAwait _ _ _), lessWaits_ctx (lessWaits_wsWithdrawCtx _ _ _ _ _)]
  have e : ∀ (x : Block) (rs : List Nat),
      (x.each rs fun b n => b.mEp n fun e => { e with quiesce := false }).ctx k = x.ctx k := by
    intro x rs
    apply ctx_of_ctxs
    apply each_keeps (fun b => b.tsu.ctxs)
    intro _ _; rfl
  split <;> (try rw [e]) <;> rw [ctx_mCtx] <;> by_cases hk : c = k
  · rw [if_pos hk, if_pos hk, h]
  · rw [if_neg hk, if_neg hk, h', if_neg hk]
  · rw [if_pos hk, if_pos hk, h]
  · rw [if_neg hk, if_neg hk, h', if_neg hk]

theorem halt_dist (b : Block) (c : Nat) (why : CtxFlags → CtxFlags) (fenced : Bool) :
    (b.halt c why fenced).dist = b.dist := by
  unfold Block.halt
  dsimp only
  rw [lessWaits_dist (lessWaits_releaseAwait _ _ _), lessWaits_dist (lessWaits_wsWithdrawCtx _ _ _ _ _)]
  have e : ∀ (x : Block) (rs : List Nat),
      (x.each rs fun b n => b.mEp n fun e => { e with quiesce := false }).dist = x.dist := by
    intro x rs
    apply each_keeps (fun b => b.dist)
    intro _ _; rfl
  split <;> (try rw [e]) <;> exact endInterval_dist b c false

end Sys2Proof.Machine
end

