-- ==== Sys2Proof/Laws/Receive.lean ====
section
/-! SUPPORT. What the receipt of a frame does where every check passes. -/

namespace Sys2Proof.Machine

theorem lane_mLane (b : Block) (l m : LaneRef) (f : Lane → Lane) :
    (b.mLane l f).lane m = if l = m then f (b.lane l) else b.lane m := by
  cases l with
  | tsu p => cases m with
    | tsu q => cases p <;> cases q <;> rfl
    | dist n => cases p <;> rfl
  | dist n => cases m with
    | tsu q => cases q <;> rfl
    | dist k => unfold Block.mLane Block.lane; simp

theorem lane_mLink (b : Block) (l m : LaneRef) (f : LaneLink → LaneLink) :
    (b.mLink l f).lane m = if l = m then { b.lane l with link := f (b.lane l).link } else b.lane m := by
  unfold Block.mLink; rw [lane_mLane]

theorem lane_mReg (b : Block) (l m : LaneRef) (f : LaneReg → LaneReg) :
    (b.mReg l f).lane m = if l = m then { b.lane l with reg := f (b.lane l).reg } else b.lane m := by
  unfold Block.mReg; rw [lane_mLane]

theorem predict_lane (b : Block) (ch : Nat) (m : LaneRef) : (b.predict ch).lane m = b.lane m := by
  cases m with
  | tsu q => cases q <;> rfl
  | dist n => rfl

/-- The block but for what the link of one lane and the Curator's buckets hold. -/
theorem bucket_lane (b : Block) (ch : Option Nat) (sub k : Nat) (m : LaneRef) : (b.bucket ch sub k).lane m = b.lane m := by
  unfold Block.bucket
  cases ch with
  | none => rfl
  | some c =>
    dsimp only
    split
    · rfl
    · rw [predict_lane]
      cases m with
      | tsu q => cases q <;> rfl
      | dist n => rfl

theorem corrected_reg (b : Block) (l : LaneRef) (k : Nat) (m : LaneRef) :
    ((b.corrected l k).lane m).reg = (b.lane m).reg := by
  unfold Block.corrected
  rw [bucket_lane]
  unfold Block.mCnt
  rw [lane_mLink]
  split
  · rename_i h; rw [h]
  · rfl

theorem corrected_rxSeq (b : Block) (l : LaneRef) (k : Nat) :
    ((b.corrected l k).lane l).link.rxSeq = (b.lane l).link.rxSeq := by
  unfold Block.corrected
  rw [bucket_lane]
  unfold Block.mCnt
  rw [lane_mLink, if_pos rfl]

/-- What the checks of membership, admission, topology and readiness look at. -/
structure RxSame (b c : Block) : Prop where
  tsu : b.tsu.boot = c.tsu.boot
  time : b.tsu.time = c.tsu.time
  cat : b.tsu.cat = c.tsu.cat
  reg : ∀ m, (b.lane m).reg = (c.lane m).reg
  boot : b.dist.boot = c.dist.boot
  dtime : b.dist.time = c.dist.time
  dcat : b.dist.cat = c.dist.cat
  mod : b.dist.mod = c.dist.mod
  servo : b.dist.servo = c.dist.servo

theorem RxSame.catNat {b c : Block} (h : RxSame b c) (u : UnitRef) (i s : Nat) : b.catNat u i s = c.catNat u i s := by
  unfold Block.catNat Block.catVal Block.catDefault Block.dRole Block.dPlane Block.catOf
  cases u <;> simp only [h.cat, h.dcat]

theorem RxSame.ready {b c : Block} (h : RxSame b c) : b.distReady = c.distReady := by
  unfold Block.distReady Block.topoOk Block.dRole
  simp only [h.boot, h.mod, h.dcat, h.servo, h.dtime, h.reg]

theorem RxSame.carries {b c : Block} (h : RxSame b c) (l : LaneRef) (cls : Nat) :
    b.topoCarries l cls = c.topoCarries l cls := by
  unfold Block.topoCarries
  cases l <;> simp only [h.reg, h.boot]

theorem admitRx_pass (b : Block) (l : LaneRef) (cls : Nat) (m : BitVec 32) (fence : Bool)
    (h : (b.admitRx l cls m fence).1 = true) : b.admitRx l cls m fence = (true, b) := by
  unfold Block.admitRx at h ⊢
  split at h
  · rename_i hc; rw [if_pos hc]
  · rename_i hc; rw [if_neg hc]
    split at h
    · cases h
    · rename_i ht; rw [if_neg ht]
      cases l with
      | tsu p =>
        dsimp only at h ⊢
        split at h
        · rename_i ha; rw [if_pos ha]
          split at h
          · cases h
          · rename_i hl; rw [if_neg hl]
        · rename_i ha; rw [if_neg ha]
          split at h
          · rename_i he; rw [if_pos he]
          · cases h
      | dist n =>
        dsimp only at h ⊢
        split at h
        · rename_i h1; rw [if_pos h1]
          split at h
          · cases h
          · rename_i h2; rw [if_neg h2]
        · rename_i h1; rw [if_neg h1]
          split at h
          · rename_i h2; rw [if_pos h2]
            split at h
            · cases h
            · rename_i h3; rw [if_neg h3]
          · rename_i h2; rw [if_neg h2]
            split at h
            · cases h
            · rename_i h3; rw [if_neg h3]
              split at h
              · rename_i h4; rw [if_pos h4]
              · split at h
                · cases h
                · split at h <;> cases h

theorem RxSame.admission {b c : Block} (h : RxSame b c) (l : LaneRef) (cls : Nat) (m : BitVec 32) (fence : Bool) :
    (b.admitRx l cls m fence).1 = (c.admitRx l cls m fence).1 := by
  unfold Block.admitRx
  rw [h.carries l cls]
  split
  · rfl
  · split
    · rfl
    · cases l with
      | tsu p =>
        dsimp only
        rw [h.tsu, h.catNat]
        have e : b.tc = c.tc := by unfold Block.tc; rw [h.time]
        rw [e]
        split
        · split <;> rfl
        · split <;> rfl
      | dist n =>
        dsimp only
        have e : b.portAdmitted n = c.portAdmitted n := by unfold Block.portAdmitted; rw [h.boot]
        have r : b.dRole = c.dRole := by unfold Block.dRole; rw [h.dcat]
        rw [h.boot, h.catNat, h.ready, e, r, h.dtime]
        split
        · split <;> rfl
        · split
          · split <;> rfl
          · split
            · rfl
            · split
              · rfl
              · split
                · rfl
                · split <;> rfl

theorem bucket_same (b : Block) (ch : Option Nat) (sub k : Nat) : RxSame (b.bucket ch sub k) b := by
  have hl := bucket_lane b ch sub k
  refine ⟨?_, ?_, ?_, fun m => by rw [hl], ?_, ?_, ?_, ?_, ?_⟩ <;>
  · unfold Block.bucket
    cases ch with
    | none => rfl
    | some c => dsimp only; split <;> rfl

theorem mLink_same (b : Block) (l : LaneRef) (f : LaneLink → LaneLink) : RxSame (b.mLink l f) b := by
  refine ⟨?_, ?_, ?_, fun m => ?_, ?_, ?_, ?_, ?_, ?_⟩
  rotate_left 3
  · rw [lane_mLink]; split
    · rename_i h; rw [h]
    · rfl
  all_goals (cases l with
    | tsu p => cases p <;> rfl
    | dist n => rfl)

theorem RxSame.trans {a b c : Block} (h : RxSame a b) (g : RxSame b c) : RxSame a c :=
  ⟨h.tsu.trans g.tsu, h.time.trans g.time, h.cat.trans g.cat, fun m => (h.reg m).trans (g.reg m), h.boot.trans g.boot,
    h.dtime.trans g.dtime, h.dcat.trans g.dcat, h.mod.trans g.mod, h.servo.trans g.servo⟩

theorem corrected_same (b : Block) (l : LaneRef) (k : Nat) : RxSame (b.corrected l k) b :=
  (bucket_same _ _ _ _).trans (mLink_same _ _ _)

theorem rxBook_same (b : Block) (l : LaneRef) (h : Hdr) (cls : Nat) : RxSame (b.rxBook l h cls) b := by
  unfold Block.rxBook
  dsimp only
  split
  · exact corrected_same b l _
  · exact (mLink_same _ _ _).trans (corrected_same b l _)

/-- A frame that passes every check is acted on after its receipt is booked. -/
theorem rx_ok (b : Block) (l : LaneRef) (h : Hdr) (cls feat : Nat) (fence : Bool) (k : Block → Block)
    (ok : b.rxOk l h cls feat fence = true) : b.rx l h cls feat fence k = k (b.rxBook l h cls) := by
  unfold Block.rxOk at ok
  simp only [Bool.and_eq_true, beq_iff_eq, decide_eq_true_eq, Bool.or_eq_true] at ok
  obtain ⟨⟨⟨⟨⟨⟨hu, hf⟩, hc⟩, h7⟩, hl⟩, hfe⟩, ha⟩ := ok
  unfold Block.rx
  dsimp only
  rw [if_neg (by simp [hu]), if_neg (by simp [hf]; omega), if_neg (by simp [hc]),
    if_neg (by rintro ⟨h0, h1⟩; rcases hl with hl | hl
               · exact h0 hl
               · rw [corrected_rxSeq] at h1; exact h1 hl)]
  have hb : (if cls = 0 then b.corrected l h.corr else
      (b.corrected l h.corr).mLink l fun x =>
        { x with rxSeq := x.rxSeq + 1, rxDiscard := false, credRx := x.credRx.inc cls }) = b.rxBook l h cls := rfl
  rw [hb]
  have s := rxBook_same b l h cls
  rw [if_neg (by rw [s.reg l, hfe]; simp)]
  have p : ((b.rxBook l h cls).admitRx l cls h.mepoch fence).1 = true := by rw [s.admission]; exact ha
  rw [admitRx_pass _ _ _ _ _ p]
  rfl

end Sys2Proof.Machine
end

