-- ==== Sys2Proof/Laws/Lanes.lean ====
section
/-! SUPPORT. What updates of one lane leave of that lane and of the rest of the block. -/

namespace Sys2Proof.Machine

open Sys2Proof

theorem mLane_mLane (b : Block) (l : LaneRef) (f g : Lane → Lane) :
    (b.mLane l f).mLane l g = b.mLane l fun x => g (f x) := by
  match l with
  | .tsu .A => rfl
  | .tsu .B => rfl
  | .dist n =>
    show { b with dist.lanes := smMod {} (smMod {} b.dist.lanes n f) n g } = _
    rw [smMod_smMod]; rfl

theorem mReg_mReg (b : Block) (l : LaneRef) (f g : LaneReg → LaneReg) :
    (b.mReg l f).mReg l g = b.mReg l fun x => g (f x) :=
  mLane_mLane b l _ _

/-- Two changes of one lane's registers that agree on what it holds are one. -/
theorem mReg_congr (b : Block) (l : LaneRef) (f g : LaneReg → LaneReg) (h : f (b.lane l).reg = g (b.lane l).reg) :
    b.mReg l f = b.mReg l g := by
  match l with
  | .tsu .A => simp only [Block.mReg, Block.mLane]; rw [show f b.tsu.laneA.reg = g b.tsu.laneA.reg from h]
  | .tsu .B => simp only [Block.mReg, Block.mLane]; rw [show f b.tsu.laneB.reg = g b.tsu.laneB.reg from h]
  | .dist n => simp only [Block.mReg, Block.mLane, smMod]; rw [show f (smGet {} b.dist.lanes n).reg = g (smGet {} b.dist.lanes n).reg from h]

@[simp] theorem catVal_mLane (b : Block) (l : LaneRef) (f : Lane → Lane) (u : UnitRef) (i j : Nat) :
    (b.mLane l f).catVal u i j = b.catVal u i j := by
  match l with
  | .tsu .A => cases u <;> rfl
  | .tsu .B => cases u <;> rfl
  | .dist n => cases u <;> rfl

@[simp] theorem catVal_mReg (b : Block) (l : LaneRef) (f : LaneReg → LaneReg) (u : UnitRef) (i j : Nat) :
    (b.mReg l f).catVal u i j = b.catVal u i j := catVal_mLane b l _ u i j

@[simp] theorem catNat_mReg (b : Block) (l : LaneRef) (f : LaneReg → LaneReg) (u : UnitRef) (i j : Nat) :
    (b.mReg l f).catNat u i j = b.catNat u i j := by simp only [Block.catNat, catVal_mReg]

@[simp] theorem eqSaved_mReg (b : Block) (l m : LaneRef) (f : LaneReg → LaneReg) : (b.mReg l f).eqSaved m = b.eqSaved m :=
  catVal_mReg b l f _ _ _

@[simp] theorem pwr_mReg (b : Block) (l : LaneRef) (f : LaneReg → LaneReg) : (b.mReg l f).tsu.pwr = b.tsu.pwr := by
  match l with | .tsu .A => rfl | .tsu .B => rfl | .dist _ => rfl

@[simp] theorem boot_mReg (b : Block) (l : LaneRef) (f : LaneReg → LaneReg) : (b.mReg l f).tsu.boot = b.tsu.boot := by
  match l with | .tsu .A => rfl | .tsu .B => rfl | .dist _ => rfl

@[simp] theorem mod_mReg (b : Block) (l : LaneRef) (f : LaneReg → LaneReg) : (b.mReg l f).dist.mod = b.dist.mod := by
  match l with | .tsu .A => rfl | .tsu .B => rfl | .dist _ => rfl

@[simp] theorem distBoot_mReg (b : Block) (l : LaneRef) (f : LaneReg → LaneReg) : (b.mReg l f).dist.boot = b.dist.boot := by
  match l with | .tsu .A => rfl | .tsu .B => rfl | .dist _ => rfl

@[simp] theorem live_mReg (b : Block) (l : LaneRef) (f : LaneReg → LaneReg) : (b.mReg l f).live = b.live := by
  simp only [Block.live, boot_mReg, pwr_mReg]

@[simp] theorem linkOn_mReg (b : Block) (l : LaneRef) (f : LaneReg → LaneReg) (p : Plane) : (b.mReg l f).linkOn p = b.linkOn p := by
  simp only [Block.linkOn, pwr_mReg]

@[simp] theorem dRole_mReg (b : Block) (l : LaneRef) (f : LaneReg → LaneReg) : (b.mReg l f).dRole = b.dRole := by
  match l with | .tsu .A => rfl | .tsu .B => rfl | .dist _ => rfl

@[simp] theorem roleUses_mReg (b : Block) (l : LaneRef) (f : LaneReg → LaneReg) (n : Nat) :
    (b.mReg l f).roleUses n = b.roleUses n := by simp only [Block.roleUses, dRole_mReg]

/-- Training begins where the lane may train. -/
theorem startTrain_yes (b : Block) (l : LaneRef) (h : b.canTrain l = true) :
    b.startTrain l = b.mReg l fun r => { r with
      state := .training, backoff := false, fullTrain := !r.fastStart || allZero (b.eqSaved l) } := by
  unfold Block.startTrain
  rw [if_pos h]; rfl

/-- Leaving a state other than UP only changes STATE. -/
theorem leave_notUp (b : Block) (l : LaneRef) (st : LaneSt) (h : (b.lane l).reg.state ≠ .up) :
    b.leave l st = b.mReg l fun r => { r with state := st } := by
  have e : b.up l = false := by simp [Block.up, h]
  unfold Block.leave
  simp [e]; rfl

end Sys2Proof.Machine
end

