-- ==== Sys2Proof/Laws/Memory.lean ====
section
/-! SUPPORT. Every operation on tagged memory and on hall memory keeps the canonical form, and reset has it. -/

namespace Sys2Proof.Machine

open Sys2Proof

theorem smWfFrom_filter {α : Type} [DecidableEq α] (d e : Nat → α) (p : Nat × α → Bool) (l : List (Nat × α)) (lo : Option Nat)
    (h : smWfFrom d lo l = true) (hd : ∀ x ∈ l, p x = true → d x.1 = e x.1) : smWfFrom e lo (l.filter p) = true := by
  induction l generalizing lo with
  | nil => rfl
  | cons x t ih =>
    obtain ⟨m, v⟩ := x
    have h' := h
    simp only [smWfFrom, Bool.and_eq_true, decide_eq_true_eq] at h'
    obtain ⟨⟨hlo, hv⟩, ht⟩ := h'
    have ih' := ih (some m) ht fun y hy => hd y (List.mem_cons_of_mem _ hy)
    by_cases hp : p (m, v) = true
    · rw [List.filter_cons, if_pos hp]
      simp only [smWfFrom, Bool.and_eq_true, decide_eq_true_eq]
      exact ⟨⟨hlo, by rw [← hd (m, v) List.mem_cons_self hp]; exact hv⟩, ih'⟩
    · rw [List.filter_cons, if_neg hp]
      refine smWfFrom_mono e _ (some m) lo ih' ?_
      intro k hk
      subst hk
      exact ⟨m, rfl, by simpa using le_of_lt (by simpa using hlo)⟩

/-- Setting one bit leaves the others. -/
theorem setBit64_other (w : BitVec 64) (i : Nat) (x : Bool) (k : Nat) (h : k ≠ i) :
    (setBit64 w i x).getLsbD k = w.getLsbD k := by
  unfold setBit64
  by_cases hk : k < 64
  · cases x
    · simp [hk]; intro _; omega
    · simp [hk]; intro _ _; omega
  · simp [BitVec.getLsbD_of_ge, Nat.le_of_not_lt hk]

theorem TagMem.set_dflt (m : TagMem) (n : Nat) (w : TWord) : (m.set n w).dflt = m.dflt := rfl
theorem HMem.set_dflt (m : HMem) (n : Nat) (w : TWord) : (m.set n w).dflt = m.dflt := rfl

theorem TagMem.set_wf (m : TagMem) (n : Nat) (w : TWord) (h : m.wf = true) : (m.set n w).wf = true :=
  smPut_wf_fun m.dflt m.words n w h

theorem HMem.set_wf (m : HMem) (n : Nat) (w : TWord) (h : m.wf = true) : (m.set n w).wf = true :=
  smPut_wf_fun m.dflt m.words n w h

/-- A write answers itself and leaves every other word as it was. -/
theorem HMem.get_set (m : HMem) (n k : Nat) (x : TWord) : (m.set n x).get k = if n = k then x else m.get k := by
  unfold HMem.get
  show smGet (m.dflt k) (smPut (m.dflt n) m.words n x) k = _
  by_cases hk : n = k
  · subst hk; simp
  · rw [if_neg hk, smPut]
    split
    · rw [smDel, smGet_filter, if_neg hk]
    · rw [smGet_smIns, if_neg hk, smDel, smGet_filter, if_neg hk]

theorem TagMem.clearRegion_wf (m : TagMem) (r : Nat) (rw : Bool) (h : m.wf = true) : (m.clearRegion r rw).wf = true := by
  unfold TagMem.clearRegion
  have base : ({ m with words := m.words.filter fun e => regionOf e.1 != r, fillW := setBit64 m.fillW r rw } : TagMem).wf = true := by
    refine smWfFrom_filter m.dflt _ _ m.words none h ?_
    intro x _ hx
    have hr : regionOf x.1 ≠ r := by simpa using hx
    show (⟨0, false, m.fillW.getLsbD (regionOf x.1), .good⟩ : TWord) = ⟨0, false, (setBit64 m.fillW r rw).getLsbD (regionOf x.1), .good⟩
    rw [setBit64_other _ _ _ _ hr]
  revert base
  generalize ({ m with words := m.words.filter fun e => regionOf e.1 != r, fillW := setBit64 m.fillW r rw } : TagMem) = m'
  intro base
  generalize (m.words.filter fun e => regionOf e.1 == r && e.2.ecc == .ueHard) = l
  induction l generalizing m' with
  | nil => exact base
  | cons e t ih => exact ih _ (TagMem.set_wf m' _ _ base)

theorem HMem.clearRegion_wf (m : HMem) (r : Nat) (h : m.wf = true) : (m.clearRegion r).wf = true := by
  unfold HMem.clearRegion
  dsimp only
  have base : ({ m with words := m.words.filter fun e => hmRegion e.1 != r
                        fillN := smPut false m.fillN r (!(m.region r).world) } : HMem).wf = true := by
    refine smWfFrom_filter m.dflt _ _ m.words none h ?_
    intro x _ hx
    have hr : hmRegion x.1 ≠ r := by simpa using hx
    unfold HMem.dflt
    rw [smGet_smPut, if_neg (fun e => hr e.symm)]
  revert base
  generalize ({ m with words := m.words.filter fun e => hmRegion e.1 != r
                       fillN := smPut false m.fillN r (!(m.region r).world) } : HMem) = m'
  intro base
  generalize (m.words.filter fun e => hmRegion e.1 == r && e.2.ecc == .ueHard) = l
  induction l generalizing m' with
  | nil => exact base
  | cons e t ih => exact ih _ (HMem.set_wf m' _ _ base)

/-- The loss of MEM keeps the form. -/
theorem memLost_wf (b : Block) (h : b.tsu.tm.wf = true) : b.memLost.tsu.tm.wf = true :=
  smWfFrom_filter b.tsu.tm.dflt b.tsu.tm.dflt _ b.tsu.tm.words none h fun _ _ _ => rfl

theorem reset_wf : State.reset.blk.tsu.tm.wf = true ∧ State.reset.blk.dist.objs.hmem.wf = true := ⟨rfl, rfl⟩

end Sys2Proof.Machine
end

