-- ==== Sys2Proof/Laws/Words.lean ====
section
/-! SUPPORT. An operation of a wait slot on a tagged word that is free. -/

namespace Sys2Proof.Machine

@[simp] theorem wslot_mWslot (b : Block) (i j : Nat) (f : WSlot → WSlot) :
    (b.mWslot i f).wslot j = if i = j then f (b.wslot i) else b.wslot j := by
  unfold Block.mWslot Block.wslot; simp

theorem answer_tsu (b : Block) (d : Bool) (t : Option Byte) (e : BitVec 2) (v : BitVec 64) :
    (b.answer d t e v).tsu = b.tsu := by cases d <;> rfl

theorem answer_dist (b : Block) (d : Bool) (t : Option Byte) (e : BitVec 2) (v : BitVec 64) :
    (b.answer d t e v).dist = b.dist := by cases d <;> rfl

/-- Answers to held reads leave everything but the reads and what has been sent. -/
theorem answerReads_tsu (b : Block) (i : Nat) :
    ∃ hr, (b.answerReads i).tsu = { b.tsu with heldReads := hr } := by
  unfold Block.answerReads
  dsimp only
  refine ⟨b.tsu.heldReads.filter fun r => wsIdx r.c r.k != i, ?_⟩
  rw [each_keeps (fun b => b.tsu) _ _ (fun b r => answer_tsu b _ _ _ _)]
  rfl

theorem answerReads_dist (b : Block) (i : Nat) : (b.answerReads i).dist = b.dist := by
  unfold Block.answerReads
  dsimp only
  rw [each_keeps (fun b => b.dist) _ _ (fun b r => answer_dist b _ _ _ _)]
  rfl

/-- What a completed operation leaves. -/
theorem wsDone_tsu (b : Block) (i : Nat) (r : WRes) :
    ∃ hr, (b.wsDone i r).tsu = { b.tsu with
      heldReads := hr
      ws := smMod {} b.tsu.ws i fun s => { s with
        status := r.status, sat := r.sat, ovr := r.ovr, full := r.full, w := r.w, count := r.count, rdata := r.rdata
        op := none } } := by
  unfold Block.wsDone
  obtain ⟨hr, h⟩ := answerReads_tsu (b.mWslot i fun s => { s with
    status := r.status, sat := r.sat, ovr := r.ovr, full := r.full, w := r.w, count := r.count, rdata := r.rdata
    op := none }) i
  exact ⟨hr, by rw [h]; rfl⟩

theorem wsDone_dist (b : Block) (i : Nat) (r : WRes) : (b.wsDone i r).dist = b.dist := by
  unfold Block.wsDone; rw [answerReads_dist]; rfl

/-- The slot after the operation, whatever result it shows. -/
def shown (r : WRes) (w : WSlot) : WSlot :=
  { w with
    status := r.status, sat := r.sat, ovr := r.ovr, full := r.full, w := r.w, count := r.count, rdata := r.rdata
    op := none }

theorem wslot_of_ws {b c : Block} (h : b.tsu.ws = c.tsu.ws) (i : Nat) : b.wslot i = c.wslot i := by
  unfold Block.wslot; rw [h]

theorem wslot_wsDone (b : Block) (i j : Nat) (r : WRes) :
    (b.wsDone i r).wslot j = if i = j then { b.wslot i with
      status := r.status, sat := r.sat, ovr := r.ovr, full := r.full, w := r.w, count := r.count, rdata := r.rdata
      op := none } else b.wslot j := by
  obtain ⟨hr, h⟩ := wsDone_tsu b i r
  unfold Block.wslot
  rw [h]
  simp

theorem examine_idle (b : Block) (h : ∀ e ∈ b.tsu.ws, e.2.op = none) (n : Nat) : b.examine n = b := by
  unfold Block.examine Block.wordWaiters
  rw [wsWhere_nil b h]; rfl

/-- One attempt on a free word. -/
theorem wordTry_free (b : Block) (q : Req) (src : BitVec 4) (n op : Nat) (d : BitVec 64) (waits : Bool)
    (hr : (!q.secure && b.regionWorld n) = false) (he : (b.tsu.tm.get n).ecc = .good)
    (hw : (!q.secure && (b.tsu.tm.get n).w) = false) (r : WRes) (x : TWord)
    (ho : wordOp op d waits (b.regionWorld n) (b.tsu.tm.get n) = some (r, x)) :
    b.wordTry q src n op d waits =
      (some r, if x = b.tsu.tm.get n then b else b.mTm fun m => m.set n x) := by
  unfold Block.wordTry
  rw [if_neg (by simp [hr])]
  dsimp only
  rw [if_neg (by rw [he]; simp)]
  have hf : b.wordFix n = b := by
    unfold Block.wordFix
    dsimp only
    rw [if_neg (by rw [he]; simp)]
  rw [hf, if_neg (by simp [hw]), ho]

theorem tm_get_set (m : TagMem) (n k : Nat) (x : TWord) : (m.set n x).get k = if n = k then x else m.get k := by
  unfold TagMem.set TagMem.get TagMem.dflt
  dsimp only
  by_cases hk : n = k
  · subst hk; simp
  · rw [if_neg hk]
    have : ∀ (d e : TWord) (l : List (Nat × TWord)), smGet e (smPut d l n x) k = smGet e l k := by
      intro d e l
      rw [smPut]
      split
      · rw [smDel, smGet_filter, if_neg hk]
      · rw [smGet_smIns, if_neg hk, smDel, smGet_filter, if_neg hk]
    exact this _ _ _

/-- The operation that a command on a tagged word starts. -/
def wordOpOf (b : Block) (i : Nat) (op : BitVec 4) (f : WsFlags) : WOp :=
  { space := 0, op := op, addr := (b.wslot i).addr, wdata := (b.wslot i).wdata, flags := f, seq := b.tsu.wseq
    issue := b.tc, expiry := if f.tmo = 0 then none else some (b.tc + tmoTicks f.tmo), slot := none, phase := none
    await := none, arrived := (false, false, 0), held := false }

/-- The block in which that operation is performed. -/
def wordStart (b : Block) (i : Nat) (o : WOp) : Block :=
  (((b.mWslot i fun w => { w with op := some { o with held := true } }).mTsu fun t =>
    { t with wseq := t.wseq + 1 }).demand).mWslot i fun w => { w with op := some o }

theorem wsIssue_reach (b : Block) (a : Access) (c k : Nat) (op : BitVec 4) (f : WsFlags)
    (hs : b.slotFree a c k = true) (hop : op.toNat ≤ 5)
    (hw : b.wordFree c ((b.wslot (wsIdx c k)).addr.toNat % 524288) = true) :
    b.wsIssue c k 0 op f = (wordStart b (wsIdx c k) (wordOpOf b (wsIdx c k) op f)).wordSlot (wsIdx c k)
      (wordOpOf b (wsIdx c k) op f) := by
  unfold Block.slotFree at hs
  simp only [Bool.and_eq_true, decide_eq_true_eq, Bool.not_eq_true', bne_iff_ne, ne_eq, Option.isNone_iff_eq_none] at hs
  obtain ⟨⟨⟨⟨⟨h1, h2⟩, h3⟩, h4⟩, h5⟩, h6⟩ := hs
  unfold Block.wordFree at hw
  simp only [Bool.and_eq_true, Bool.not_eq_true', beq_iff_eq, Bool.or_eq_true] at hw
  obtain ⟨⟨⟨e1, e2⟩, e3⟩, e4⟩ := hw
  have hstop : b.issueStop c 0 op = none := by
    unfold Block.issueStop opPairs
    simp [h3, h4, h5, h6, hop]
  unfold Block.wsIssue
  dsimp only
  rw [h2, if_neg (show ¬ ((none : Option WOp).isSome = true) by simp), hstop]
  dsimp only
  rw [if_neg (show ¬ ((0 : BitVec 2) = 1) by decide), if_neg (fun h => absurd h.1 (by decide))]
  have hx : (if f.tmo = 0 ∨ (0 : BitVec 2) = 1 then none else some (b.tc + tmoTicks f.tmo)) =
      (if f.tmo = 0 then none else some (b.tc + tmoTicks f.tmo)) := by
    by_cases hf : f.tmo = 0 <;> simp [hf]
  rw [hx]
  generalize hi : wsIdx c k = i at *
  unfold Block.wsPerform
  have hop1 : (((b.mWslot i fun w => { w with op := some { wordOpOf b i op f with held := true } }).mTsu fun t =>
      { t with wseq := t.wseq + 1 }).wslot i).op = some { wordOpOf b i op f with held := true } := by
    show ((b.mWslot i fun w => { w with op := some { wordOpOf b i op f with held := true } }).wslot i).op = _
    rw [wslot_mWslot, if_pos rfl]
  show (match (((b.mWslot i fun w => { w with op := some { wordOpOf b i op f with held := true } }).mTsu fun t =>
      { t with wseq := t.wseq + 1 }).wslot i).op with | none => _ | some o => _) = _
  rw [hop1]
  dsimp only
  rw [if_pos (show (wordOpOf b i op f).space = 0 from rfl)]
  unfold Block.onWord
  rw [if_neg]
  · rfl
  · show ¬ ((!b.engOn || b.wordHeld ((b.wslot i).addr.toNat % 524288)) = true)
    rw [e1, e2]; simp

/-- A word operation with no other operation outstanding (R166). -/
theorem wordSlot_free (b : Block) (i n : Nat) (o : WOp) (r : WRes) (x : TWord) (hn : o.addr.toNat % 524288 = n)
    (hr : (!b.ctxWorld (i / 8) && b.regionWorld n) = false) (he : (b.tsu.tm.get n).ecc = .good)
    (hw : (!b.ctxWorld (i / 8) && (b.tsu.tm.get n).w) = false)
    (ho : wordOp o.op.toNat o.wdata (!o.flags.nowait) (b.regionWorld n) (b.tsu.tm.get n) = some (r, x))
    (hno : ∀ e ∈ smMod ({} : WSlot) b.tsu.ws i (shown r), e.2.op = none) :
    b.wordSlot i o = (if x = b.tsu.tm.get n then b else b.mTm fun m => m.set n x).wsDone i r := by
  unfold Block.wordSlot
  dsimp only
  rw [hn, wordTry_free b (b.ctxReq (i / 8)) 1 n o.op.toNat o.wdata (!o.flags.nowait) hr he hw r x ho]
  dsimp only
  have hf : ∀ b1 : Block, b1.tsu.ws = b.tsu.ws → ∀ e ∈ (b1.wsDone i r).tsu.ws, e.2.op = none := by
    intro b1 h1
    obtain ⟨_, h⟩ := wsDone_tsu b1 i r
    rw [h]
    dsimp only
    rw [h1]
    exact hno
  by_cases hx : x = b.tsu.tm.get n
  · simp only [if_pos hx, if_true]
  · simp only [if_neg hx]
    split
    · rfl
    · exact examine_idle _ (hf (b.mTm fun m => m.set n x) rfl) n

theorem demand_tsu (b : Block) : ∃ p, b.demand.tsu = { b.tsu with pwr := p } := ⟨_, rfl⟩

theorem wordStart_tsu (b : Block) (i : Nat) (o : WOp) : ∃ p, (wordStart b i o).tsu = { b.tsu with
    pwr := p
    wseq := b.tsu.wseq + 1
    ws := smMod {} (smMod {} b.tsu.ws i fun w => { w with op := some { o with held := true } }) i
      fun w => { w with op := some o } } := by
  unfold wordStart
  obtain ⟨p, h⟩ := demand_tsu ((b.mWslot i fun w => { w with op := some { o with held := true } }).mTsu fun t =>
    { t with wseq := t.wseq + 1 })
  refine ⟨p, ?_⟩
  generalize hb : ((b.mWslot i fun w => { w with op := some { o with held := true } }).mTsu fun t =>
    { t with wseq := t.wseq + 1 }).demand = b1 at h ⊢
  unfold Block.mWslot Block.mTsu
  dsimp only
  rw [h]
  rfl

/-- The list of wait slots after the operation. -/
theorem wordStart_ws (b : Block) (i : Nat) (o : WOp) (r : WRes) :
    smMod ({} : WSlot) (wordStart b i o).tsu.ws i (shown r) = smMod {} b.tsu.ws i (shown r) := by
  obtain ⟨p, h⟩ := wordStart_tsu b i o
  rw [h]
  dsimp only
  rw [smMod_smMod {} b.tsu.ws i _ _,
    smMod_smMod {} b.tsu.ws i _ _]
  rfl

theorem wordStart_dist (b : Block) (i : Nat) (o : WOp) : (wordStart b i o).dist = b.dist := rfl

theorem mTm_dist (b : Block) (f : TagMem → TagMem) : (b.mTm f).dist = b.dist := rfl

theorem wordDone_of (s : State) (i n : Nat) (o : WOp) (r : WRes) (x : TWord) (b4 : Block)
    (h4 : b4 = if x = s.blk.tsu.tm.get n then wordStart s.blk i o else
      (wordStart s.blk i o).mTm fun m => m.set n x) :
    WordDone s { s with blk := (b4.wsDone i r).emit (.reg none 0 0) } i n r x := by
  obtain ⟨hr, h⟩ := wsDone_tsu b4 i r
  obtain ⟨p, hp⟩ := wordStart_tsu s.blk i o
  have h5 : ∃ m ws, b4.tsu = { (wordStart s.blk i o).tsu with tm := m, ws := ws } ∧
      m = (if x = s.blk.tsu.tm.get n then s.blk.tsu.tm else s.blk.tsu.tm.set n x) ∧ ws = (wordStart s.blk i o).tsu.ws := by
    rw [h4]
    by_cases hx : x = s.blk.tsu.tm.get n
    · rw [if_pos hx, if_pos hx]
      exact ⟨s.blk.tsu.tm, (wordStart s.blk i o).tsu.ws, by rw [hp], rfl, rfl⟩
    · rw [if_neg hx, if_neg hx]
      have h7 : ((wordStart s.blk i o).mTm fun m => m.set n x).tsu =
          { (wordStart s.blk i o).tsu with tm := (wordStart s.blk i o).tsu.tm.set n x } := rfl
      have h8 : (wordStart s.blk i o).tsu.tm = s.blk.tsu.tm := by rw [hp]
      exact ⟨s.blk.tsu.tm.set n x, (wordStart s.blk i o).tsu.ws, by rw [h7, h8], rfl, rfl⟩
  have h6 : b4.dist = s.blk.dist := by
    rw [h4]; by_cases hx : x = s.blk.tsu.tm.get n
    · rw [if_pos hx, wordStart_dist]
    · rw [if_neg hx, mTm_dist, wordStart_dist]
  obtain ⟨m, ws, h5, hm, hws⟩ := h5
  have hl : (b4.wsDone i r).tsu.ws = smMod {} s.blk.tsu.ws i (shown r) := by
    rw [h]
    dsimp only
    rw [h5]
    dsimp only
    rw [hws]
    exact wordStart_ws s.blk i o r
  have hj : ∀ j, (b4.wsDone i r).wslot j = if i = j then shown r (s.blk.wslot i) else s.blk.wslot j := by
    intro j
    unfold Block.wslot
    rw [hl, smGet_smMod]
  have he : ∀ (b : Block) o j, (b.emit o).wslot j = b.wslot j := fun _ _ _ => rfl
  have ht : ∀ (b : Block) o, (b.emit o).tsu = b.tsu := fun _ _ => rfl
  have hd : ∀ (b : Block) o, (b.emit o).dist = b.dist := fun _ _ => rfl
  unfold WordDone
  dsimp only
  refine ⟨?_, ?_, ?_, ?_, ?_, rfl⟩
  · rw [he, hj, if_pos rfl]
    exact ⟨rfl, rfl, rfl, rfl, rfl, rfl, rfl, rfl⟩
  · rw [ht, h, ← hm]
    dsimp only
    rw [h5]
  · intro j hne
    rw [he, hj, if_neg (Ne.symm hne)]
  · rw [ht, h]
    dsimp only
    rw [h5]
    dsimp only
    rw [hp]
  · rw [hd, wsDone_dist, h6]

theorem wordStart_tm (b : Block) (i : Nat) (o : WOp) : (wordStart b i o).tsu.tm = b.tsu.tm := by
  obtain ⟨p, h⟩ := wordStart_tsu b i o
  rw [h]

theorem wordStart_rw (b : Block) (i : Nat) (o : WOp) (n : Nat) :
    (wordStart b i o).regionWorld n = b.regionWorld n := by
  obtain ⟨p, h⟩ := wordStart_tsu b i o
  unfold Block.regionWorld
  rw [h]

theorem wordStart_world (b : Block) (i : Nat) (o : WOp) (c : Nat) : (wordStart b i o).ctxWorld c = b.ctxWorld c := by
  obtain ⟨p, h⟩ := wordStart_tsu b i o
  unfold Block.ctxWorld Block.ctx
  rw [h]

theorem wordFree_done (s : State) (i n : Nat) (o : WOp) (hn : ∀ e ∈ s.blk.tsu.ws, e.2.op = none)
    (ha : o.addr.toNat % 524288 = n) (e3 : (s.blk.tsu.tm.get n).ecc = .good)
    (e4 : s.blk.ctxWorld (i / 8) = true ∨ s.blk.regionWorld n = false ∧ (s.blk.tsu.tm.get n).w = false)
    (r : WRes) (x : TWord)
    (ho : wordOp o.op.toNat o.wdata (!o.flags.nowait) (s.blk.regionWorld n) (s.blk.tsu.tm.get n) = some (r, x)) :
    WordDone s { s with blk := ((wordStart s.blk i o).wordSlot i o).emit (.reg none 0 0) } i n r x := by
  have hq : ∀ e ∈ smMod ({} : WSlot) (wordStart s.blk i o).tsu.ws i (shown r), e.2.op = none := by
    rw [wordStart_ws]
    intro e he
    unfold smMod at he
    rcases mem_smPut he with he | he
    · exact hn e he
    · rw [he]; rfl
  have h1 : (!(wordStart s.blk i o).ctxWorld (i / 8) && (wordStart s.blk i o).regionWorld n) = false := by
    rw [wordStart_world, wordStart_rw]; rcases e4 with e | e <;> simp [e]
  have h2 : (!(wordStart s.blk i o).ctxWorld (i / 8) && ((wordStart s.blk i o).tsu.tm.get n).w) = false := by
    rw [wordStart_world, wordStart_tm]; rcases e4 with e | e <;> simp [e]
  have h3 : ((wordStart s.blk i o).tsu.tm.get n).ecc = .good := by rw [wordStart_tm]; exact e3
  have h4 : wordOp o.op.toNat o.wdata (!o.flags.nowait) ((wordStart s.blk i o).regionWorld n)
      ((wordStart s.blk i o).tsu.tm.get n) = some (r, x) := by rw [wordStart_tm, wordStart_rw]; exact ho
  have h5 := wordSlot_free (wordStart s.blk i o) i n o r x ha h1 h3 h2 h4 hq
  rw [wordStart_tm] at h5
  rw [h5]
  exact wordDone_of s i n o r x _ rfl

/-- The operation of a wait slot on a free word completes (R166, R169). -/
theorem wsIssue_word (s : State) (a : Access) (c k : Nat) (op : BitVec 4) (f : WsFlags) (hk : k < 8)
    (hs : s.blk.slotFree a c k = true) (hn : ∀ e ∈ s.blk.tsu.ws, e.2.op = none) (hop : op.toNat ≤ 5)
    (hw : s.blk.wordFree c ((s.blk.wslot (wsIdx c k)).addr.toNat % 524288) = true) (r : WRes) (x : TWord)
    (ho : wordOp op.toNat (s.blk.wslot (wsIdx c k)).wdata (!f.nowait)
      (s.blk.regionWorld ((s.blk.wslot (wsIdx c k)).addr.toNat % 524288))
      (s.blk.tsu.tm.get ((s.blk.wslot (wsIdx c k)).addr.toNat % 524288)) = some (r, x)) :
    WordDone s { s with blk := (s.blk.wsIssue c k 0 op f).emit (.reg none 0 0) } (wsIdx c k)
      ((s.blk.wslot (wsIdx c k)).addr.toNat % 524288) r x := by
  have hc : wsIdx c k / 8 = c := by unfold wsIdx; omega
  rw [wsIssue_reach s.blk a c k op f hs hop hw]
  unfold Block.wordFree at hw
  simp only [Bool.and_eq_true, Bool.not_eq_true', beq_iff_eq, Bool.or_eq_true] at hw
  obtain ⟨⟨_, e3⟩, e4⟩ := hw
  have ha : (wordOpOf s.blk (wsIdx c k) op f).addr = (s.blk.wslot (wsIdx c k)).addr := rfl
  exact wordFree_done s (wsIdx c k) ((s.blk.wslot (wsIdx c k)).addr.toNat % 524288)
    (wordOpOf s.blk (wsIdx c k) op f) hn (by rw [ha]) e3 (by rw [hc]; exact e4) r x ho

end Sys2Proof.Machine
end

