-- ==== Sys2Proof/Tests/Slice0.lean ====
section
/-! SUPPORT. The model's own tests: the spec's worked examples, the well-formedness checks, and for every statement with
hypotheses a concrete state and operands that meet them (`test_wit_<statement>`; its clauses in the statement's order). -/

namespace Sys2Proof.Tests

open Sys2Proof Sys2Proof.Machine

set_option Elab.async false
set_option linter.unusedVariables false

/-- A secure access of the highest privilege, and a non-secure one. -/
def sp : Access := ⟨true, 3⟩
def np : Access := ⟨false, 1⟩

/-- A frame header of a class in the secure world, first of its lane. -/
def hdr (cls : BitVec 4) : Hdr := ⟨1, cls, true, 0, 0, 0⟩

/-- A lane that is UP with exchanges behind it. -/
def upLane : Lane :=
  { reg := { enable := true, state := .up, featAdv := 0xFFFFFFFF, featPartner := 0xFFFFFFFF, featEff := 0xFFFFFFFF, tvRx := true, topoRes := 1 }
    link := { credTx := ⟨64, 64, 64, 64, 64⟩ }
    sync := { accN := 20, periods := List.replicate 16 true, th2s := List.replicate 16 10, rx := { tlk := true } } }

/-- A TSU whose resets are released, with tagged memory initialised and a long-running count. -/
def tsuOn : Tsu :=
  { boot := { tsuRst := false, aonRst := false, fuseDone := true }
    time := { tc64 := 1000000 }
    tm := { initDone := true } }

/-- An admitted TSU with both lanes UP. -/
def tsuIn : Tsu :=
  { tsuOn with boot := { tsuOn.boot with hostReady := true, admitted := true, ldi := 5 }
               time := { tsuOn.time with timeValid := true }, laneA := upLane, laneB := upLane }

/-- The machine with such a TSU, changed by `f`. -/
def stT (f : Tsu → Tsu) : State := { blk := { tsu := f tsuOn } }
def stI (f : Tsu → Tsu) : State := { blk := { tsu := f tsuIn } }

/-- The report of an admitted die. -/
def rep (n : BitVec 16) : TopoReport := ⟨n.setWidth 64, n, true, true, true, false, false, true, true, 0, 1, n⟩

/-- A distributor of a role, ready, with ports 0, 5 and 24 and the first uplink UP. -/
def distOn (role : Byte) : Dist :=
  { time := { tc64 := 1000000, timeValid := true }
    servo := { bw := 8, state := .locked }
    mod := { powered := true, inOk := true, ocxoWarm := true }
    boot := { fuseDone := true, fwBooted := true, catLoaded := true, hmReady := true
              reports := [(0, some (rep 0, 0)), (5, some (rep 5, 0)), (24, some (rep 24, 0))] }
    cat := { lstate := 2, vals := [(catKey 0x7110 1, [role])] }
    lanes := [(0, upLane), (5, upLane), (24, upLane), (288, upLane)] }

/-- The machine with such a distributor, changed by `f`. -/
def stD (role : Byte) (f : Dist → Dist) : State := { blk := { dist := f (distOn role) } }

/-! ### The spec's worked examples -/

/-- The example below R22: TC64 7,500,000,003 against that epoch, and back. -/
theorem test_ht96_example :
    tc64ToHt96 ⟨1900000000, 250000000, 0⟩ 7500000003 = ⟨1900000006, 250000002, 0x6667⟩ ∧
    ht96ToTc64 ⟨1900000000, 250000000, 0⟩ ⟨1900000006, 250000002, 0x6667⟩ = some 7500000003 := by decide +kernel

/-- The example of R57: the die's clock stands 1,600 TDC units ahead, the mean delay is 489,920. -/
theorem test_exchange_example :
    exchange ⟨999424, 0⟩ ⟨1000192, 80⟩ ⟨1000259, 17⟩ ⟨1001021, 577⟩ 160 = (979840, 3200) := by decide +kernel

/-- The example of R120: E = 3,302,500 slips to the grid point 3,350,000. -/
theorem test_launch_example : launchTick 0 1000000 50000 0 3302500 = 3350000 := by decide +kernel

/-- The example of R123 is in figures of its own; here the clamp raises to BRIM_MIN and then lowers to BRIM_MAX. -/
theorem test_brim_clamp :
    (({ reg := { fix := false, brimMin := 500, brimMax := 400, margin := 64 } } : Ctx).deliverBrim 40).brimNow = 400 := by
  decide +kernel

/-- The example below R178: the fourth fill makes the word FULL with TARGET 4 and COUNT 0. -/
theorem test_fill_example :
    (fillCount 1 false ⟨0x0000000400000003, false, false, .good⟩).1 = ⟨0x0000000400000000, true, false, .good⟩ ∧
    (fillCount 1 false ⟨0x0000000400000002, false, false, .good⟩).1 = ⟨0x0000000400000003, false, false, .good⟩ := by
  decide +kernel

/-- The example of R199: 2^25 + 1 + 1 - 2^25 is 2.0. -/
theorem test_sum_example :
    let f := fmtD 0
    let e (v : Nat) := elemRec opSUM f v 0
    let r := combineRec opSUM f 1 (combineRec opSUM f 1 (e 0x4C000000) (e 0x3F800000))
      (combineRec opSUM f 1 (e 0x3F800000) (e 0xCC000000))
    sumOf r = 2 ^ 150 ∧ f.round (sumOf r) = (0x40000000, false) := by decide +kernel

/-- The example of R205: what the T1 of P and Q forwards. -/
theorem test_topk_example :
    bestK (fmtD 0) 4 [(0x3F666666, 17), (0x3F000000, 2), (0x3F000000, 4)] [(0x3F666666, 5), (0x3F333333, 30), (0x3F000000, 1)] =
      [(0x3F666666, 5), (0x3F666666, 17), (0x3F333333, 30), (0x3F000000, 1)] := by decide +kernel

/-- The reference vector of R230: words 1 and 2 of the output, and the uniforms (its words 0 and 3 are not what R227 gives, log
entry 6). -/
theorem test_cg128_vector :
    (cg128 0x0123456789ABCDEFFEDCBA9876543210 (cgCtr 42 3 7)).extractLsb' 32 64 = 0x44ADFF39FCEED151 ∧
    cgUniform 0x69764749 = 0x3ED2EC8F ∧ cgUniform 0xFCEED151 = 0x3F7CEED1 ∧ cgUniform 0x44ADFF39 = 0x3E895BFF ∧
    cgUniform 0x2BFB7A5B = 0x3E2FEDEA := by decide +kernel

/-- The table that stands for the opcode table's bits gives none: no word spells a command. -/
theorem test_no_words : decodeTableWord 0 0 = none ∧ decodeTableWord 64 0x40 = none ∧
    (State.reset.withFetchWord 16 5) = State.reset := ⟨rfl, rfl, rfl⟩

/-! ### The well-formedness checks refuse -/

/-- A request of the Catalogue that no path brings to a TSU, and one that none brings to a distributor. -/
def qBad : CatReq := ⟨.tsu, .udp, true, 3, 0⟩
def qBadD : CatReq := ⟨.dist, .local, true, 3, 0⟩

theorem test_smoke_checks :
    (LaneRef.dist 312).ok = false ∧ (LaneRef.dist 311).ok = true ∧ (TdcCh.dist 312).ok = false ∧
    (Measure.eye (.dist 312) 0).ok = false ∧ (Measure.res (.dist 312) 0).ok = false ∧ (Measure.optRx 312 0).ok = false ∧
    (Measure.refRes 6 0).ok = false ∧ (CongWhere.lane 312 0).ok = false ∧ qBad.ok = false ∧ qBadD.ok = false ∧
    addrOk true 4 = false ∧ addrOk false 2 = false ∧ addrOk false 4 = true := by decide +kernel

/-- A misaligned access, a payload longer than a frame, a measure of what does not exist. -/
theorem test_smoke_rest :
    (Instr.registerWrite sp true 0x1004 0).wf = false ∧ (Instr.debugAccess ⟨true, false, true, 0x1004, 0, 0⟩).wf = false ∧
    (Instr.debugAccess ⟨true, false, true, 0x1008, 0, 0⟩).wf = true ∧
    (Instr.curatorUpdate (.refRes 6 0)).wf = false ∧ (Instr.congestionWindow ⟨[(.slice 1, 0), (.lane 312 2, 5)]⟩).wf = false ∧
    (Instr.cageLimit [4, 312]).wf = false ∧ (Instr.portWake qBad 4).wf = false ∧ (Instr.portWake ⟨.dist, .tree, true, 3, 0⟩ 312).wf = false ∧
    (Instr.ctrlFrameReceive (.dist 312) (hdr 5) 0 []).wf = false ∧
    (Instr.ctrlFrameReceive (.dist 3) (hdr 5) 0 (List.replicate 2049 0)).wf = false ∧
    (∀ a, (Instr.imgBlockReceive (.dist 312) (hdr 6) a []).wf = false) ∧
    (∀ a, (Instr.imgBlockReceive (.dist 3) (hdr 6) a (List.replicate 2049 0)).wf = false) :=
  ⟨by decide +kernel, by decide +kernel, by decide +kernel, by decide +kernel, by decide +kernel, by decide +kernel, by decide +kernel,
    by decide +kernel, by decide +kernel, by decide +kernel, fun _ => rfl, fun _ => by unfold Instr.wf; simp only [List.length_replicate]; decide⟩

/-- A lane, port or channel that does not exist is refused. -/
theorem test_smoke_lane :
    (∀ x0, (Instr.laneEnable x0 (.dist 312)).wf = false) ∧
    (∀ x0, (Instr.laneDisable x0 (.dist 312)).wf = false) ∧
    (Instr.laneShutdownDone (.dist 312)).wf = false ∧
    (∀ x0, (Instr.retrain x0 (.dist 312)).wf = false) ∧
    (∀ x0, (Instr.laneCntClr x0 (.dist 312)).wf = false) ∧
    (∀ x1 x2, (Instr.trainingDone (.dist 312) x1 x2).wf = false) ∧
    (Instr.codewordLock (.dist 312)).wf = false ∧
    (Instr.trainingTimeout (.dist 312)).wf = false ∧
    (Instr.retrainBackoffExpire (.dist 312)).wf = false ∧
    (Instr.helloSend (.dist 312)).wf = false ∧
    (∀ x1 x2, (Instr.helloReceive (.dist 312) x1 x2).wf = false) ∧
    (Instr.negTimeout (.dist 312)).wf = false ∧
    (Instr.cdrLockLoss (.dist 312)).wf = false ∧
    (∀ x1 x2, (Instr.frameCorrupt (.dist 312) x1 x2).wf = false) ∧
    (Instr.linkctlSend (.dist 312)).wf = false ∧
    (∀ x1 x2, (Instr.linkctlReceive (.dist 312) x1 x2).wf = false) ∧
    (∀ x1, (Instr.syncSendDown 312 x1).wf = false) ∧
    (∀ x1, (Instr.syncSendUp (.dist 312) x1).wf = false) ∧
    (∀ x1 x2 x3, (Instr.syncFrameReceive (.dist 312) x1 x2 x3).wf = false) ∧
    (Instr.syncLossDetect (.dist 312)).wf = false ∧
    (Instr.tdcCaptureDiscard (.dist 312)).wf = false ∧
    (Instr.dllUnlock (.dist 312)).wf = false ∧
    (Instr.refWtrExpire 6).wf = false ∧
    (∀ x1 x2 x3, (Instr.stepGoReceive (.dist 312) x1 x2 x3).wf = false) ∧
    (∀ x1 x2 x3, (Instr.armReceive (.dist 312) x1 x2 x3).wf = false) :=
  ⟨fun _ => rfl, fun _ => rfl, rfl, fun _ => rfl, fun _ => rfl, fun _ _ => rfl, rfl, rfl, rfl, rfl, fun _ _ => rfl, rfl, rfl, fun _ _ => rfl, rfl, fun _ _ => rfl, fun _ => rfl, fun _ => rfl, fun _ _ _ => rfl, rfl, rfl, rfl, rfl, fun _ _ _ => rfl, fun _ _ _ => rfl⟩

/-- A lane, port or channel that does not exist is refused. -/
theorem test_smoke_lane_2 :
    (∀ x1 x2 x3, (Instr.commitReceive (.dist 312) x1 x2 x3).wf = false) ∧
    (∀ x1 x2 x3, (Instr.abortReceive (.dist 312) x1 x2 x3).wf = false) ∧
    (∀ x1 x2 x3 x4, (Instr.armedReceive 312 x1 x2 x3 x4).wf = false) ∧
    (∀ x1 x2 x3, (Instr.arriveReceive 312 x1 x2 x3).wf = false) ∧
    (∀ x1 x2 x3, (Instr.doneReceive (.dist 312) x1 x2 x3).wf = false) ∧
    (∀ x1 x2 x3, (Instr.signalReceive 312 x1 x2 x3).wf = false) ∧
    (∀ x1 x2 x3, (Instr.takeReceive 312 x1 x2 x3).wf = false) ∧
    (∀ x1 x2 x3, (Instr.takeRespReceive (.dist 312) x1 x2 x3).wf = false) ∧
    (∀ x1 x2 x3 x4, (Instr.cancelReceive 312 x1 x2 x3 x4).wf = false) ∧
    (∀ x1 x2 x3, (Instr.contribReceive 312 x1 x2 x3).wf = false) ∧
    (∀ x1 x2 x3, (Instr.absentReceive 312 x1 x2 x3).wf = false) ∧
    (∀ x1 x2 x3, (Instr.ssum2Receive 312 x1 x2 x3).wf = false) ∧
    (∀ x1 x2 x3, (Instr.kdownReceive (.dist 312) x1 x2 x3).wf = false) ∧
    (∀ x1 x2 x3, (Instr.resultReceive (.dist 312) x1 x2 x3).wf = false) ∧
    (∀ x1 x2, (Instr.hreqReceive (.dist 312) x1 x2).wf = false) ∧
    (∀ x1 x2 x3 x4, (Instr.hcancelReceive (.dist 312) x1 x2 x3 x4).wf = false) ∧
    (∀ x1 x2, (Instr.hrespReceive (.dist 312) x1 x2).wf = false) ∧
    (∀ x1 x2, (Instr.topoReportReceive 312 x1 x2).wf = false) ∧
    (∀ x1 x2, (Instr.topoSumReceive 312 x1 x2).wf = false) ∧
    (∀ x1 x2 x3, (Instr.imgStartReceive (.dist 312) x1 x2 x3).wf = false) ∧
    (∀ x1 x2 x3, (Instr.imgEndReceive (.dist 312) x1 x2 x3).wf = false) ∧
    (∀ x1 x2 x3, (Instr.imgNackReceive 312 x1 x2 x3).wf = false) ∧
    (∀ x1 x2 x3 x4, (Instr.imgReportReceive 312 x1 x2 x3 x4).wf = false) ∧
    (∀ x1 x2 x3, (Instr.imgCommitReceive (.dist 312) x1 x2 x3).wf = false) ∧
    (∀ x1 x2, (Instr.imgRollbackReceive (.dist 312) x1 x2).wf = false) :=
  ⟨fun _ _ _ => rfl, fun _ _ _ => rfl, fun _ _ _ _ => rfl, fun _ _ _ => rfl, fun _ _ _ => rfl, fun _ _ _ => rfl, fun _ _ _ => rfl, fun _ _ _ => rfl, fun _ _ _ _ => rfl, fun _ _ _ => rfl, fun _ _ _ => rfl, fun _ _ _ => rfl, fun _ _ _ => rfl, fun _ _ _ => rfl, fun _ _ => rfl, fun _ _ _ _ => rfl, fun _ _ => rfl, fun _ _ => rfl, fun _ _ => rfl, fun _ _ _ => rfl, fun _ _ _ => rfl, fun _ _ _ => rfl, fun _ _ _ _ => rfl, fun _ _ _ => rfl, fun _ _ => rfl⟩

/-- A lane, port or channel that does not exist is refused. -/
theorem test_smoke_lane_3 :
    (∀ x1 x2 x3 x4, (Instr.imgActedReceive 312 x1 x2 x3 x4).wf = false) ∧
    (∀ x1 x2, (Instr.fenceReceiveDist 312 x1 x2).wf = false) ∧
    (Instr.portListen 312).wf = false ∧
    (Instr.portEnergyDetect 312).wf = false ∧
    (Instr.dllLockRegain (.dist 312)).wf = false :=
  ⟨fun _ _ _ _ => rfl, fun _ _ => rfl, rfl, rfl, rfl⟩

/-- A request that no path brings is refused. -/
theorem test_smoke_request :
    (Instr.rootManualStart qBad).wf = false ∧
    (Instr.jobArm qBad).wf = false ∧
    (Instr.jobCommit qBad).wf = false ∧
    (Instr.jobAbort qBad).wf = false ∧
    (Instr.hbarCommit qBad).wf = false ∧
    (Instr.groupCommit qBad).wf = false ∧
    (Instr.cobjCommit qBad).wf = false ∧
    (Instr.hmemRegionCommit qBad).wf = false ∧
    (∀ x1 x2, (Instr.catRead qBad x1 x2).wf = false) ∧
    (∀ x1 x2 x3, (Instr.catWrite qBad x1 x2 x3).wf = false) ∧
    (∀ x1 x2 x3, (Instr.catReadBlock qBad x1 x2 x3).wf = false) ∧
    (∀ x1 x2 x3 x4, (Instr.catWriteBlock qBad x1 x2 x3 x4).wf = false) ∧
    (∀ x1, (Instr.catCommit qBad x1).wf = false) ∧
    (∀ x1 x2 x3, (Instr.catSubscribe qBad x1 x2 x3).wf = false) ∧
    (Instr.catSave qBad).wf = false ∧
    (Instr.admitCommit qBad).wf = false ∧
    (∀ x1, (Instr.topoExpectCommit qBad x1).wf = false) ∧
    (Instr.distTopoCommit qBad).wf = false ∧
    (Instr.imgTxStart qBad).wf = false ∧
    (Instr.imgTxCommit qBad).wf = false ∧
    (Instr.imgTxRollback qBad).wf = false ∧
    (Instr.imgTaken qBad).wf = false ∧
    (Instr.memCommit qBad).wf = false ∧
    (Instr.rmCommit qBad).wf = false ∧
    (Instr.purgeCommit qBad).wf = false :=
  ⟨rfl, rfl, rfl, rfl, rfl, rfl, rfl, rfl, fun _ _ => rfl, fun _ _ _ => rfl, fun _ _ _ => rfl, fun _ _ _ _ => rfl, fun _ => rfl, fun _ _ _ => rfl, rfl, rfl, fun _ => rfl, rfl, rfl, rfl, rfl, rfl, rfl, rfl, rfl⟩

/-- A request that no path brings is refused. -/
theorem test_smoke_request_2 :
    (Instr.seedCommit qBad).wf = false ∧
    (Instr.ldiMapCommit qBad).wf = false ∧
    (Instr.distDrain qBad).wf = false :=
  ⟨rfl, rfl, rfl⟩

/-! ### What meets the hypotheses of the statements -/

theorem test_wit_VitrineAndPromise :
    (∃ (a : Access) (s : State), s.blk.check (portReq a) 0x1040 true = .ok) ∧
    (∃ (a : Access) (s : State), s.blk.check (portReq a) 0x1040 true = .ok ∧ s.blk.tsu.time.timeValid = true ∧
      Tick.le (s.blk.vit a.secure).at_ s.blk.tsu.time.tc64 = false) ∧
    (∃ (a : Access) (t : Tick) (s : State), s.blk.check (portReq a) 0x1048 true = .ok ∧
      s.blk.tsu.time.timeValid = true ∧ Tick.le t s.blk.tsu.time.tc64 = false) ∧
    (∃ (a : Access) (t : Tick) (s : State), s.blk.check (portReq a) 0x1048 true = .ok ∧
      s.blk.tsu.time.timeValid = true ∧ (s.blk.vit a.secure).armAt = true ∧ t ≠ s.blk.tsu.time.tc64 ∧
      Tick.le t s.blk.tsu.time.tc64 = true) ∧
    (∃ (w : Bool) (s : State), (s.blk.vit w).armAt = true ∧ Tick.le (s.blk.vit w).at_ s.blk.tsu.time.tc64 = true) :=
  ⟨⟨sp, stT fun t => { t with time := { t.time with timeValid := true, vitN := { seq := 7 } } }, by decide +kernel⟩,
   ⟨sp, stT fun t => { t with time := { t.time with timeValid := true, vitS := { at_ := 1000001 } } }, by decide +kernel⟩,
   ⟨sp, 1000001, stT fun t => { t with time := { t.time with timeValid := true } }, by decide +kernel⟩,
   ⟨sp, 999999, stT fun t => { t with time := { t.time with timeValid := true, vitS := { armAt := true, at_ := 2000000 } } }, by decide +kernel⟩,
   ⟨false, stT fun t => { t with time := { t.time with vitN := { armAt := true, at_ := 1000000 } } }, by decide +kernel⟩⟩

theorem test_wit_SpineCommands :
    (∃ (a : Access) (s : State), s.blk.check (portReq a) 0x1100 true = .ok ∧ s.blk.tsu.spine.calBusy = false ∧
      s.blk.tsu.pwr.st ≠ .entering ∧ s.blk.armedAny = false) ∧
    (∃ (a : Access) (s : State), s.blk.check (portReq a) 0x1100 true = .ok ∧ s.blk.tsu.spine.calBusy = false ∧
      s.blk.tsu.pwr.st ≠ .entering ∧ s.blk.armedAny = true) ∧
    (∃ (ms : List EpMeas) (s : State), s.blk.tsu.spine.calBusy = true ∧ s.blk.tsu.spine.load = none) ∧
    (∃ (r : BitVec 8) (n : Nat) (s : State), s.blk.tsu.spine.trackEn = true ∧
      nextEp s.blk.tsu.spine.eps s.blk.tsu.spine.trackIdx = some n ∧ r.toInt.natAbs ≤ 8) ∧
    (∃ (v : Tick) (l : Tick) (s : State), s.blk.tsu.spine.load = some (v, l) ∧ Tick.le l s.blk.tsu.time.tc64 = true ∧
      s.blk.tsu.spine.loadStep = false) ∧
    (∃ (v : Tick) (l : Tick) (s : State), s.blk.tsu.spine.load = some (v, l) ∧
      Tick.le l s.blk.tsu.time.tc64 = false) :=
  ⟨⟨sp, stT fun t => { t with time := { t.time with timeValid := true }, spine := { calFail := true } }, by decide +kernel⟩,
   ⟨sp, stT fun t => { t with ctxs := [(3, { st := .armed })] }, by decide +kernel⟩,
   ⟨[⟨5, true, 700, 3⟩], stT fun t => { t with time := { t.time with timeValid := true }, spine := { calBusy := true, eps := [(5, { en := true })] } }, by decide +kernel⟩,
   ⟨3, 5, stT fun t => { t with time := { t.time with timeValid := true }, spine := { eps := [(5, { en := true, calOk := true, enAtCal := true, trim := 4 })] } }, by decide +kernel⟩,
   ⟨1000040, 1000000, stT fun t => { t with time := { t.time with timeValid := true }, spine := { load := some (1000040, 1000000) } }, by decide +kernel⟩,
   ⟨1000040, 1000032, stT fun t => { t with time := { t.time with timeValid := true }, spine := { load := some (1000040, 1000032) } }, by decide +kernel⟩⟩

theorem test_wit_ServoSelection :
    (∃ (p : BitVec 2) (s : State), s.blk.check (portReq ⟨true, p⟩) 0x1400 true = .ok ∧ s.blk.armedAny = false ∧
      (s.blk.estValid (.tsu .A) || s.blk.estValid (.tsu .B)) = true) ∧
    (∃ (p : BitVec 2) (s : State), s.blk.check (portReq ⟨true, p⟩) 0x1400 true = .ok ∧
      (s.blk.armedAny || !(s.blk.estValid (.tsu .A) || s.blk.estValid (.tsu .B))) = true) ∧
    (∃ (p : BitVec 2) (s : State), s.blk.stepSource .dist = true) ∧
    (∃ (s : State), s.blk.tsu.time.timeValid = true ∧ s.blk.twinMode = true ∧ s.blk.tsu.servo.selMade = true ∧
      s.blk.tsu.servo.state ≠ .hold ∧ s.blk.tsu.servo.state ≠ .lost ∧
      s.blk.wtrKeep.selectable s.blk.selPlane = false ∧ s.blk.wtrKeep.selectable (flipP s.blk.selPlane) = true) ∧
    (∃ (p : Plane) (s : State), s.blk.tsu.time.timeValid = true ∧ s.blk.tsu.servo.state = .locked ∧
      s.blk.tsu.servo.selMade = true ∧ p = flipP s.blk.selPlane ∧ s.blk.estValid (.tsu p) = true ∧
      s.blk.tsu.servo.delta.toInt.natAbs ≤ 320 ∧ s.blk.selectable s.blk.selPlane = true ∧
      s.blk.tsu.servo.revert = false ∧ s.blk.tsu.servo.force = 0) :=
  ⟨⟨3, stT fun t => { t with time := { t.time with timeValid := true }, laneA := upLane, laneB := upLane, servo := {} }, by decide +kernel⟩,
   ⟨3, stT id, by decide +kernel⟩,
   ⟨3, { blk := { dist := { boot := { catLoaded := true }, mod := { powered := true }, servo := { timing := some 288 }, lanes := [(288, upLane)] } } }, by decide +kernel⟩,
   ⟨stT fun t => { t with time := { t.time with timeValid := true }, laneA := { reg := { featEff := 0xFFFFFFFF } }, laneB := upLane, servo := { selMade := true, state := .locked, wtrB := true } }, by decide +kernel⟩,
   ⟨.B, stT fun t => { t with time := { t.time with timeValid := true }, laneA := upLane, laneB := upLane, servo := { state := .locked, selMade := true, revert := false, wtrA := true } }, by decide +kernel⟩⟩

theorem test_wit_ResetsAndFuses :
    (∃ (s : State), s.blk.tsu.boot.aonRst = true) ∧
    (∃ (s : State), s.blk.tsu.boot.tsuRst = false) ∧
    (∃ (s : State), s.blk.tsu.boot.aonRst = false ∧ s.blk.tsu.boot.tsuRst = true) ∧
    (∃ (ws : List (Nat × BitVec 32)) (s : State), s.blk.tsu.boot.fuseBusy = true) ∧
    (∃ (ws : List (Nat × BitVec 32)) (s : State), s.blk.dist.mod.powered = true ∧ s.blk.dist.boot.fuseDone = false ∧
      badLanes ws = []) ∧
    (∃ (s : State), s.blk.tsu.boot.fuseBusy = true) ∧
    (∃ (p : Plane) (q : Plane) (s : State), p ≠ q ∧ s.blk.up (.tsu p) = true ∧ s.blk.up (.tsu q) = false) ∧
    (∃ (s : State), s.blk.up (.tsu .A) = false ∧ s.blk.up (.tsu .B) = false) :=
  ⟨⟨{}, by decide +kernel⟩,
   ⟨stT id, by decide +kernel⟩,
   ⟨{ blk := { tsu := { boot := { aonRst := false } } } }, by decide +kernel⟩,
   ⟨[(0, 7), (1, 9), (2, 0x301)], stT fun t => { t with boot := { t.boot with fuseBusy := true, fuseDone := false } }, by decide +kernel⟩,
   ⟨[(0, 7)], { blk := { dist := { mod := { powered := true } } } }, by decide +kernel⟩,
   ⟨stT fun t => { t with boot := { t.boot with fuseBusy := true, fuseDone := false } }, by decide +kernel⟩,
   ⟨.A, .B, stT fun t => { t with laneA := { reg := { enable := true, state := .up, featEff := 0xFFFFFFFF } } }, by decide +kernel⟩,
   ⟨stT id, by decide +kernel⟩⟩

theorem test_wit_BarrierSetup :
    (∃ (a : Access) (d : BitVec 64) (s : State), s.blk.check (portReq a) 0x6008 true = .ok ∧
      worldOk (portReq a) (((s.blk.slot s.blk.tsu.bar.sel.toNat).kind != 0 && (s.blk.slot s.blk.tsu.bar.sel.toNat).world) || s.blk.ctxWorld (fld d 4 6).toNat) = true ∧ s.blk.mapped s.blk.tsu.bar.sel.toNat = false) ∧
    (∃ (a : Access) (d : BitVec 64) (s : State), s.blk.check (portReq a) 0x6008 true = .ok ∧
      worldOk (portReq a) (((s.blk.slot s.blk.tsu.bar.sel.toNat).kind != 0 && (s.blk.slot s.blk.tsu.bar.sel.toNat).world) || s.blk.ctxWorld (fld d 4 6).toNat) = true ∧ s.blk.mapped s.blk.tsu.bar.sel.toNat = true) ∧
    (∃ (a : Access) (d : BitVec 32) (s : State), s.blk.check (portReq a) 0x5028 (worldOk (portReq a) (s.blk.ctxWorld s.blk.tsu.bar.selCtx.toNat)) = .ok ∧ ((d.getLsbD 15 = false ∨ ((s.blk.slot (d.setWidth 12 : BitVec 12).toNat).kind ≠ 0 ∧ (s.blk.slot (d.setWidth 12 : BitVec 12).toNat).world = s.blk.ctxWorld s.blk.tsu.bar.selCtx.toNat)))) ∧
    (∃ (a : Access) (d : BitVec 32) (s : State), s.blk.check (portReq a) 0x5028 (worldOk (portReq a) (s.blk.ctxWorld s.blk.tsu.bar.selCtx.toNat)) = .ok ∧ d.getLsbD 15 = true ∧ (s.blk.slot (d.setWidth 12 : BitVec 12).toNat).kind = 0) ∧
    (∃ (a : Access) (s : State), s.blk.check (portReq a) 0x6018 true = .ok) ∧
    (∃ (c : Ctx6) (d : Sched) (s : State), (s.blk.ctx c.toNat).sched = some d ∧ d.cls = .missed ∧
      Tick.le d.at_ s.blk.tsu.time.tc64 = true ∧ (s.blk.ctx c.toNat).st = .run ∧
      s.blk.xlat c.toNat (s.blk.ctx c.toNat).reg.closeVbid.toNat = none) ∧
    (∃ (c : Ctx6) (d : Sched) (n : Nat) (s : State), (s.blk.ctx c.toNat).sched = some d ∧ d.cls = .missed ∧
      Tick.le d.at_ s.blk.tsu.time.tc64 = true ∧ (s.blk.ctx c.toNat).st = .run ∧
      (s.blk.ctx c.toNat).run.rplEn = false ∧ s.blk.xlat c.toNat (s.blk.ctx c.toNat).reg.closeVbid.toNat = some n ∧
      (s.blk.slot n).kind = 1 ∧ (s.blk.slot n).scope ≠ 0 ∧ (s.blk.slot n).sent = false ∧
      s.blk.closers n = [c.toNat] ∧ (∀ e ∈ s.blk.tsu.ws, e.2.op = none)) ∧
    (∃ (c : Ctx6) (s : State), (s.blk.ctx c.toNat).sched = none) :=
  ⟨⟨sp, 0x0000000200003001, stT fun t => { t with bar := { sel := 9 } }, by decide +kernel⟩,
   ⟨sp, 0x0000000200003001, stT fun t => { t with bar := { sel := 9, xlat := [(1024, (true, 9))] } }, by decide +kernel⟩,
   ⟨sp, 0x8009, stT fun t => { t with bar := { slots := [(9, { kind := 1, world := true })], selCtx := 3 } }, by decide +kernel⟩,
   ⟨sp, 0x8009, stT fun t => { t with bar := { selCtx := 3 } }, by decide +kernel⟩,
   ⟨sp, stT fun t => { t with bar := { overCnt := 4 } }, by decide +kernel⟩,
   ⟨3, { t := 999990, at_ := 999990, cls := .missed, ok := true, swap := false, slip := false, brim := 0, restartSent := false }, stT fun t => { t with ctxs := [(3, { st := .run, reg := { closeVbid := 5 }, sched := some { t := 999990, at_ := 999990, cls := .missed, ok := true, swap := false, slip := false, brim := 0, restartSent := false } })] }, by decide +kernel⟩,
   ⟨3, { t := 999990, at_ := 999990, cls := .missed, ok := true, swap := false, slip := false, brim := 0, restartSent := false }, 9, stT fun t => { t with bar := { slots := [(9, { kind := 1, scope := 1, expect := 1 })], xlat := [(3077, (true, 9))] }, ctxs := [(3, { st := .run, reg := { closeVbid := 5 }, sched := some { t := 999990, at_ := 999990, cls := .missed, ok := true, swap := false, slip := false, brim := 0, restartSent := false } })] }, by decide +kernel⟩,
   ⟨3, stT id, by decide +kernel⟩⟩

/-- A Catalogue image without entries. -/
def img0 : Bytes := imageOf 1 0x30000 0 0 1 (toLE 2 0xFFFF ++ List.replicate 6 0)

theorem test_wit_CatalogueLoad :
    (∃ (a : Access) (s : State), s.blk.check (portReq a) 0xC808 true = .ok ∧ s.blk.tsu.cat.lstate = 0) ∧
    (∃ (a : Access) (s : State), s.blk.check (portReq a) 0xC808 true = .ok ∧ s.blk.tsu.cat.lstate ≠ 0) ∧
    (∃ (a : Access) (s : State), s.blk.check (portReq a) 0xC808 true = .ok ∧ s.blk.tsu.cat.lstate = 0) ∧
    (∃ (resp : BitVec 2) (img : Bytes) (s : State), s.blk.tsu.cat.lstate = 1 ∧ resp ≠ 0) ∧
    (∃ (img : Bytes) (s : State), s.blk.tsu.cat.lstate = 1 ∧ imgOuter false s.blk.tsu.boot.unitId img ≠ 0) ∧
    (∃ (img : Bytes) (b : Block) (s : State), s.blk.tsu.cat.lstate = 1 ∧
      imgOuter false s.blk.tsu.boot.unitId img = 0 ∧ s.blk.imgLoad .tsu img = .inr b) ∧
    (∃ (s : State), s.blk.live = true ∧ s.blk.tsu.cat.lstate = 0 ∧ Tick.le 1250000000 s.blk.tsu.time.tc64 = true) ∧
    (∃ (s : State), s.blk.dist.mod.powered = true ∧ s.blk.dist.boot.fwBooted = true ∧
      s.blk.dist.boot.catLoaded = false ∧ s.blk.dist.cat.flash0 = [] ∧ s.blk.dist.cat.flash1 = []) :=
  ⟨⟨sp, stT fun t => { t with cat := { lstate := 0, imgAddr := 64, imgLen := 100 }  }, by decide +kernel⟩,
   ⟨sp, stT fun t => { t with cat := { lstate := 1, imgAddr := 64, imgLen := 100 }  }, by decide +kernel⟩,
   ⟨sp, stT fun t => { t with cat := { lstate := 0, imgAddr := 64, imgLen := 100 }  }, by decide +kernel⟩,
   ⟨2, [], stT fun t => { t with cat := { lstate := 1, imgAddr := 64, imgLen := 100 }  }, by decide +kernel⟩,
   ⟨[], stT fun t => { t with cat := { lstate := 1, imgAddr := 64, imgLen := 100 }  }, by decide +kernel⟩,
   ⟨img0, (match (stT fun t => { t with cat := { lstate := 1, imgAddr := 64, imgLen := 100 }  }).blk.imgLoad .tsu img0 with | .inr b => b | _ => {}), stT fun t => { t with cat := { lstate := 1, imgAddr := 64, imgLen := 100 }  }, by decide +kernel⟩,
   ⟨stT fun t => { t with cat := { lstate := 0, imgAddr := 64, imgLen := 100 } , time := { tc64 := 1250000000 } }, by decide +kernel⟩,
   ⟨stD 1 fun d => { d with boot := { d.boot with catLoaded := false }, cat := {} }, by decide +kernel⟩⟩

theorem test_wit_ContextControl :
    (∃ (a : Access) (c : Ctx6) (s : State), s.blk.check (portReq a) 0x5000 true = .ok ∧
      worldOk (portReq a) (s.blk.ctx c.toNat).world = true) ∧
    (∃ (a : Access) (c : Ctx6) (s : State), s.blk.check (portReq a) (0x100200 + 0x400 * c.toNat) (worldOk (portReq a) (s.blk.ctxWorld c.toNat)) = .ok ∧ (s.blk.ctx c.toNat).st = .idle ∧ (s.blk.ctx c.toNat).run.rplEn = false ∧ (((s.blk.ctx c.toNat).reg.mode = 1 ∨ (s.blk.ctx c.toNat).reg.mode = 2 ∨ ((s.blk.ctx c.toNat).reg.mode = 0 ∧ (s.blk.ctx c.toNat).reg.period ≠ 0))) ∧ s.blk.regionsTaken c.toNat (s.blk.ctx c.toNat).reg.regions = false ∧ (∀ n ∈ (s.blk.ctx c.toNat).reg.regionList, (s.blk.ep n).fit = true)) ∧
    (∃ (a : Access) (c : Ctx6) (s : State), s.blk.check (portReq a) (0x100200 + 0x400 * c.toNat) (worldOk (portReq a) (s.blk.ctxWorld c.toNat)) = .ok ∧ (s.blk.ctx c.toNat).st = .idle ∧ (s.blk.ctx c.toNat).reg.mode = 0 ∧ (s.blk.ctx c.toNat).reg.period = 0) ∧
    (∃ (a : Access) (c : Ctx6) (s : State), s.blk.check (portReq a) (0x100200 + 0x400 * c.toNat) (worldOk (portReq a) (s.blk.ctxWorld c.toNat)) = .ok ∧ (s.blk.ctx c.toNat).st = .ready) ∧
    (∃ (a : Access) (c : Ctx6) (s : State), s.blk.check (portReq a) (0x100200 + 0x400 * c.toNat) (worldOk (portReq a) (s.blk.ctxWorld c.toNat)) = .ok ∧ (s.blk.ctx c.toNat).st.live = true) ∧
    (∃ (a : Access) (c : Ctx6) (s : State), s.blk.check (portReq a) (0x100200 + 0x400 * c.toNat) (worldOk (portReq a) (s.blk.ctxWorld c.toNat)) = .ok ∧ (((s.blk.ctx c.toNat).st = .ready ∨ (s.blk.ctx c.toNat).st = .halt))) ∧
    (∃ (a : Access) (c : Ctx6) (s : State), s.blk.check (portReq a) (0x100200 + 0x400 * c.toNat) (worldOk (portReq a) (s.blk.ctxWorld c.toNat)) = .ok) :=
  ⟨⟨sp, 3, stT fun t => { t with ctxs := [(3, { st := .off }), (4, { st := .run })] }, by decide +kernel⟩,
   ⟨sp, 3, stT fun t => { t with ctxs := [(3, { st := .idle, reg := { mode := 1 } }), (4, { st := .run })] }, by decide +kernel⟩,
   ⟨sp, 3, stT fun t => { t with ctxs := [(3, { st := .idle }), (4, { st := .run })] }, by decide +kernel⟩,
   ⟨sp, 3, stT fun t => { t with ctxs := [(3, { st := .ready, reg := { tat := 1000100, step := 5 } }), (4, { st := .run })] }, by decide +kernel⟩,
   ⟨sp, 3, stT fun t => { t with ctxs := [(3, { st := .run, reg := { flags := { late := true } } }), (4, { st := .run })] }, by decide +kernel⟩,
   ⟨sp, 3, stT fun t => { t with ctxs := [(3, { st := .ready }), (4, { st := .run })] }, by decide +kernel⟩,
   ⟨sp, 3, stT fun t => { t with ctxs := [(3, { st := .run, reg := { launchCnt := 9 } }), (4, { st := .run })] }, by decide +kernel⟩⟩

theorem test_wit_LaunchesAndStops :
    (∃ (c : Ctx6) (d : Sched) (s : State), (s.blk.ctx c.toNat).sched = some d ∧ d.restartSent = false ∧
      d.cls ≠ .missed ∧ Tick.le (d.at_ - 32) s.blk.tsu.time.tc64 = true) ∧
    (∃ (c : Ctx6) (d : Sched) (s : State), (s.blk.ctx c.toNat).sched = some d ∧ d.restartSent = true ∧
      Tick.le (d.at_ - 12) s.blk.tsu.time.tc64 = true) ∧
    (∃ (c : Ctx6) (d : Sched) (e : Option (BitVec 8)) (s : State), (s.blk.ctx c.toNat).sched = some d ∧
      d.cls ≠ .missed ∧ Tick.le d.at_ s.blk.tsu.time.tc64 = true) ∧
    (∃ (c : Ctx6) (m : ArmMsg) (s : State), (s.blk.ctx c.toNat).arm = some m ∧ (s.blk.ctx c.toNat).st = .armed ∧
      Tick.le (m.tStart + 0x40000000) s.blk.tsu.time.tc64 = true) ∧
    (∃ (a : Access) (c : Ctx6) (s : State), s.blk.check (portReq a) 0x5000 true = .ok ∧
      worldOk (portReq a) (s.blk.ctx c.toNat).world = true ∧ (s.blk.ctx c.toNat).st = .stopping) ∧
    (∃ (a : Access) (c : Ctx6) (s : State), s.blk.check (portReq a) 0x5000 true = .ok ∧
      worldOk (portReq a) (s.blk.ctx c.toNat).world = true ∧ (s.blk.ctx c.toNat).st ≠ .off ∧
      (s.blk.ctx c.toNat).st ≠ .stopping) ∧
    (∃ (c : Ctx6) (s : State), (s.blk.ctx c.toNat).st = .stopping) :=
  ⟨⟨3, { t := 1000000, at_ := 1000020, cls := .onTime, ok := true, swap := true, slip := false, brim := 0, restartSent := false }, stT fun t => { t with ctxs := [(3, { st := .run, reg := { regions := 5, step := 9 }, sched := some { t := 1000000, at_ := 1000020, cls := .onTime, ok := true, swap := true, slip := false, brim := 0, restartSent := false } }), (4, { st := .run })] }, by decide +kernel⟩,
   ⟨3, { t := 1000000, at_ := 1000012, cls := .onTime, ok := true, swap := true, slip := false, brim := 0, restartSent := true }, stT fun t => { t with ctxs := [(3, { st := .run, reg := { regions := 5, step := 9 }, sched := some { t := 1000000, at_ := 1000012, cls := .onTime, ok := true, swap := true, slip := false, brim := 0, restartSent := true } }), (4, { st := .run })] }, by decide +kernel⟩,
   ⟨3, { t := 1000000, at_ := 1000000, cls := .onTime, ok := true, swap := true, slip := false, brim := 0, restartSent := true }, none, stT fun t => { t with ctxs := [(3, { st := .run, reg := { regions := 5, step := 9 }, sched := some { t := 1000000, at_ := 1000000, cls := .onTime, ok := true, swap := true, slip := false, brim := 0, restartSent := true } }), (4, { st := .run })] }, by decide +kernel⟩,
   ⟨3, ⟨7, 1000, 0⟩, stT fun t => { t with time := { t.time with tc64 := 0x40000400 }, ctxs := [(3, { st := .armed, arm := some ⟨7, 1000, 0⟩ })] }, by decide +kernel⟩,
   ⟨sp, 3, stT fun t => { t with ctxs := [(3, { st := .stopping, enPend := true }), (4, { st := .run })] }, by decide +kernel⟩,
   ⟨sp, 3, stT fun t => { t with ctxs := [(3, { st := .run, arm := some ⟨7, 1000, 0⟩, run := { accOn := true } }), (4, { st := .run })] }, by decide +kernel⟩,
   ⟨3, stT fun t => { t with ctxs := [(3, { st := .stopping, enPend := true }), (4, { st := .run })] }, by decide +kernel⟩⟩

theorem test_wit_JobStart :
    (∃ (p : Plane) (h : Hdr) (g : BitVec 16) (m : ArmMsg) (c : Nat) (s : State), s.blk.rxOk (.tsu p) h 1 0 false = true ∧ (s.blk.ctxsWhere fun x => (x.st.isArmed || x.st == .halt) && x.arm.any fun a => a.job == m.job) = [] ∧ (s.blk.ctxsWhere fun x => x.st == .ready && x.reg.job == m.job) = [c] ∧ s.blk.tsu.pwr.st ≠ .entering ∧ 0 ≤ Tick.diff (m.tStart - 64) s.blk.tsu.time.tc64) ∧
    (∃ (p : Plane) (h : Hdr) (g : BitVec 16) (m : CommitMsg) (c : Nat) (a : ArmMsg) (s : State), s.blk.rxOk (.tsu p) h 1 0 false = true ∧ (s.blk.ctxsWhere fun x => x.st == .armed && x.reg.job == m.job) = [c] ∧ (s.blk.ctx c).reg.job = m.job ∧ (s.blk.ctx c).arm = some a ∧ a.tStart = m.tStart) ∧
    (∃ (p : Plane) (h : Hdr) (g : BitVec 16) (m : AbortMsg) (c : Nat) (s : State), s.blk.rxOk (.tsu p) h 1 0 false = true ∧ (s.blk.ctxsWhere fun x => x.st.isArmed && x.reg.job == m.job && !x.firstDone) = [c]) ∧
    (∃ (n : Nat) (h : Hdr) (g : BitVec 16) (m : ArmMsg) (s : State), 288 ≤ n ∧ n < 312 ∧ g.toNat < 4096 ∧
      s.blk.rxOk (.dist n) h 1 0 false = true) ∧
    (∃ (n : Nat) (h : Hdr) (g : BitVec 16) (m : CommitMsg) (s : State), 288 ≤ n ∧ n < 312 ∧ g.toNat < 4096 ∧
      s.blk.rxOk (.dist n) h 1 0 false = true) ∧
    (∃ (n : Nat) (h : Hdr) (g : BitVec 16) (m : AbortMsg) (s : State), 288 ≤ n ∧ n < 312 ∧ g.toNat < 4096 ∧
      s.blk.rxOk (.dist n) h 1 0 false = true) ∧
    (∃ (n : Nat) (h : Hdr) (g : BitVec 16) (job : BitVec 32) (count : BitVec 32) (s : State), n < 288 ∧
      g.toNat < 4096 ∧ s.blk.rxOk (.dist n) h 1 0 false = true ∧ s.blk.dRole = 3) ∧
    (∃ (n : Nat) (h : Hdr) (g : BitVec 16) (job : BitVec 32) (count : BitVec 32) (s : State), n < 288 ∧
      g.toNat < 4096 ∧ s.blk.rxOk (.dist n) h 1 0 false = true ∧ s.blk.dRole = 2) :=
  ⟨⟨.A, hdr 1, 7, ⟨7, 1000500, 9⟩, 3, stI fun t => { t with ctxs := [(3, { st := .ready, reg := { job := 7 } }), (4, { st := .run })] }, by decide +kernel⟩,
   ⟨.A, hdr 1, 7, ⟨7, 1000500⟩, 3, ⟨7, 1000500, 9⟩, stI fun t => { t with ctxs := [(3, { st := .armed, reg := { job := 7 }, arm := some ⟨7, 1000500, 9⟩ }), (4, { st := .run })] }, by decide +kernel⟩,
   ⟨.A, hdr 1, 7, ⟨7, false, []⟩, 3, stI fun t => { t with ctxs := [(3, { st := .armed, reg := { job := 7 }, arm := some ⟨7, 1000500, 9⟩ }), (4, { st := .run })] }, by decide +kernel⟩,
   ⟨288, hdr 1, 7, ⟨7, 1000500, 9⟩, stD 1 id, by decide +kernel⟩,
   ⟨288, hdr 1, 7, ⟨7, 1000500⟩, stD 2 id, by decide +kernel⟩,
   ⟨288, hdr 1, 7, ⟨7, false, []⟩, stD 1 id, by decide +kernel⟩,
   ⟨5, hdr 1, 7, 7, 3, stD 3 id, by decide +kernel⟩,
   ⟨5, hdr 1, 7, 7, 3, stD 2 id, by decide +kernel⟩⟩

theorem test_wit_StreamPort :
    (∃ (s : State), s.blk.tsu.str.outq = []) ∧
    (∃ (o : OutBurst) (k : Nat) (s : State), s.blk.tsu.str.outq = [(o, k)] ∧ s.blk.tsu.str.credits = 0 ∧ o.ch < 64 ∧
      k + 1 < beatsOf o.data) ∧
    (∃ (s : State), s.blk.tsu.str.clkOk = false ∧ s.blk.tsu.boot.tsuRst = false) ∧
    (∃ (x : Beat) (s : State), s.blk.tsu.boot.tsuRst = false ∧ s.blk.tsu.str.clkOk = true ∧
      1 < s.blk.tsu.str.hostCr ∧ (((s.blk.strCh x.ch.toNat).st ≠ .on ∨ (s.blk.strCh x.ch.toNat).dir = true))) ∧
    (∃ (x : Beat) (s : State), s.blk.tsu.boot.tsuRst = false ∧ s.blk.tsu.str.clkOk = true ∧
      s.blk.tsu.str.hostCr ≠ 0 ∧ (s.blk.strCh x.ch.toNat).st = .on ∧ (s.blk.strCh x.ch.toNat).dir = false ∧
      (s.blk.strCh x.ch.toNat).openBurst = none ∧ (s.blk.strCh x.ch.toNat).late = false ∧
      s.blk.collAwaits x.ch.toNat = none ∧ x.sob = true ∧ x.eob = true) ∧
    (∃ (ch : BitVec 6) (i : InBurst) (s : State), (s.blk.strCh ch.toNat).inq = [i] ∧ i.closed = false ∧
      s.blk.tsu.str.hostCr ≠ 0 ∧ s.blk.collAwaits ch.toNat = none ∧
      (s.blk.tsu.str.stall : Int) < Tick.diff s.blk.tsu.time.tc64 (s.blk.strCh ch.toNat).lastBeat) ∧
    (∃ (a : Access) (ch : BitVec 6) (s : State), s.blk.check (portReq a) (0xB100 + 0x20 * ch.toNat) (worldOk (portReq a) (s.blk.strCh ch.toNat).world) = .ok) ∧
    (∃ (a : Access) (ch : BitVec 6) (s : State), s.blk.check (portReq a) (0xB100 + 0x20 * ch.toNat) (worldOk (portReq a) (s.blk.strCh ch.toNat).world) = .ok ∧ (s.blk.strCh ch.toNat).st ≠ .on) ∧
    (∃ (a : Access) (ch : BitVec 6) (s : State), s.blk.check (portReq a) (0xB100 + 0x20 * ch.toNat) (worldOk (portReq a) (s.blk.strCh ch.toNat).world) = .ok ∧ (s.blk.strCh ch.toNat).st = .on ∧ (s.blk.strCh ch.toNat).dir = true ∧ s.blk.tsu.str.outq = [] ∧ s.blk.tsu.str.waits = []) ∧
    (∃ (p : Producer) (o : OutBurst) (rest : List OutBurst) (s : State), takeWait p s.blk.tsu.str.waits = some (o, rest) ∧ (s.blk.strCh o.ch).takes = true ∧ s.blk.room o = true ∧ s.blk.tsu.str.credits = 0 ∧ ((∀ n, p = .gen n → (s.blk.genSlot n.toNat).ncall.toNat ≤ (s.blk.genSlot n.toNat).formed))) ∧
    (∃ (p : Producer) (o : OutBurst) (rest : List OutBurst) (s : State), takeWait p s.blk.tsu.str.waits = some (o, rest) ∧ (s.blk.strCh o.ch).takes = true ∧ s.blk.room o = false ∧ Tick.le (o.since + s.blk.tsu.str.outWait.setWidth 64) s.blk.tsu.time.tc64 = true ∧ (∀ n, p ≠ .gen n)) :=
  ⟨⟨stT fun t => { t with str := { clkOk := true, hostCr := 20, credits := 31 } }, by decide +kernel⟩,
   ⟨⟨.gen 2, 9, List.replicate 128 1, 0⟩, 0, stT fun t => { t with str := { clkOk := true, hostCr := 20, outq := [(⟨.gen 2, 9, List.replicate 128 1, 0⟩, 0)], chs := [(9, { st := .on, dir := true })] } }, by decide +kernel⟩,
   ⟨stT id, by decide +kernel⟩,
   ⟨⟨5, true, true, [1], 0⟩, stT fun t => { t with str := { clkOk := true, hostCr := 20, chs := [] } }, by decide +kernel⟩,
   ⟨⟨5, true, true, [1], 0⟩, stT fun t => { t with str := { clkOk := true, hostCr := 20, chs := [(5, {st := .on})] } }, by decide +kernel⟩,
   ⟨5, { data := [1], beats := 1, held := 1 }, stT fun t => { t with str := { clkOk := true, hostCr := 20, chs := [(5, { st := .on, inq := [{ data := [1], beats := 1, held := 1 }], lastBeat := 995903 })] } }, by decide +kernel⟩,
   ⟨sp, 5, stT fun t => { t with str := { clkOk := true, hostCr := 20, chs := [] } }, by decide +kernel⟩,
   ⟨sp, 5, stT fun t => { t with str := { clkOk := true, hostCr := 20, chs := [] } }, by decide +kernel⟩,
   ⟨sp, 5, stT fun t => { t with str := { clkOk := true, hostCr := 20, chs := [(5, {st := .on, dir := true})] } }, by decide +kernel⟩,
   ⟨.coll 2, ⟨.coll 2, 9, [1], 0⟩, [], stT fun t => { t with str := { clkOk := true, hostCr := 20, waits := [⟨.coll 2, 9, [1], 0⟩], chs := [(9, { st := .on, dir := true })] } }, by decide +kernel⟩,
   ⟨.coll 2, ⟨.coll 2, 9, List.replicate 64 1, 0⟩, [], stT fun t => { t with str := { clkOk := true, hostCr := 20, waits := [⟨.coll 2, 9, List.replicate 64 1, 0⟩], outq := List.replicate 64 (⟨.gen 1, 8, List.replicate 2048 0, 0⟩, 0), chs := [(9, { st := .on, dir := true })] } }, by decide +kernel⟩⟩

theorem test_wit_GeneratorSlots :
    (∃ (a : Access) (n : BitVec 3) (s : State), s.blk.check (portReq a) (0x9000 + 0x40 * n.toNat + 0x28) (worldOk (portReq a) (s.blk.ctxWorld (s.blk.genSlot n.toNat).ctx)) = .ok ∧ (s.blk.genSlot n.toNat).st ≠ .run ∧ (s.blk.genSlot n.toNat).ncall ≠ 0 ∧ (s.blk.genSlot n.toNat).form < 2 ∧ (s.blk.genSlot n.toNat).sigKind ≠ 3 ∧ s.blk.chFits (s.blk.genSlot n.toNat).och true (s.blk.ctxWorld (s.blk.genSlot n.toNat).ctx) = true ∧ (((s.blk.genSlot n.toNat).d0.getLsbD 8 = true ∨ (s.blk.ctx (s.blk.genSlot n.toNat).ctx).run.lstepOk = true)) ∧ s.blk.engOn = false) ∧
    (∃ (a : Access) (n : BitVec 3) (s : State), s.blk.check (portReq a) (0x9000 + 0x40 * n.toNat + 0x28) (worldOk (portReq a) (s.blk.ctxWorld (s.blk.genSlot n.toNat).ctx)) = .ok ∧ (s.blk.genSlot n.toNat).st ≠ .run ∧ (s.blk.genSlot n.toNat).ncall ≠ 0 ∧ (s.blk.genSlot n.toNat).form < 2 ∧ (s.blk.genSlot n.toNat).sigKind ≠ 3 ∧ s.blk.chFits (s.blk.genSlot n.toNat).och true (s.blk.ctxWorld (s.blk.genSlot n.toNat).ctx) = true ∧ (s.blk.strCh (s.blk.genSlot n.toNat).och).takes = true ∧ (s.blk.genSlot n.toNat).d0.getLsbD 8 = true ∧ s.blk.engOn = true ∧ s.blk.tsu.gen.stOk = true ∧ (s.blk.genSlot n.toNat).ncall.toNat ≤ 256 ∧ (∀ o ∈ s.blk.tsu.str.waits, o.prod ≠ .gen n) ∧ s.blk.tsu.held.contains (.genSig n.toNat) = false) ∧
    (∃ (a : Access) (n : BitVec 3) (s : State), s.blk.check (portReq a) (0x9000 + 0x40 * n.toNat + 0x28) (worldOk (portReq a) (s.blk.ctxWorld (s.blk.genSlot n.toNat).ctx)) = .ok ∧ (s.blk.genSlot n.toNat).st = .run) ∧
    (∃ (a : Access) (n : BitVec 3) (s : State), s.blk.check (portReq a) (0x9000 + 0x40 * n.toNat + 0x28) (worldOk (portReq a) (s.blk.ctxWorld (s.blk.genSlot n.toNat).ctx)) = .ok ∧ (s.blk.genSlot n.toNat).st ≠ .run ∧ (s.blk.genSlot n.toNat).ncall = 0 ∧ (s.blk.genSlot n.toNat).sigKind = 0) ∧
    (∃ (n : BitVec 3) (s : State), (s.blk.genSlot n.toNat).st = .run ∧ (s.blk.genSlot n.toNat).code = 0 ∧
      (s.blk.genSlot n.toNat).cancel = false ∧ (s.blk.genSlot n.toNat).formed = (s.blk.genSlot n.toNat).ncall.toNat ∧
      s.blk.flushed (genProd n.toNat) = true ∧ s.blk.tsu.held.contains (.genSig n.toNat) = false ∧
      (s.blk.genSlot n.toNat).sigKind = 0) ∧
    (∃ (a : Access) (n : BitVec 3) (s : State), s.blk.check (portReq a) (0x9000 + 0x40 * n.toNat + 0x28) (worldOk (portReq a) (s.blk.ctxWorld (s.blk.genSlot n.toNat).ctx)) = .ok ∧ (s.blk.genSlot n.toNat).st = .run ∧ (s.blk.genSlot n.toNat).code = 0 ∧ (s.blk.genSlot n.toNat).formed ≠ (s.blk.genSlot n.toNat).ncall.toNat ∧ s.blk.flushed (genProd n.toNat) = true ∧ s.blk.tsu.held.contains (.genSig n.toNat) = false) ∧
    (∃ (a : Access) (s : State), s.blk.check (portReq a) 0x9830 true = .ok) ∧
    (∃ (a : Access) (s : State), s.blk.check (portReq a) 0x9830 true = .ok) ∧
    (∃ (a : Access) (c : Ctx6) (hi : Bool) (d : BitVec 64) (s : State), s.blk.check (portReq a) (0x9400 + 0x10 * c.toNat + (if hi then 8 else 0)) (worldOk (portReq a) (s.blk.ctxWorld c.toNat)) = .ok ∧ (s.blk.ctx c.toNat).st.isArmed = false ∧ (s.blk.ctx c.toNat).run.accOn = false) ∧
    (∃ (a : Access) (c : Ctx6) (hi : Bool) (d : BitVec 64) (s : State), s.blk.check (portReq a) (0x9400 + 0x10 * c.toNat + (if hi then 8 else 0)) (worldOk (portReq a) (s.blk.ctxWorld c.toNat)) = .ok ∧ ((s.blk.ctx c.toNat).st.isArmed || (s.blk.ctx c.toNat).run.accOn) = true) :=
  ⟨⟨sp, 2, stT fun t => { t with gen := { stOk := true, slots := [(2, { d0 := 0x0001000000090103, ncall := 2, step := 6 })] }, ctxs := [(3, { st := .run, run := { key := 77, lstepOk := true, lstep := 4 } })], str := { clkOk := true, chs := [(9, { st := .on, dir := true })] } , pwr := { on := ⟨true, true, false, true, true⟩ } }, by decide +kernel⟩,
   ⟨sp, 2, stT fun t => { t with gen := { stOk := true, slots := [(2, { d0 := 0x0001000000090103, ncall := 2, step := 6 })] }, ctxs := [(3, { st := .run, run := { key := 77, lstepOk := true, lstep := 4 } })], str := { clkOk := true, chs := [(9, { st := .on, dir := true })] }  }, by decide +kernel⟩,
   ⟨sp, 2, stT fun t => { t with gen := { stOk := true, slots := [(2, { d0 := 0x0001000000090103, st := .run })] }, ctxs := [(3, { st := .run, run := { key := 77, lstepOk := true, lstep := 4 } })], str := { clkOk := true, chs := [(9, { st := .on, dir := true })] }  }, by decide +kernel⟩,
   ⟨sp, 2, stT fun t => { t with gen := { stOk := true, slots := [(2, { d0 := 0x0001000000090103 })] }, ctxs := [(3, { st := .run, run := { key := 77, lstepOk := true, lstep := 4 } })], str := { clkOk := true, chs := [(9, { st := .on, dir := true })] }  }, by decide +kernel⟩,
   ⟨2, stT fun t => { t with gen := { stOk := true, slots := [(2, { d0 := 0x0001000000090103, st := .run, ncall := 2, formed := 2 })] }, ctxs := [(3, { st := .run, run := { key := 77, lstepOk := true, lstep := 4 } })], str := { clkOk := true, chs := [(9, { st := .on, dir := true })] }  }, by decide +kernel⟩,
   ⟨sp, 2, stT fun t => { t with gen := { stOk := true, slots := [(2, { d0 := 0x0001000000090103, st := .run, ncall := 600, formed := 256 })] }, ctxs := [(3, { st := .run, run := { key := 77, lstepOk := true, lstep := 4 } })], str := { clkOk := true, chs := [(9, { st := .on, dir := true })] }  }, by decide +kernel⟩,
   ⟨sp, stT fun t => { t with gen := { stOk := true, slots := [(2, {  })] }, ctxs := [(3, { st := .run, run := { key := 77, lstepOk := true, lstep := 4 } })], str := { clkOk := true, chs := [(9, { st := .on, dir := true })] }  }, by decide +kernel⟩,
   ⟨sp, stT fun t => { t with gen := { stOk := true, slots := [(2, {  })] }, ctxs := [(3, { st := .run, run := { key := 77, lstepOk := true, lstep := 4 } })], str := { clkOk := true, chs := [(9, { st := .on, dir := true })] }  }, by decide +kernel⟩,
   ⟨sp, 3, true, 5, stT id, by decide +kernel⟩,
   ⟨sp, 3, true, 5, stT fun t => { t with gen := { stOk := true, slots := [(2, {  })] }, ctxs := [(3, { st := .run, run := { key := 77, lstepOk := true, lstep := 4 } })], str := { clkOk := true, chs := [(9, { st := .on, dir := true })] }  }, by decide +kernel⟩⟩



theorem test_wit_HallOperations :
    (let a : Access := sp
     let c : Ctx6 := 3
     let k : BitVec 3 := 2
     let f : WsFlags := ⟨false, false, false, 0⟩
     let s : State := stI fun t => { t with ctxs := [(3, { st := .run })], ws := [(26, { addr := 0x3000000040, wdata := 5 })] }
     decide (s.blk.slotFree a c.toNat k.toNat = true) &&
     let i := wsIdx c.toNat k.toNat
     let ha := (s.blk.wslot i).addr
     decide (s.blk.hallStop ha = none)) = true ∧
    (let a : Access := sp
     let c : Ctx6 := 3
     let k : BitVec 3 := 2
     let f : WsFlags := ⟨false, false, false, 0⟩
     let s : State := stT fun t => { t with ctxs := [(3, { st := .run })], ws := [(26, { addr := 0x2000000040 })] }
     decide (s.blk.slotFree a c.toNat k.toNat = true) &&
     let i := wsIdx c.toNat k.toNat
     let ha := (s.blk.wslot i).addr
     let st := 0x0C
     decide (s.blk.hallStop ha = some st)) = true :=
  ⟨by decide +kernel,
   by decide +kernel⟩

theorem test_wit_BarrierAndSemaphoreOperations :
    (let a : Access := sp
     let c : Ctx6 := 3
     let k : BitVec 3 := 2
     let s : State := stT fun t => { t with ctxs := [(3, { st := .run })], ws := [(26, { addr := 7 })] }
     decide (s.blk.slotFree a c.toNat k.toNat = true) &&
     decide (s.blk.engOn = true) &&
     decide ((∀ e ∈ s.blk.tsu.ws, e.2.op = none)) &&
     let i := wsIdx c.toNat k.toNat
     let vbid := (s.blk.wslot i).addr.toNat % 1024
     decide (s.blk.xlat c.toNat vbid = none)) = true ∧
    (let a : Access := sp
     let c : Ctx6 := 3
     let k : BitVec 3 := 2
     let f : WsFlags := ⟨false, false, false, 0⟩
     let s : State := stT fun t => { t with ctxs := [(3, { st := .run })], bar := { slots := [(9, { kind := 1, expect := 10, c0 := 4 })], xlat := [(3079, (true, 9))] }, ws := [(26, { addr := 7, wdata := 3 })] }
     decide (s.blk.slotFree a c.toNat k.toNat = true) &&
     decide (s.blk.engOn = true) &&
     decide ((∀ e ∈ s.blk.tsu.ws, e.2.op = none)) &&
     let i := wsIdx c.toNat k.toNat
     let vbid := (s.blk.wslot i).addr.toNat % 1024
     let d : BitVec 20 := (s.blk.wslot i).wdata.setWidth 20
     let n := 9
     decide (s.blk.xlat c.toNat vbid = some n) &&
     let x := s.blk.slot n
     decide (x.kind = 1) &&
     decide (x.scope = 0) &&
     decide (x.sent = false) &&
     let m := x.count f.sense + max 1 d.toNat
     decide (f.sense = x.sense) &&
     decide (m < x.need) &&
     decide (m ≤ 1048575)) = true ∧
    (let a : Access := sp
     let c : Ctx6 := 3
     let k : BitVec 3 := 2
     let f : WsFlags := ⟨false, false, false, 0⟩
     let s : State := stT fun t => { t with ctxs := [(3, { st := .run })], bar := { slots := [(9, { kind := 1, expect := 10, c0 := 4 })], xlat := [(3079, (true, 9))] }, ws := [(26, { addr := 7, wdata := 3 })] }
     decide (s.blk.slotFree a c.toNat k.toNat = true) &&
     decide (s.blk.engOn = true) &&
     decide ((∀ e ∈ s.blk.tsu.ws, e.2.op = none)) &&
     let i := wsIdx c.toNat k.toNat
     let vbid := (s.blk.wslot i).addr.toNat % 1024
     let d : BitVec 20 := (s.blk.wslot i).wdata.setWidth 20
     let n := 9
     decide (s.blk.xlat c.toNat vbid = some n) &&
     let x := s.blk.slot n
     decide (x.kind = 1) &&
     decide (x.scope = 0) &&
     decide (x.sent = false) &&
     let m := x.count f.sense + max 1 d.toNat
     decide (f.sense = x.sense) &&
     decide (m < x.need) &&
     decide (m ≤ 1048575)) = true ∧
    (let a : Access := sp
     let c : Ctx6 := 3
     let k : BitVec 3 := 2
     let f : WsFlags := ⟨false, false, false, 0⟩
     let s : State := stT fun t => { t with ctxs := [(3, { st := .run })], bar := { slots := [(9, { kind := 1, expect := 10, c0 := 4 })], xlat := [(3079, (true, 9))] }, ws := [(26, { addr := 7, wdata := 6 })] }
     decide (s.blk.slotFree a c.toNat k.toNat = true) &&
     decide (s.blk.engOn = true) &&
     decide ((∀ e ∈ s.blk.tsu.ws, e.2.op = none)) &&
     let i := wsIdx c.toNat k.toNat
     let vbid := (s.blk.wslot i).addr.toNat % 1024
     let d : BitVec 20 := (s.blk.wslot i).wdata.setWidth 20
     let n := 9
     decide (s.blk.xlat c.toNat vbid = some n) &&
     let x := s.blk.slot n
     decide (x.kind = 1) &&
     decide (x.scope = 0) &&
     decide (x.sent = false) &&
     let m := x.count f.sense + max 1 d.toNat
     decide (f.sense = x.sense) &&
     decide (x.need ≤ m) &&
     decide (s.blk.closers n = []) &&
     decide (x.count (!x.sense) < x.need)) = true ∧
    (let a : Access := sp
     let c : Ctx6 := 3
     let k : BitVec 3 := 2
     let f : WsFlags := ⟨false, true, false, 0⟩
     let s : State := stT fun t => { t with ctxs := [(3, { st := .run })], bar := { slots := [(9, { kind := 1, expect := 10, c0 := 4 })], xlat := [(3079, (true, 9))] }, ws := [(26, { addr := 7, wdata := 3 })] }
     decide (s.blk.slotFree a c.toNat k.toNat = true) &&
     decide (s.blk.engOn = true) &&
     decide ((∀ e ∈ s.blk.tsu.ws, e.2.op = none)) &&
     let i := wsIdx c.toNat k.toNat
     let vbid := (s.blk.wslot i).addr.toNat % 1024
     let d : BitVec 20 := (s.blk.wslot i).wdata.setWidth 20
     let n := 9
     decide (s.blk.xlat c.toNat vbid = some n) &&
     let x := s.blk.slot n
     decide (x.kind = 1) &&
     decide (x.scope = 0) &&
     decide (x.sent = false) &&
     decide (f.sense ≠ x.sense)) = true ∧
    (let a : Access := sp
     let c : Ctx6 := 3
     let k : BitVec 3 := 2
     let f : WsFlags := ⟨true, false, false, 0⟩
     let s : State := stT fun t => { t with ctxs := [(3, { st := .run })], bar := { slots := [(9, { kind := 1, expect := 10, c0 := 4 })], xlat := [(3079, (true, 9))] }, ws := [(26, { addr := 7, wdata := 3 })] }
     decide (s.blk.slotFree a c.toNat k.toNat = true) &&
     decide (s.blk.engOn = true) &&
     decide ((∀ e ∈ s.blk.tsu.ws, e.2.op = none)) &&
     let i := wsIdx c.toNat k.toNat
     let vbid := (s.blk.wslot i).addr.toNat % 1024
     let d : BitVec 20 := (s.blk.wslot i).wdata.setWidth 20
     let n := 9
     decide (s.blk.xlat c.toNat vbid = some n) &&
     let x := s.blk.slot n
     decide (x.kind = 1) &&
     decide (x.scope = 0) &&
     decide (x.sent = false) &&
     decide (f.sense = x.sense) &&
     decide (f.nowait = true)) = true ∧
    (let a : Access := sp
     let c : Ctx6 := 3
     let k : BitVec 3 := 2
     let s : State := stT fun t => { t with ctxs := [(3, { st := .run })], bar := { slots := [(9, { kind := 2, c0 := 4 })], xlat := [(3079, (true, 9))] }, ws := [(26, { addr := 7, wdata := 3 })] }
     decide (s.blk.slotFree a c.toNat k.toNat = true) &&
     decide (s.blk.engOn = true) &&
     decide ((∀ e ∈ s.blk.tsu.ws, e.2.op = none)) &&
     let i := wsIdx c.toNat k.toNat
     let vbid := (s.blk.wslot i).addr.toNat % 1024
     let n := 9
     decide (s.blk.xlat c.toNat vbid = some n) &&
     let x := s.blk.slot n
     decide (x.kind = 2) &&
     decide (x.scope = 0)) = true ∧
    (let a : Access := sp
     let c : Ctx6 := 3
     let k : BitVec 3 := 2
     let s : State := stT fun t => { t with ctxs := [(3, { st := .run })], bar := { slots := [(9, { kind := 2, c0 := 4 })], xlat := [(3079, (true, 9))] }, ws := [(26, { addr := 7, wdata := 3 })] }
     decide (s.blk.slotFree a c.toNat k.toNat = true) &&
     decide (s.blk.engOn = true) &&
     decide ((∀ e ∈ s.blk.tsu.ws, e.2.op = none)) &&
     let i := wsIdx c.toNat k.toNat
     let vbid := (s.blk.wslot i).addr.toNat % 1024
     let d : BitVec 20 := (s.blk.wslot i).wdata.setWidth 20
     let n := 9
     decide (s.blk.xlat c.toNat vbid = some n) &&
     let x := s.blk.slot n
     decide (x.kind = 2) &&
     decide (x.scope = 0) &&
     decide (d.toNat ≤ x.c0)) = true ∧
    (let a : Access := sp
     let c : Ctx6 := 3
     let k : BitVec 3 := 2
     let f : WsFlags := ⟨true, false, false, 0⟩
     let s : State := stT fun t => { t with ctxs := [(3, { st := .run })], bar := { slots := [(9, { kind := 2, c0 := 2 })], xlat := [(3079, (true, 9))] }, ws := [(26, { addr := 7, wdata := 3 })] }
     decide (s.blk.slotFree a c.toNat k.toNat = true) &&
     decide (s.blk.engOn = true) &&
     decide ((∀ e ∈ s.blk.tsu.ws, e.2.op = none)) &&
     let i := wsIdx c.toNat k.toNat
     let vbid := (s.blk.wslot i).addr.toNat % 1024
     let d : BitVec 20 := (s.blk.wslot i).wdata.setWidth 20
     let n := 9
     decide (s.blk.xlat c.toNat vbid = some n) &&
     let x := s.blk.slot n
     decide (x.kind = 2) &&
     decide (x.scope = 0) &&
     decide (x.c0 < d.toNat) &&
     decide (f.nowait = true)) = true ∧
    (let a : Access := sp
     let c : Ctx6 := 3
     let k : BitVec 3 := 2
     let s : State := stT fun t => { t with ctxs := [(3, { st := .run })], bar := { slots := [(9, { kind := 2, c0 := 4 })], xlat := [(3079, (true, 9))] }, ws := [(26, { addr := 7, wdata := 3 })] }
     decide (s.blk.slotFree a c.toNat k.toNat = true) &&
     decide (s.blk.engOn = true) &&
     decide ((∀ e ∈ s.blk.tsu.ws, e.2.op = none)) &&
     let i := wsIdx c.toNat k.toNat
     let vbid := (s.blk.wslot i).addr.toNat % 1024
     let n := 9
     decide (s.blk.xlat c.toNat vbid = some n) &&
     let x := s.blk.slot n
     decide (x.kind = 2) &&
     decide (x.scope = 0)) = true :=
  ⟨by decide +kernel,
   by decide +kernel,
   by decide +kernel,
   by decide +kernel,
   by decide +kernel,
   by decide +kernel,
   by decide +kernel,
   by decide +kernel,
   by decide +kernel,
   by decide +kernel⟩

theorem test_wit_WaitsAndWindow :
    (let a : Access := sp
     let c : Ctx6 := 3
     let k : BitVec 3 := 2
     let s : State := stT fun t => { t with ctxs := [(3, { st := .run })], ws := [(26, { addr := 7, wdata := 5, op := none })]  }
     decide ((s.blk.tsu.heldReads.filter fun r => !r.dbg).length < 240) &&
     decide (s.blk.check (portReq a) (wsReg c.toNat k.toNat 0x18) (worldOk (portReq a) (s.blk.ctxWorld c.toNat)) = .ok) &&
     let w := s.blk.wslot (wsIdx c.toNat k.toNat)
     decide (w.op = none)) = true ∧
    (let a : Access := sp
     let c : Ctx6 := 3
     let k : BitVec 3 := 2
     let s : State := stT fun t => { t with ctxs := [(3, { st := .run })], ws := [(26, { addr := 7, wdata := 5, op := some { space := 0, op := 0, addr := 7, wdata := 0, flags := ⟨false, false, false, 1⟩, seq := 0, issue := 900, expiry := some 5000, slot := none, phase := none, await := none, arrived := (false, false, 0), held := false } })]  }
     decide ((s.blk.tsu.heldReads.filter fun r => !r.dbg).length < 240) &&
     decide (s.blk.check (portReq a) (wsReg c.toNat k.toNat 0x18) (worldOk (portReq a) (s.blk.ctxWorld c.toNat)) = .ok) &&
     let w := s.blk.wslot (wsIdx c.toNat k.toNat)
     decide (w.op.isSome = true)) = true ∧
    (∃ (tag : BitVec 8) (s : State), s.blk.tsu.heldReads.any (fun r => !r.dbg && r.tag == tag) = true) ∧
    (∃ (tag : BitVec 8) (s : State), s.blk.tsu.heldReads.any (fun r => !r.dbg && r.tag == tag) = false) ∧
    (∃ (c : Ctx6) (k : BitVec 3) (o : WOp) (x : Tick) (s : State), (s.blk.wslot (wsIdx c.toNat k.toNat)).op = some o ∧ o.expiry = some x ∧ o.space = 0 ∧ Tick.le x s.blk.tsu.time.tc64 = true) ∧
    (∃ (c : Ctx6) (k : BitVec 3) (s : State), (s.blk.wslot (wsIdx c.toNat k.toNat)).op = none) ∧
    (∃ (a : Access) (n : BitVec 19) (tag : BitVec 8) (d : BitVec 64) (s : State), s.blk.tsu.boot.tsuRst = false) ∧
    (∃ (a : Access) (n : BitVec 19) (tag : BitVec 8) (d : BitVec 64) (s : State), s.blk.tsu.boot.tsuRst = false) ∧
    (∃ (a : Access) (n : BitVec 19) (tag : BitVec 8) (d : BitVec 64) (s : State), s.blk.tsu.boot.tsuRst = false ∧
      s.blk.check (portReq a) (0x400000 + 8 * n.toNat) (worldOk (portReq a) (s.blk.regionWorld n.toNat)) = .ok ∧
      s.blk.engOn = true ∧ s.blk.wordHeld n.toNat = false ∧ (s.blk.tsu.tm.get n.toNat).ecc = .good ∧
      ((a.secure = true ∨ s.blk.regionWorld n.toNat = false ∧ (s.blk.tsu.tm.get n.toNat).w = false)) ∧
      (∀ e ∈ s.blk.tsu.ws, e.2.op = none)) ∧
    (∃ (a : Access) (n : BitVec 19) (tag : BitVec 8) (d : BitVec 64) (s : State), s.blk.tsu.boot.tsuRst = false ∧
      s.blk.check (portReq a) (0x400000 + 8 * n.toNat) (worldOk (portReq a) (s.blk.regionWorld n.toNat)) = .ok ∧
      s.blk.engOn = true ∧ s.blk.wordHeld n.toNat = false ∧ (s.blk.tsu.tm.get n.toNat).ecc = .good ∧
      ((a.secure = true ∨ s.blk.regionWorld n.toNat = false ∧ (s.blk.tsu.tm.get n.toNat).w = false)) ∧
      (∀ e ∈ s.blk.tsu.ws, e.2.op = none)) :=
  ⟨by decide +kernel,
   by decide +kernel,
   ⟨9, stT fun t => { t with ctxs := [(3, { st := .run })], ws := [(26, { addr := 7, wdata := 5, op := none })] , heldReads := [⟨9, true, 0, 3, 2⟩, ⟨9, false, 0, 3, 2⟩] }, by decide +kernel⟩,
   ⟨9, stT fun t => { t with ctxs := [(3, { st := .run })], ws := [(26, { addr := 7, wdata := 5, op := none })]  }, by decide +kernel⟩,
   ⟨3, 2, { space := 0, op := 0, addr := 7, wdata := 0, flags := ⟨false, false, false, 1⟩, seq := 0, issue := 900, expiry := some 5000, slot := none, phase := none, await := none, arrived := (false, false, 0), held := false }, 5000, stT fun t => { t with ctxs := [(3, { st := .run })], ws := [(26, { addr := 7, wdata := 5, op := some { space := 0, op := 0, addr := 7, wdata := 0, flags := ⟨false, false, false, 1⟩, seq := 0, issue := 900, expiry := some 5000, slot := none, phase := none, await := none, arrived := (false, false, 0), held := false } })]  }, by decide +kernel⟩,
   ⟨3, 2, stT fun t => { t with ctxs := [(3, { st := .run })], ws := [(26, { addr := 7, wdata := 5, op := none })]  }, by decide +kernel⟩,
   ⟨sp, 7, 9, 1, stT id, by decide +kernel⟩,
   ⟨sp, 7, 9, 1, stT id, by decide +kernel⟩,
   ⟨sp, 7, 9, 1, stT fun t => { t with ctxs := [(3, { st := .run })], ws := [(26, { addr := 7, wdata := 5, op := none })]  }, by decide +kernel⟩,
   ⟨sp, 7, 9, 1, stT fun t => { t with ctxs := [(3, { st := .run })], ws := [(26, { addr := 7, wdata := 5, op := none })]  }, by decide +kernel⟩⟩

theorem test_wit_CatalogueRequests :
    (let q : CatReq := ⟨.tsu, .tree, true, 3, 9⟩
     let e : EntryId := ⟨0x2101, 0⟩
     let r : CatEnt := ⟨0x2101, 0, 0, 2, 1, .rw, 1, false, .tsu⟩
     let s : State := stI id
     decide (s.blk.netServes q = true) &&
     decide (s.blk.catFind q.unit e.index.toNat e.sub.toNat = .ent r) &&
     let idx := e.index.toNat
     let sub := e.sub.toNat
     let u := q.unit
     decide (catNoRead q (s.blk.catAcc u idx sub r) = none) &&
     decide (r.size ≤ 1024)) = true ∧
    (let q : CatReq := ⟨.dist, .tree, false, 1, 9⟩
     let e : EntryId := ⟨0x1030, 1⟩
     let r : CatEnt := ⟨0x1030, 1, 1, 10, 32, .so, 0, false, .dist⟩
     let s : State := stD 1 id
     decide (s.blk.netServes q = true) &&
     decide (s.blk.catFind q.unit e.index.toNat e.sub.toNat = .ent r) &&
     let idx := e.index.toNat
     let sub := e.sub.toNat
     let u := q.unit
     let c := 0x05
     decide (catNoRead q (s.blk.catAcc u idx sub r) = some c) &&
     decide (c ≠ 0x00)) = true ∧
    (let q : CatReq := ⟨.tsu, .tree, true, 3, 9⟩
     let e : EntryId := ⟨0x1101, 5⟩
     let r : CatEnt := ⟨0x1101, 5, 5, 10, 64, .rw, 0, false, .tsu⟩
     let s : State := stI id
     decide (s.blk.netServes q = true) &&
     decide (s.blk.catFind q.unit e.index.toNat e.sub.toNat = .ent r) &&
     let idx := e.index.toNat
     let sub := e.sub.toNat
     let u := q.unit
     let off : BitVec 32 := 62
     let cnt : BitVec 16 := 2
     decide (catNoRead q (s.blk.catAcc u idx sub r) = none) &&
     decide (cnt ≠ 0) &&
     decide (cnt.toNat ≤ 1024) &&
     decide (off.toNat + cnt.toNat ≤ r.size) &&
     decide (r.vtype = 10)) = true ∧
    (let q : CatReq := ⟨.tsu, .tree, true, 3, 9⟩
     let e : EntryId := ⟨0x2101, 0⟩
     let r : CatEnt := ⟨0x2101, 0, 0, 2, 1, .rw, 1, false, .tsu⟩
     let s : State := stI id
     decide (s.blk.netServes q = true) &&
     decide (s.blk.catFind q.unit e.index.toNat e.sub.toNat = .ent r) &&
     let idx := e.index.toNat
     let sub := e.sub.toNat
     let u := q.unit
     let vt : BitVec 8 := 2
     let v : Bytes := [1]
     decide (catNoWrite q (s.blk.catAcc u idx sub r) = none) &&
     decide (r.size ≤ 1024) &&
     decide (vt.toNat = r.vtype) &&
     decide (v.length = r.size) &&
     decide (s.blk.catBad u idx sub r v = none) &&
     decide (catActs u idx sub = false) &&
     decide (s.blk.catIsRecord u idx = false) &&
     decide (idx ≠ 0x2001)) = true ∧
    (let q : CatReq := ⟨.dist, .tree, true, 3, 9⟩
     let e : EntryId := ⟨0x3210, 1⟩
     let r : CatEnt := ⟨0x3210, 1, 1, 3, 2, .rws, 0, false, .dist⟩
     let s : State := stD 1 id
     decide (s.blk.netServes q = true) &&
     decide (s.blk.catFind q.unit e.index.toNat e.sub.toNat = .ent r) &&
     let idx := e.index.toNat
     let sub := e.sub.toNat
     let u := q.unit
     let vt : BitVec 8 := 3
     let v : Bytes := [1, 0]
     decide (catNoWrite q (s.blk.catAcc u idx sub r) = none) &&
     decide (r.size ≤ 1024) &&
     decide (vt.toNat = r.vtype) &&
     decide (v.length = r.size) &&
     decide (s.blk.catBad u idx sub r v = none) &&
     decide (catActs u idx sub = false) &&
     decide (s.blk.catIsRecord u idx = true) &&
     decide (sub ≠ catCommitSub idx) &&
     decide (idx ≠ 0x4201)) = true ∧
    (let q : CatReq := ⟨.tsu, .tree, false, 1, 9⟩
     let e : EntryId := ⟨0x3001, 0⟩
     let r : CatEnt := ⟨0x3001, 0, 0, 2, 1, .rws, 8, false, .tsu⟩
     let s : State := stI id
     decide (s.blk.netServes q = true) &&
     decide (s.blk.catFind q.unit e.index.toNat e.sub.toNat = .ent r) &&
     let idx := e.index.toNat
     let sub := e.sub.toNat
     let u := q.unit
     decide (catNoWrite q (s.blk.catAcc u idx sub r) = some 0x05) &&
     decide (u = .tsu) &&
     decide (q.secure = false)) = true ∧
    (let q : CatReq := ⟨.tsu, .tree, true, 3, 9⟩
     let e : EntryId := ⟨0x1101, 5⟩
     let r : CatEnt := ⟨0x1101, 5, 5, 10, 64, .rw, 0, false, .tsu⟩
     let s : State := stI id
     decide (s.blk.netServes q = true) &&
     decide (s.blk.catFind q.unit e.index.toNat e.sub.toNat = .ent r) &&
     let idx := e.index.toNat
     let sub := e.sub.toNat
     let u := q.unit
     let off : BitVec 32 := 2
     let d : Bytes := [7, 8]
     decide (catNoWrite q (s.blk.catAcc u idx sub r) = none) &&
     decide (r.vtype = 10) &&
     decide (d ≠ []) &&
     decide (d.length ≤ 1024) &&
     decide (off.toNat + d.length ≤ r.size)) = true ∧
    (∃ (q : CatReq) (e : EntryId) (r : CatEnt) (s : State), s.blk.netServes q = true ∧
      s.blk.catFind q.unit e.index.toNat e.sub.toNat = .ent r ∧
      catNoRead q (s.blk.catAcc q.unit e.index.toNat e.sub.toNat r) = none ∧ r.size ≤ 1024 ∧ q.unit = .dist ∧
      (∀ j, j < 256 → ∀ x, smGet none (s.blk.catOf q.unit).subs j = some x → ¬ (x.who = catWho q ∧ x.entry = e)) ∧
      smGet none (s.blk.catOf q.unit).subs 0 = none) ∧
    (let q : CatReq := ⟨.tsu, .tree, true, 3, 9⟩
     let e : EntryId := ⟨0x3003, 1⟩
     let r : CatEnt := ⟨0x3003, 1, 1, 1, 1, .rw, 1, false, .tsu⟩
     let s : State := (stI fun t => { t with cat := { t.cat with stageS := [(0x300301, [0])] } })
     decide (s.blk.netServes q = true) &&
     decide (s.blk.catFind q.unit e.index.toNat e.sub.toNat = .ent r) &&
     let idx := e.index.toNat
     let u := q.unit
     let b1 : Block := (stI fun t => { t with cat := { t.cat with stageS := [(0x300301, [0])] } }).blk
     decide (s.blk.catFind u idx 0xFF = .commit) &&
     decide (q.priv ≠ 0) &&
     decide (s.blk.stagedOk q idx = true) &&
     decide (s.blk.recRule q idx 1 (s.blk.staged q idx) = (0x00, b1))) = true :=
  ⟨by decide +kernel,
   by decide +kernel,
   by decide +kernel,
   by decide +kernel,
   by decide +kernel,
   by decide +kernel,
   by decide +kernel,
   ⟨⟨.dist, .tree, true, 3, 9⟩, ⟨0x3210, 1⟩, ⟨0x3210, 1, 1, 3, 2, .rws, 0, false, .dist⟩, stD 1 id, by decide +kernel,
     by decide +kernel, by decide +kernel, by decide +kernel, rfl, (by intro j _ x h; cases h), rfl⟩,
   by decide +kernel⟩

/-- A single zero byte reads as 0 at every offset. -/
theorem leAt_zero (o n : Nat) : leAt [0] o n = 0 := by
  have h : ∀ k, ofLE (List.replicate k (0 : Byte)) = 0 := by
    intro k; induction k with
    | zero => rfl
    | succ k ih => rw [List.replicate_succ, ofLE, ih]; rfl
  have e : slice [0] o n = List.replicate n (0 : Byte) := by
    unfold slice
    rcases o with _ | o
    · rcases n with _ | n
      · rfl
      · simp [List.replicate_succ]
    · simp
  rw [leAt, e, h]

theorem test_wit_CatalogueRecords :
    (let q : CatReq := ⟨.dist, .tree, true, 3, 9⟩
     let s : State := stD 3 fun d => { d with cat := { d.cat with stageS := [(0x301001, 1 :: toLE 4 7)] } }
     decide (q.unit = .dist) &&
     decide (s.blk.distServes = true) &&
     decide (q.secure = true) &&
     decide (q.priv ≠ 0) &&
     let st (i : Nat) := s.blk.dist.cat.staged true i
     let v (i k : Nat) : Nat := ofLE (s.blk.staged q i k)
     let id : BitVec 32 := BitVec.ofNat 32 (v 0x3010 1)
     decide (s.blk.dRole = 3) &&
     decide (s.blk.stagedOk q 0x3010 = true) &&
     decide (s.blk.jobOf id = none)) = true ∧
    (let q : CatReq := ⟨.dist, .tree, true, 3, 9⟩
     let s : State := stD 3 fun d => { d with objs := { jobs := [(0, some { state := 1 })] } }
     decide (q.unit = .dist) &&
     decide (s.blk.distServes = true) &&
     decide (q.secure = true) &&
     decide (q.priv ≠ 0) &&
     let st (i : Nat) := s.blk.dist.cat.staged true i
     let v (i k : Nat) : Nat := ofLE (s.blk.staged q i k)
     let id : BitVec 32 := BitVec.ofNat 32 (v 0x3010 1)
     let js := ((s.blk.jobOf id).getD {}).state
     decide (s.blk.dRole = 3) &&
     decide (s.blk.stagedOk q 0x3010 = true) &&
     decide (js ≠ 2) &&
     decide (js ≠ 3)) = true ∧
    (let q : CatReq := ⟨.dist, .tree, true, 3, 9⟩
     let s : State := stD 3 fun d => { d with objs := { jobs := [(0, some { state := 1 })] } }
     decide (q.unit = .dist) &&
     decide (s.blk.distServes = true) &&
     decide (q.secure = true) &&
     decide (q.priv ≠ 0) &&
     let st (i : Nat) := s.blk.dist.cat.staged true i
     let v (i k : Nat) : Nat := ofLE (s.blk.staged q i k)
     let id : BitVec 32 := BitVec.ofNat 32 (v 0x3010 1)
     let js := ((s.blk.jobOf id).getD {}).state
     decide (s.blk.dRole = 3) &&
     decide (s.blk.stagedOk q 0x3010 = true) &&
     decide (js ≠ 2) &&
     decide (js ≠ 3)) = true ∧
    (let q : CatReq := ⟨.dist, .tree, true, 3, 9⟩
     let s : State := stD 3 fun d => { d with objs := { jobs := [(0, some { state := 2 })] } }
     decide (q.unit = .dist) &&
     decide (s.blk.distServes = true) &&
     decide (q.secure = true) &&
     decide (q.priv ≠ 0) &&
     let st (i : Nat) := s.blk.dist.cat.staged true i
     let v (i k : Nat) : Nat := ofLE (s.blk.staged q i k)
     let id : BitVec 32 := BitVec.ofNat 32 (v 0x3010 1)
     let js := ((s.blk.jobOf id).getD {}).state
     decide (s.blk.dRole = 3) &&
     decide (s.blk.stagedOk q 0x3010 = true) &&
     decide (js = 2 ∨ js = 3)) = true ∧
    (let q : CatReq := ⟨.dist, .tree, true, 3, 9⟩
     let s : State := stD 1 id
     decide (q.unit = .dist) &&
     decide (s.blk.distServes = true) &&
     decide (q.secure = true) &&
     decide (q.priv ≠ 0) &&
     let st (i : Nat) := s.blk.dist.cat.staged true i
     let v (i k : Nat) : Nat := ofLE (s.blk.staged q i k)
     let id : BitVec 32 := BitVec.ofNat 32 (v 0x3010 1)
     decide (s.blk.stagedOk q 0x3210 = true) &&
     let x := s.blk.hbar (v 0x3210 1)
     decide (x.c0 = 0 ∧ x.c1 = 0 ∧ x.takes = [])) = true ∧
    (let q : CatReq := ⟨.dist, .tree, true, 3, 9⟩
     let s : State := stD 1 fun d => { d with objs := { bars := [(0, { kind := 1, c0 := 3 })] } }
     decide (q.unit = .dist) &&
     decide (s.blk.distServes = true) &&
     decide (q.secure = true) &&
     decide (q.priv ≠ 0) &&
     let st (i : Nat) := s.blk.dist.cat.staged true i
     let v (i k : Nat) : Nat := ofLE (s.blk.staged q i k)
     let id : BitVec 32 := BitVec.ofNat 32 (v 0x3010 1)
     decide (s.blk.stagedOk q 0x3210 = true) &&
     let x := s.blk.hbar (v 0x3210 1)
     decide (x.c0 ≠ 0)) = true ∧
    (let q : CatReq := ⟨.dist, .tree, true, 3, 9⟩
     let s : State := stD 1 id
     decide (q.unit = .dist) &&
     decide (s.blk.distServes = true) &&
     decide (q.secure = true) &&
     decide (q.priv ≠ 0) &&
     let st (i : Nat) := s.blk.dist.cat.staged true i
     let v (i k : Nat) : Nat := ofLE (s.blk.staged q i k)
     let id : BitVec 32 := BitVec.ofNat 32 (v 0x3010 1)
     decide (s.blk.stagedOk q 0x3220 = true)) = true ∧
    (let q : CatReq := ⟨.dist, .tree, true, 3, 9⟩
     let s : State := stD 1 id
     decide (q.unit = .dist) &&
     decide (s.blk.distServes = true) &&
     decide (q.secure = true) &&
     decide (q.priv ≠ 0) &&
     let st (i : Nat) := s.blk.dist.cat.staged true i
     let v (i k : Nat) : Nat := ofLE (s.blk.staged q i k)
     let id : BitVec 32 := BitVec.ofNat 32 (v 0x3010 1)
     decide (s.blk.stagedOk q 0x4010 = true) &&
     decide ((s.blk.cobj (v 0x4010 1)).ops = [])) = true ∧
    (let q : CatReq := ⟨.dist, .tree, true, 3, 9⟩
     let s : State := stD 1 id
     decide (q.unit = .dist) &&
     decide (s.blk.distServes = true) &&
     decide (q.secure = true) &&
     decide (q.priv ≠ 0) &&
     let st (i : Nat) := s.blk.dist.cat.staged true i
     let v (i k : Nat) : Nat := ofLE (s.blk.staged q i k)
     let id : BitVec 32 := BitVec.ofNat 32 (v 0x3010 1)
     decide (s.blk.stagedOk q 0x8010 = true) &&
     decide (s.blk.hm.waits = []) &&
     decide (v 0x8010 4 = 0)) = true ∧
    (let q : CatReq := ⟨.dist, .tree, true, 3, 9⟩
     let s : State := stD 1 id
     decide (q.unit = .dist) &&
     decide (s.blk.distServes = true) &&
     decide (q.secure = true) &&
     decide (q.priv ≠ 0) &&
     let st (i : Nat) := s.blk.dist.cat.staged true i
     let v (i k : Nat) : Nat := ofLE (s.blk.staged q i k)
     let id : BitVec 32 := BitVec.ofNat 32 (v 0x3010 1)
     decide (s.blk.stagedOk q 0x7110 = true)) = true ∧
    (let q : CatReq := ⟨.dist, .tree, true, 3, 9⟩
     let s : State := stD 1 id
     decide (q.unit = .dist) &&
     decide (s.blk.distServes = true) &&
     decide (q.secure = true) &&
     decide (q.priv ≠ 0) &&
     let st (i : Nat) := s.blk.dist.cat.staged true i
     let v (i k : Nat) : Nat := ofLE (s.blk.staged q i k)
     let id : BitVec 32 := BitVec.ofNat 32 (v 0x3010 1)
     decide (s.blk.stagedOk q 0x7120 = true)) = true ∧
    (let q : CatReq := ⟨.dist, .tree, true, 3, 9⟩
     let s : State := stD 3 fun d => { d with cat := { d.cat with vals := [(0x711001, [3]), (0x713001, [5, 0, 0, 0])] } }
     decide (q.unit = .dist) &&
     decide (s.blk.distServes = true) &&
     decide (q.secure = true) &&
     decide (q.priv ≠ 0) &&
     let st (i : Nat) := s.blk.dist.cat.staged true i
     let v (i k : Nat) : Nat := ofLE (s.blk.staged q i k)
     let id : BitVec 32 := BitVec.ofNat 32 (v 0x3010 1)
     decide (s.blk.dRole = 3) &&
     decide (s.blk.stagedOk q 0x7130 = true) &&
     let ep : BitVec 32 := BitVec.ofNat 32 (v 0x7130 1)
     decide (newer ep s.blk.dist.boot.ep = true)) = true ∧
    (let q : CatReq := ⟨.dist, .tree, true, 3, 9⟩
     let s : State := stD 3 id
     decide (q.unit = .dist) &&
     decide (s.blk.distServes = true) &&
     decide (q.secure = true) &&
     decide (q.priv ≠ 0) &&
     let st (i : Nat) := s.blk.dist.cat.staged true i
     let v (i k : Nat) : Nat := ofLE (s.blk.staged q i k)
     let id : BitVec 32 := BitVec.ofNat 32 (v 0x3010 1)
     decide (s.blk.dRole = 3) &&
     decide (s.blk.stagedOk q 0x7130 = true) &&
     let ep : BitVec 32 := BitVec.ofNat 32 (v 0x7130 1)
     decide (newer ep s.blk.dist.boot.ep = false)) = true ∧
    (∃ (q : CatReq) (s : State), q.unit = .dist ∧ s.blk.distServes = true ∧ q.secure = true ∧ q.priv ≠ 0 ∧
      s.blk.dRole = 1 ∧
      s.blk.stagedOk q 0x7132 = true ∧ s.blk.portOut (ofLE (s.blk.staged q 0x7132 1)) = true ∧
      ∀ i, i < 512 → leAt (s.blk.staged q 0x7132 2) (8 * i + 4) 4 % 2 ^ 20 = 0) ∧
    (∃ (q : CatReq) (s : State), q.unit = .dist ∧ s.blk.distServes = true ∧ q.secure = true ∧ q.priv ≠ 0 ∧
      s.blk.stagedOk q 0x7133 = true ∧ ∀ i, i < 1024 → leAt (s.blk.staged q 0x7133 1) (4 * i) 4 = 0) ∧
    (let q : CatReq := ⟨.dist, .tree, true, 3, 9⟩
     let s : State := stD 1 fun d => { d with objs := { bars := [(0, { kind := 2 })] }, cat := { d.cat with stageS := [(0x713402, 1 :: toLE 4 0x100007)] } }
     decide (q.unit = .dist) &&
     decide (s.blk.distServes = true) &&
     decide (q.secure = true) &&
     decide (q.priv ≠ 0) &&
     let st (i : Nat) := s.blk.dist.cat.staged true i
     let v (i k : Nat) : Nat := ofLE (s.blk.staged q i k)
     let id : BitVec 32 := BitVec.ofNat 32 (v 0x3010 1)
     decide (s.blk.stagedOk q 0x7134 = true) &&
     let x := s.blk.hbar (v 0x7134 1)
     decide (x.kind = 2) &&
     decide (x.c0 = 0) &&
     decide (x.c1 = 0) &&
     decide (x.takes = [])) = true ∧
    (let q : CatReq := ⟨.dist, .tree, true, 3, 9⟩
     let s : State := stD 1 id
     decide (q.unit = .dist) &&
     decide (s.blk.distServes = true) &&
     decide (q.secure = true) &&
     decide (q.priv ≠ 0) &&
     let st (i : Nat) := s.blk.dist.cat.staged true i
     let v (i k : Nat) : Nat := ofLE (s.blk.staged q i k)
     let id : BitVec 32 := BitVec.ofNat 32 (v 0x3010 1)
     true) = true ∧
    (let q : CatReq := ⟨.dist, .tree, true, 3, 9⟩
     let s : State := stD 1 id
     decide (q.unit = .dist) &&
     decide (s.blk.distServes = true) &&
     decide (q.secure = true) &&
     decide (q.priv ≠ 0) &&
     let st (i : Nat) := s.blk.dist.cat.staged true i
     let v (i k : Nat) : Nat := ofLE (s.blk.staged q i k)
     let id : BitVec 32 := BitVec.ofNat 32 (v 0x3010 1)
     true) = true ∧
    (let q : CatReq := ⟨.dist, .tree, true, 3, 9⟩
     let s : State := stD 1 id
     decide (q.unit = .dist) &&
     decide (s.blk.distServes = true) &&
     decide (q.secure = true) &&
     decide (q.priv ≠ 0) &&
     let st (i : Nat) := s.blk.dist.cat.staged true i
     let v (i k : Nat) : Nat := ofLE (s.blk.staged q i k)
     let id : BitVec 32 := BitVec.ofNat 32 (v 0x3010 1)
     let n := 5
     decide (n < 312)) = true ∧
    (let q : CatReq := ⟨.dist, .tree, true, 3, 9⟩
     let s : State := stD 3 fun d => { d with time := {}, root := { role := 2 } }
     decide (q.unit = .dist) &&
     decide (s.blk.distServes = true) &&
     decide (q.secure = true) &&
     decide (q.priv ≠ 0) &&
     let st (i : Nat) := s.blk.dist.cat.staged true i
     let v (i k : Nat) : Nat := ofLE (s.blk.staged q i k)
     let id : BitVec 32 := BitVec.ofNat 32 (v 0x3010 1)
     let t : Tick := 0
     decide (s.blk.dRole = 3) &&
     decide (s.blk.dist.root.role = 2) &&
     decide (s.blk.dist.time.timeValid = false) &&
     decide ((List.range 6).any s.blk.candEligible = false) &&
     decide (ht96ToTc64 s.blk.dist.time.epoch (htOf (s.blk.catVal .dist 0x2231 1)) = some t)) = true ∧
    (let q : CatReq := ⟨.tsu, .tree, true, 3, 9⟩
     let s : State := stI fun t => { t with boot := { t.boot with admitted := false }, cat := { t.cat with lstate := 2, vals := [(0x710201, [5, 0])] } }
     decide (q.unit = .tsu) &&
     decide (q.src ≠ .local) &&
     decide (s.blk.live = true) &&
     decide (q.secure = true) &&
     decide (q.priv ≠ 0) &&
     let ldi : BitVec 16 := BitVec.ofNat 16 (ofLE (s.blk.staged q 0x7102 1))
     decide (s.blk.stagedOk q 0x7102 = true) &&
     decide (s.blk.topoPass = true) &&
     decide (s.blk.tsu.boot.hostReady = true) &&
     decide (s.blk.timeOk = true) &&
     decide (s.blk.tsu.cat.defaulted = false) &&
     decide (s.blk.tsu.boot.admitted = false) &&
     decide (s.blk.tsu.boot.fenced = false) &&
     decide (ldi ≠ 0xFFFF)) = true ∧
    (∃ (q : CatReq) (s : State), q.unit = .tsu ∧ q.src ≠ .local ∧ s.blk.live = true ∧ q.secure = true ∧ q.priv ≠ 0) ∧
    (∃ (q : CatReq) (s : State) (pda : BitVec 16), q.unit = .tsu ∧ q.src ≠ .local ∧ s.blk.live = true ∧
      q.secure = true ∧ q.priv ≠ 0) :=
  ⟨by decide +kernel,
   by decide +kernel,
   by decide +kernel,
   by decide +kernel,
   by decide +kernel,
   by decide +kernel,
   by decide +kernel,
   by decide +kernel,
   by decide +kernel,
   by decide +kernel,
   by decide +kernel,
   by decide +kernel,
   by decide +kernel,
   ⟨⟨.dist, .tree, true, 3, 9⟩,
     stD 1 fun d => { d with cat := { d.cat with stageS := [(0x713202, [0])] }, boot := { d.boot with fencedPorts := [(0, some 1)] } },
     rfl, by decide +kernel, rfl, by decide, rfl, by decide +kernel, by decide +kernel,
     fun i _ => congrArg (· % 2 ^ 20) (leAt_zero (8 * i + 4) 4)⟩,
   ⟨⟨.dist, .tree, true, 3, 9⟩, stD 1 fun d => { d with cat := { d.cat with stageS := [(0x713301, [0])] } }, rfl, by decide +kernel, rfl,
     by decide, by decide +kernel, fun i _ => leAt_zero (4 * i) 4⟩,
   by decide +kernel,
   by decide +kernel,
   by decide +kernel,
   by decide +kernel,
   by decide +kernel,
   by decide +kernel,
   ⟨⟨.tsu, .tree, true, 3, 9⟩, stI id, by decide +kernel⟩,
   ⟨⟨.tsu, .tree, true, 3, 9⟩, stI id, 7, by decide +kernel⟩⟩

/-- A READ of link.time_share for this distributor, and one for the die at port 5 of T1 0. -/
def msg0 : Bytes := [1, 1, 0, 0, 0, 9, 0, 0, 0x23, 1, 0, 0, 0, 0x10, 0, 0]
def msg5 : Bytes := [1, 1, 0, 0, 0, 9, 0, 0, 0x23, 1, 0, 0, 0, 0, 0, 5]
/-- A distributor with a key, and an authenticated message for it. -/
def keyD : State := stD 1 fun d => { d with cat := { d.cat with vals := [(0x103001, List.replicate 32 5), (0x711001, [1])] } }
def msgA : Bytes := keyD.blk.sign msg0 (toBE 8 7)

theorem test_wit_CatalogueNetwork :
    (let m : Bytes := []
     let s : State := stD 1 id
     decide (s.blk.distServes = true) &&
     let c := 0x13
     decide (msgBad m = some c)) = true ∧
    (let src : UdpSource := ⟨1, 2⟩
     let m : Bytes := msg0
     let s : State := stD 1 id
     decide (s.blk.distServes = true) &&
     decide (msgBad m = none) &&
     decide (msgAuth m = false) &&
     decide (msgDst m = 0x100000)) = true ∧
    (∃ (src : UdpSource) (m : Bytes) (s : State), s.blk.distServes = true ∧ msgBad m = none ∧ msgAuth m = true ∧
      allZero s.blk.macKey = true) ∧
    (∃ (src : UdpSource) (m : Bytes) (s : State), s.blk.distServes = true ∧ msgBad m = none ∧ msgAuth m = true ∧
      allZero s.blk.macKey = false ∧ s.blk.macOf (m.take (24 + msgLen m)) = m.drop (24 + msgLen m) ∧
      ofBE (msgSeq m) ≤ s.blk.dist.cat.macLast.toNat) ∧
    (let src : UdpSource := ⟨1, 2⟩
     let m : Bytes := msgA
     let s : State := keyD
     decide (s.blk.distServes = true) &&
     decide (msgBad m = none) &&
     decide (msgAuth m = true) &&
     decide (allZero s.blk.macKey = false) &&
     decide (s.blk.macOf (m.take (24 + msgLen m)) = m.drop (24 + msgLen m)) &&
     decide (s.blk.seqOk (ofBE (msgSeq m)) = true) &&
     decide (msgDst m = 0x100000) &&
     let b := s.blk.mCat .dist fun c => { c with macLast := BitVec.ofNat 64 (ofBE (msgSeq m)) }
     true) = true ∧
    (∃ (src : UdpSource) (m : Bytes) (s : State), s.blk.distServes = true ∧ msgBad m = none ∧ msgAuth m = false ∧
      msgDst m ≠ 0x100000 ∧ s.blk.ctrlWay (msgDst m) ≠ .here ∧ 256 ≤ s.blk.dist.cat.fwds.length) ∧
    (∃ (tag : BitVec 24) (f : Fwd) (s : State), smGet none s.blk.dist.cat.fwds tag.toNat = some f ∧
      (s.blk.catNat .dist 0x1031 0 : Int) ≤ Tick.diff s.blk.dist.time.tc64 f.at_) ∧
    (∃ (tag : BitVec 24) (f : Fwd) (s : State), smGet none s.blk.dist.cat.fwds tag.toNat = some f ∧
      Tick.diff s.blk.dist.time.tc64 f.at_ < (s.blk.catNat .dist 0x1031 0 : Int)) ∧
    (let p : Plane := .A
     let h : Hdr := hdr 5
     let csf : BitVec 48 := 0x100000000007
     let m : Bytes := msg5
     let s : State := stI fun t => { t with laneA := { t.laneA with reg := { t.laneA.reg with peerPos := 5 } } }
     decide (s.blk.rxOk (.tsu p) h 5 (frameFeature (.ctrl csf m)) false = true) &&
     let b := s.blk.rxBook (.tsu p) h 5
     decide (msgBack m = false) &&
     decide (b.ctrlMine p (msgDst m) = true) &&
     decide (msgBad m = none)) = true ∧
    (let p : Plane := .A
     let h : Hdr := hdr 5
     let csf : BitVec 48 := 0x100000000007
     let m : Bytes := msg0
     let s : State := stI id
     decide (s.blk.rxOk (.tsu p) h 5 (frameFeature (.ctrl csf m)) false = true) &&
     let b := s.blk.rxBook (.tsu p) h 5
     decide (b.ctrlMine p (msgDst m) = false)) = true ∧
    (let n : Nat := 5
     let h : Hdr := hdr 5
     let csf : BitVec 48 := 0x4000000007
     let m : Bytes := msg5
     let s : State := stD 1 id
     decide (n < 312) &&
     decide (s.blk.rxOk (.dist n) h 5 (frameFeature (.ctrl csf m)) false = true) &&
     let b := s.blk.rxBook (.dist n) h 5
     decide (b.distServes = true) &&
     decide (b.dRole ≠ 0) &&
     decide (msgBack m = false) &&
     decide (b.ctrlWay (msgDst m) ≠ .here) &&
     let b1 := (((stD 1 id).blk.rxBook (.dist 5) (hdr 5) 5).ctrlSend 5 true 0x4000000007 msg5).2
     decide (b.ctrlSend (msgDst m) h.w csf m = (none, b1))) = true ∧
    (let n : Nat := 5
     let h : Hdr := hdr 5
     let csf : BitVec 48 := 0x4000000007
     let m : Bytes := msg5.take 15 ++ [9]
     let s : State := stD 1 id
     decide (n < 312) &&
     decide (s.blk.rxOk (.dist n) h 5 (frameFeature (.ctrl csf m)) false = true) &&
     let b := s.blk.rxBook (.dist n) h 5
     decide (b.distServes = true) &&
     decide (b.dRole ≠ 0) &&
     decide (msgBack m = false) &&
     decide (b.ctrlWay (msgDst m) ≠ .here) &&
     let c := 0x0E
     decide (b.ctrlSend (msgDst m) h.w csf m = (some c, b))) = true ∧
    (let n : Nat := 2
     let x : Sub := { who := .world true, entry := ⟨0x2302, 0⟩, minInt := 0, lifetime := 1, since := 0, sampled := 0, last := some [0], nseq := 4 }
     let r : CatEnt := ⟨0x2302, 0, 0, 2, 1, .ro, 0, true, .both⟩
     let s : State := stT fun t => { t with cat := { t.cat with subs := [(2, some { who := .world true, entry := ⟨0x2302, 0⟩, minInt := 0, lifetime := 1, since := 0, sampled := 0, last := some [0], nseq := 4 })] } }
     decide (smGet none s.blk.tsu.cat.subs n = some x) &&
     decide (s.blk.live = true) &&
     decide ((x.minInt.toNat * 2 ^ 20 : Int) ≤ Tick.diff s.blk.tsu.time.tc64 x.sampled) &&
     decide (s.blk.catFind .tsu x.entry.index.toNat x.entry.sub.toNat = .ent r) &&
     let v := slice (s.blk.catNow .tsu x.entry.index.toNat x.entry.sub.toNat r) 0 r.size
     decide (x.last = some v)) = true ∧
    (let n : Nat := 2
     let x : Sub := { who := .world true, entry := ⟨0x2302, 0⟩, minInt := 0, lifetime := 1, since := 0, sampled := 0, last := none, nseq := 4 }
     let r : CatEnt := ⟨0x2302, 0, 0, 2, 1, .ro, 0, true, .both⟩
     let s : State := stT fun t => { t with cat := { t.cat with subs := [(2, some { who := .world true, entry := ⟨0x2302, 0⟩, minInt := 0, lifetime := 1, since := 0, sampled := 0, last := none, nseq := 4 })] } }
     decide (smGet none s.blk.tsu.cat.subs n = some x) &&
     decide (s.blk.live = true) &&
     decide ((x.minInt.toNat * 2 ^ 20 : Int) ≤ Tick.diff s.blk.tsu.time.tc64 x.sampled) &&
     decide (s.blk.catFind .tsu x.entry.index.toNat x.entry.sub.toNat = .ent r) &&
     let v := slice (s.blk.catNow .tsu x.entry.index.toNat x.entry.sub.toNat r) 0 r.size
     let w := true
     decide (x.last ≠ some v) &&
     decide (x.who = .world w)) = true ∧
    (∃ (u : UnitRef) (n : Nat) (x : Sub) (s : State), smGet none (s.blk.catOf u).subs n = some x ∧
      s.blk.catRuns u = true ∧ (x.lifetime.toNat * 1250000000 : Int) ≤ Tick.diff (s.blk.tcOf u) x.since) ∧
    (∃ (u : UnitRef) (n : Nat) (x : Sub) (s : State), smGet none (s.blk.catOf u).subs n = some x ∧
      s.blk.catRuns u = true ∧ Tick.diff (s.blk.tcOf u) x.since < (x.lifetime.toNat * 1250000000 : Int)) ∧
    (∃ (d : Bytes) (s : State), s.blk.dist.cat.saving = some d ∧ s.blk.dist.cat.inUse ≤ 1) :=
  ⟨by decide +kernel,
   by decide +kernel,
   ⟨⟨1, 2⟩, msg0.take 2 ++ [2] ++ msg0.drop 3 ++ List.replicate 24 0, stD 1 id, by decide +kernel⟩,
   ⟨⟨1, 2⟩, msgA, { keyD with blk := { keyD.blk with dist := { keyD.blk.dist with cat := { keyD.blk.dist.cat with macLast := 8 } } } }, by decide +kernel⟩,
   by decide +kernel,
   ⟨⟨1, 2⟩, msg5, stD 1 fun d => { d with cat := { d.cat with fwds := (List.range 256).map fun i => (i, some ⟨⟨1, 2⟩, msg5, none, none, 0⟩) } }, by decide +kernel⟩,
   ⟨7, ⟨⟨1, 2⟩, msg5, none, none, 0⟩, stD 1 fun d => { d with time := { tc64 := 3000000 }, cat := { d.cat with fwds := [(7, some ⟨⟨1, 2⟩, msg5, none, none, 0⟩)] } }, by decide +kernel⟩,
   ⟨7, ⟨⟨1, 2⟩, msg5, none, none, 0⟩, stD 1 fun d => { d with cat := { d.cat with fwds := [(7, some ⟨⟨1, 2⟩, msg5, none, none, 0⟩)] } }, by decide +kernel⟩,
   by decide +kernel,
   by decide +kernel,
   by decide +kernel,
   by decide +kernel,
   by decide +kernel,
   by decide +kernel,
   ⟨.tsu, 2, { who := .world true, entry := ⟨0x2302, 0⟩, minInt := 0, lifetime := 1, since := 0, sampled := 0, last := none, nseq := 4 }, stT fun t => { t with time := { tc64 := 1250000000 }, cat := { t.cat with subs := [(2, some { who := .world true, entry := ⟨0x2302, 0⟩, minInt := 0, lifetime := 1, since := 0, sampled := 0, last := none, nseq := 4 })] } }, by decide +kernel⟩,
   ⟨.tsu, 2, { who := .world true, entry := ⟨0x2302, 0⟩, minInt := 0, lifetime := 1, since := 0, sampled := 0, last := none, nseq := 4 }, stT fun t => { t with cat := { t.cat with subs := [(2, some { who := .world true, entry := ⟨0x2302, 0⟩, minInt := 0, lifetime := 1, since := 0, sampled := 0, last := none, nseq := 4 })] } }, by decide +kernel⟩,
   ⟨[1, 2], stD 1 fun d => { d with cat := { d.cat with saving := some [1, 2] } }, by decide +kernel⟩⟩

theorem test_wit_Cloakroom :
    (∃ (s : State), s.blk.live = true ∧ s.blk.tsu.boot.inCloak = true) ∧
    (∃ (s : State), s.blk.live = true ∧ s.blk.tsu.boot.inCloak = false ∧ (∀ e ∈ s.blk.tsu.dm.chs, e.2.st = .off) ∧
      (∀ e ∈ s.blk.tsu.str.chs, e.2.st = .off) ∧ (∀ e ∈ s.blk.tsu.ctxs, e.2.st = .off)) ∧
    (∃ (c : Nat) (s : State), s.blk.live = true ∧ s.blk.tsu.boot.inCloak = false ∧
      (s.blk.ctxsWhere fun x => x.st != .off) = [c] ∧ (s.blk.ctx c).st ≠ .stopping) ∧
    (∃ (n : BitVec 3) (s : State), s.blk.tsu.boot.inCloak = true ∧ (s.blk.dmCh n.toNat).st = .stopping ∧
      Tick.diff s.blk.tsu.time.tc64 s.blk.tsu.boot.cloakAt < 1250000) ∧
    (∃ (n : BitVec 3) (s : State), s.blk.tsu.boot.inCloak = true ∧ (s.blk.dmCh n.toNat).st = .stopping ∧
      1250000 ≤ Tick.diff s.blk.tsu.time.tc64 s.blk.tsu.boot.cloakAt) ∧
    (∃ (s : State), s.blk.tsu.boot.inCloak = false) ∧
    (∃ (s : State), s.blk.tsu.boot.inCloak = true ∧ s.blk.tsu.boot.crAck = false) ∧
    (∃ (s : State), s.blk.tsu.boot.inCloak = true ∧ s.blk.tsu.boot.crAck = true ∧
      (∀ e ∈ s.blk.tsu.dm.chs, e.2.enPend = false) ∧ (∀ e ∈ s.blk.tsu.str.chs, e.2.enPend = false) ∧
      (s.blk.ctxsWhere fun x => x.enPend) = []) ∧
    (∃ (s : State), s.blk.tsu.boot.inCloak = true ∧ s.blk.tsu.boot.crAck = false ∧ s.blk.cloakDrained = true ∧
      s.blk.tsu.boot.exitPend = false) ∧
    (∃ (s : State), s.blk.tsu.boot.inCloak = true ∧ s.blk.tsu.boot.crAck = false ∧ s.blk.cloakDrained = false) :=
  ⟨⟨stI fun t => { t with boot := { t.boot with inCloak := true, exitPend := true }  }, by decide +kernel⟩,
   ⟨stI fun t => { t with boot := { t.boot with ldi := 5 }  }, by decide +kernel⟩,
   ⟨3, stI fun t => { t with boot := { t.boot with ldi := 5 } , ctxs := [(3, { st := .run })] }, by decide +kernel⟩,
   ⟨2, stI fun t => { t with boot := { t.boot with inCloak := true, cloakAt := 900000 } , dm := { chs := [(2, { st := .stopping, wrs := [.stat] })] } }, by decide +kernel⟩,
   ⟨2, stI fun t => { t with boot := { t.boot with inCloak := true, cloakAt := 900000 } , time := { tc64 := 2150000 }, dm := { chs := [(2, { st := .stopping, wrs := [.stat] })] } }, by decide +kernel⟩,
   ⟨stI fun t => { t with boot := { t.boot with ldi := 5 }  }, by decide +kernel⟩,
   ⟨stI fun t => { t with boot := { t.boot with inCloak := true }  }, by decide +kernel⟩,
   ⟨stI fun t => { t with boot := { t.boot with inCloak := true, crAck := true }  }, by decide +kernel⟩,
   ⟨stI fun t => { t with boot := { t.boot with inCloak := true }  }, by decide +kernel⟩,
   ⟨stI fun t => { t with boot := { t.boot with inCloak := true } , ctxs := [(3, { st := .stopping })] }, by decide +kernel⟩⟩

theorem test_wit_CollectiveSlots :
    (let a : Access := sp
     let k : BitVec 4 := 2
     let s : State := stI fun t => { t with coll := { slots := [(2, { d0 := 0x1000001000000000, d1 := 0x905, st := .gather }), (3, { st := .gather })] }, str := { clkOk := true, chs := [(5, { st := .on }), (9, { st := .on, dir := true })] }  }
     decide (s.blk.check (portReq a) (0x8030 + 0x80 * k.toNat) (worldOk (portReq a) (s.blk.collWorld k.toNat)) = .ok) &&
     let n := k.toNat
     let x := s.blk.collSlot n
     decide (x.st.busy = true)) = true ∧
    (let a : Access := sp
     let k : BitVec 4 := 2
     let s : State := stI fun t => { t with coll := { slots := [(2, { d0 := 0 }), (3, { st := .gather })] }, str := { clkOk := true, chs := [(5, { st := .on }), (9, { st := .on, dir := true })] }  }
     decide (s.blk.check (portReq a) (0x8030 + 0x80 * k.toNat) (worldOk (portReq a) (s.blk.collWorld k.toNat)) = .ok) &&
     let n := k.toNat
     let x := s.blk.collSlot n
     decide (x.st.busy = false) &&
     decide (s.blk.collBad n = true)) = true ∧
    (let a : Access := sp
     let k : BitVec 4 := 2
     let s : State := stT fun t => { t with coll := { slots := [(2, { d0 := 0x1000001000001000, d1 := 0x905 }), (3, { st := .gather })] }, str := { clkOk := true, chs := [(5, { st := .on }), (9, { st := .on, dir := true })] } , time := { t.time with timeValid := true } }
     decide (s.blk.check (portReq a) (0x8030 + 0x80 * k.toNat) (worldOk (portReq a) (s.blk.collWorld k.toNat)) = .ok) &&
     let n := k.toNat
     let x := s.blk.collSlot n
     decide (x.st.busy = false) &&
     decide (s.blk.collBad n = false) &&
     decide (x.desc.scope ≠ 0) &&
     decide (s.blk.usable (.tsu .A) 3 (opFeature x.desc.op) = false) &&
     decide (s.blk.usable (.tsu .B) 3 (opFeature x.desc.op) = false)) = true ∧
    (let a : Access := sp
     let k : BitVec 4 := 2
     let s : State := stI fun t => { t with coll := { slots := [(2, { d0 := 0x1000001000000000, d1 := 0x905 }), (3, { st := .gather })] }, str := { clkOk := true, chs := [(5, { st := .on }), (9, { st := .on, dir := true })] }  }
     decide (s.blk.check (portReq a) (0x8030 + 0x80 * k.toNat) (worldOk (portReq a) (s.blk.collWorld k.toNat)) = .ok) &&
     let n := k.toNat
     let x := s.blk.collSlot n
     decide (x.st.busy = false) &&
     decide (s.blk.collBad n = false) &&
     decide (x.desc.scope = 0) &&
     decide ((∀ i, i < x.desc.nsrc → (s.blk.strCh (x.desc.ich + i)).inq = []))) = true ∧
    (let a : Access := sp
     let k : BitVec 4 := 2
     let s : State := stI fun t => { t with coll := { slots := [(2, { d0 := 0x1000001000000000, d1 := 0x905, st := .output }), (3, { st := .gather })] }, str := { clkOk := true, chs := [(5, { st := .on }), (9, { st := .on, dir := true })] }  }
     decide (s.blk.check (portReq a) (0x8030 + 0x80 * k.toNat) (worldOk (portReq a) (s.blk.collWorld k.toNat)) = .ok) &&
     let n := k.toNat
     let x := s.blk.collSlot n
     decide (x.st.awaits = false)) = true ∧
    (let a : Access := sp
     let k : BitVec 4 := 2
     let s : State := stI fun t => { t with coll := { slots := [(2, { d0 := 0x1000001000000000, d1 := 0x905, st := .gather, srcs := [.wait] }), (3, { st := .gather })] }, str := { clkOk := true, chs := [(5, { st := .on, inq := [{ data := [1], beats := 3, held := 3 }] }), (9, { st := .on, dir := true })] }  }
     decide (s.blk.check (portReq a) (0x8030 + 0x80 * k.toNat) (worldOk (portReq a) (s.blk.collWorld k.toNat)) = .ok) &&
     let n := k.toNat
     let x := s.blk.collSlot n
     decide (x.st.awaits = true) &&
     decide (x.desc.scope = 0 ∨ x.st ≠ .gather)) = true ∧
    (∃ (a : Access) (s : State), s.blk.check (portReq a) 0x8800 true = .ok) ∧
    (let k : BitVec 4 := 2
     let s : State := stI fun t => { t with coll := { slots := [(2, { d0 := 0x1000001000000000, d1 := 0x905 }), (3, { st := .gather })] }, str := { clkOk := true, chs := [(5, { st := .on }), (9, { st := .on, dir := true })] }  }
     let n := k.toNat
     let x := s.blk.collSlot n
     decide (x.st.awaits = false)) = true ∧
    (let k : BitVec 4 := 2
     let s : State := stI fun t => { t with coll := { slots := [(2, { d0 := 0x1000001000001000, d1 := 0x905, d3 := 900000, st := .sent }), (3, { st := .gather })] }, str := { clkOk := true, chs := [(5, { st := .on }), (9, { st := .on, dir := true })] }  }
     let n := k.toNat
     let x := s.blk.collSlot n
     decide (x.st.awaits = true) &&
     decide (x.desc.scope ≠ 0) &&
     decide (Tick.le (s.blk.graceTick x) s.blk.tsu.time.tc64 = true) &&
     decide (x.resA.last = none) &&
     decide (x.resB.last = none)) = true ∧
    (let k : BitVec 4 := 2
     let s : State := stI fun t => { t with coll := { slots := [(2, { d0 := 0x1000001000000000, d1 := 0x905 }), (3, { st := .gather })] }, str := { clkOk := true, chs := [(5, { st := .on }), (9, { st := .on, dir := true })] }  }
     let n := k.toNat
     let x := s.blk.collSlot n
     decide (x.st ≠ .output)) = true ∧
    (let k : BitVec 4 := 2
     let s : State := stI fun t => { t with coll := { slots := [(2, { d0 := 0x1000001000000000, d1 := 0x905, st := .output, fin := { code := 1, nmiss := 4 } }), (3, { st := .gather })] }, str := { clkOk := true, chs := [(5, { st := .on }), (9, { st := .on, dir := true })] }  }
     let n := k.toNat
     let x := s.blk.collSlot n
     decide (x.st = .output) &&
     decide (s.blk.flushed (.coll k) = true) &&
     decide (s.blk.tsu.held.contains (.collSig n) = false) &&
     decide (x.desc.sigKind = 0)) = true :=
  ⟨by decide +kernel,
   by decide +kernel,
   by decide +kernel,
   by decide +kernel,
   by decide +kernel,
   by decide +kernel,
   ⟨sp, stI fun t => { t with coll := { ops := 4, ccrcErr := 3 } }, by decide +kernel⟩,
   by decide +kernel,
   by decide +kernel,
   by decide +kernel,
   by decide +kernel⟩

theorem test_wit_DebugAndGauntlet :
    (∃ (a : Access) (c : Ctx6) (v : BitVec 64) (on : Bool) (s : State), (portReq a).monitor = true ∧
      s.blk.check (portReq a) 0xE140 true = .ok) ∧
    (∃ (a : Access) (c : Ctx6) (v : BitVec 64) (on : Bool) (s : State), (portReq a).monitor = true ∧
      s.blk.check (portReq a) 0xE148 true = .ok) ∧
    (∃ (a : Access) (c : Ctx6) (v : BitVec 64) (on : Bool) (s : State), (portReq a).monitor = true ∧
      s.blk.check (portReq a) 0xE150 true = .ok) ∧
    (let a : Access := sp
     let s : State := stT fun t => { t with dbg := { frzSel := 3 }, ctxs := [(3, { st := .run, run := { frzArm := true } })] }
     decide ((portReq a).monitor = true) &&
     decide (s.blk.check (portReq a) 0xE150 true = .ok) &&
     let k := s.blk.tsu.dbg.frzSel.toNat
     true) = true ∧
    (∃ (a : Access) (w : FrzWrite) (s : State), (portReq a).monitor = false ∧
      s.blk.check (portReq a) 0xE150 true = .ok ∧ s.blk.check (portReq a) 0xE140 true = .ok ∧
      s.blk.check (portReq a) 0xE148 true = .ok) ∧
    (∃ (a : Access) (l : BitVec 2) (s : State), s.blk.check (portReq a) 0xE100 true = .ok ∧ l = 1 ∧
      s.blk.tsu.dbg.level = 0 ∧ (portReq a).monitor = true) ∧
    (∃ (a : Access) (l : BitVec 2) (s : State), s.blk.check (portReq a) 0xE100 true = .ok ∧
      s.blk.tsu.dbg.level.toNat < l.toNat ∧ ((l ≠ 1 ∨ (portReq a).monitor = false))) ∧
    (∃ (a : Access) (l : BitVec 2) (s : State), s.blk.check (portReq a) 0xE100 true = .ok ∧
      l.toNat < s.blk.tsu.dbg.level.toNat ∧ (s.blk.ctxsWhere fun x => x.run.frzDbg) = []) ∧
    (∃ (a : Access) (l : BitVec 2) (s : State), s.blk.check (portReq a) 0xE100 true = .ok ∧
      s.blk.tsu.dbg.lockout = true) ∧
    (∃ (a : Access) (l : BitVec 2) (s : State), s.blk.check (portReq a) 0xE100 true = .ok ∧
      s.blk.tsu.dbg.lockout = false ∧ l ≠ 3 ∧ ((l = 2 → allZero s.blk.tsu.dbg.dkey = false ∧
      s.blk.tsu.dbg.fullDis = false)) ∧ toLE 16 s.blk.tsu.dbg.resp.toNat = s.blk.dbgMac l ∧
      (s.blk.ctxsWhere fun x => x.run.frzDbg) = []) ∧
    (∃ (a : Access) (l : BitVec 2) (s : State), s.blk.check (portReq a) 0xE100 true = .ok ∧
      s.blk.tsu.dbg.lockout = false ∧ toLE 16 s.blk.tsu.dbg.resp.toNat ≠ s.blk.dbgMac l) ∧
    (∃ (b : Bool) (s : State), s.blk.tsu.boot.tsuRst = false ∧ s.blk.tsu.dbg.level = 0) ∧
    (let a : Access := sp
     let s : State := stT id
     decide (s.blk.check (portReq a) 0xD000 true = .ok)) = true ∧
    (let a : Access := sp
     let s : State := stT id
     decide (s.blk.check (portReq a) 0xD008 true = .ok) &&
     decide ((∀ x ∈ s.blk.tsu.ws, x.2.op = none)) &&
     decide (s.blk.tsu.held = [])) = true ∧
    (let a : Access := sp
     let s : State := stT id
     decide (s.blk.check (portReq a) 0xD018 true = .ok)) = true ∧
    (let a : Access := sp
     let s : State := stT id
     decide (s.blk.check (portReq a) 0xD028 true = .ok)) = true ∧
    (let a : Access := ⟨true, 1⟩
     let d : BitVec 64 := 0x0F
     let s : State := stT fun t => { t with gnt := { blk := 0 } }
     decide (s.blk.check (portReq a) 0x5018 true = .ok) &&
     decide ((portReq a).monitor = false) &&
     decide (((List.range 64).any fun c => (s.blk.ctx c).st == .off && !(s.blk.ctx c).enPend && (s.blk.ctx c).world != d.getLsbD c) = true)) = true ∧
    (let a : Access := sp
     let s : State := stT id
     decide (s.blk.check (portReq a) 0x5018 true = .ok) &&
     decide ((portReq a).monitor = true)) = true ∧
    (let a : Access := sp
     let s : State := stT fun t => { t with str := { chs := [(5, { world := false })] } }
     let ch : BitVec 6 := 5
     decide (s.blk.check (portReq a) (0xB100 + 0x20 * ch.toNat) (worldOk (portReq a) (s.blk.strCh ch.toNat).world) = .ok) &&
     decide ((portReq a).monitor = true) &&
     decide ((s.blk.strCh ch.toNat).st = .off) &&
     decide ((s.blk.strCh ch.toNat).enPend = false) &&
     decide ((s.blk.strCh ch.toNat).world = false)) = true :=
  ⟨⟨sp, 3, 77, true, stT id, by decide +kernel⟩,
   ⟨sp, 3, 77, true, stT id, by decide +kernel⟩,
   ⟨sp, 3, 77, true, stT fun t => { t with dbg := { frzSel := 3 } }, by decide +kernel⟩,
   by decide +kernel,
   ⟨⟨true, 1⟩, .arm true, stT fun t => { t with gnt := { blk := 0 } }, by decide +kernel⟩,
   ⟨sp, 1, stT id, by decide +kernel⟩,
   ⟨sp, 2, stT id, by decide +kernel⟩,
   ⟨sp, 1, stT fun t => { t with dbg := { level := 2 } }, by decide +kernel⟩,
   ⟨sp, 1, stT fun t => { t with dbg := { lockout := true } }, by decide +kernel⟩,
   ⟨sp, 1, stT fun t => { t with dbg := { level := 2, dkey := List.replicate 32 3, chal := 9, resp := BitVec.ofNat 128 (ofLE (hmacSha256 (List.replicate 32 3) (toLE 8 9 ++ [1] ++ toLE 8 0))) } }, by decide +kernel⟩,
   ⟨sp, 1, stT fun t => { t with dbg := { level := 0, dkey := List.replicate 32 3, chal := 9, resp := 5 } }, by decide +kernel⟩,
   ⟨true, stT id, by decide +kernel⟩,
   by decide +kernel,
   by decide +kernel,
   by decide +kernel,
   by decide +kernel,
   by decide +kernel,
   by decide +kernel,
   by decide +kernel⟩

/-- The STEP_GO that answers context 3's arrival at step 6. -/
def go6 : StepGo :=
  { step := 6, attempt := 0, outcome := 0, swap := false, swapDefer := false, fenceSeen := false, brim := 0, lkey := 0, stamp := 999990
    e := 1000100, nmiss := 0 }

theorem test_wit_HallBarriers :
    (let n : Nat := 5
     let h : Hdr := hdr 2
     let a : BarAddr := ⟨9, false, 1, 7⟩
     let p : ArriveMsg := ⟨3, false, none⟩
     let s : State := stD 1 id
     decide (n < 288) &&
     decide (s.blk.rxOk (.dist n) h 2 1 false = true) &&
     let b := s.blk.rxBook (.dist n) h 2
     let i := a.hbid.toNat
     let x := s.blk.hbar i
     decide (s.blk.barOk a h.w 1 = false)) = true ∧
    (let n : Nat := 5
     let h : Hdr := hdr 2
     let a : BarAddr := ⟨9, false, 1, 7⟩
     let p : ArriveMsg := ⟨3, false, none⟩
     let s : State := stD 1 fun d => { d with objs := { bars := [(9, { kind := 1, expect := 10, group := 7, sent := true })], groups := [(7, 0x21)] } }
     decide (n < 288) &&
     decide (s.blk.rxOk (.dist n) h 2 1 false = true) &&
     let b := s.blk.rxBook (.dist n) h 2
     let i := a.hbid.toNat
     let x := s.blk.hbar i
     decide (s.blk.barOk a h.w 1 = true) &&
     decide (s.blk.isRemoved x n = false) &&
     decide (a.sense = x.sense) &&
     decide (x.sent = true)) = true ∧
    (let n : Nat := 5
     let h : Hdr := hdr 2
     let a : BarAddr := ⟨9, false, 1, 7⟩
     let p : ArriveMsg := ⟨3, false, none⟩
     let s : State := stD 1 fun d => { d with objs := { bars := [(9, { kind := 1, expect := 10, group := 7 })], groups := [(7, 0x21)] } }
     decide (n < 288) &&
     decide (s.blk.rxOk (.dist n) h 2 1 false = true) &&
     let b := s.blk.rxBook (.dist n) h 2
     let i := a.hbid.toNat
     let x := s.blk.hbar i
     let m := x.count a.sense + max 1 p.count.toNat
     decide (s.blk.barOk a h.w 1 = true) &&
     decide (s.blk.isRemoved x n = false) &&
     decide (a.sense = x.sense) &&
     decide (x.sent = false) &&
     decide (m < x.need)) = true ∧
    (let n : Nat := 5
     let h : Hdr := hdr 2
     let a : BarAddr := ⟨9, false, 2, 7⟩
     let p : ArriveMsg := ⟨3, false, none⟩
     let s : State := stD 1 fun d => { d with objs := { bars := [(9, { kind := 1, scope := 2, expect := 3, group := 7 })], groups := [(7, 0x21)] } }
     decide (n < 288) &&
     decide (s.blk.rxOk (.dist n) h 2 1 false = true) &&
     let b := s.blk.rxBook (.dist n) h 2
     let i := a.hbid.toNat
     let x := s.blk.hbar i
     let m := x.count a.sense + max 1 p.count.toNat
     decide (s.blk.barOk a h.w 1 = true) &&
     decide (s.blk.isRemoved x n = false) &&
     decide (a.sense = x.sense) &&
     decide (x.sent = false) &&
     decide (m = x.need) &&
     decide (m ≤ 1048575) &&
     decide (s.blk.isHome x.scope = false)) = true ∧
    (let n : Nat := 5
     let h : Hdr := hdr 2
     let a : BarAddr := ⟨9, false, 1, 7⟩
     let p : ArriveMsg := ⟨3, false, none⟩
     let s : State := stD 1 fun d => { d with objs := { bars := [(9, { kind := 1, expect := 3, group := 7 })], groups := [(7, 0x21)] } }
     decide (n < 288) &&
     decide (s.blk.rxOk (.dist n) h 2 1 false = true) &&
     let b := s.blk.rxBook (.dist n) h 2
     let i := a.hbid.toNat
     let x := s.blk.hbar i
     let m := x.count a.sense + max 1 p.count.toNat
     decide (s.blk.barOk a h.w 1 = true) &&
     decide (s.blk.isRemoved x n = false) &&
     decide (a.sense = x.sense) &&
     decide (x.sent = false) &&
     decide (m = x.need) &&
     decide (m ≤ 1048575) &&
     decide (s.blk.isHome x.scope = true) &&
     decide (p.closing = none) &&
     decide (x.fields x.sense = none) &&
     decide (x.count (!x.sense) < x.need)) = true ∧
    (let n : Nat := 288
     let h : Hdr := hdr 2
     let a : BarAddr := ⟨9, false, 2, 7⟩
     let s : State := stD 1 fun d => { d with objs := { bars := [(9, { kind := 1, scope := 2, expect := 10, group := 7, c0 := 4 })], groups := [(7, 0x21)] } }
     decide (288 ≤ n) &&
     decide (n < 312) &&
     let i := a.hbid.toNat
     let x := s.blk.hbar i
     decide (s.blk.barOk a h.w 1 = true) &&
     decide (a.sense = x.sense) &&
     decide (x.count (!x.sense) < x.need) &&
     decide (s.blk.rxOk (.dist n) h 2 1 false = true)) = true ∧
    (let n : Nat := 288
     let h : Hdr := hdr 1
     let a : BarAddr := ⟨9, false, 2, 7⟩
     let s : State := stD 1 fun d => { d with objs := { bars := [(9, { kind := 1, scope := 2, expect := 10, group := 7, c0 := 4 })], groups := [(7, 0x21)] } }
     decide (288 ≤ n) &&
     decide (n < 312) &&
     let i := a.hbid.toNat
     let x := s.blk.hbar i
     decide (s.blk.barOk a h.w 1 = true) &&
     decide (a.sense = x.sense) &&
     decide (x.count (!x.sense) < x.need) &&
     decide (s.blk.rxOk (.dist n) h 1 0 false = true)) = true ∧
    (∃ (p : Plane) (h : Hdr) (a : BarAddr) (sat : Bool) (n : Nat) (s : State), s.blk.rxOk (.tsu p) h 2 1 false = true ∧ s.blk.slotsAt 1 a = [n] ∧ s.blk.closing n = [] ∧ (s.blk.slot n).sense ≠ a.sense) ∧
    (∃ (p : Plane) (h : Hdr) (a : BarAddr) (sat : Bool) (n : Nat) (s : State), s.blk.rxOk (.tsu p) h 2 1 false = true ∧ s.blk.slotsAt 1 a = [n] ∧ s.blk.closing n = [] ∧ (s.blk.slot n).sense = a.sense ∧ (s.blk.slot n).count (!a.sense) < (s.blk.slot n).need ∧ (∀ e ∈ s.blk.tsu.ws, e.2.op = none)) ∧
    (let p : Plane := .A
     let h : Hdr := hdr 1
     let a : BarAddr := ⟨9, false, 1, 7⟩
     let g : StepGo := go6
     let n : Nat := 4
     let c : Nat := 3
     let s : State := stI fun t => { t with bar := { slots := [(4, { kind := 1, scope := 1, expect := 2, hbid := 9, group := 7, sent := true, c0 := 2 })], xlat := [(3077, (true, 4))] }, ctxs := [(3, { st := .close, reg := { step := 6, closeVbid := 5, t0 := 100, period := 7 } }), (4, {st := .run})] }
     decide (s.blk.rxOk (.tsu p) h 1 0 false = true) &&
     let x := s.blk.ctx c
     decide (s.blk.slotsAt 1 a = [n]) &&
     decide (s.blk.ctxsAt a = [c]) &&
     decide (s.blk.closing n = [c]) &&
     decide ((s.blk.slot n).sense = a.sense) &&
     decide (x.copies a.sense g = false) &&
     decide (x.freezes g = false) &&
     decide (x.run.rplEn = false) &&
     decide (g.outcome = 0) &&
     decide (g.step = x.reg.step) &&
     decide (g.attempt = x.reg.attempt) &&
     decide (g.lkey = x.lkey) &&
     decide ((s.blk.slot n).count (!a.sense) < (s.blk.slot n).need) &&
     decide ((∀ e ∈ s.blk.tsu.ws, e.2.op = none))) = true ∧
    (let n : Nat := 5
     let h : Hdr := hdr 2
     let a : BarAddr := ⟨9, false, 2, 7⟩
     let s : State := stD 1 fun d => { d with objs := { bars := [(9, { kind := 2, scope := 2 })], groups := [(7, 0x21)] } }
     decide (n < 288) &&
     decide (s.blk.rxOk (.dist n) h 2 1 false = true) &&
     decide (s.blk.barOk a h.w 2 = true) &&
     let i := a.hbid.toNat
     decide (s.blk.isHome a.scope = false)) = true ∧
    (let n : Nat := 5
     let h : Hdr := hdr 2
     let a : BarAddr := ⟨9, false, 1, 7⟩
     let s : State := stD 1 fun d => { d with objs := { bars := [(9, { kind := 2, c0 := 3 })], groups := [(7, 0x21)] } }
     decide (n < 288) &&
     decide (s.blk.rxOk (.dist n) h 2 1 false = true) &&
     decide (s.blk.barOk a h.w 2 = true) &&
     let i := a.hbid.toNat
     let x := s.blk.hbar i
     decide (s.blk.isHome a.scope = true) &&
     decide (x.takes = [])) = true ∧
    (let n : Nat := 5
     let h : Hdr := hdr 2
     let a : BarAddr := ⟨9, false, 1, 7⟩
     let pt : TakeMsg := ⟨3, 5, 6, true⟩
     let s : State := stD 1 fun d => { d with objs := { bars := [(9, { kind := 2, c0 := 3 })], groups := [(7, 0x21)] } }
     decide (n < 288) &&
     decide (s.blk.rxOk (.dist n) h 2 1 false = true) &&
     decide (s.blk.barOk a h.w 2 = true) &&
     let i := a.hbid.toNat
     let x := s.blk.hbar i
     decide (s.blk.isHome a.scope = true) &&
     decide (x.takes = []) &&
     decide (pt.count.toNat ≤ x.c0)) = true ∧
    (let n : Nat := 5
     let h : Hdr := hdr 2
     let a : BarAddr := ⟨9, false, 1, 7⟩
     let pt : TakeMsg := ⟨4, 5, 6, true⟩
     let s : State := stD 1 fun d => { d with objs := { bars := [(9, { kind := 2, c0 := 3 })], groups := [(7, 0x21)] } }
     decide (n < 288) &&
     decide (s.blk.rxOk (.dist n) h 2 1 false = true) &&
     decide (s.blk.barOk a h.w 2 = true) &&
     let i := a.hbid.toNat
     let x := s.blk.hbar i
     decide (s.blk.isHome a.scope = true) &&
     decide (x.c0 < pt.count.toNat) &&
     decide (pt.nowait = true)) = true ∧
    (let n : Nat := 5
     let h : Hdr := hdr 2
     let a : BarAddr := ⟨9, false, 1, 7⟩
     let pt : TakeMsg := ⟨4, 5, 6, false⟩
     let s : State := stD 1 fun d => { d with objs := { bars := [(9, { kind := 2, c0 := 3 })], groups := [(7, 0x21)] } }
     decide (n < 288) &&
     decide (s.blk.rxOk (.dist n) h 2 1 false = true) &&
     decide (s.blk.barOk a h.w 2 = true) &&
     let i := a.hbid.toNat
     let x := s.blk.hbar i
     decide (s.blk.isHome a.scope = true) &&
     decide (x.c0 < pt.count.toNat) &&
     decide (pt.nowait = false) &&
     decide (x.takes.length < 256)) = true ∧
    (let n : Nat := 5
     let h : Hdr := hdr 2
     let a : BarAddr := ⟨9, false, 1, 7⟩
     let pt : TakeMsg := ⟨4, 5, 6, false⟩
     let s : State := stD 1 fun d => { d with objs := { bars := [(9, { kind := 2, c0 := 3, takes := List.replicate 256 ⟨1, 2, 9, true⟩ })], groups := [(7, 0x21)] } }
     decide (n < 288) &&
     decide (s.blk.rxOk (.dist n) h 2 1 false = true) &&
     decide (s.blk.barOk a h.w 2 = true) &&
     let i := a.hbid.toNat
     let x := s.blk.hbar i
     decide (s.blk.isHome a.scope = true) &&
     decide (x.c0 < pt.count.toNat) &&
     decide (pt.nowait = false) &&
     decide (256 ≤ x.takes.length)) = true ∧
    (let n : Nat := 5
     let h : Hdr := hdr 2
     let a : BarAddr := ⟨9, false, 1, 7⟩
     let pda : BitVec 16 := 5
     let tag : BitVec 16 := 6
     let s : State := stD 1 fun d => { d with objs := { bars := [(9, { kind := 2, c0 := 3, takes := [⟨5, 6, 9, true⟩] })], groups := [(7, 0x21)] } }
     decide (n < 288) &&
     decide (s.blk.rxOk (.dist n) h 2 1 false = true) &&
     decide (s.blk.barOk a h.w 2 = true) &&
     let i := a.hbid.toNat
     let x := s.blk.hbar i
     decide (s.blk.isHome a.scope = true) &&
     decide ((x.takes.filter fun t => !(t.pda == pda && t.tag == tag)) = [])) = true ∧
    (∃ (n : Nat) (h : Hdr) (a : BarAddr) (r : TakeResp) (s : State), 288 ≤ n ∧ n < 312 ∧
      s.blk.rxOk (.dist n) h 2 1 false = true ∧ s.blk.barOk a h.w 2 = true) ∧
    (∃ (p : Plane) (h : Hdr) (a : BarAddr) (r : TakeResp) (s : State), s.blk.rxOk (.tsu p) h 2 1 false = true ∧
      (s.blk.wslot r.tag.toNat).op = none) ∧
    (∃ (p : Plane) (h : Hdr) (a : BarAddr) (r : TakeResp) (o : WOp) (n : Nat) (s : State), s.blk.rxOk (.tsu p) h 2 1 false = true ∧ r.tag.toNat < 512 ∧ (s.blk.wslot r.tag.toNat).op = some o ∧ o.space = 2 ∧ o.op = 0xC ∧ o.held = false ∧ o.slot = some n ∧ (s.blk.slotsAt 2 a).contains n = true) :=
  ⟨by decide +kernel,
   by decide +kernel,
   by decide +kernel,
   by decide +kernel,
   by decide +kernel,
   by decide +kernel,
   by decide +kernel,
   ⟨.A, hdr 2, ⟨9, false, 1, 7⟩, true, 4, stI fun t => { t with bar := { slots := [(4, { kind := 1, scope := 1, expect := 2, hbid := 9, group := 7, sense := true })] } }, by decide +kernel⟩,
   ⟨.A, hdr 2, ⟨9, false, 1, 7⟩, true, 4, stI fun t => { t with bar := { slots := [(4, { kind := 1, scope := 1, expect := 2, hbid := 9, group := 7, sent := true, c0 := 2 })] } }, by decide +kernel⟩,
   by decide +kernel,
   by decide +kernel,
   by decide +kernel,
   by decide +kernel,
   by decide +kernel,
   by decide +kernel,
   by decide +kernel,
   by decide +kernel,
   ⟨288, hdr 2, ⟨9, false, 2, 7⟩, ⟨5, 6, 0, 4⟩, stD 1 fun d => { d with objs := { bars := [(9, { kind := 2, scope := 2 })], groups := [(7, 0x21)] } }, by decide +kernel⟩,
   ⟨.A, hdr 2, ⟨9, false, 1, 7⟩, ⟨5, 6, 0, 4⟩, stI id, by decide +kernel⟩,
   ⟨.A, hdr 2, ⟨9, false, 1, 7⟩, ⟨5, 26, 0, 4⟩, { space := 2, op := 0xC, addr := 7, wdata := 4, flags := ⟨false, false, false, 1⟩, seq := 0, issue := 900, expiry := some 5000, slot := some 4, phase := none, await := none, arrived := (false, false, 0), held := false }, 4, stI fun t => { t with bar := { slots := [(4, { kind := 2, scope := 1, hbid := 9, group := 7 })] }, ws := [(26, { op := some { space := 2, op := 0xC, addr := 7, wdata := 4, flags := ⟨false, false, false, 1⟩, seq := 0, issue := 900, expiry := some 5000, slot := some 4, phase := none, await := none, arrived := (false, false, 0), held := false } })] }, by decide +kernel⟩⟩

/-- A COUNT contribution of 7 from one participant, and the same as the second phase of an SSUM. -/
def cnt7 : Contrib :=
  { op := 10, fmt := 0, ofmt := 0, last := true, raw := false, root := false, idxmode := false, scope := 1, vl := 1, k := 0, first := 0
    nel := 1, npres := 1, deadline := 2000000, ccrc := crc32c (toBE 4 7), rootLdi := 0, nmiss := 0, recs := toBE 4 7, missing := [] }
def sum5 : Contrib :=
  { cnt7 with op := 6, recs := encRec 4 (.sum false false false true true 5), ccrc := crc32c (encRec 4 (.sum false false false true true 5)) }
def open6 : COp := { seq := 3, hdr := { sum5 with recs := [], ccrc := 0, last := false, nel := 0, npres := 0 }, phase2 := true }
/-- A slot that has sent a COUNT over the T1, and one that has sent an SSUM. -/
def slot10 : CollSlot :=
  { d0 := 0x100000010000100A, d1 := 0x0007000900000905, d3 := 2000000, d4 := 3, st := .sent, useA := true, srcs := [.data []] }
def slot6 : CollSlot := { slot10 with d0 := 0x1000000100001006 }

theorem test_wit_HallCollectives :
    (let l : Nat := 5
     let h : Hdr := hdr 3
     let a : CollAddr := ⟨9, 3, 7⟩
     let p : Contrib := cnt7
     let s : State := stD 1 id
     decide (l < 288) &&
     decide (s.blk.rxOk (.dist l) h 3 (opFeature p.op.toNat) false = true) &&
     let n := a.cobj.toNat
     decide (s.blk.cobjOk a p.scope h.w = false)) = true ∧
    (let l : Nat := 5
     let h : Hdr := hdr 3
     let a : CollAddr := ⟨9, 3, 7⟩
     let p : Contrib := { cnt7 with deadline := 5 }
     let s : State := stD 1 fun d => { d with objs := { cobjs := [(9, { scope := 1, group := 7, expect := 2 })], groups := [(7, 0x21)] }  }
     decide (l < 288) &&
     decide (s.blk.rxOk (.dist l) h 3 (opFeature p.op.toNat) false = true) &&
     let n := a.cobj.toNat
     let home := s.blk.isHome (s.blk.cobj n).scope
     decide (s.blk.cobjOk a p.scope h.w = true) &&
     decide (s.blk.pastCut home false p.deadline = true)) = true ∧
    (let l : Nat := 5
     let h : Hdr := hdr 3
     let a : CollAddr := ⟨9, 3, 7⟩
     let p : Contrib := { sum5 with deadline := 5 }
     let s : State := stD 1 fun d => { d with objs := { cobjs := [(9, { scope := 1, group := 7, expect := 2 })], groups := [(7, 0x21)] }  }
     decide (l < 288) &&
     decide (s.blk.rxOk (.dist l) h 3 (opFeature p.op.toNat) false = true) &&
     let n := a.cobj.toNat
     let home := s.blk.isHome (s.blk.cobj n).scope
     decide (s.blk.cobjOk a p.scope h.w = true) &&
     decide (s.blk.pastCut home true p.deadline = true)) = true ∧
    (let l : Nat := 5
     let h : Hdr := hdr 3
     let a : CollAddr := ⟨9, 3, 7⟩
     let p : Contrib := cnt7
     let s : State := stD 1 fun d => { d with objs := { cobjs := [(9, { scope := 1, group := 7, expect := 2 })], groups := [(7, 0x21)] }  }
     decide (l < 288) &&
     decide (s.blk.rxOk (.dist l) h 3 (opFeature p.op.toNat) false = true) &&
     let n := a.cobj.toNat
     let home := s.blk.isHome (s.blk.cobj n).scope
     let rs : List CRec := [.cnt 7]
     let k : Nat := 0
     decide (s.blk.cobjOk a p.scope h.w = true) &&
     decide (s.blk.pastCut home false p.deadline = false) &&
     decide ((s.blk.cobj n).ops = []) &&
     decide (a.group = (s.blk.cobj n).group) &&
     decide (crc32c p.recs = p.ccrc) &&
     decide (p.last = true) &&
     decide (p.raw = false) &&
     decide (p.missing = []) &&
     decide (p.nmiss = 0) &&
     decide (p.op.toNat ≠ 5) &&
     decide (decRecs (fun _ => recKind p.op.toNat) (fmtD p.fmt.toNat).width p.nel.toNat p.first.toNat p.recs = some rs) &&
     decide ((s.blk.cobjPorts n).contains k = true) &&
     decide (k ≠ s.blk.childOf l) &&
     decide (s.blk.dist.boot.fencedPorts = []) &&
     decide (p.npres.toNat < (s.blk.cobj n).expect.toNat)) = true ∧
    (let l : Nat := 5
     let h : Hdr := hdr 3
     let a : CollAddr := ⟨9, 3, 7⟩
     let p : Contrib := sum5
     let s : State := stD 1 fun d => { d with objs := { cobjs := [(9, { scope := 1, group := 7, expect := 2, ops := [open6] })], groups := [(7, 0x21)] }  }
     decide (l < 288) &&
     decide (s.blk.rxOk (.dist l) h 3 (opFeature p.op.toNat) false = true) &&
     let n := a.cobj.toNat
     let home := s.blk.isHome (s.blk.cobj n).scope
     let rs : List CRec := [.sum false false false true true 5]
     let k : Nat := 0
     let o : COp := open6
     decide (s.blk.cobjOk a p.scope h.w = true) &&
     decide (s.blk.pastCut home true p.deadline = false) &&
     decide ((s.blk.cobj n).ops = [o]) &&
     decide (o.seq = a.seq) &&
     decide (o.phase2 = true) &&
     decide (o.sent = false) &&
     decide (o.recs = none) &&
     decide ((o.kid (s.blk.childOf l)) = {}) &&
     decide (sameOp p o.hdr = true) &&
     decide (a.group = (s.blk.cobj n).group) &&
     decide (crc32c p.recs = p.ccrc) &&
     decide (p.last = true) &&
     decide (p.raw = false) &&
     decide (p.missing = []) &&
     decide (p.nmiss = 0) &&
     decide (decRecs (fun _ => RecKind.sum) (fmtD p.fmt.toNat).width p.nel.toNat p.first.toNat p.recs = some rs) &&
     decide ((s.blk.cobjPorts n).contains k = true) &&
     decide (k ≠ s.blk.childOf l) &&
     decide ((o.kid k).last = false) &&
     decide (o.npres + p.npres.toNat < (s.blk.cobj n).expect.toNat)) = true ∧
    (let l : Nat := 5
     let h : Hdr := hdr 3
     let a : CollAddr := ⟨9, 3, 7⟩
     let p : Contrib := cnt7
     let s : State := stD 1 fun d => { d with objs := { cobjs := [(9, { scope := 1, group := 7, expect := 2 })], groups := [(7, 0x21)] }  }
     decide (l < 288) &&
     decide (s.blk.rxOk (.dist l) h 3 2 false = true) &&
     let n := a.cobj.toNat
     decide (s.blk.cobjOk a p.scope h.w = true) &&
     decide (s.blk.pastCut (s.blk.isHome (s.blk.cobj n).scope) false p.deadline = false) &&
     decide ((s.blk.cobj n).ops = []) &&
     decide (a.group = (s.blk.cobj n).group) &&
     decide (p.raw = false) &&
     decide (s.blk.dist.boot.fencedPorts = [])) = true ∧
    (let k : BitVec 14 := 9
     let seq : BitVec 16 := 3
     let o : COp := open6
     let s : State := stD 1 fun d => { d with objs := { cobjs := [(9, { scope := 1, group := 7, expect := 2, ops := [open6] })], groups := [(7, 0x21)] }  }
     decide (s.blk.cop k.toNat seq = some o) &&
     let n := k.toNat
     let home := s.blk.isHome (s.blk.cobj n).scope
     decide (Tick.le (s.blk.dCut home o.phase2 o.hdr.deadline) s.blk.dist.time.tc64 = false)) = true ∧
    (let k : BitVec 14 := 9
     let seq : BitVec 16 := 3
     let o : COp := { open6 with hdr := { open6.hdr with deadline := 5 } }
     let s : State := stD 1 fun d => { d with objs := { cobjs := [(9, { scope := 1, group := 7, expect := 2, ops := [{ open6 with hdr := { open6.hdr with deadline := 5 } }] })], groups := [(7, 0x21)] }  }
     decide (s.blk.cop k.toNat seq = some o) &&
     let n := k.toNat
     let home := s.blk.isHome (s.blk.cobj n).scope
     decide (Tick.le (s.blk.dCut home o.phase2 o.hdr.deadline) s.blk.dist.time.tc64 = true) &&
     decide (o.sent = false)) = true ∧
    (∃ (k : BitVec 4) (s : State), (s.blk.collSlot k.toNat).st = .gather ∧ (s.blk.collSlot k.toNat).desc.scope = 0 ∧
      (s.blk.collSlot k.toNat).srcs.contains .wait = true ∧
      Tick.le (s.blk.collSlot k.toNat).desc.deadline s.blk.tsu.time.tc64 = false) ∧
    (∃ (k : BitVec 4) (s : State), (s.blk.collSlot k.toNat).st = .gather ∧ (s.blk.collSlot k.toNat).desc.scope = 0 ∧
      (s.blk.collSlot k.toNat).srcs.contains .wait = true ∧
      Tick.le (s.blk.collSlot k.toNat).desc.deadline s.blk.tsu.time.tc64 = true) ∧
    (let l : Nat := 288
     let h : Hdr := hdr 3
     let a : CollAddr := ⟨9, 3, 7⟩
     let p : Contrib := { cnt7 with scope := 2 }
     let s : State := stD 1 fun d => { d with objs := { cobjs := [(9, { scope := 2, group := 7 })], groups := [(7, 0x21)] }  }
     decide (288 ≤ l) &&
     decide (l < 312) &&
     decide (s.blk.cop a.cobj.toNat a.seq = none) &&
     decide (s.blk.rxOk (.dist l) h 3 (opFeature p.op.toNat) false = true) &&
     decide (s.blk.cobjOk a p.scope h.w = true)) = true ∧
    (let l : Nat := 288
     let h : Hdr := hdr 3
     let a : CollAddr := ⟨9, 3, 7⟩
     let r : CollResult := ⟨{ cnt7 with scope := 2 }, 0, 0⟩
     let s : State := stD 1 fun d => { d with objs := { cobjs := [(9, { scope := 2, group := 7 })], groups := [(7, 0x21)] }  }
     decide (288 ≤ l) &&
     decide (l < 312) &&
     decide (s.blk.cop a.cobj.toNat a.seq = none) &&
     decide (s.blk.rxOk (.dist l) h 3 (opFeature r.c.op.toNat) false = true) &&
     decide (s.blk.cobjOk a r.c.scope h.w = true)) = true ∧
    (∃ (pl : Plane) (h : Hdr) (a : CollAddr) (p : Contrib) (r : CollResult) (s : State), s.blk.collFind a = none ∧
      s.blk.rxOk (.tsu pl) h 3 (opFeature p.op.toNat) false = true) ∧
    (∃ (pl : Plane) (h : Hdr) (a : CollAddr) (p : Contrib) (r : CollResult) (s : State), s.blk.collFind a = none ∧
      s.blk.rxOk (.tsu pl) h 3 (opFeature r.c.op.toNat) false = true) ∧
    (let pl : Plane := .A
     let h : Hdr := hdr 3
     let a : CollAddr := ⟨9, 3, 7⟩
     let p : Contrib := { cnt7 with op := 6, recs := toBE 4 3, ccrc := crc32c (toBE 4 3) }
     let n : Nat := 2
     let s : State := stI fun t => { t with coll := { slots := [(2, slot6)] } }
     decide (s.blk.collFind a = some n) &&
     decide (s.blk.rxOk (.tsu pl) h 3 (opFeature p.op.toNat) false = true) &&
     let x := s.blk.collSlot n
     decide (x.uses pl = true) &&
     decide (x.desc.op = 6) &&
     decide (crc32c p.recs = p.ccrc) &&
     decide (p.last = true) &&
     decide (x.kdown = none) &&
     decide (x.kdA = []) &&
     decide (x.kdB = []) &&
     decide (x.kbadA = false) &&
     decide (x.kbadB = false) &&
     decide (x.st = .sent) &&
     decide (x.whole = true)) = true ∧
    (let pl : Plane := .A
     let h : Hdr := hdr 3
     let a : CollAddr := ⟨9, 3, 7⟩
     let p : CollResult := ⟨cnt7, 0, 0⟩
     let n : Nat := 2
     let rs : List CRec := [.cnt 7]
     let s : State := stI fun t => { t with coll := { slots := [(2, slot10)] }, str := { clkOk := true, chs := [(5, { st := .on }), (9, { st := .on, dir := true })] } }
     decide (s.blk.collFind a = some n) &&
     decide (s.blk.rxOk (.tsu pl) h 3 (opFeature p.c.op.toNat) false = true) &&
     let x := s.blk.collSlot n
     decide (x.uses pl = true) &&
     decide (crc32c p.c.recs = p.c.ccrc) &&
     decide (x.st.awaits = true) &&
     decide (p.rcode = 0) &&
     decide (p.c.last = true) &&
     decide (x.acc pl = {}) &&
     decide (s.blk.rcode n a p = p) &&
     decide (p.c.op.toNat = x.desc.op) &&
     decide (p.c.fmt.toNat = x.desc.fmt) &&
     decide (x.desc.permEn = false) &&
     decide (decRecs (resKind x.desc.op x.desc.vl) (fmtD x.desc.fmt).width p.c.nel.toNat p.c.first.toNat p.c.recs = some rs)) = true :=
  ⟨by decide +kernel,
   by decide +kernel,
   by decide +kernel,
   by decide +kernel,
   by decide +kernel,
   by decide +kernel,
   by decide +kernel,
   by decide +kernel,
   ⟨2, stI fun t => { t with coll := { slots := [(2, { d0 := 0x100000100000000A, d1 := 0x905, d3 := 2000000, st := .gather, srcs := [.wait] }), (3, { st := .gather })] }, str := { clkOk := true, chs := [(5, { st := .on }), (9, { st := .on, dir := true })] } }, by decide +kernel⟩,
   ⟨2, stI fun t => { t with coll := { slots := [(2, { d0 := 0x100000100000000A, d1 := 0x905, d3 := 1000000, st := .gather, srcs := [.wait] }), (3, { st := .gather })] }, str := { clkOk := true, chs := [(5, { st := .on }), (9, { st := .on, dir := true })] } }, by decide +kernel⟩,
   by decide +kernel,
   by decide +kernel,
   ⟨.A, hdr 3, ⟨9, 3, 7⟩, cnt7, ⟨cnt7, 0, 0⟩, stI id, by decide +kernel⟩,
   ⟨.A, hdr 3, ⟨9, 3, 7⟩, cnt7, ⟨cnt7, 0, 0⟩, stI id, by decide +kernel⟩,
   by decide +kernel,
   by decide +kernel⟩

theorem test_wit_DataMover :
    (let a : Access := sp
     let k : BitVec 3 := 2
     let s : State := stI fun t => { t with pwr := {}, dm := { t.dm with chs := [(2, {  })] }  }
     decide (s.blk.check (portReq a) (0xA108 + 0x100 * k.toNat) (worldOk (portReq a) (s.blk.ctxWorld (s.blk.dmCh k.toNat).ctx.toNat)) = .ok) &&
     let n := k.toNat
     true) = true ∧
    (let a : Access := sp
     let k : BitVec 3 := 2
     let s : State := stI fun t => { t with pwr := {}, dm := { t.dm with chs := [(2, {  })] }  }
     decide (s.blk.check (portReq a) (0xA108 + 0x100 * k.toNat) (worldOk (portReq a) (s.blk.ctxWorld (s.blk.dmCh k.toNat).ctx.toNat)) = .ok) &&
     let n := k.toNat
     let c := s.blk.dmCh n
     decide (c.st = .off ∨ c.st = .stopping)) = true ∧
    (let a : Access := sp
     let k : BitVec 3 := 2
     let s : State := stI fun t => { t with pwr := {}, dm := { t.dm with chs := [(2, { st := .idle, ring := true, pause := true, fetch := true, sizeLog := 3, base := 0x100, shadow := { len := 5 } })] }  }
     decide (s.blk.check (portReq a) (0xA108 + 0x100 * k.toNat) (worldOk (portReq a) (s.blk.ctxWorld (s.blk.dmCh k.toNat).ctx.toNat)) = .ok) &&
     let n := k.toNat
     let c := s.blk.dmCh n
     decide (c.st ≠ .off) &&
     decide (c.st ≠ .stopping) &&
     decide (c.st ≠ .haltErr)) = true ∧
    (let a : Access := sp
     let k : BitVec 3 := 2
     let s : State := stI fun t => { t with pwr := {}, dm := { t.dm with chs := [(2, { st := .haltErr, errAt := some 24, errCode := 3, errValid := true, rd := 24, wr := 8, hb := 8, hold := [1], shadowValid := true, cur := { src := 0x1000, dst := 0x2000, len := 0x0000004000000040, ctrl := 0x0008033000010001 }, step := .move })] }  }
     decide (s.blk.check (portReq a) (0xA108 + 0x100 * k.toNat) (worldOk (portReq a) (s.blk.ctxWorld (s.blk.dmCh k.toNat).ctx.toNat)) = .ok) &&
     let n := k.toNat
     let c := s.blk.dmCh n
     decide (c.st = .haltErr)) = true ∧
    (let a : Access := sp
     let k : BitVec 3 := 2
     let s : State := stI fun t => { t with pwr := {}, dm := { t.dm with chs := [(2, { st := .idle, shadow := { src := 0x1000, dst := 0x2000, len := 0x0000004000000040, ctrl := 0x0000033000010001 } })] }  }
     decide (s.blk.check (portReq a) (0xA108 + 0x100 * k.toNat) (worldOk (portReq a) (s.blk.ctxWorld (s.blk.dmCh k.toNat).ctx.toNat)) = .ok) &&
     let n := k.toNat
     true) = true ∧
    (let a : Access := sp
     let k : BitVec 3 := 2
     let s : State := stI fun t => { t with pwr := {}, dm := { t.dm with chs := [(2, { st := .idle, ring := true, pause := true, fetch := true, sizeLog := 3, base := 0x100, shadow := { len := 5 } })] }  }
     decide (s.blk.check (portReq a) (0xA108 + 0x100 * k.toNat) (worldOk (portReq a) (s.blk.ctxWorld (s.blk.dmCh k.toNat).ctx.toNat)) = .ok) &&
     let n := k.toNat
     true) = true ∧
    (let a : Access := sp
     let k : BitVec 3 := 2
     let s : State := stI fun t => { t with pwr := {}, dm := { t.dm with chs := [(2, { st := .run, cur := { src := 0x1000, dst := 0x2000, len := 0x0000004000000040, ctrl := 0x0008033000010001 }, step := .move })] }  }
     decide (s.blk.check (portReq a) (0xA108 + 0x100 * k.toNat) (worldOk (portReq a) (s.blk.ctxWorld (s.blk.dmCh k.toNat).ctx.toNat)) = .ok) &&
     let n := k.toNat
     let c := s.blk.dmCh n
     decide (c.errAt = none)) = true ∧
    (let a : Access := sp
     let k : BitVec 3 := 2
     let s : State := stI fun t => { t with pwr := {}, dm := { t.dm with chs := [(2, { st := .haltErr, errAt := some 24, errCode := 3, errValid := true, rd := 24, wr := 8, hb := 8, hold := [1], shadowValid := true, cur := { src := 0x1000, dst := 0x2000, len := 0x0000004000000040, ctrl := 0x0008033000010001 }, step := .move })] }  }
     decide (s.blk.check (portReq a) (0xA108 + 0x100 * k.toNat) (worldOk (portReq a) (s.blk.ctxWorld (s.blk.dmCh k.toNat).ctx.toNat)) = .ok) &&
     let n := k.toNat
     let c := s.blk.dmCh n
     decide (c.errAt.isSome = true)) = true ∧
    (let a : Access := sp
     let k : BitVec 3 := 2
     let s : State := stI fun t => { t with pwr := {}, dm := { t.dm with chs := [(2, { st := .pausing, rds := [8], rd := 16, hold := [], wr := 8, hb := 8, wrs := [.unit 0], cur := { src := 0x1000, dst := 0x2000, len := 0x0000004000000040, ctrl := 0x0008033000010001 }, step := .move })] }  }
     decide (s.blk.check (portReq a) (0xA108 + 0x100 * k.toNat) (worldOk (portReq a) (s.blk.ctxWorld (s.blk.dmCh k.toNat).ctx.toNat)) = .ok) &&
     let n := k.toNat
     true) = true ∧
    (let a : Access := sp
     let k : BitVec 3 := 2
     let s : State := stI fun t => { t with pwr := {}, dm := { t.dm with chs := [(2, { st := .pausing, rds := [8], rd := 16, hold := [], wr := 8, hb := 8, wrs := [.unit 0], cur := { src := 0x1000, dst := 0x2000, len := 0x0000004000000040, ctrl := 0x0008033000010001 }, step := .move })] }  }
     decide (s.blk.check (portReq a) (0xA108 + 0x100 * k.toNat) (worldOk (portReq a) (s.blk.ctxWorld (s.blk.dmCh k.toNat).ctx.toNat)) = .ok) &&
     let n := k.toNat
     let c := s.blk.dmCh n
     decide (c.st ≠ .haltErr)) = true ∧
    (let a : Access := sp
     let k : BitVec 3 := 2
     let s : State := stI fun t => { t with pwr := {}, dm := { t.dm with chs := [(2, { st := .pausing, rds := [8], rd := 16, hold := [], wr := 8, hb := 8, wrs := [.unit 0], cur := { src := 0x1000, dst := 0x2000, len := 0x0000004000000040, ctrl := 0x0008033000010001 }, step := .move })] }  }
     decide (s.blk.check (portReq a) (0xA108 + 0x100 * k.toNat) (worldOk (portReq a) (s.blk.ctxWorld (s.blk.dmCh k.toNat).ctx.toNat)) = .ok) &&
     let n := k.toNat
     let c := s.blk.dmCh n
     decide (c.st ≠ .haltErr)) = true ∧
    (let a : Access := sp
     let k : BitVec 3 := 2
     let s : State := stI fun t => { t with pwr := {}, dm := { t.dm with chs := [(2, { st := .pausing, rds := [8], rd := 16, hold := [], wr := 8, hb := 8, wrs := [.unit 0], cur := { src := 0x1000, dst := 0x2000, len := 0x0000004000000040, ctrl := 0x0008033000010001 }, step := .move })] }  }
     decide (s.blk.check (portReq a) (0xA108 + 0x100 * k.toNat) (worldOk (portReq a) (s.blk.ctxWorld (s.blk.dmCh k.toNat).ctx.toNat)) = .ok) &&
     let n := k.toNat
     let c := s.blk.dmCh n
     decide (c.st ≠ .haltErr)) = true ∧
    (let a : Access := sp
     let k : BitVec 3 := 2
     let s : State := stI fun t => { t with pwr := {}, dm := { t.dm with chs := [(2, { st := .haltErr, errAt := some 24, errCode := 3, errValid := true, rd := 24, wr := 8, hb := 8, hold := [1], shadowValid := true, cur := { src := 0x1000, dst := 0x2000, len := 0x0000004000000040, ctrl := 0x0008033000010001 }, step := .move })] }  }
     decide (s.blk.check (portReq a) (0xA108 + 0x100 * k.toNat) (worldOk (portReq a) (s.blk.ctxWorld (s.blk.dmCh k.toNat).ctx.toNat)) = .ok) &&
     let n := k.toNat
     let c := s.blk.dmCh n
     decide (c.st = .haltErr) &&
     decide (c.step = .move) &&
     decide (c.pause = false)) = true ∧
    (let a : Access := sp
     let k : BitVec 3 := 2
     let s : State := stI fun t => { t with pwr := {}, dm := { t.dm with chs := [(2, { st := .haltErr, errAt := some 24, errCode := 3, errValid := true, rd := 24, wr := 8, hb := 8, hold := [1], shadowValid := true, cur := { src := 0x1000, dst := 0x2000, len := 0x0000004000000040, ctrl := 0x0008033000010001 }, step := .move })] }  }
     decide (s.blk.check (portReq a) (0xA108 + 0x100 * k.toNat) (worldOk (portReq a) (s.blk.ctxWorld (s.blk.dmCh k.toNat).ctx.toNat)) = .ok) &&
     let n := k.toNat
     let c := s.blk.dmCh n
     decide (c.st = .haltErr) &&
     decide (c.step = .move) &&
     decide (c.pause = false) &&
     decide (c.ring = false)) = true ∧
    (let a : Access := sp
     let k : BitVec 3 := 2
     let s : State := stI fun t => { t with pwr := {}, dm := { t.dm with chs := [(2, { st := .haltErr, errAt := some 24, errCode := 3, errValid := true, rd := 24, wr := 8, hb := 8, hold := [1], shadowValid := true, cur := { src := 0x1000, dst := 0x2000, len := 0x0000004000000040, ctrl := 0x0008033000010001 }, step := .move })] }  }
     decide (s.blk.check (portReq a) (0xA108 + 0x100 * k.toNat) (worldOk (portReq a) (s.blk.ctxWorld (s.blk.dmCh k.toNat).ctx.toNat)) = .ok) &&
     let n := k.toNat
     let c := s.blk.dmCh n
     decide (c.st = .haltErr) &&
     decide (c.step = .move) &&
     decide (c.pause = false) &&
     decide (c.ring = false)) = true ∧
    (let k : BitVec 3 := 2
     let resp : BitVec 2 := 0
     let d : Bytes := List.replicate 63 3 ++ [0x80]
     let s : State := stI fun t => { t with pwr := {}, dm := { t.dm with chs := [(2, { st := .idle, fetch := true, kick := true, ring := true, head := 1, sizeLog := 1, base := 0x100 })] }  }
     let n := k.toNat
     let c := s.blk.dmCh n
     decide (c.fetch = true) &&
     decide (resp = 0) &&
     decide (c.st ≠ .stopping) &&
     decide ((d.getD 63 0).getLsbD 7 = true)) = true ∧
    (let k : BitVec 3 := 2
     let resp : BitVec 2 := 0
     let d : Bytes := List.replicate 63 3 ++ [0x7F]
     let s : State := stI fun t => { t with pwr := {}, dm := { t.dm with chs := [(2, { st := .idle, fetch := true, ring := true, head := 1, sizeLog := 1, base := 0x100 })] }  }
     let n := k.toNat
     let c := s.blk.dmCh n
     decide (c.fetch = true) &&
     decide (c.kick = false) &&
     decide (resp = 0) &&
     decide (c.st ≠ .stopping) &&
     decide ((d.getD 63 0).getLsbD 7 = false)) = true ∧
    (let k : BitVec 3 := 2
     let s : State := stI fun t => { t with pwr := {}, dm := { t.dm with chs := [(2, { st := .idle, poll := some 5, ring := true, head := 1, sizeLog := 1, base := 0x100 })] }  }
     let n := k.toNat
     let c := s.blk.dmCh n
     let t := 5
     decide (c.poll = some t) &&
     decide (Tick.le t s.blk.tsu.time.tc64 = true)) = true ∧
    (let k : BitVec 3 := 2
     let s : State := stI fun t => { t with pwr := {}, dm := { t.dm with chs := [(2, { st := .idle, ring := true, head := 1, sizeLog := 1, base := 0x100 })] }  }
     let n := k.toNat
     let c := s.blk.dmCh n
     decide (c.poll = none)) = true ∧
    (let k : BitVec 3 := 2
     let resp : BitVec 2 := 0
     let s : State := stI fun t => { t with pwr := {}, dm := { t.dm with chs := [(2, { st := .run, rd := 32, wr := 8, hb := 8, hold := [1,2,3,4,5,6,7,8,1,2,3,4,5,6,7,8], rds := [24], cur := { src := 0x1000, dst := 0x2000, len := 0x0000004000000040, ctrl := 0x0008033000010001 }, step := .move })] }  }
     let n := k.toNat
     let c := s.blk.dmCh n
     let i := 24
     let rest := []
     decide (c.lostRds = 0) &&
     decide (c.rds = i :: rest) &&
     decide (c.errAt = none) &&
     decide (resp = 0)) = true ∧
    (let k : BitVec 3 := 2
     let resp : BitVec 2 := 2
     let s : State := stI fun t => { t with pwr := {}, dm := { t.dm with chs := [(2, { st := .run, rd := 32, wr := 8, hb := 8, hold := [1,2,3,4,5,6,7,8,1,2,3,4,5,6,7,8], rds := [24], cur := { src := 0x1000, dst := 0x2000, len := 0x0000004000000040, ctrl := 0x0008033000010001 }, step := .move })] }  }
     let n := k.toNat
     let c := s.blk.dmCh n
     let i := 24
     let rest := []
     decide (c.lostRds = 0) &&
     decide (c.rds = i :: rest) &&
     decide (c.errAt = none) &&
     decide (c.st ≠ .stopping) &&
     decide (resp ≠ 0)) = true ∧
    (let k : BitVec 3 := 2
     let resp : BitVec 2 := 0
     let s : State := stI fun t => { t with pwr := {}, dm := { t.dm with chs := [(2, { st := .run, rd := 32, wr := 32, hb := 32, hold := [], wrs := [.unit 24], cur := { src := 0x1000, dst := 0x2000, len := 0x0000004000000040, ctrl := 0x0008033000010001 }, step := .move })] }  }
     let n := k.toNat
     let c := s.blk.dmCh n
     let i := 24
     let rest := []
     decide (c.lostAcks = 0) &&
     decide (c.wrs = .unit i :: rest) &&
     decide (resp = 0)) = true ∧
    (let k : BitVec 3 := 2
     let resp : BitVec 2 := 0
     let s : State := stI fun t => { t with pwr := {}, dm := { t.dm with chs := [(2, { st := .run, ring := true, step := .status, sizeLog := 1, base := 0x100, wrs := [.own], cur := { src := 0x1000, dst := 0x2000, len := 0x0000004000000040, ctrl := 0x0008033000010001 } })] }  }
     let n := k.toNat
     let c := s.blk.dmCh n
     let rest := []
     decide (c.lostAcks = 0) &&
     decide (c.wrs = .own :: rest) &&
     decide (resp = 0) &&
     decide (c.code ≠ 3)) = true ∧
    (let k : BitVec 3 := 2
     let s : State := stI fun t => { t with pwr := {}, dm := { t.dm with chs := [(2, { st := .run, lostAcks := 2 })] }  }
     let n := k.toNat
     let c := s.blk.dmCh n
     decide (0 < c.lostAcks)) = true ∧
    (let k : BitVec 3 := 2
     let s : State := stI fun t => { t with pwr := {}, dm := { t.dm with chs := [(2, { st := .run, lostAcks := 2 })] }  }
     let n := k.toNat
     let c := s.blk.dmCh n
     decide (c.errAt = none)) = true ∧
    (let k : BitVec 3 := 2
     let s : State := stI fun t => { t with pwr := {}, dm := { t.dm with chs := [(2, { st := .run, errAt := some 24, rd := 32, wr := 16, hb := 16, hold := [1,2,3], cur := { src := 0x1000, dst := 0x2000, len := 0x0000004000000040, ctrl := 0x0008033000010001 }, step := .move })] }  }
     let n := k.toNat
     let c := s.blk.dmCh n
     let i := 24
     decide (c.errAt = some i) &&
     decide (c.st ≠ .stopping) &&
     decide (c.st ≠ .haltErr) &&
     decide (c.drained = true) &&
     decide (s.blk.dmCanWrite n = false) &&
     decide (c.step = .move) &&
     decide (c.errSrc = false) &&
     decide (c.errDir = false)) = true :=
  ⟨by decide +kernel,
   by decide +kernel,
   by decide +kernel,
   by decide +kernel,
   by decide +kernel,
   by decide +kernel,
   by decide +kernel,
   by decide +kernel,
   by decide +kernel,
   by decide +kernel,
   by decide +kernel,
   by decide +kernel,
   by decide +kernel,
   by decide +kernel,
   by decide +kernel,
   by decide +kernel,
   by decide +kernel,
   by decide +kernel,
   by decide +kernel,
   by decide +kernel,
   by decide +kernel,
   by decide +kernel,
   by decide +kernel,
   by decide +kernel,
   by decide +kernel,
   by decide +kernel⟩

theorem test_wit_EngineAndTaggedMemory :
    (∃ (s : State), s.blk.live = true ∧ s.blk.tsu.pwr.st = .idle ∧ s.blk.tsu.pwr.on.engine = false ∧
      s.blk.tsu.pwr.ack.engine = false) ∧
    (∃ (s : State), s.blk.live = true ∧ s.blk.tsu.pwr.on.engine = true) ∧
    (∃ (s : State), s.blk.live = true ∧ s.blk.tsu.pwr.st = .idle ∧ s.blk.tsu.pwr.on.engine = false ∧
      s.blk.tsu.pwr.on.mem = true ∧ s.blk.tsu.pwr.req.engine = true ∧ s.blk.tsu.pwr.ack.engine = true) ∧
    (let c : Ctx6 := 3
     let m : ArmMsg := ⟨7, 1002000, 4⟩
     let s : State := stI fun t => { t with ctxs := [(3, { st := .armed, arm := some ⟨7, 1002000, 4⟩ })], pwr := { st := .idle, on := { t.pwr.on with engine := false } } }
     decide (s.blk.live = true) &&
     decide ((s.blk.ctx c.toNat).st = .armed) &&
     decide ((s.blk.ctx c.toNat).arm = some m) &&
     let lead := max 2500 s.blk.tsu.pwr.engLead.toNat
     decide (Tick.le (m.tStart - BitVec.ofNat 64 lead) s.blk.tsu.time.tc64 = true)) = true ∧
    (let c : Ctx6 := 3
     let m : ArmMsg := ⟨7, 1102000, 4⟩
     let s : State := stI fun t => { t with ctxs := [(3, { st := .armed, arm := some ⟨7, 1102000, 4⟩ })], pwr := { st := .idle, on := { t.pwr.on with engine := false } } }
     decide (s.blk.live = true) &&
     decide ((s.blk.ctx c.toNat).st = .armed) &&
     decide ((s.blk.ctx c.toNat).arm = some m) &&
     let lead := max 2500 s.blk.tsu.pwr.engLead.toNat
     decide (Tick.le (m.tStart - BitVec.ofNat 64 lead) s.blk.tsu.time.tc64 = false)) = true ∧
    (∃ (s : State), s.blk.live = true ∧ s.blk.tsu.pwr.st = .on ∧ s.blk.tsu.pwr.on.engine = true ∧
      s.blk.tsu.pwr.engAuto = true ∧ s.blk.engBusy = false ∧ s.blk.anyRuns = false ∧
      (s.blk.tsu.pwr.engIdle.toNat : Int) ≤ Tick.diff s.blk.tsu.time.tc64 s.blk.tsu.pwr.demandAt) ∧
    (∃ (s : State), s.blk.live = true ∧ s.blk.tsu.pwr.st = .on ∧ s.blk.tsu.pwr.on.engine = true ∧
      (s.blk.anyRuns = true ∨ s.blk.tsu.pwr.engAuto = false)) ∧
    (∃ (s : State), s.blk.live = true ∧ s.blk.tsu.pwr.on.mem = true ∧ s.blk.tsu.tm.initDone = false ∧
      s.blk.tsu.boot.fuseBusy = false ∧ s.blk.engOn = false) ∧
    (∃ (a : Access) (r : BitVec 6) (s : State), s.blk.check (portReq a) 0x7008 true = .ok ∧
      worldOk (portReq a) (s.blk.tsu.gnt.tmw.getLsbD r.toNat) = true) ∧
    (∃ (a : Access) (r : BitVec 6) (s : State), s.blk.check (portReq a) 0x7008 true = .ok ∧
      worldOk (portReq a) (s.blk.tsu.gnt.tmw.getLsbD r.toNat) = false) ∧
    (∃ (r : BitVec 6) (s : State), s.blk.tsu.tm.scrub = some r ∧ s.blk.live = true ∧ s.blk.tsu.pwr.on.mem = true ∧
      s.blk.tsu.held = [] ∧ (∀ e ∈ s.blk.tsu.ws, e.2.op = none) ∧ s.blk.engOn = false) :=
  ⟨⟨stI fun t => { t with pwr := { st := .idle, on := { t.pwr.on with engine := false } } }, by decide +kernel⟩,
   ⟨stI fun t => { t with pwr := { st := .on } }, by decide +kernel⟩,
   ⟨stI fun t => { t with pwr := { st := .idle, on := { t.pwr.on with engine := false }, engWanted := true, req := { t.pwr.req with engine := true }, ack := { t.pwr.ack with engine := true } } }, by decide +kernel⟩,
   by decide +kernel,
   by decide +kernel,
   ⟨stI fun t => { t with time := { tc64 := 2000000 } }, by decide +kernel⟩,
   ⟨stI fun t => { t with time := { tc64 := 2000000 }, ctxs := [(3, { st := .run })] }, by decide +kernel⟩,
   ⟨stI fun t => { t with tm := { words := [(5, ⟨3, true, false, .good⟩)], fillW := 5 }, gnt := { tmw := 6 }, pwr := { st := .idle, on := { t.pwr.on with engine := false } } }, by decide +kernel⟩,
   ⟨sp, 2, stI fun t => { t with tm := { scrub := some 4, initDone := true }, gnt := { tmw := 4 } }, by decide +kernel⟩,
   ⟨np, 2, stI fun t => { t with tm := { initDone := true }, gnt := { tmw := 4 } }, by decide +kernel⟩,
   ⟨0, stI fun t => { t with tm := { scrub := some 0, initDone := true, words := [(5, ⟨3, true, false, .good⟩)] }, gnt := { tmw := 4 }, pwr := { st := .idle, on := { t.pwr.on with engine := false } } }, by decide +kernel⟩⟩

theorem test_wit_HallMemory :
    (let l : Nat := 5
     let h : Hdr := hdr 4
     let p : HReq := { ha := 0x2000000040, pda := 5, tag := 0x0201, op := 3, nowait := false, lcap := false, x := 2000000, wdata := 9 }
     let s : State := stD 1 fun d => { d with boot := { d.boot with hmReady := false, draining := true } }
     decide (l < 312) &&
     decide (s.blk.rxOk (.dist l) h 4 10 false = true) &&
     let n := (p.ha.extractLsb' 0 27).toNat
     decide (s.blk.hmWay p.ha = .here) &&
     decide (s.blk.dist.boot.hmReady = false)) = true ∧
    (let l : Nat := 5
     let h : Hdr := hdr 4
     let p : HReq := { ha := 0x2000000040, pda := 5, tag := 0x0201, op := 3, nowait := false, lcap := false, x := 2000000, wdata := 9 }
     let s : State := stD 1 fun d => { d with objs := { d.objs with hmem := { scrub := [0, 3] } }, boot := { d.boot with hmReady := true }  }
     decide (l < 312) &&
     decide (s.blk.rxOk (.dist l) h 4 10 false = true) &&
     let n := (p.ha.extractLsb' 0 27).toNat
     decide (s.blk.hmWay p.ha = .here) &&
     decide (s.blk.dist.boot.hmReady = true) &&
     decide (n < 100663296) &&
     decide (s.blk.hm.scrub.contains (n / 98304) = true)) = true ∧
    (let l : Nat := 5
     let h : Hdr := { hdr 4 with w := false }
     let p : HReq := { ha := 0x2000000040, pda := 5, tag := 0x0201, op := 3, nowait := false, lcap := false, x := 2000000, wdata := 9 }
     let s : State := stD 1 fun d => { d with objs := { d.objs with hmem := {  } }, boot := { d.boot with hmReady := true }  }
     decide (l < 312) &&
     decide (s.blk.rxOk (.dist l) h 4 10 false = true) &&
     let n := (p.ha.extractLsb' 0 27).toNat
     let rg := s.blk.hm.region (n / 98304)
     let w := s.blk.hm.get n
     decide (s.blk.hmWay p.ha = .here) &&
     decide (s.blk.dist.boot.hmReady = true) &&
     decide (n < 100663296) &&
     decide (s.blk.hm.scrub.contains (n / 98304) = false) &&
     decide (s.blk.hm.waits = []) &&
     decide (h.w = false) &&
     decide (rg.world = true)) = true ∧
    (let l : Nat := 5
     let h : Hdr := hdr 4
     let p : HReq := { ha := 0x2000000040, pda := 5, tag := 0x0201, op := 3, nowait := false, lcap := false, x := 2000000, wdata := 9 }
     let s : State := stD 1 fun d => { d with objs := { d.objs with hmem := { regions := [(0, { world := true, ledger := true })] } }, boot := { d.boot with hmReady := true }  }
     decide (l < 312) &&
     decide (s.blk.rxOk (.dist l) h 4 10 false = true) &&
     let n := (p.ha.extractLsb' 0 27).toNat
     let rg := s.blk.hm.region (n / 98304)
     let w := s.blk.hm.get n
     decide (s.blk.hmWay p.ha = .here) &&
     decide (s.blk.dist.boot.hmReady = true) &&
     decide (n < 100663296) &&
     decide (s.blk.hm.scrub.contains (n / 98304) = false) &&
     decide (s.blk.hm.waits = []) &&
     decide (rg.ledger = true) &&
     decide (p.lcap = false) &&
     decide ((h.w = true ∨ rg.world = false))) = true ∧
    (let l : Nat := 5
     let h : Hdr := hdr 4
     let p : HReq := { ha := 0x2000000040, pda := 5, tag := 0x0201, op := 3, nowait := false, lcap := false, x := 2000000, wdata := 9 }
     let s : State := stD 1 fun d => { d with objs := { d.objs with hmem := {  } }, boot := { d.boot with hmReady := true }  }
     decide (l < 312) &&
     decide (s.blk.rxOk (.dist l) h 4 10 false = true) &&
     let n := (p.ha.extractLsb' 0 27).toNat
     let rg := s.blk.hm.region (n / 98304)
     let w := s.blk.hm.get n
     let now := p.nowait || p.tag.extractLsb' 12 4 != 0
     decide (s.blk.hmWay p.ha = .here) &&
     decide (s.blk.dist.boot.hmReady = true) &&
     decide (n < 100663296) &&
     decide (s.blk.hm.scrub.contains (n / 98304) = false) &&
     decide (s.blk.hm.waits = []) &&
     decide (rg.ledger = false) &&
     decide (w.ecc = .good) &&
     decide (s.blk.hmBadRow n = false) &&
     decide ((h.w = true ∨ rg.world = false ∧ w.w = false)) &&
     let r := { status := 0, full := true, w := true }
     let x := ⟨9, true, true, .good⟩
     decide (wordOp p.op.toNat p.wdata (!now) rg.world w = some (r, x))) = true ∧
    (let l : Nat := 5
     let h : Hdr := hdr 4
     let p : HReq := { ha := 0x2000000040, pda := 5, tag := 0x0201, op := 0, nowait := false, lcap := false, x := 900000, wdata := 9 }
     let s : State := stD 1 fun d => { d with objs := { d.objs with hmem := {  } }, boot := { d.boot with hmReady := true }  }
     decide (l < 312) &&
     decide (s.blk.rxOk (.dist l) h 4 10 false = true) &&
     let n := (p.ha.extractLsb' 0 27).toNat
     let rg := s.blk.hm.region (n / 98304)
     let w := s.blk.hm.get n
     let now := p.nowait || p.tag.extractLsb' 12 4 != 0
     decide (s.blk.hmWay p.ha = .here) &&
     decide (s.blk.dist.boot.hmReady = true) &&
     decide (n < 100663296) &&
     decide (s.blk.hm.scrub.contains (n / 98304) = false) &&
     decide (s.blk.hm.waits = []) &&
     decide (rg.ledger = false) &&
     decide (w.ecc = .good) &&
     decide (s.blk.hmBadRow n = false) &&
     decide ((h.w = true ∨ rg.world = false ∧ w.w = false)) &&
     decide (wordOp p.op.toNat p.wdata (!now) rg.world w = none)) = true ∧
    (let l : Nat := 5
     let h : Hdr := hdr 4
     let p : HReq := { ha := 0x4000000040, pda := 5, tag := 0x0201, op := 3, nowait := false, lcap := false, x := 2000000, wdata := 9 }
     let s : State := stD 1 fun d => { d with objs := { d.objs with hmem := {  } }, boot := { d.boot with hmReady := true }  }
     decide (l < 312) &&
     decide (s.blk.rxOk (.dist l) h 4 10 false = true) &&
     let n := (p.ha.extractLsb' 0 27).toNat
     let k := 288
     decide (s.blk.hmWay p.ha ≠ .here) &&
     decide (s.blk.hmLane p.ha = some k) &&
     decide ((s.blk.lane (.dist k)).reg.featEff.getLsbD 10 = true)) = true ∧
    (let l : Nat := 5
     let h : Hdr := hdr 4
     let p : HReq := { ha := 0x2100000040, pda := 5, tag := 0x0201, op := 3, nowait := false, lcap := false, x := 2000000, wdata := 9 }
     let s : State := stD 3 fun d => { d with objs := { d.objs with hmem := {  } }, boot := { d.boot with hmReady := true }  }
     decide (l < 312) &&
     decide (s.blk.rxOk (.dist l) h 4 10 false = true) &&
     let n := (p.ha.extractLsb' 0 27).toNat
     decide (s.blk.hmWay p.ha ≠ .here) &&
     decide (s.blk.hmLane p.ha = none)) = true ∧
    (let l : Nat := 5
     let h : Hdr := hdr 4
     let ha : BitVec 39 := 0x2000000040
     let pda : BitVec 16 := 5
     let tag : BitVec 16 := 0x0201
     let s : State := stD 1 fun d => { d with objs := { d.objs with hmem := { waits := [⟨{ ha := 0x2000000040, pda := 5, tag := 0x0201, op := 3, nowait := false, lcap := false, x := 2000000, wdata := 9 }, true⟩] } }, boot := { d.boot with hmReady := true }  }
     decide (l < 312) &&
     decide (s.blk.rxOk (.dist l) h 4 10 false = true) &&
     decide (s.blk.hmWay ha = .here)) = true ∧
    (let l : Nat := 5
     let h : Hdr := hdr 4
     let ha : BitVec 39 := 0x4000000040
     let pda : BitVec 16 := 5
     let tag : BitVec 16 := 0x0201
     let s : State := stD 1 fun d => { d with objs := { d.objs with hmem := {  } }, boot := { d.boot with hmReady := true }  }
     decide (l < 312) &&
     decide (s.blk.rxOk (.dist l) h 4 10 false = true) &&
     let k := 288
     decide (s.blk.hmWay ha ≠ .here) &&
     decide (s.blk.hmLane ha = some k)) = true ∧
    (let l : Nat := 5
     let h : Hdr := hdr 4
     let ha : BitVec 39 := 0x2000000040
     let pda : BitVec 16 := 5
     let tag : BitVec 16 := 0x0201
     let s : State := stD 1 fun d => { d with objs := { d.objs with hmem := {  } }, boot := { d.boot with hmReady := true }  }
     decide (l < 312) &&
     decide (s.blk.rxOk (.dist l) h 4 10 false = true)) = true ∧
    (∃ (pl : Plane) (h : Hdr) (p : HReq) (ha : BitVec 39) (pda : BitVec 16) (tag : BitVec 16) (s : State), s.blk.rxOk (.tsu pl) h 4 10 false = true) ∧
    (∃ (pl : Plane) (h : Hdr) (p : HReq) (ha : BitVec 39) (pda : BitVec 16) (tag : BitVec 16) (s : State), s.blk.rxOk (.tsu pl) h 4 10 false = true) ∧
    (∃ (pda : BitVec 16) (tag : BitVec 16) (q : HWait) (s : State), (s.blk.hm.waits.find? fun q => q.p.pda == pda && q.p.tag == tag) = some q ∧ Tick.le q.p.x s.blk.dist.time.tc64 = true) ∧
    (∃ (pda : BitVec 16) (tag : BitVec 16) (q : HWait) (s : State), (s.blk.hm.waits.find? fun q => q.p.pda == pda && q.p.tag == tag) = some q ∧ Tick.le q.p.x s.blk.dist.time.tc64 = false) ∧
    (let pl : Plane := .A
     let h : Hdr := hdr 4
     let r : HResp := ⟨5, 0x001A, 0, true, true, false, false, 7⟩
     let s : State := stI fun t => { t with hall := { out := [⟨0x001A, 0x2000000040, 5, 900000, .A, true⟩] }  }
     decide (s.blk.rxOk (.tsu pl) h 4 10 false = true) &&
     let g : HOut := ⟨0x001A, 0x2000000040, 5, 900000, .A, true⟩
     let i : Nat := 26
     decide ((s.blk.tsu.hall.out.find? fun x => x.tag == r.tag) = some g) &&
     decide (hallSrc g.tag = .slot i) &&
     decide (r.status ≠ 0x0C)) = true ∧
    (let pl : Plane := .A
     let h : Hdr := hdr 4
     let r : HResp := ⟨5, 0x001A, 0, true, true, false, false, 7⟩
     let s : State := stI fun t => { t with hall := { out := [] }  }
     decide (s.blk.rxOk (.tsu pl) h 4 10 false = true) &&
     decide ((s.blk.tsu.hall.out.find? fun x => x.tag == r.tag) = none) &&
     decide ((s.blk.tsu.hall.gone.find? fun x => x.tag == r.tag) = none)) = true ∧
    (let tag : BitVec 16 := 0x001A
     let g : HOut := ⟨0x001A, 0x2000000040, 5, 990000, .A, true⟩
     let i : Nat := 26
     let s : State := stI fun t => { t with hall := { out := [⟨0x001A, 0x2000000040, 5, 990000, .A, true⟩] }  }
     decide ((s.blk.tsu.hall.out.find? fun x => x.tag == tag) = some g) &&
     decide (hallSrc g.tag = .slot i) &&
     let x := g.x + s.blk.tsu.hall.grace.setWidth 64
     decide (Tick.le x s.blk.tsu.time.tc64 = false)) = true ∧
    (let tag : BitVec 16 := 0x001A
     let g : HOut := ⟨0x001A, 0x2000000040, 5, 900000, .A, true⟩
     let i : Nat := 26
     let s : State := stI fun t => { t with hall := { out := [⟨0x001A, 0x2000000040, 5, 900000, .A, true⟩] } , time := { tc64 := 1000001 } }
     decide ((s.blk.tsu.hall.out.find? fun x => x.tag == tag) = some g) &&
     decide (hallSrc g.tag = .slot i) &&
     let x := g.x + s.blk.tsu.hall.grace.setWidth 64
     decide (Tick.le x s.blk.tsu.time.tc64 = true)) = true ∧
    (∃ (r : BitVec 10) (s : State), s.blk.hm.waits = [] ∧ s.blk.hm.held = [] ∧
      s.blk.hm.scrub.contains r.toNat = false) ∧
    (∃ (r : BitVec 10) (s : State), s.blk.hm.waits = [] ∧ s.blk.hm.held = [] ∧
      s.blk.hm.scrub.contains r.toNat = true) ∧
    (∃ (s : State), s.blk.dist.mod.powered = true ∧ s.blk.dist.boot.fuseDone = true ∧
      s.blk.dist.boot.hmReady = false) :=
  ⟨by decide +kernel,
   by decide +kernel,
   by decide +kernel,
   by decide +kernel,
   by decide +kernel,
   by decide +kernel,
   by decide +kernel,
   by decide +kernel,
   by decide +kernel,
   by decide +kernel,
   by decide +kernel,
   ⟨.A, hdr 4, { ha := 0x2000000040, pda := 5, tag := 0x0201, op := 3, nowait := false, lcap := false, x := 2000000, wdata := 9 }, 0x2000000040, 5, 0x0201, stI id, by decide +kernel⟩,
   ⟨.A, hdr 4, { ha := 0x2000000040, pda := 5, tag := 0x0201, op := 3, nowait := false, lcap := false, x := 2000000, wdata := 9 }, 0x2000000040, 5, 0x0201, stI id, by decide +kernel⟩,
   ⟨5, 0x0201, ⟨{ ha := 0x2000000040, pda := 5, tag := 0x0201, op := 0, nowait := false, lcap := false, x := 900000, wdata := 9 }, true⟩, stD 1 fun d => { d with objs := { d.objs with hmem := { waits := [⟨{ ha := 0x2000000040, pda := 5, tag := 0x0201, op := 0, nowait := false, lcap := false, x := 900000, wdata := 9 }, true⟩, ⟨{ ha := 0x2000000040, pda := 5, tag := 9, op := 3, nowait := false, lcap := false, x := 2000000, wdata := 9 }, true⟩] } }, boot := { d.boot with hmReady := true }  }, by decide +kernel⟩,
   ⟨5, 0x0201, ⟨{ ha := 0x2000000040, pda := 5, tag := 0x0201, op := 3, nowait := false, lcap := false, x := 2000000, wdata := 9 }, true⟩, stD 1 fun d => { d with objs := { d.objs with hmem := { waits := [⟨{ ha := 0x2000000040, pda := 5, tag := 0x0201, op := 3, nowait := false, lcap := false, x := 2000000, wdata := 9 }, true⟩] } }, boot := { d.boot with hmReady := true }  }, by decide +kernel⟩,
   by decide +kernel,
   by decide +kernel,
   by decide +kernel,
   by decide +kernel,
   ⟨3, stD 1 fun d => { d with objs := { d.objs with hmem := { scrub := [0] } }, boot := { d.boot with hmReady := true }  }, by decide +kernel⟩,
   ⟨0, stD 1 fun d => { d with objs := { d.objs with hmem := { scrub := [0, 4], words := [(5, ⟨3, true, false, .good⟩)], regions := [(0, { world := false })] } }, boot := { d.boot with hmReady := true }  }, by decide +kernel⟩,
   ⟨stD 1 fun d => { d with objs := { d.objs with hmem := { words := [(5, ⟨3, true, false, .good⟩)], regions := [(0, { world := false })] } }, boot := { d.boot with hmReady := false }  }, by decide +kernel⟩⟩

/-- An image of ITYPE 2 with no body, and the START and the delivery of it. -/
def imgHead : Bytes := toLE 4 0x4D495A48 ++ toLE 2 2 ++ toLE 2 1 ++ toLE 12 0 ++ toLE 8 7 ++ toLE 4 3
def imgGood : Bytes := imgHead ++ toLE 4 (crc32c imgHead).toNat
def imgSt (n : BitVec 16) : ImgStart := ⟨7, 36, n, 2, 0, sha256 imgGood⟩
def imgA (k : BitVec 16) : ImgAddr := ⟨1, k, 3, false⟩

theorem test_wit_ImageTargets :
    (let p : Plane := .B
     let h : Hdr := hdr 6
     let m : ImgStart := { imgSt 3 with target := 1 }
     let s : State := stI id
     decide (s.blk.rxOk (.tsu p) h 6 3 false = true) &&
     decide (m.target ≠ 0)) = true ∧
    (let p : Plane := .B
     let h : Hdr := hdr 6
     let m : ImgStart := imgSt 3
     let s : State := stI fun t => { t with img := { next := [(2, 6)], dropped := 3, ih := 9 } , cat := { t.cat with lstate := 2, vals := [(catKey 0x7201 1, toLE 8 0x100000), (catKey 0x7201 2, toLE 4 4096)] } }
     decide (s.blk.rxOk (.tsu p) h 6 3 false = true) &&
     decide (m.target = 0) &&
     decide (s.blk.tsu.img.st = 0) &&
     decide (s.blk.tsu.img.untaken = false) &&
     decide (imgTakes .tsu m.itype.toNat = true) &&
     decide (s.blk.catNat .tsu 0x7201 2 ≠ 0) &&
     decide (m.total.toNat ≤ s.blk.catNat .tsu 0x7201 2) &&
     decide (m.nblk ≠ 0)) = true ∧
    (let p : Plane := .B
     let h : Hdr := hdr 6
     let a : ImgAddr := imgA 2
     let s : State := stI fun t => { t with img := { ih := 1, group := 3, start := ⟨7, 36, 3, 2, 0, []⟩, st := 1, got := [(0, true)] } , cat := { t.cat with lstate := 2, vals := [(catKey 0x7201 1, toLE 8 0x100000), (catKey 0x7201 2, toLE 4 4096)] } }
     decide (s.blk.rxOk (.tsu p) h 6 3 false = true) &&
     let x := s.blk.tsu.img
     let k := a.block.toNat
     decide (x.mine a = true) &&
     decide ((x.st = 1 ∨ x.st = 2)) &&
     decide (k < x.start.nblk.toNat) &&
     decide (smGet false x.got k = false) &&
     decide (s.blk.tsu.boot.inCloak = false) &&
     decide (x.writes.length < 16)) = true ∧
    (let p : Plane := .B
     let h : Hdr := hdr 6
     let a : ImgAddr := imgA 2
     let s : State := stI fun t => { t with img := { ih := 1, group := 3, start := ⟨7, 36, 3, 2, 0, []⟩, st := 1, writes := List.replicate 16 1 }  }
     decide (s.blk.rxOk (.tsu p) h 6 3 false = true) &&
     let x := s.blk.tsu.img
     let k := a.block.toNat
     decide (x.mine a = true) &&
     decide ((x.st = 1 ∨ x.st = 2)) &&
     decide (k < x.start.nblk.toNat) &&
     decide (smGet false x.got k = false) &&
     decide (16 ≤ x.writes.length)) = true ∧
    (let p : Plane := .B
     let h : Hdr := hdr 6
     let a : ImgAddr := imgA 2
     let s : State := stI fun t => { t with img := { ih := 1, group := 3, start := ⟨7, 36, 3, 2, 0, []⟩, st := 1, got := [(2, true)] }  }
     decide (s.blk.rxOk (.tsu p) h 6 3 false = true) &&
     let x := s.blk.tsu.img
     let k := a.block.toNat
     decide (smGet false x.got k = true)) = true ∧
    (let p : Plane := .B
     let h : Hdr := hdr 6
     let a : ImgAddr := imgA 2
     let s : State := stI fun t => { t with img := { ih := 1, group := 3, start := ⟨7, 36, 3, 2, 0, []⟩, st := 1, got := [(0, true), (1, true), (2, true)] }  }
     decide (s.blk.rxOk (.tsu p) h 6 3 false = true) &&
     decide (s.blk.tsu.img.mine a = true) &&
     let x := s.blk.tsu.img
     decide (x.st = 1) &&
     decide (x.ended = false) &&
     decide (x.missing = [])) = true ∧
    (let p : Plane := .B
     let h : Hdr := hdr 6
     let a : ImgAddr := imgA 2
     let s : State := stI fun t => { t with img := { ih := 1, group := 3, start := ⟨7, 36, 3, 2, 0, []⟩, st := 1, got := [(1, true)], planeA := true }  }
     decide (s.blk.rxOk (.tsu p) h 6 3 false = true) &&
     decide (s.blk.tsu.img.mine a = true) &&
     let x := s.blk.tsu.img
     decide (x.st = 1) &&
     decide (x.ended = false) &&
     decide (x.missing ≠ [])) = true ∧
    (let p : Plane := .B
     let h : Hdr := hdr 6
     let a : ImgAddr := imgA 2
     let t0 : BitVec 64 := 1000500
     let s : State := stI fun t => { t with img := { ih := 1, group := 3, start := ⟨7, 36, 3, 2, 0, []⟩, st := 4 }  }
     decide (s.blk.rxOk (.tsu p) h 6 3 false = true) &&
     decide (s.blk.tsu.img.mine a = true) &&
     let x := s.blk.tsu.img
     decide (x.st = 4) &&
     decide (x.tAct = none) &&
     decide (Tick.le s.blk.tsu.time.tc64 t0 = true)) = true ∧
    (let p : Plane := .B
     let h : Hdr := hdr 6
     let a : ImgAddr := imgA 2
     let t0 : BitVec 64 := 999999
     let s : State := stI fun t => { t with img := { ih := 1, group := 3, start := ⟨7, 36, 3, 2, 0, []⟩, st := 4, planeA := true }  }
     decide (s.blk.rxOk (.tsu p) h 6 3 false = true) &&
     decide (s.blk.tsu.img.mine a = true) &&
     let x := s.blk.tsu.img
     decide (x.st = 4) &&
     decide (x.tAct = none) &&
     decide (Tick.le s.blk.tsu.time.tc64 t0 = false)) = true ∧
    (let p : Plane := .B
     let h : Hdr := hdr 6
     let a : ImgAddr := imgA 2
     let s : State := stI fun t => { t with img := { ih := 1, group := 3, start := ⟨7, 36, 3, 2, 0, []⟩, st := 6, next := [(2, 6)], prev := [(2, 5), (4, 1)], tAct := some 5, untaken := true }  }
     decide (s.blk.rxOk (.tsu p) h 6 3 false = true) &&
     decide (s.blk.tsu.img.mine a = true) &&
     let x := s.blk.tsu.img
     decide (x.st = 6)) = true ∧
    (let p : Plane := .B
     let h : Hdr := hdr 6
     let a : ImgAddr := imgA 2
     let s : State := stI fun t => { t with img := { ih := 1, group := 3, start := ⟨7, 36, 3, 2, 0, []⟩, st := 4, next := [(2, 6)], prev := [(2, 5), (4, 1)], tAct := some 5, untaken := true }  }
     decide (s.blk.rxOk (.tsu p) h 6 3 false = true) &&
     decide (s.blk.tsu.img.mine a = true) &&
     let x := s.blk.tsu.img
     decide (x.st ≠ 6) &&
     decide (x.st ≠ 8)) = true ∧
    (let img : Bytes := imgGood
     let s : State := stI fun t => { t with img := { ih := 1, group := 3, start := ⟨7, 36, 3, 2, 0, []⟩, st := 1 }  }
     let x := s.blk.tsu.img
     decide (x.writes = [])) = true ∧
    (let resp : BitVec 2 := 1
     let img : Bytes := imgGood
     let s : State := stI fun t => { t with img := { ih := 1, group := 3, start := ⟨7, 36, 3, 2, 0, []⟩, st := 1, writes := [2, 1], planeA := true }  }
     let x := s.blk.tsu.img
     let k := 2
     let rest := [1]
     decide (x.writes = k :: rest) &&
     decide (x.st = 1) &&
     decide (resp ≠ 0)) = true ∧
    (let resp : BitVec 2 := 0
     let img : Bytes := imgGood
     let s : State := stI fun t => { t with img := { ih := 1, group := 3, start := ⟨7, 36, 3, 2, 0, []⟩, st := 1, writes := [2, 1], got := [(1, true), (2, true)] }  }
     let x := s.blk.tsu.img
     let k := 2
     let rest := [1]
     decide (x.writes = k :: rest) &&
     decide (x.st = 1) &&
     decide (resp = 0) &&
     decide (x.missing ≠ [])) = true ∧
    (let resp : BitVec 2 := 0
     let img : Bytes := imgGood
     let s : State := stI fun t => { t with img := { ih := 1, group := 3, start := ⟨7, 36, 3, 2, 0, []⟩, st := 1, writes := [2], got := [(0, true), (1, true), (2, true)] } , cat := { t.cat with lstate := 2, vals := [(catKey 0x7201 1, toLE 8 0x100000), (catKey 0x7201 2, toLE 4 4096)] } }
     let x := s.blk.tsu.img
     let k := 2
     decide (x.writes = [k]) &&
     decide (x.st = 1) &&
     decide (resp = 0) &&
     decide (x.missing = [])) = true ∧
    (let img : Bytes := imgGood
     let s : State := stI fun t => { t with img := { ih := 1, group := 3, start := ⟨7, 36, 3, 2, 0, []⟩, st := 4 }  }
     let x := s.blk.tsu.img
     decide (x.st ≠ 3)) = true ∧
    (let resp : BitVec 2 := 3
     let img : Bytes := imgGood
     let s : State := stI fun t => { t with img := { ih := 1, group := 3, start := ⟨7, 36, 3, 2, 0, []⟩, st := 3 }  }
     let x := s.blk.tsu.img
     decide (x.st = 3) &&
     decide (resp ≠ 0)) = true ∧
    (let resp : BitVec 2 := 0
     let img : Bytes := imgGood
     let s : State := stI fun t => { t with img := { ih := 1, group := 3, start := imgSt 1, st := 3, planeB := true }  }
     let x := s.blk.tsu.img
     decide (x.st = 3) &&
     decide (resp = 0) &&
     decide (imgVerify false s.blk.tsu.boot.unitId x.start img = 0)) = true ∧
    (let resp : BitVec 2 := 0
     let img : Bytes := imgGood
     let s : State := stI fun t => { t with img := { ih := 1, group := 3, start := ⟨7, 36, 3, 2, 0, []⟩, st := 3, planeB := true }  }
     let x := s.blk.tsu.img
     let r := 5
     decide (x.st = 3) &&
     decide (resp = 0) &&
     decide (imgVerify false s.blk.tsu.boot.unitId x.start img = r) &&
     decide (r ≠ 0)) = true ∧
    (let img : Bytes := imgGood
     let s : State := stI fun t => { t with img := { ih := 1, group := 3, start := imgSt 1, st := 4, tAct := some 1000001, next := [(2, 4)] }  }
     let x := s.blk.tsu.img
     let t0 := 1000001
     decide (x.tAct = some t0) &&
     decide (x.st = 4) &&
     decide (Tick.le t0 s.blk.tsu.time.tc64 = false)) = true ∧
    (let img : Bytes := imgGood
     let s : State := stI fun t => { t with img := { ih := 1, group := 3, start := imgSt 1, st := 4, tAct := some 1000000, next := [(2, 4)], planeA := true }  }
     let x := s.blk.tsu.img
     let t0 := 1000000
     decide (x.tAct = some t0) &&
     decide (x.st = 4) &&
     decide (Tick.le t0 s.blk.tsu.time.tc64 = true)) = true ∧
    (let img : Bytes := imgGood
     let s : State := stI fun t => { t with img := { ih := 1, group := 3, start := ⟨7, 36, 3, 2, 0, []⟩, st := 2, rounds := 100, nackAt := 400000, got := [(1, true)], planeA := true } , time := { tc64 := 900000000 } }
     let x := s.blk.tsu.img
     decide (x.st = 2) &&
     decide ((s.blk.catNat .tsu 0x7220 1 : Int) ≤ Tick.diff s.blk.tsu.time.tc64 x.nackAt) &&
     decide (x.missing ≠ []) &&
     decide (s.blk.catNat .tsu 0x7220 2 ≤ x.rounds)) = true ∧
    (let img : Bytes := imgGood
     let s : State := stI fun t => { t with img := { ih := 1, group := 3, start := ⟨7, 36, 3, 2, 0, []⟩, st := 2, rounds := 0, nackAt := 400000, got := [(1, true)], planeB := true } , time := { tc64 := 900000000 } }
     let x := s.blk.tsu.img
     decide (x.st = 2) &&
     decide ((s.blk.catNat .tsu 0x7220 1 : Int) ≤ Tick.diff s.blk.tsu.time.tc64 x.nackAt) &&
     decide (x.missing ≠ []) &&
     decide (x.rounds < s.blk.catNat .tsu 0x7220 2)) = true ∧
    (let img : Bytes := imgGood
     let s : State := stI fun t => { t with img := { ih := 1, group := 3, start := ⟨7, 36, 3, 2, 0, []⟩, st := 1 }  }
     let x := s.blk.tsu.img
     decide (x.st ≠ 2)) = true ∧
    (let img : Bytes := imgGood
     let s : State := stI fun t => { t with img := { ih := 1, group := 3, start := ⟨7, 36, 3, 2, 0, []⟩, st := 1, startAt := 400000, got := [(0, true), (1, true), (2, true)] } , time := { tc64 := 900000000 } }
     let x := s.blk.tsu.img
     decide (((x.start.nblk.toNat * 64 + s.blk.catNat .tsu 0x7220 1 : Nat) : Int) ≤ Tick.diff s.blk.tsu.time.tc64 x.startAt) &&
     decide (x.st = 1) &&
     decide (x.ended = false) &&
     decide (x.missing = [])) = true :=
  ⟨by decide +kernel,
   by decide +kernel,
   by decide +kernel,
   by decide +kernel,
   by decide +kernel,
   by decide +kernel,
   by decide +kernel,
   by decide +kernel,
   by decide +kernel,
   by decide +kernel,
   by decide +kernel,
   by decide +kernel,
   by decide +kernel,
   by decide +kernel,
   by decide +kernel,
   by decide +kernel,
   by decide +kernel,
   by decide +kernel,
   by decide +kernel,
   by decide +kernel,
   by decide +kernel,
   by decide +kernel,
   by decide +kernel,
   by decide +kernel,
   by decide +kernel⟩

/-- A transmission's record, staged. -/
def txRec (t0 : Nat) (hash : Bytes) : List (Nat × Bytes) :=
  [(0x721001, [1]), (0x721002, [7, 0]), (0x721003, [0]), (0x721004, hash), (0x721005, [128, 0]), (0x721006, toLE 8 t0)]
/-- The cache slot 1 of a distributor, in use for the group 7. -/
def slot7 (n : BitVec 16) : ImgSlot := { used := true, group := 7, start := imgSt n, blocks := [(0, [1, 2])] }

theorem test_wit_ImageDelivery :
    (let n : Nat := 288
     let h : Hdr := hdr 6
     let a : ImgAddr := ⟨1, 2, 7, false⟩
     let m : ImgStart := imgSt 3
     let s : State := stD 1 fun d => { d with slots := [(1, { slot7 3 with  })], objs := { d.objs with groups := [(7, 0x21)] }  }
     decide (288 ≤ n) &&
     decide (n < 312) &&
     decide (s.blk.rxOk (.dist n) h 6 3 false = true) &&
     decide (a.ih.toNat < 4) &&
     let i := a.ih.toNat
     decide (m.target = 0) &&
     decide (a.group.toNat < 4096)) = true ∧
    (let n : Nat := 288
     let h : Hdr := hdr 6
     let a : ImgAddr := ⟨1, 2, 4096, false⟩
     let m : ImgStart := imgSt 3
     let s : State := stD 1 fun d => { d with slots := [(1, { slot7 3 with  })], objs := { d.objs with groups := [(7, 0x21)] }  }
     decide (288 ≤ n) &&
     decide (n < 312) &&
     decide (s.blk.rxOk (.dist n) h 6 3 false = true) &&
     decide (a.ih.toNat < 4) &&
     let i := a.ih.toNat
     decide (m.target ≠ 1) &&
     decide (4096 ≤ a.group.toNat)) = true ∧
    (let n : Nat := 288
     let h : Hdr := hdr 6
     let a : ImgAddr := ⟨1, 2, 7, false⟩
     let s : State := stD 1 fun d => { d with slots := [(1, { slot7 3 with waiters := [(2, 5), (1, 0)] })], objs := { d.objs with groups := [(7, 0x21)] }  }
     decide (288 ≤ n) &&
     decide (n < 312) &&
     decide (s.blk.rxOk (.dist n) h 6 3 false = true) &&
     decide (a.ih.toNat < 4) &&
     let i := a.ih.toNat
     let x := s.blk.slotOf i
     decide (x.start.target = 0) &&
     decide (x.used = true) &&
     decide (a.block.toNat < x.start.nblk.toNat) &&
     decide (a.repair = false)) = true ∧
    (let n : Nat := 288
     let h : Hdr := hdr 6
     let a : ImgAddr := ⟨1, 2, 7, false⟩
     let s : State := stD 1 fun d => { d with slots := [(1, { slot7 3 with  })], objs := { d.objs with groups := [(7, 0x21)] }  }
     decide (288 ≤ n) &&
     decide (n < 312) &&
     decide (s.blk.rxOk (.dist n) h 6 3 false = true) &&
     decide (a.ih.toNat < 4) &&
     let i := a.ih.toNat
     let x := s.blk.slotOf i
     decide (x.start.target = 0)) = true ∧
    (let n : Nat := 288
     let h : Hdr := hdr 6
     let a : ImgAddr := ⟨1, 2, 7, false⟩
     let s : State := stD 1 fun d => { d with slots := [(1, { slot7 3 with childs := [(0, (1, 0, 0, 0)), (5, (0, 1, 0, 0))] })], objs := { d.objs with groups := [(7, 0x21)] }  }
     decide (288 ≤ n) &&
     decide (n < 312) &&
     decide (s.blk.rxOk (.dist n) h 6 3 false = true) &&
     decide (a.ih.toNat < 4) &&
     let b := s.blk.rxBook (.dist n) h 6
     let i := a.ih.toNat
     let x := s.blk.slotOf i
     decide (x.start.target = 0)) = true ∧
    (let n : Nat := 288
     let h : Hdr := hdr 6
     let a : ImgAddr := ⟨1, 2, 7, false⟩
     let s : State := stD 1 fun d => { d with slots := [(1, { slot7 3 with childs := [(0, (1, 0, 0, 0)), (5, (0, 1, 0, 0))] })], objs := { d.objs with groups := [(7, 0x21)] }  }
     decide (288 ≤ n) &&
     decide (n < 312) &&
     decide (s.blk.rxOk (.dist n) h 6 3 false = true) &&
     decide (a.ih.toNat < 4) &&
     let b := s.blk.rxBook (.dist n) h 6
     let i := a.ih.toNat
     let x := s.blk.slotOf i
     decide (x.start.target = 0)) = true ∧
    (let n : Nat := 24
     let h : Hdr := hdr 6
     let a : ImgAddr := ⟨1, 2, 7, false⟩
     let s : State := stD 3 fun d => { d with slots := [(1, { slot7 3 with closed := true, childs := [(0, (1, 0, 0, 0)), (5, (0, 1, 0, 0))] })], objs := { d.objs with groups := [(7, 0x21)] }  }
     decide (n < 288) &&
     decide (s.blk.rxOk (.dist n) h 6 3 false = true) &&
     decide (a.ih.toNat < 4) &&
     decide (s.blk.dRole = 3) &&
     let b := s.blk.rxBook (.dist n) h 6
     let i := a.ih.toNat
     true) = true ∧
    (let n : Nat := 24
     let h : Hdr := hdr 6
     let a : ImgAddr := ⟨1, 2, 7, false⟩
     let s : State := stD 3 fun d => { d with slots := [(1, { slot7 3 with closed := true, childs := [(0, (1, 0, 0, 0)), (5, (0, 1, 0, 0))] })], objs := { d.objs with groups := [(7, 0x21)] }  }
     decide (n < 288) &&
     decide (s.blk.rxOk (.dist n) h 6 3 false = true) &&
     decide (a.ih.toNat < 4) &&
     decide (s.blk.dRole = 3) &&
     let b := s.blk.rxBook (.dist n) h 6
     let i := a.ih.toNat
     true) = true ∧
    (let n : Nat := 5
     let h : Hdr := hdr 6
     let a : ImgAddr := ⟨1, 2, 7, false⟩
     let k : Nat := 2
     let d : Bytes := [9]
     let r : List (BitVec 16 × BitVec 16) := [(2, 5)]
     let s : State := stD 1 fun d => { d with slots := [(1, { slot7 3 with blocks := [(2, [9])] })], objs := { d.objs with groups := [(7, 0x21)] }  }
     decide (n < 288) &&
     decide (s.blk.rxOk (.dist n) h 6 3 false = true) &&
     decide (a.ih.toNat < 4) &&
     let x := s.blk.slotOf a.ih.toNat
     decide (x.used = true) &&
     decide (imgAsked x.start.nblk.toNat r = [k]) &&
     decide (x.blk k = d) &&
     decide (d ≠ [])) = true ∧
    (let n : Nat := 5
     let h : Hdr := hdr 6
     let a : ImgAddr := ⟨1, 2, 7, false⟩
     let k : Nat := 2
     let d : Bytes := []
     let r : List (BitVec 16 × BitVec 16) := [(2, 5)]
     let s : State := stD 1 fun d => { d with slots := [(1, { slot7 3 with  })], objs := { d.objs with groups := [(7, 0x21)] }  }
     decide (n < 288) &&
     decide (s.blk.rxOk (.dist n) h 6 3 false = true) &&
     decide (a.ih.toNat < 4) &&
     let x := s.blk.slotOf a.ih.toNat
     decide (x.used = true) &&
     decide (imgAsked x.start.nblk.toNat r = [k]) &&
     decide (x.blk k = d) &&
     decide (d = []) &&
     decide (x.waiters = [])) = true ∧
    (let i : Nat := 1
     let x : ImgTx := { active := true, startAt := 999617, next := 1, interval := 128 }
     let s : State := stD 3 fun d => { d with slots := [(1, { slot7 3 with  })], objs := { d.objs with groups := [(7, 0x21)] } , tx := [(1, { active := true, startAt := 999617, next := 1, interval := 128 })] }
     decide (s.blk.dist.tx = [(i, x)]) &&
     decide (i < 4) &&
     decide (x.active = true) &&
     let at_ : Tick := x.startAt + BitVec.ofNat 64 (256 + x.next * x.interval.toNat)
     decide (Tick.le at_ s.blk.dist.time.tc64 = false)) = true ∧
    (let i : Nat := 1
     let x : ImgTx := { active := true, startAt := 999616, next := 1, interval := 128 }
     let s : State := stD 3 fun d => { d with slots := [(1, { slot7 3 with blocks := [(1, [4])] })], objs := { d.objs with groups := [(7, 0x21)] } , tx := [(1, { active := true, startAt := 999616, next := 1, interval := 128 })] }
     decide (s.blk.dist.tx = [(i, x)]) &&
     decide (i < 4) &&
     decide (x.active = true) &&
     let sl := s.blk.slotOf i
     let at_ : Tick := x.startAt + BitVec.ofNat 64 (256 + x.next * x.interval.toNat)
     decide (Tick.le at_ s.blk.dist.time.tc64 = true) &&
     decide (x.next < sl.start.nblk.toNat)) = true ∧
    (let q : CatReq := ⟨.dist, .tree, true, 3, 9⟩
     let s : State := stD 3 fun d => { d with cat := { d.cat with stageS := txRec 2000000 [1, 2] }, slots := [(1, { slot7 1 with blocks := [(0, imgGood)] })], objs := { d.objs with groups := [(7, 0x03)] }  }
     decide (q.unit = .dist) &&
     decide (s.blk.distServes = true) &&
     decide (q.secure = true) &&
     decide (q.priv ≠ 0) &&
     decide (s.blk.dRole = 3) &&
     decide (s.blk.stagedOk q 0x7210 = true) &&
     let v := s.blk.staged q 0x7210
     let i := ofLE (v 1)
     let x := s.blk.slotOf i
     decide (36 + imgLen x.bytes ≤ 67108864) &&
     decide (sha256 (slice x.bytes 0 (36 + imgLen x.bytes)) ≠ slice (v 4) 0 32)) = true ∧
    (let q : CatReq := ⟨.dist, .tree, true, 3, 9⟩
     let s : State := stD 3 fun d => { d with cat := { d.cat with stageS := txRec 2000000 (sha256 imgGood) }, slots := [(1, { slot7 1 with blocks := [(0, imgGood)] })], objs := { d.objs with groups := [(7, 0x03)] }  }
     decide (q.unit = .dist) &&
     decide (s.blk.distServes = true) &&
     decide (q.secure = true) &&
     decide (q.priv ≠ 0) &&
     decide (s.blk.dRole = 3) &&
     decide (s.blk.stagedOk q 0x7210 = true) &&
     let v := s.blk.staged q 0x7210
     let i := ofLE (v 1)
     let x := s.blk.slotOf i
     decide (imgHdrOk x.bytes none = true) &&
     decide (36 + imgLen x.bytes = x.bytes.length) &&
     decide (x.bytes.length ≤ 67108864) &&
     decide (imgCrcOk x.bytes = true) &&
     decide (sha256 x.bytes = slice (v 4) 0 32) &&
     decide (ofLE (v 3) = 0) &&
     let bl := imgBlocks 32768 x.bytes
     let p : ImgStart := ⟨imgId x.bytes, BitVec.ofNat 32 x.bytes.length, BitVec.ofNat 16 bl.length,
             BitVec.ofNat 8 (imgType x.bytes), 0, sha256 x.bytes⟩
     let g : BitVec 16 := BitVec.ofNat 16 (ofLE (v 2))
     true) = true ∧
    (let q : CatReq := ⟨.dist, .tree, true, 3, 9⟩
     let s : State := stD 3 fun d => { d with cat := { d.cat with stageS := txRec 1062499 (sha256 imgGood) }, slots := [(1, { slot7 1 with blocks := [(0, imgGood)] })], objs := { d.objs with groups := [(7, 0x03)] }  }
     decide (q.unit = .dist) &&
     decide (s.blk.distServes = true) &&
     decide (q.secure = true) &&
     decide (q.priv ≠ 0) &&
     decide (s.blk.dRole = 3) &&
     decide (s.blk.stagedOk q 0x7210 = true) &&
     let v := s.blk.staged q 0x7210
     let i := ofLE (v 1)
     let x := s.blk.slotOf i
     let t0 : Tick := BitVec.ofNat 64 (ofLE (v 6))
     decide (Tick.diff t0 s.blk.dist.time.tc64 < 62500)) = true ∧
    (let q : CatReq := ⟨.dist, .tree, true, 3, 9⟩
     let s : State := stD 3 fun d => { d with cat := { d.cat with stageS := txRec 1062500 (sha256 imgGood) }, slots := [(1, { slot7 1 with blocks := [(0, imgGood)] })], objs := { d.objs with groups := [(7, 0x03)] }  }
     decide (q.unit = .dist) &&
     decide (s.blk.distServes = true) &&
     decide (q.secure = true) &&
     decide (q.priv ≠ 0) &&
     decide (s.blk.dRole = 3) &&
     decide (s.blk.stagedOk q 0x7210 = true) &&
     let v := s.blk.staged q 0x7210
     let i := ofLE (v 1)
     let x := s.blk.slotOf i
     let t0 : Tick := BitVec.ofNat 64 (ofLE (v 6))
     decide (62500 ≤ Tick.diff t0 s.blk.dist.time.tc64) &&
     decide (x.start.target = 0)) = true ∧
    (let q : CatReq := ⟨.dist, .tree, true, 3, 9⟩
     let s : State := stD 3 fun d => { d with cat := { d.cat with stageS := txRec 2000000 (sha256 imgGood) }, slots := [(1, { slot7 1 with blocks := [(0, imgGood)] })], objs := { d.objs with groups := [(7, 0x03)] } , tx := [(1, { active := true })] }
     decide (q.unit = .dist) &&
     decide (s.blk.distServes = true) &&
     decide (q.secure = true) &&
     decide (q.priv ≠ 0) &&
     decide (s.blk.dRole = 3) &&
     decide (s.blk.stagedOk q 0x7210 = true) &&
     let v := s.blk.staged q 0x7210
     let i := ofLE (v 1)
     let x := s.blk.slotOf i
     decide (x.start.target = 0)) = true :=
  ⟨by decide +kernel,
   by decide +kernel,
   by decide +kernel,
   by decide +kernel,
   by decide +kernel,
   by decide +kernel,
   by decide +kernel,
   by decide +kernel,
   by decide +kernel,
   by decide +kernel,
   by decide +kernel,
   by decide +kernel,
   by decide +kernel,
   by decide +kernel,
   by decide +kernel,
   by decide +kernel,
   by decide +kernel⟩

theorem test_wit_LaneStates :
    (let a : Access := sp
     let l : LaneRef := .tsu .A
     let s : State := stI fun t => { t with laneA := { upLane with reg := { upLane.reg with enable := false, shutting := true, state := .down } }  }
     decide (s.blk.lanePass a l = true) &&
     let b := s.blk
     let r := (b.lane l).reg
     decide (r.shutting = true)) = true ∧
    (let a : Access := sp
     let l : LaneRef := .tsu .A
     let s : State := stI fun t => { t with laneA := { upLane with reg := { upLane.reg with enable := true } }  }
     decide (s.blk.lanePass a l = true) &&
     let b := s.blk
     let r := (b.lane l).reg
     decide (r.shutting = false) &&
     decide (r.enable = true)) = true ∧
    (let a : Access := sp
     let l : LaneRef := .tsu .A
     let s : State := stI fun t => { t with laneA := { upLane with reg := { upLane.reg with enable := false, state := .down } }  }
     decide (s.blk.lanePass a l = true) &&
     let b := s.blk
     let r := (b.lane l).reg
     let p := .A
     decide (l = .tsu p) &&
     decide (r.shutting = false) &&
     decide (r.enable = false) &&
     decide (b.live = true) &&
     decide (b.linkOn p = true) &&
     decide (b.tsu.pwr.st ≠ .entering) &&
     decide (b.tsu.pwr.st ≠ .mitten)) = true ∧
    (let a : Access := sp
     let l : LaneRef := .dist 5
     let s : State := stD 1 fun d => { d with lanes := [(0, upLane), (5, { upLane with reg := { upLane.reg with enable := false, state := .down } }), (24, upLane), (288, upLane)]  }
     decide (s.blk.lanePass a l = true) &&
     let b := s.blk
     let r := (b.lane l).reg
     let n := 5
     decide (l = .dist n) &&
     decide (r.shutting = false) &&
     decide (r.enable = false) &&
     decide (b.dist.mod.powered = true) &&
     decide (r.bad = false) &&
     decide (r.cageOff = false) &&
     decide (b.roleUses n = true)) = true ∧
    (let a : Access := sp
     let l : LaneRef := .tsu .A
     let s : State := stI fun t => { t with laneA := { upLane with reg := { upLane.reg with enable := false, enPend := true, shutting := true, state := .down } }  }
     decide (s.blk.lanePass a l = true) &&
     let b := s.blk
     let r := (b.lane l).reg
     decide (r.enable = false)) = true ∧
    (let a : Access := sp
     let l : LaneRef := .tsu .A
     let s : State := stI fun t => { t with laneA := { upLane with reg := { upLane.reg with state := .training, failStarts := 2, backoff := true } }  }
     decide (s.blk.lanePass a l = true) &&
     let b := s.blk
     let r := (b.lane l).reg
     let p := .A
     decide (l = .tsu p) &&
     decide (r.enable = true) &&
     decide (r.state ≠ .up)) = true ∧
    (let a : Access := sp
     let l : LaneRef := .dist 5
     let s : State := stD 1 fun d => { d with lanes := [(0, upLane), (5, { upLane with reg := { upLane.reg with state := .training, failStarts := 2, backoff := true } }), (24, upLane), (288, upLane)]  }
     decide (s.blk.lanePass a l = true) &&
     let b := s.blk
     let r := (b.lane l).reg
     let n := 5
     decide (l = .dist n) &&
     decide (r.enable = true) &&
     decide (r.state ≠ .up)) = true ∧
    (let a : Access := sp
     let l : LaneRef := .tsu .A
     let s : State := stI fun t => { t with laneA := { upLane with reg := { upLane.reg with enable := false, state := .down } }  }
     decide (s.blk.lanePass a l = true) &&
     let b := s.blk
     let r := (b.lane l).reg
     decide ((r.state = .down ∨ r.state = .listen))) = true ∧
    (let a : Access := sp
     let l : LaneRef := .tsu .A
     let s : State := stI fun t => { t with laneA := { upLane with reg := { upLane.reg with state := .up } }  }
     decide (s.blk.lanePass a l = true) &&
     let b := s.blk
     let r := (b.lane l).reg
     decide (r.state ≠ .down) &&
     decide (r.state ≠ .listen)) = true ∧
    (let a : Access := sp
     let l : LaneRef := .tsu .A
     let s : State := stI fun t => { t with laneA := { upLane with reg := { upLane.reg with state := .up } }  }
     decide (s.blk.lanePass a l = true) &&
     let b := s.blk
     true) = true ∧
    (let l : LaneRef := .tsu .A
     let s : State := stI fun t => { t with laneA := { upLane with reg := { upLane.reg with state := .up } }  }
     decide (l.ok = true) &&
     let b := s.blk
     let r := (b.lane l).reg
     decide (r.shutting = false)) = true ∧
    (let l : LaneRef := .tsu .A
     let s : State := stI fun t => { t with laneA := { upLane with reg := { upLane.reg with shutting := true, enable := false, state := .down } }  }
     decide (l.ok = true) &&
     let b := s.blk
     let r := (b.lane l).reg
     decide (r.shutting = true) &&
     decide (r.enPend = false)) = true ∧
    (let l : LaneRef := .tsu .A
     let s : State := stI fun t => { t with laneA := { upLane with reg := { upLane.reg with shutting := true, enPend := true, enable := false, state := .down } }  }
     decide (l.ok = true) &&
     let b := s.blk
     let r := (b.lane l).reg
     decide (r.shutting = true) &&
     decide (r.enPend = true)) = true ∧
    (let l : LaneRef := .tsu .A
     let s : State := stI fun t => { t with laneA := { upLane with reg := { upLane.reg with state := .training, fullTrain := false } }  }
     decide (l.ok = true) &&
     let b := s.blk
     let r := (b.lane l).reg
     let eye := (5 : BitVec 8)
     decide (r.state = .training) &&
     decide (r.backoff = false) &&
     decide (r.fullTrain = false) &&
     decide (eye.toNat < b.eyeFail (laneUnit l))) = true ∧
    (let l : LaneRef := .tsu .A
     let s : State := stI fun t => { t with laneA := { upLane with reg := { upLane.reg with state := .training, fullTrain := true } }  }
     decide (l.ok = true) &&
     let b := s.blk
     let r := (b.lane l).reg
     let eye := (5 : BitVec 8)
     decide (r.state = .training) &&
     decide (r.backoff = false) &&
     decide (r.fullTrain = true ∨ b.eyeFail (laneUnit l) ≤ eye.toNat)) = true ∧
    (let l : LaneRef := .tsu .A
     let s : State := stI fun t => { t with laneA := { upLane with reg := { upLane.reg with state := .aligning } }  }
     decide (l.ok = true) &&
     let b := s.blk
     let r := (b.lane l).reg
     decide (r.state = .aligning)) = true ∧
    (let l : LaneRef := .tsu .A
     let s : State := stI fun t => { t with laneA := { upLane with reg := { upLane.reg with state := .up } }  }
     decide (l.ok = true) &&
     let b := s.blk
     let r := (b.lane l).reg
     decide (r.state ≠ .aligning)) = true ∧
    (let l : LaneRef := .tsu .A
     let s : State := stI fun t => { t with laneA := { upLane with reg := { upLane.reg with state := .aligning, failStarts := 2 } }  }
     decide (l.ok = true) &&
     let b := s.blk
     let r := (b.lane l).reg
     decide ((r.state = .training ∨ r.state = .aligning ∨ r.state = .negotiating)) &&
     decide (r.backoff = false) &&
     decide (2 ≤ r.failStarts)) = true ∧
    (let l : LaneRef := .tsu .A
     let s : State := stI fun t => { t with laneA := { upLane with reg := { upLane.reg with state := .aligning, failStarts := 1 } }  }
     decide (l.ok = true) &&
     let b := s.blk
     let r := (b.lane l).reg
     decide ((r.state = .training ∨ r.state = .aligning ∨ r.state = .negotiating)) &&
     decide (r.backoff = false) &&
     decide (r.failStarts < 2)) = true ∧
    (let l : LaneRef := .tsu .A
     let s : State := stI fun t => { t with laneA := { upLane with reg := { upLane.reg with state := .training, backoff := true } }  }
     decide (l.ok = true) &&
     let b := s.blk
     let r := (b.lane l).reg
     decide (r.backoff = true)) = true ∧
    (let l : LaneRef := .tsu .A
     let s : State := stI fun t => { t with laneA := { upLane with reg := { upLane.reg with state := .training, backoff := true } }  }
     decide (l.ok = true) &&
     let b := s.blk
     let r := (b.lane l).reg
     decide (r.backoff = true)) = true ∧
    (let l : LaneRef := .tsu .A
     let s : State := stI fun t => { t with laneA := { upLane with reg := { upLane.reg with state := .training } }  }
     decide (l.ok = true) &&
     let b := s.blk
     let r := (b.lane l).reg
     decide (r.backoff = false)) = true ∧
    (let l : LaneRef := .tsu .A
     let s : State := stI fun t => { t with laneA := { upLane with reg := { upLane.reg with state := .negotiating, failStarts := 2 } }  }
     decide (l.ok = true) &&
     let b := s.blk
     let r := (b.lane l).reg
     decide (r.state = .negotiating) &&
     decide (2 ≤ r.failStarts)) = true ∧
    (let l : LaneRef := .tsu .A
     let s : State := stI fun t => { t with laneA := { upLane with reg := { upLane.reg with state := .negotiating, failStarts := 1 } }  }
     decide (l.ok = true) &&
     let b := s.blk
     let r := (b.lane l).reg
     decide (r.state = .negotiating) &&
     decide (r.failStarts < 2)) = true ∧
    (let l : LaneRef := .tsu .A
     let s : State := stI fun t => { t with laneA := { upLane with reg := { upLane.reg with state := .up } }  }
     decide (l.ok = true) &&
     let b := s.blk
     let r := (b.lane l).reg
     decide (r.state ≠ .negotiating)) = true ∧
    (let l : LaneRef := .tsu .A
     let s : State := stI fun t => { t with laneA := { upLane with reg := { upLane.reg with state := .training } }  }
     decide (l.ok = true) &&
     let b := s.blk
     let r := (b.lane l).reg
     decide ((r.state = .down ∨ r.state = .training ∨ r.state = .listen))) = true ∧
    (let l : LaneRef := .tsu .A
     let s : State := stI fun t => { t with laneA := { upLane with reg := { upLane.reg with state := .up } }  }
     decide (l.ok = true) &&
     let b := s.blk
     let r := (b.lane l).reg
     decide ((r.state = .aligning ∨ r.state = .negotiating ∨ r.state = .up))) = true ∧
    (let l : LaneRef := .tsu .A
     let s : State := stI fun t => { t with laneA := { upLane with reg := { upLane.reg with state := .negotiating, helloSeen := true } }  }
     decide (l.ok = true) &&
     let b := s.blk
     let r := (b.lane l).reg
     decide (r.state = .negotiating) &&
     decide ((r.ackRx && (r.ackTx || r.helloSeen)) = false)) = true ∧
    (let l : LaneRef := .tsu .A
     let s : State := stI fun t => { t with laneA := { upLane with reg := { upLane.reg with state := .negotiating, helloSeen := true, ackRx := true } }  }
     decide (l.ok = true) &&
     let b := s.blk
     let r := (b.lane l).reg
     decide (r.state = .negotiating) &&
     decide ((r.ackRx && (r.ackTx || r.helloSeen)) = true)) = true ∧
    (let l : LaneRef := .tsu .A
     let s : State := stI fun t => { t with laneA := { upLane with reg := { upLane.reg with state := .up } }  }
     decide (l.ok = true) &&
     let b := s.blk
     let r := (b.lane l).reg
     decide (r.state ≠ .negotiating)) = true ∧
    (let l : LaneRef := .tsu .A
     let s : State := stI fun t => { t with laneA := { upLane with reg := { upLane.reg with state := .negotiating } }  }
     decide (l.ok = true) &&
     let b := s.blk
     let r := (b.lane l).reg
     let h : Hdr := hdr 0
     let p : Hello := { ver := 0xFF, step := 0x4231, feat := 0xF, role := 3, plane := 0, pos := 3, unitId := 77, ack := true }
     decide (r.state = .negotiating) &&
     decide (h.fmt = 1) &&
     decide (h.cls = 0) &&
     decide (p.ver.toNat < 0x100 ∨ p.role.toNat = b.roleOf (laneUnit l))) = true ∧
    (let l : LaneRef := .tsu .A
     let s : State := stI fun t => { t with laneA := { upLane with reg := { upLane.reg with state := .negotiating, helloSeen := true } }  }
     decide (l.ok = true) &&
     let b := s.blk
     let r := (b.lane l).reg
     let h : Hdr := hdr 0
     let p : Hello := { ver := 0x200, step := 0x4231, feat := 0xF, role := 3, plane := 0, pos := 3, unitId := 77, ack := true }
     decide (r.state = .negotiating) &&
     decide (h.fmt = 1) &&
     decide (h.cls = 0) &&
     decide (0x100 ≤ p.ver.toNat) &&
     decide (p.role.toNat ≠ b.roleOf (laneUnit l)) &&
     decide (((r.ackRx || p.ack) && r.ackTx) = false)) = true ∧
    (let l : LaneRef := .tsu .A
     let s : State := stI fun t => { t with laneA := { upLane with reg := { upLane.reg with state := .negotiating, ackTx := true } }  }
     decide (l.ok = true) &&
     let b := s.blk
     let r := (b.lane l).reg
     let h : Hdr := hdr 0
     let p : Hello := { ver := 0x200, step := 0x4231, feat := 0xF, role := 3, plane := 0, pos := 3, unitId := 77, ack := true }
     decide (r.state = .negotiating) &&
     decide (h.fmt = 1) &&
     decide (h.cls = 0) &&
     decide (0x100 ≤ p.ver.toNat) &&
     decide (p.role.toNat ≠ b.roleOf (laneUnit l)) &&
     decide (((r.ackRx || p.ack) && r.ackTx) = true)) = true ∧
    (let l : LaneRef := .tsu .A
     let s : State := stI fun t => { t with laneA := { upLane with reg := { upLane.reg with state := .up } }  }
     decide (l.ok = true) &&
     let b := s.blk
     let r := (b.lane l).reg
     decide (r.state ≠ .negotiating)) = true ∧
    (let l : LaneRef := .tsu .A
     let s : State := stI fun t => { t with laneA := { upLane with reg := { upLane.reg with state := .up, refined := true } }  }
     decide (l.ok = true) &&
     let b := s.blk
     let r := (b.lane l).reg
     decide (r.state = .up)) = true ∧
    (let n : Nat := 288
     let s : State := stD 1 fun d => { d with lanes := [(0, upLane), (5, { upLane with reg := { upLane.reg with state := .up } }), (24, upLane), (288, upLane)]  }
     decide (n < 312) &&
     let b := s.blk
     let r := (b.lane (.dist n)).reg
     decide (288 ≤ n ∨ r.state = .down ∨ r.state = .listen)) = true ∧
    (let n : Nat := 5
     let s : State := stD 1 fun d => { d with lanes := [(0, upLane), (5, { upLane with reg := { upLane.reg with state := .aligning, failStarts := 1, retrainReq := true } }), (24, upLane), (288, upLane)]  }
     decide (n < 312) &&
     let b := s.blk
     let r := (b.lane (.dist n)).reg
     decide (n < 288) &&
     decide (r.state ≠ .down) &&
     decide (r.state ≠ .listen) &&
     decide (r.state ≠ .up)) = true ∧
    (let n : Nat := 5
     let s : State := stD 1 fun d => { d with lanes := [(0, upLane), (5, { upLane with reg := { upLane.reg with state := .up } }), (24, upLane), (288, upLane)]  }
     decide (n < 312) &&
     let b := s.blk
     let r := (b.lane (.dist n)).reg
     decide (r.state ≠ .listen)) = true ∧
    (let n : Nat := 5
     let s : State := stD 1 fun d => { d with lanes := [(0, upLane), (5, { upLane with reg := { upLane.reg with state := .listen } }), (24, upLane), (288, upLane)]  }
     decide (n < 312) &&
     let b := s.blk
     let r := (b.lane (.dist n)).reg
     decide (r.state = .listen) &&
     decide (b.canTrain (.dist n) = true)) = true ∧
    (∃ n : Nat, 312 ≤ n) :=
  ⟨by decide +kernel,
   by decide +kernel,
   by decide +kernel,
   by decide +kernel,
   by decide +kernel,
   by decide +kernel,
   by decide +kernel,
   by decide +kernel,
   by decide +kernel,
   by decide +kernel,
   by decide +kernel,
   by decide +kernel,
   by decide +kernel,
   by decide +kernel,
   by decide +kernel,
   by decide +kernel,
   by decide +kernel,
   by decide +kernel,
   by decide +kernel,
   by decide +kernel,
   by decide +kernel,
   by decide +kernel,
   by decide +kernel,
   by decide +kernel,
   by decide +kernel,
   by decide +kernel,
   by decide +kernel,
   by decide +kernel,
   by decide +kernel,
   by decide +kernel,
   by decide +kernel,
   by decide +kernel,
   by decide +kernel,
   by decide +kernel,
   by decide +kernel,
   by decide +kernel,
   by decide +kernel,
   by decide +kernel,
   by decide +kernel,
   ⟨312, by decide⟩⟩

theorem test_wit_LinkControl :
    (let l : LaneRef := .tsu .A
     let s : State := stI fun t => { t with laneA := {} }
     decide (l.ok = true) &&
     let b := s.blk
     decide (b.up l = false)) = true ∧
    (let l : LaneRef := .tsu .A
     let s : State := stI fun t => { t with laneA := {} }
     decide (l.ok = true) &&
     let b := s.blk
     decide (b.up l = false)) = true ∧
    (let l : LaneRef := .tsu .A
     let s : State := stI fun t => { t with laneA := { upLane with link := { upLane.link with replay := [⟨1, 3, ⟨2, true, 0, .fence ⟨1, false, []⟩⟩⟩, ⟨2, 6, ⟨2, true, 0, .fence ⟨1, false, []⟩⟩⟩, ⟨3, 0, ⟨2, true, 0, .fence ⟨1, false, []⟩⟩⟩], rxSeq := 5, nakDue := true, uncs := [(999000, 4)] } } }
     decide (l.ok = true) &&
     let b := s.blk
     let k := (b.lane l).link
     let now := b.tcOf (laneUnit l)
     decide (b.up l = true) &&
     decide ((k.uncs.filter fun u => decide (Tick.diff now u.1 < 2 ^ 20)) = k.uncs) &&
     decide (k.uncs.foldl (fun n u => n + u.2) 0 ≤ 16)) = true ∧
    (let l : LaneRef := .tsu .A
     let s : State := stI fun t => { t with laneA := { upLane with link := { upLane.link with uncs := [(100, 9), (999000, 3)] } } }
     decide (l.ok = true) &&
     let b := s.blk
     let k := (b.lane l).link
     let now := b.tcOf (laneUnit l)
     let n := 4
     let t := true
     decide (1 ≤ n) &&
     decide (b.up l = true) &&
     let unc := (now, n) :: k.uncs.filter fun u => decide (Tick.diff now u.1 < 2 ^ 20)
     decide (unc.foldl (fun n u => n + u.2) 0 ≤ 16)) = true ∧
    (let l : LaneRef := .tsu .A
     let s : State := stI fun t => { t with laneA := { upLane with link := { upLane.link with replay := [⟨1, 3, ⟨2, true, 0, .fence ⟨1, false, []⟩⟩⟩, ⟨2, 6, ⟨2, true, 0, .fence ⟨1, false, []⟩⟩⟩, ⟨3, 0, ⟨2, true, 0, .fence ⟨1, false, []⟩⟩⟩], rxSeq := 5, nakDue := true, uncs := [(999000, 4)] } } }
     decide (l.ok = true) &&
     let b := s.blk
     let k := (b.lane l).link
     let now := b.tcOf (laneUnit l)
     let n := 13
     let t := true
     decide (1 ≤ n) &&
     decide (b.up l = true) &&
     let unc := (now, n) :: k.uncs.filter fun u => decide (Tick.diff now u.1 < 2 ^ 20)
     decide (16 < unc.foldl (fun n u => n + u.2) 0)) = true ∧
    (let l : LaneRef := .tsu .A
     let s : State := stI fun t => { t with laneA := { upLane with link := { upLane.link with replay := [⟨1, 3, ⟨2, true, 0, .fence ⟨1, false, []⟩⟩⟩, ⟨2, 6, ⟨2, true, 0, .fence ⟨1, false, []⟩⟩⟩, ⟨3, 0, ⟨2, true, 0, .fence ⟨1, false, []⟩⟩⟩], rxSeq := 5, nakDue := true, uncs := [(999000, 4)] } } }
     decide (l.ok = true) &&
     let b := s.blk
     decide (b.up l = true)) = true ∧
    (let l : LaneRef := .tsu .A
     let s : State := stI fun t => { t with laneA := { upLane with link := { upLane.link with replay := [⟨1, 3, ⟨2, true, 0, .fence ⟨1, false, []⟩⟩⟩, ⟨2, 6, ⟨2, true, 0, .fence ⟨1, false, []⟩⟩⟩, ⟨3, 0, ⟨2, true, 0, .fence ⟨1, false, []⟩⟩⟩], rxSeq := 5, nakDue := true, uncs := [(999000, 4)] } } }
     decide (l.ok = true) &&
     let b := s.blk
     let k := (b.lane l).link
     let h : Hdr := hdr 0
     let p : LinkCtl := ⟨1, false, [64, 128, 70, 16, 33], true⟩
     decide (b.rxOk l h 0 0 false = true) &&
     let took := (b.rxBook l h 0).mLink l fun k => { k with
             replay := ackTo p.ack k.replay, bypRx := p.byp,
             credTx := ⟨p.cred.getD 0 0, p.cred.getD 1 0, p.cred.getD 2 0, p.cred.getD 3 0, p.cred.getD 4 0⟩ }
     decide (p.nak = false) &&
     decide ((∀ e ∈ ackTo p.ack k.replay, e.tries < 8))) = true ∧
    (let l : LaneRef := .tsu .A
     let s : State := stI fun t => { t with laneA := { upLane with link := { upLane.link with replay := [⟨1, 3, ⟨2, true, 0, .fence ⟨1, false, []⟩⟩⟩, ⟨2, 6, ⟨2, true, 0, .fence ⟨1, false, []⟩⟩⟩, ⟨3, 0, ⟨2, true, 0, .fence ⟨1, false, []⟩⟩⟩], rxSeq := 5, nakDue := true, uncs := [(999000, 4)] } } }
     decide (l.ok = true) &&
     let b := s.blk
     let k := (b.lane l).link
     let h : Hdr := hdr 0
     let p : LinkCtl := ⟨1, true, [64, 128, 70, 16, 33], true⟩
     decide (b.rxOk l h 0 0 false = true) &&
     let took := (b.rxBook l h 0).mLink l fun k => { k with
             replay := ackTo p.ack k.replay, bypRx := p.byp,
             credTx := ⟨p.cred.getD 0 0, p.cred.getD 1 0, p.cred.getD 2 0, p.cred.getD 3 0, p.cred.getD 4 0⟩ }
     decide (p.nak = true) &&
     decide ((∀ e ∈ ackTo p.ack k.replay, e.tries < 7))) = true ∧
    (let l : LaneRef := .tsu .A
     let s : State := stI fun t => { t with laneA := { upLane with link := { upLane.link with replay := [⟨1, 3, ⟨2, true, 0, .fence ⟨1, false, []⟩⟩⟩, ⟨2, 7, ⟨2, true, 0, .fence ⟨1, false, []⟩⟩⟩, ⟨3, 0, ⟨2, true, 0, .fence ⟨1, false, []⟩⟩⟩], rxSeq := 5, nakDue := true, uncs := [(999000, 4)] } } }
     decide (l.ok = true) &&
     let b := s.blk
     let k := (b.lane l).link
     let h : Hdr := hdr 0
     let p : LinkCtl := ⟨1, true, [64, 128, 70, 16, 33], true⟩
     decide (b.rxOk l h 0 0 false = true) &&
     let took := (b.rxBook l h 0).mLink l fun k => { k with
             replay := ackTo p.ack k.replay, bypRx := p.byp,
             credTx := ⟨p.cred.getD 0 0, p.cred.getD 1 0, p.cred.getD 2 0, p.cred.getD 3 0, p.cred.getD 4 0⟩ }
     decide (p.nak = true) &&
     decide ((∃ e ∈ ackTo p.ack k.replay, 7 ≤ e.tries))) = true :=
  ⟨by decide +kernel,
   by decide +kernel,
   by decide +kernel,
   by decide +kernel,
   by decide +kernel,
   by decide +kernel,
   by decide +kernel,
   by decide +kernel,
   by decide +kernel⟩

theorem test_wit_Membership :
    (let n : Nat := 288
     let h : Hdr := { hdr 5 with mepoch := 3 }
     let r : TopoReport := rep 5
     let s : State := stD 1 fun d => { d with boot := { d.boot with ep := 3 }  }
     decide (n < 312) &&
     decide (s.blk.rxOk (.dist n) h 5 3 false = true) &&
     decide (s.blk.dRole ≠ 1 ∨ 256 ≤ n)) = true ∧
    (let n : Nat := 5
     let h : Hdr := { hdr 5 with mepoch := 3 }
     let r : TopoReport := rep 5
     let s : State := stD 1 fun d => { d with boot := { d.boot with ep := 3 }  }
     decide (n < 312) &&
     decide (s.blk.rxOk (.dist n) h 5 3 false = true) &&
     decide (s.blk.dRole = 1) &&
     decide (n < 256)) = true ∧
    (let n : Nat := 5
     let h : Hdr := { hdr 5 with mepoch := 3 }
     let s : State := stD 1 fun d => { d with boot := { d.boot with ep := 3 }  }
     decide (n < 312) &&
     decide (s.blk.rxOk (.dist n) h 5 3 false = true) &&
     decide (s.blk.dRole = 1 ∨ 288 ≤ n)) = true ∧
    (let n : Nat := 5
     let h : Hdr := { hdr 5 with mepoch := 3 }
     let s : State := stD 2 fun d => { d with boot := { d.boot with ep := 3, sums := [(0, 4), (1, 2)] }  }
     decide (n < 312) &&
     decide (s.blk.rxOk (.dist n) h 5 3 false = true) &&
     decide (s.blk.dRole ≠ 1) &&
     decide (n < 288)) = true ∧
    (let s : State := stD 3 fun d => { d with boot := { d.boot with ep := 3 }  }
     let b := s.blk
     decide (b.dRole = 3)) = true ∧
    (let s : State := stD 1 fun d => { d with boot := { d.boot with ep := 3 }  }
     let b := s.blk
     let n := 288
     decide (b.dRole = 1) &&
     decide (b.upLane = some n)) = true ∧
    (let s : State := stD 2 fun d => { d with boot := { d.boot with ep := 3, sums := [(0, 4), (1, 2)] }  }
     let b := s.blk
     let n := 288
     decide (b.dRole = 2) &&
     decide (b.upLane = some n)) = true ∧
    (let s : State := stD 2 fun d => { d with boot := { d.boot with shadow := true, shadowAt := 5 } , time := { tc64 := 9000000000000 } }
     let b := s.blk
     let d := b.dist.boot
     decide (d.shadow = true) &&
     decide (b.dist.servo.state = .locked) &&
     decide ((1250000000 * b.catNat .dist 0x7150 2 : Int) ≤ Tick.diff b.dist.time.tc64 d.shadowAt)) = true ∧
    (let s : State := stD 2 fun d => { d with boot := { d.boot with  }  }
     let b := s.blk
     let d := b.dist.boot
     decide (d.shadow = false ∨ b.dist.servo.state ≠ .locked)) = true ∧
    (let n : Nat := 5
     let h : Hdr := { hdr 1 with mepoch := 3 }
     let f : FenceMsg := ⟨4, false, [5]⟩
     let s : State := stD 1 fun d => { d with boot := { d.boot with ep := 3 }  }
     decide (n < 312) &&
     decide (s.blk.rxOk (.dist n) h 1 0 true = true) &&
     decide (n < 288 ∨ newer f.epoch s.blk.dist.boot.ep = false)) = true ∧
    (let n : Nat := 288
     let h : Hdr := { hdr 1 with mepoch := 3 }
     let f : FenceMsg := ⟨4, false, [5]⟩
     let s : State := stD 2 fun d => { d with boot := { d.boot with ep := 3 } , lanes := [(288, upLane)] }
     decide (n < 312) &&
     decide (s.blk.rxOk (.dist n) h 1 0 true = true) &&
     decide (288 ≤ n) &&
     decide (newer f.epoch s.blk.dist.boot.ep = true) &&
     decide (s.blk.dRole ≠ 1) &&
     decide (s.blk.upDown = [])) = true ∧
    (let n : Nat := 288
     let h : Hdr := { hdr 1 with mepoch := 3 }
     let f : FenceMsg := ⟨4, false, [5]⟩
     let s : State := stD 1 fun d => { d with boot := { d.boot with ep := 3 }  }
     decide (n < 312) &&
     decide (s.blk.rxOk (.dist n) h 1 0 true = true) &&
     decide (288 ≤ n) &&
     decide (newer f.epoch s.blk.dist.boot.ep = true)) = true ∧
    (let p : Plane := .A
     let h : Hdr := { hdr 1 with mepoch := 3 }
     let f : FenceMsg := ⟨3, false, [5]⟩
     let s : State := stI fun t => { t with boot := { t.boot with ep := 3 } }
     decide (s.blk.rxOk (.tsu p) h 1 0 true = true) &&
     let t := s.blk.tsu.boot
     decide (newer f.epoch t.ep = false)) = true ∧
    (let p : Plane := .A
     let h : Hdr := { hdr 1 with mepoch := 3 }
     let f : FenceMsg := ⟨4, false, [6, 7]⟩
     let s : State := stI fun t => { t with boot := { t.boot with ep := 3 } }
     decide (s.blk.rxOk (.tsu p) h 1 0 true = true) &&
     let t := s.blk.tsu.boot
     decide (newer f.epoch t.ep = true) &&
     decide (f.ldis.contains t.ldi = false)) = true ∧
    (let p : Plane := .A
     let h : Hdr := { hdr 1 with mepoch := 3 }
     let f : FenceMsg := ⟨4, false, [6, 5]⟩
     let s : State := stI fun t => { t with boot := { t.boot with ep := 3 } }
     decide (s.blk.rxOk (.tsu p) h 1 0 true = true) &&
     let t := s.blk.tsu.boot
     decide (newer f.epoch t.ep = true) &&
     decide (f.ldis.contains t.ldi = true) &&
     decide (s.blk.tsu.ctxs = []) &&
     decide (s.blk.tsu.coll.slots = []) &&
     decide (s.blk.tsu.hall.out = []) &&
     decide (s.blk.tsu.dm.chs = [])) = true :=
  ⟨by decide +kernel,
   by decide +kernel,
   by decide +kernel,
   by decide +kernel,
   by decide +kernel,
   by decide +kernel,
   by decide +kernel,
   by decide +kernel,
   by decide +kernel,
   by decide +kernel,
   by decide +kernel,
   by decide +kernel,
   by decide +kernel,
   by decide +kernel,
   by decide +kernel⟩

theorem test_wit_ModuleAndCurator :
    (let s : State := { blk := { dist := { mod := { tripped := true } } } }
     let b := s.blk
     let m := b.dist.mod
     decide (m.powered = true ∨ m.tripped = true)) = true ∧
    (let s : State := { blk := { dist := { mod := { tripped := true } } } }
     let b := s.blk
     let m := b.dist.mod
     decide (m.powered = true ∨ m.tripped = true)) = true ∧
    (let s : State := { blk := { dist := { mod := { vIn := 3 } } } }
     let b := s.blk
     let m := b.dist.mod
     let v := Config.freeValue b.free
     let p := Config.freeValue (b.free + 1)
     decide (m.powered = false) &&
     decide (m.tripped = false)) = true ∧
    (let s : State := { blk := { dist := { mod := { vIn := 3 } } } }
     let b := s.blk
     let m := b.dist.mod
     let v := Config.freeValue b.free
     let p := Config.freeValue (b.free + 1)
     decide (m.powered = false) &&
     decide (m.tripped = false)) = true ∧
    (let s : State := stD 1 fun d => { d with mod := { d.mod with ocxoWarm := false }  }
     let b := s.blk
     let m := b.dist.mod
     decide (m.powered = true)) = true ∧
    (let s : State := { blk := { dist := { mod := {  } } } }
     let b := s.blk
     let m := b.dist.mod
     decide (m.powered = false)) = true ∧
    (let s : State := stD 1 id
     let b := s.blk
     let m := b.dist.mod
     decide (m.powered = true) &&
     decide (b.dist.boot.fuseDone = true)) = true ∧
    (let s : State := { blk := { dist := { mod := {  } } } }
     let b := s.blk
     let m := b.dist.mod
     decide (m.powered = false ∨ b.dist.boot.fuseDone = false)) = true ∧
    (let v : BitVec 16 := 3999
     let s : State := stD 1 fun d => { d with mod := { d.mod with uvWarn := true, cageLimit := true, tjMax := 80, vIn := 4800 }  }
     decide (s.blk.dist.mod.powered = true) &&
     let b := s.blk
     let m := b.dist.mod
     decide (v.toNat < 4000)) = true ∧
    (let v : BitVec 16 := 6201
     let s : State := stD 1 fun d => { d with mod := { d.mod with uvWarn := true, cageLimit := true, tjMax := 80, vIn := 4800 }  }
     decide (s.blk.dist.mod.powered = true) &&
     let b := s.blk
     let m := b.dist.mod
     decide (6200 < v.toNat)) = true ∧
    (let v : BitVec 16 := 4000
     let s : State := stD 1 fun d => { d with mod := { d.mod with uvWarn := true, cageLimit := true, tjMax := 80, vIn := 4800 }  }
     decide (s.blk.dist.mod.powered = true) &&
     let b := s.blk
     let m := b.dist.mod
     decide (4000 ≤ v.toNat) &&
     decide (v.toNat ≤ 6200)) = true ∧
    (let tj : BitVec 8 := 101
     let s : State := stD 1 fun d => { d with mod := { d.mod with uvWarn := true, cageLimit := true, tjMax := 80, vIn := 4800 }  }
     decide (s.blk.dist.mod.powered = true) &&
     let b := s.blk
     let m := b.dist.mod
     decide (100 < tj.toNat)) = true ∧
    (let tj : BitVec 8 := 100
     let s : State := stD 1 fun d => { d with mod := { d.mod with uvWarn := true, cageLimit := true, tjMax := 80, vIn := 4800 }  }
     decide (s.blk.dist.mod.powered = true) &&
     let b := s.blk
     let m := b.dist.mod
     decide (tj.toNat ≤ 100)) = true ∧
    (let tj : BitVec 8 := 116
     let s : State := stD 1 fun d => { d with mod := { d.mod with uvWarn := true, cageLimit := true, tjMax := 80, vIn := 4800 }  }
     decide (s.blk.dist.mod.powered = true) &&
     let b := s.blk
     let m := b.dist.mod
     decide (115 < tj.toNat)) = true ∧
    (let tj : BitVec 8 := 115
     let s : State := stD 1 fun d => { d with mod := { d.mod with uvWarn := true, cageLimit := true, tjMax := 80, vIn := 4800 }  }
     decide (s.blk.dist.mod.powered = true) &&
     let b := s.blk
     let m := b.dist.mod
     decide (tj.toNat ≤ 115)) = true ∧
    (let s : State := stD 1 fun d => { d with mod := { d.mod with uvWarn := true, cageLimit := true, tjMax := 80, vIn := 4800 }  }
     decide (s.blk.dist.mod.powered = true) &&
     let b := s.blk
     let m := b.dist.mod
     true) = true ∧
    (∃ (v : BitVec 16) (tj : BitVec 8) (ls : List Nat) (s : State), s.blk.dist.mod.powered = false) ∧
    (∃ (v : BitVec 16) (tj : BitVec 8) (ls : List Nat) (s : State), s.blk.dist.mod.powered = false) ∧
    (∃ (v : BitVec 16) (tj : BitVec 8) (ls : List Nat) (s : State), s.blk.dist.mod.powered = false) ∧
    (∃ (v : BitVec 16) (tj : BitVec 8) (ls : List Nat) (s : State), s.blk.dist.mod.powered = false) ∧
    (let c : BitVec 3 := 6
     let s : State := stD 3 id
     let b := s.blk
     decide (6 ≤ c.toNat ∨ b.dRole ≠ 3)) = true ∧
    (let c : BitVec 3 := 2
     let s : State := stD 3 id
     let b := s.blk
     decide (c.toNat < 6) &&
     decide (b.dRole = 3)) = true ∧
    (let w : CongMeasure := ⟨[(.slice 2, 5), (.lane 5 3, 1048576), (.slice 1, 1048570)]⟩
     let s : State := stD 3 fun d => { d with curator := { below := 2 } }
     let b := s.blk
     let hot := w.stalls.filter fun x => decide (b.catNat .dist 0x7140 2 * 2 ^ 20 < 256 * x.2)
     let x := (CongWhere.lane 5 3, 1048576)
     let r := [(CongWhere.slice 1, 1048570)]
     decide (hot = x :: r)) = true ∧
    (let w : CongMeasure := ⟨[(.slice 2, 5)]⟩
     let s : State := stD 3 fun d => { d with curator := { below := 3, congested := true } }
     let b := s.blk
     let hot := w.stalls.filter fun x => decide (b.catNat .dist 0x7140 2 * 2 ^ 20 < 256 * x.2)
     decide (hot = []) &&
     decide (3 ≤ b.dist.curator.below)) = true ∧
    (let w : CongMeasure := ⟨[]⟩
     let s : State := stD 3 fun d => { d with curator := { below := 2, congested := true } }
     let b := s.blk
     let hot := w.stalls.filter fun x => decide (b.catNat .dist 0x7140 2 * 2 ^ 20 < 256 * x.2)
     decide (hot = []) &&
     decide (b.dist.curator.below < 3)) = true :=
  ⟨by decide +kernel,
   by decide +kernel,
   by decide +kernel,
   by decide +kernel,
   by decide +kernel,
   by decide +kernel,
   by decide +kernel,
   by decide +kernel,
   by decide +kernel,
   by decide +kernel,
   by decide +kernel,
   by decide +kernel,
   by decide +kernel,
   by decide +kernel,
   by decide +kernel,
   by decide +kernel,
   ⟨4800, 90, [5, 400, 0], { blk := { dist := { mod := {  } } } }, by decide +kernel⟩,
   ⟨4800, 90, [5, 400, 0], { blk := { dist := { mod := {  } } } }, by decide +kernel⟩,
   ⟨4800, 90, [5, 400, 0], { blk := { dist := { mod := {  } } } }, by decide +kernel⟩,
   ⟨4800, 90, [5, 400, 0], { blk := { dist := { mod := {  } } } }, by decide +kernel⟩,
   by decide +kernel,
   by decide +kernel,
   by decide +kernel,
   by decide +kernel,
   by decide +kernel⟩

theorem test_wit_PowerAndMitten :
    (let d : PwrDomain := .mem
     let v : Bool := true
     let s : State := stI fun t => { t with pwr := { t.pwr with ack := ⟨false, true, false, false, false⟩ }  }
     let b := s.blk
     let p := b.tsu.pwr
     decide (b.tsu.boot.aonRst = true ∨ p.ack.get d = v)) = true ∧
    (let d : PwrDomain := .time
     let s : State := stI fun t => { t with pwr := { t.pwr with on := ⟨true, true, true, true, true⟩, req := ⟨true, true, true, true, true⟩, ack := ⟨false, true, true, true, false⟩ }  }
     let b := s.blk
     let p := b.tsu.pwr
     decide (b.tsu.boot.aonRst = false) &&
     decide (p.ack.get d = false) &&
     decide ((p.req.get d = false ∨ p.on.get d = true))) = true ∧
    (let s : State := stI fun t => { t with pwr := { t.pwr with st := .exiting, on := ⟨true, false, false, false, false⟩, req := ⟨true, true, false, false, false⟩, ack := ⟨true, false, false, false, false⟩ }  }
     let b := s.blk
     let p := b.tsu.pwr
     decide (b.tsu.boot.aonRst = false) &&
     decide (p.ack.mem = false) &&
     decide (p.req.mem = true) &&
     decide (p.on.mem = false)) = true ∧
    (let d : PwrDomain := .linkB
     let s : State := stI fun t => { t with pwr := { t.pwr with on := ⟨true, true, true, true, true⟩, req := ⟨true, true, true, true, false⟩, ack := ⟨true, true, true, true, true⟩ }  }
     let b := s.blk
     let p := b.tsu.pwr
     decide (b.tsu.boot.aonRst = false) &&
     decide (p.ack.get d = true) &&
     decide (p.req.get d = false) &&
     decide (d ≠ .engine ∨ p.engWanted = false)) = true ∧
    (let s : State := stI fun t => { t with pwr := { t.pwr with engWanted := true, st := .idle, on := ⟨true, true, false, true, true⟩, req := ⟨true, true, false, true, true⟩, ack := ⟨true, true, true, true, true⟩ }  }
     let b := s.blk
     let p := b.tsu.pwr
     decide (b.tsu.boot.aonRst = false) &&
     decide (p.ack.engine = true) &&
     decide (p.req.engine = false) &&
     decide (p.engWanted = true)) = true ∧
    (let s : State := stI fun t => { t with pwr := { t.pwr with st := .on, on := ⟨true, true, true, true, true⟩, req := ⟨true, true, true, true, true⟩, ack := ⟨true, true, true, true, true⟩ }  }
     let b := s.blk
     let p := b.tsu.pwr
     decide (b.tsu.boot.aonRst = false) &&
     decide (p.ack.engine = true) &&
     decide (p.req.engine = true)) = true ∧
    (let s : State := stI fun t => { t with pwr := { t.pwr with st := .on, on := ⟨true, true, true, true, true⟩, req := ⟨true, true, true, true, true⟩, ack := ⟨true, true, true, true, true⟩ }  }
     let b := s.blk
     let p := b.tsu.pwr
     decide (b.tsu.boot.aonRst = false) &&
     decide (p.ack.engine = true) &&
     decide (p.req.engine = true)) = true ∧
    (let d : PwrDomain := .mem
     let s : State := stI fun t => { t with pwr := { t.pwr with on := ⟨true, true, true, true, true⟩, req := ⟨true, true, true, true, true⟩, ack := ⟨true, false, true, true, true⟩ }  }
     let b := s.blk
     let p := b.tsu.pwr
     decide (b.tsu.boot.aonRst = true ∨ p.req.get d = false ∨ p.ack.get d = false)) = true ∧
    (let a : Access := sp
     let s : State := stI fun t => { t with pwr := { t.pwr with  }  }
     decide (s.blk.check (portReq a) 0xE000 true = .ok) &&
     let b := s.blk
     let p := b.tsu.pwr
     decide (a.secure = true) &&
     decide ((p.st = .on ∨ p.st = .idle)) &&
     decide (b.mitReason = 0)) = true ∧
    (let a : Access := sp
     let s : State := stI fun t => { t with pwr := { t.pwr with  } , ctxs := [(3, { st := .armed, arm := some ⟨7, 1102000, 4⟩ })] }
     decide (s.blk.check (portReq a) 0xE000 true = .ok) &&
     let b := s.blk
     let p := b.tsu.pwr
     decide (a.secure = true) &&
     decide ((p.st = .on ∨ p.st = .idle)) &&
     decide (b.mitReason ≠ 0)) = true ∧
    (let a : Access := sp
     let s : State := stI fun t => { t with pwr := { t.pwr with st := .entering, mittenReq := true, wakeAtEn := true, wakeAt := 1000000, heldCause := 4, enPend := true }  }
     decide (s.blk.check (portReq a) 0xE000 true = .ok) &&
     let b := s.blk
     let p := b.tsu.pwr
     decide (a.secure = true) &&
     decide (p.st = .entering)) = true ∧
    (let a : Access := sp
     let s : State := stI fun t => { t with pwr := { t.pwr with st := .exiting, mittenReq := false }  }
     decide (s.blk.check (portReq a) 0xE000 true = .ok) &&
     let b := s.blk
     let p := b.tsu.pwr
     decide (a.secure = true) &&
     decide (p.st = .exiting)) = true ∧
    (let a : Access := sp
     let s : State := stI fun t => { t with pwr := { t.pwr with mittenReq := true }  }
     decide (s.blk.check (portReq a) 0xE000 true = .ok) &&
     let b := s.blk
     let p := b.tsu.pwr
     decide (a.secure = true) &&
     decide ((p.st = .on ∨ p.st = .idle ∨ p.st = .exiting))) = true ∧
    (let a : Access := sp
     let s : State := stI fun t => { t with pwr := { t.pwr with st := .entering, mittenReq := true, wakeAtEn := true, wakeAt := 1000000 }  }
     decide (s.blk.check (portReq a) 0xE000 true = .ok) &&
     let b := s.blk
     let p := b.tsu.pwr
     decide (a.secure = true) &&
     decide (p.st = .entering)) = true ∧
    (let a : Access := np
     let s : State := stI fun t => { t with pwr := { t.pwr with  }  }
     decide (s.blk.check (portReq a) 0xE000 true = .ok) &&
     let b := s.blk
     let p := b.tsu.pwr
     decide (a.secure = false) &&
     decide (p.mittenReq = false)) = true ∧
    (let a : Access := np
     let s : State := stI fun t => { t with pwr := { t.pwr with  }  }
     decide (s.blk.check (portReq a) 0xE000 true = .ok) &&
     let b := s.blk
     let p := b.tsu.pwr
     decide (a.secure = false) &&
     decide (p.mittenReq = false)) = true ∧
    (let a : Access := np
     let s : State := stI fun t => { t with pwr := { t.pwr with mittenReq := true }  }
     decide (s.blk.check (portReq a) 0xE000 true = .ok) &&
     let b := s.blk
     let p := b.tsu.pwr
     decide (a.secure = false) &&
     decide (p.mittenReq = true)) = true ∧
    (let a : Access := np
     let s : State := stI fun t => { t with pwr := { t.pwr with mittenReq := true }  }
     decide (s.blk.check (portReq a) 0xE000 true = .ok) &&
     let b := s.blk
     let p := b.tsu.pwr
     decide (a.secure = false) &&
     decide (p.mittenReq = true)) = true ∧
    (let s : State := stI fun t => { t with pwr := { t.pwr with  }  }
     let b := s.blk
     let p := b.tsu.pwr
     decide (p.st ≠ .entering ∨ p.incDone = true)) = true ∧
    (let s : State := stI fun t => { t with pwr := { t.pwr with st := .entering, mittenReq := true, wakeAtEn := true, wakeAt := 1000000 }  }
     let b := s.blk
     let p := b.tsu.pwr
     decide (p.st = .entering) &&
     decide (p.incDone = false) &&
     decide (b.tsu.ctxs = []) &&
     decide (b.tsu.dm.chs = []) &&
     decide (b.tsu.str.chs = [])) = true ∧
    (let s : State := stI fun t => { t with pwr := { t.pwr with  }  }
     let b := s.blk
     let p := b.tsu.pwr
     decide (p.st ≠ .entering ∨ p.incDone = false ∨ b.quiet = false)) = true ∧
    (let s : State := stI fun t => { t with pwr := { t.pwr with st := .entering, mittenReq := true, wakeAtEn := true, wakeAt := 1000000, incDone := true } , bar := { xlat := [(5, (true, 3))] }, tm := { initDone := true, words := [(4, ⟨3, true, true, .ueHard⟩), (5, ⟨3, true, true, .good⟩)] } }
     let b := s.blk
     let p := b.tsu.pwr
     decide (p.st = .entering) &&
     decide (p.incDone = true) &&
     decide (b.tsu.ctxs = []) &&
     decide (b.quiet = true) &&
     decide (p.enPend = false)) = true ∧
    (let q : Plane := .A
     let s : State := stI fun t => { t with pwr := { t.pwr with st := .mitten, mittenReq := true, acc := 0xF424000000000, on := ⟨false, false, false, false, false⟩, req := ⟨false, false, false, false, false⟩, ack := ⟨false, false, false, false, false⟩ }  }
     let b := s.blk
     let p := b.tsu.pwr
     decide (p.st = .mitten)) = true ∧
    (let q : Plane := .A
     let s : State := stI fun t => { t with pwr := { t.pwr with st := .entering, mittenReq := true, wakeAtEn := true, wakeAt := 1000000 }  }
     let b := s.blk
     let p := b.tsu.pwr
     decide (p.st = .entering)) = true ∧
    (let q : Plane := .A
     let s : State := stI fun t => { t with pwr := { t.pwr with  }  }
     let b := s.blk
     let p := b.tsu.pwr
     decide (p.st ≠ .mitten) &&
     decide (p.st ≠ .entering)) = true ∧
    (let q : Plane := .A
     let s : State := stI fun t => { t with pwr := { t.pwr with st := .mitten, mittenReq := true, acc := 0xF424000000000, on := ⟨false, false, false, false, false⟩, req := ⟨false, false, false, false, false⟩, ack := ⟨false, false, false, false, false⟩ }  }
     let b := s.blk
     let p := b.tsu.pwr
     let listens : Bool := match q with | .A => p.listenA | .B => p.listenB
     decide (p.st = .mitten) &&
     decide (listens = true)) = true ∧
    (let q : Plane := .A
     let s : State := stI fun t => { t with pwr := { t.pwr with st := .entering, mittenReq := true, wakeAtEn := true, wakeAt := 1000000 }  }
     let b := s.blk
     let p := b.tsu.pwr
     let listens : Bool := match q with | .A => p.listenA | .B => p.listenB
     decide (p.st = .entering) &&
     decide (listens = true)) = true ∧
    (let q : Plane := .A
     let s : State := stI fun t => { t with pwr := { t.pwr with st := .mitten, mittenReq := true, acc := 0xF424000000000, on := ⟨false, false, false, false, false⟩, req := ⟨false, false, false, false, false⟩, ack := ⟨false, false, false, false, false⟩, listenA := false }  }
     let b := s.blk
     let p := b.tsu.pwr
     let listens : Bool := match q with | .A => p.listenA | .B => p.listenB
     decide (listens = false)) = true ∧
    (let q : Plane := .A
     let s : State := stI fun t => { t with pwr := { t.pwr with st := .mitten, mittenReq := true, acc := 0xF424000000000, on := ⟨false, false, false, false, false⟩, req := ⟨false, false, false, false, false⟩, ack := ⟨false, false, false, false, false⟩, wakeAtEn := true, wakeAt := 1000000 }  }
     let b := s.blk
     let p := b.tsu.pwr
     decide (p.st = .mitten) &&
     decide (p.wakeAtEn = true) &&
     decide (Tick.le p.wakeAt (p.acc.extractLsb' 32 64) = true)) = true ∧
    (let q : Plane := .A
     let s : State := stI fun t => { t with pwr := { t.pwr with st := .entering, mittenReq := true, wakeAtEn := true, wakeAt := 1000000 }  }
     let b := s.blk
     let p := b.tsu.pwr
     decide (p.st = .entering) &&
     decide (p.wakeAtEn = true) &&
     decide (Tick.le p.wakeAt b.tc = true)) = true ∧
    (let q : Plane := .A
     let s : State := stI fun t => { t with pwr := { t.pwr with st := .mitten, mittenReq := true, acc := 0xF424000000000, on := ⟨false, false, false, false, false⟩, req := ⟨false, false, false, false, false⟩, ack := ⟨false, false, false, false, false⟩ }  }
     let b := s.blk
     let p := b.tsu.pwr
     decide (p.wakeAtEn = false)) = true ∧
    (let q : Plane := .A
     let s : State := stI fun t => { t with pwr := { t.pwr with st := .mitten, mittenReq := true, acc := 0xF424000000000, on := ⟨false, false, false, false, false⟩, req := ⟨false, false, false, false, false⟩, ack := ⟨false, false, false, false, false⟩ } , dbg := { t.dbg with level := 1 } }
     let b := s.blk
     let p := b.tsu.pwr
     let a : Access := sp
     decide (b.check (portReq a) 0xE100 true = .ok) &&
     decide (p.st = .mitten) &&
     decide (b.tsu.dbg.level ≠ 0)) = true ∧
    (let q : Plane := .A
     let s : State := stI fun t => { t with pwr := { t.pwr with st := .mitten, mittenReq := true, acc := 0xF424000000000, on := ⟨false, false, false, false, false⟩, req := ⟨false, false, false, false, false⟩, ack := ⟨false, false, false, false, false⟩ } , dbg := { t.dbg with level := 0 } }
     let b := s.blk
     let p := b.tsu.pwr
     let a : Access := sp
     decide (b.check (portReq a) 0xE100 true = .ok) &&
     decide (p.st = .mitten) &&
     decide (b.tsu.dbg.level = 0)) = true ∧
    (let q : Plane := .A
     let s : State := stI fun t => { t with pwr := { t.pwr with st := .mitten, mittenReq := true, acc := 0xF424000000000, on := ⟨false, false, false, false, false⟩, req := ⟨false, false, false, false, false⟩, ack := ⟨false, false, false, false, false⟩ }  }
     let b := s.blk
     let p := b.tsu.pwr
     let a : Access := sp
     decide (b.check (portReq a) 0xE000 true = .ok) &&
     decide (a.secure = true) &&
     decide (p.st = .mitten)) = true ∧
    (let s : State := stI fun t => { t with pwr := { t.pwr with  }  }
     let b := s.blk
     let p := b.tsu.pwr
     let lanesOn : Bool := (p.on.linkA || !p.req.linkA) && (p.on.linkB || !p.req.linkB)
     decide (p.st ≠ .exiting ∨ p.on.time = false ∨ p.on.mem = false ∨ b.tsu.tm.initDone = false ∨ lanesOn = false)) = true ∧
    (let s : State := stI fun t => { t with pwr := { t.pwr with st := .exiting, on := ⟨true, true, false, false, false⟩, req := ⟨true, true, false, false, false⟩, ack := ⟨true, true, false, false, false⟩ }  }
     let b := s.blk
     let p := b.tsu.pwr
     let lanesOn : Bool := (p.on.linkA || !p.req.linkA) && (p.on.linkB || !p.req.linkB)
     decide (p.st = .exiting) &&
     decide (p.on.time = true) &&
     decide (p.on.mem = true) &&
     decide (b.tsu.tm.initDone = true) &&
     decide (lanesOn = true) &&
     decide (p.mittenReq = false) &&
     decide (p.engAuto = true)) = true ∧
    (let s : State := stI fun t => { t with pwr := { t.pwr with st := .exiting, engAuto := false, on := ⟨true, true, false, false, false⟩, req := ⟨true, true, false, false, false⟩, ack := ⟨true, true, false, false, false⟩ }  }
     let b := s.blk
     let p := b.tsu.pwr
     let lanesOn : Bool := (p.on.linkA || !p.req.linkA) && (p.on.linkB || !p.req.linkB)
     decide (p.st = .exiting) &&
     decide (p.on.time = true) &&
     decide (p.on.mem = true) &&
     decide (b.tsu.tm.initDone = true) &&
     decide (lanesOn = true) &&
     decide (p.mittenReq = false) &&
     decide (p.engAuto = false)) = true ∧
    (let s : State := stI fun t => { t with pwr := { t.pwr with st := .exiting, mittenReq := true, engAuto := false, on := ⟨true, true, false, false, false⟩, req := ⟨true, true, false, false, false⟩, ack := ⟨true, true, false, false, false⟩ }  }
     let b := s.blk
     let p := b.tsu.pwr
     let lanesOn : Bool := (p.on.linkA || !p.req.linkA) && (p.on.linkB || !p.req.linkB)
     decide (p.st = .exiting) &&
     decide (p.on.time = true) &&
     decide (p.on.mem = true) &&
     decide (b.tsu.tm.initDone = true) &&
     decide (lanesOn = true) &&
     decide (p.mittenReq = true) &&
     decide (b.mitReason = 0)) = true :=
  ⟨by decide +kernel,
   by decide +kernel,
   by decide +kernel,
   by decide +kernel,
   by decide +kernel,
   by decide +kernel,
   by decide +kernel,
   by decide +kernel,
   by decide +kernel,
   by decide +kernel,
   by decide +kernel,
   by decide +kernel,
   by decide +kernel,
   by decide +kernel,
   by decide +kernel,
   by decide +kernel,
   by decide +kernel,
   by decide +kernel,
   by decide +kernel,
   by decide +kernel,
   by decide +kernel,
   by decide +kernel,
   by decide +kernel,
   by decide +kernel,
   by decide +kernel,
   by decide +kernel,
   by decide +kernel,
   by decide +kernel,
   by decide +kernel,
   by decide +kernel,
   by decide +kernel,
   by decide +kernel,
   by decide +kernel,
   by decide +kernel,
   by decide +kernel,
   by decide +kernel,
   by decide +kernel,
   by decide +kernel⟩

theorem test_wit_RefreshAndRestart :
    (let s : State := {}
     let b := s.blk
     decide (b.live = false)) = true ∧
    (let s : State := {}
     let b := s.blk
     decide (b.live = false)) = true ∧
    (let g : BitVec 6 := 5
     let s : State := stI fun t => { t with lctl := { refAlign := false }  }
     let b := s.blk
     let l := b.tsu.lctl
     decide (b.live = true) &&
     decide (l.req = 0) &&
     decide (l.gnt.getLsbD g.toNat = false) &&
     decide (b.aligned = false)) = true ∧
    (let s : State := stI fun t => { t with lctl := { req := 3 } , ctxs := [(0, { st := .armed, arm := some ⟨7, 1102000, 4⟩ }), (3, { st := .run, reg := { regions := 8 }, interval := some ⟨5, 0, .onTime, false, false, 0, 0, 990000, 0, 7, 0⟩ })] }
     let b := s.blk
     let l := b.tsu.lctl
     decide (b.live = true) &&
     decide (b.aligned = true) &&
     decide (l.winEnd = none)) = true ∧
    (let g : BitVec 6 := 5
     let s : State := stI fun t => { t with lctl := { req := 35 } , ctxs := [(0, { st := .armed, arm := some ⟨7, 1102000, 4⟩ }), (3, { st := .run, reg := { regions := 8 }, interval := some ⟨5, 0, .onTime, false, false, 0, 0, 990000, 0, 7, 0⟩ })] }
     let b := s.blk
     let l := b.tsu.lctl
     decide (b.live = true) &&
     decide (l.req.getLsbD g.toNat = true) &&
     decide (l.gnt.getLsbD g.toNat = false)) = true ∧
    (let g : BitVec 6 := 5
     let s : State := stI fun t => { t with lctl := {  }  }
     let b := s.blk
     let l := b.tsu.lctl
     decide (b.live = true) &&
     decide ((l.req.getLsbD g.toNat = false ∨ l.gnt.getLsbD g.toNat = true))) = true ∧
    (let g : BitVec 6 := 5
     let s : State := stI fun t => { t with lctl := { ends := [(4, (1000100, true))] }  }
     let b := s.blk
     let l := b.tsu.lctl
     decide ((l.ends.find? fun e => e.1 == g.toNat) = none)) = true ∧
    (let g : BitVec 6 := 5
     let s : State := stI fun t => { t with lctl := { ends := [(4, (1000100, true)), (5, (1000001, true))] }  }
     let b := s.blk
     let l := b.tsu.lctl
     let e := (5, (1000001, true))
     decide ((l.ends.find? fun e => e.1 == g.toNat) = some e) &&
     decide (b.due e.2.1 = false)) = true ∧
    (let g : BitVec 6 := 5
     let s : State := stI fun t => { t with lctl := { req := 32, gnt := 48, urg := 32, ends := [(4, (1000100, true)), (5, (1000000, true))] }  }
     let b := s.blk
     let l := b.tsu.lctl
     let e := (5, (1000000, true))
     decide ((l.ends.find? fun e => e.1 == g.toNat) = some e) &&
     decide (b.due e.2.1 = true) &&
     decide (setBit64 l.req g.toNat false = 0)) = true ∧
    (let s : State := stI fun t => { t with lctl := {  }  }
     let b := s.blk
     let l := b.tsu.lctl
     decide (l.winT = none)) = true ∧
    (let s : State := stI fun t => { t with lctl := { winT := some 999900, qwOff := 101 }  }
     let b := s.blk
     let l := b.tsu.lctl
     let t := 999900
     decide (l.winT = some t) &&
     decide (b.due (t + l.qwOff.setWidth 64) = false)) = true ∧
    (let s : State := stI fun t => { t with lctl := { winT := some 999900, qwOff := 100, qwLen := 9 } , ctxs := [(0, { st := .armed, arm := some ⟨7, 1102000, 4⟩ }), (3, { st := .run, reg := { regions := 8 }, interval := some ⟨5, 0, .onTime, false, false, 0, 0, 990000, 0, 7, 0⟩ })] }
     let b := s.blk
     let l := b.tsu.lctl
     let t := 999900
     decide (l.winT = some t) &&
     decide (b.due (t + l.qwOff.setWidth 64) = true) &&
     decide (l.req = 0)) = true ∧
    (let a : Access := sp
     let s : State := stI fun t => { t with lctl := {  } , pwr := { t.pwr with st := .entering } }
     decide (s.blk.check (portReq a) 0x4000 true = .ok) &&
     let b := s.blk
     decide (b.tsu.pwr.st = .entering)) = true ∧
    (let a : Access := sp
     let s : State := stI fun t => { t with lctl := {  } , ctxs := [(0, { st := .armed, arm := some ⟨7, 1102000, 4⟩ }), (3, { st := .run, reg := { regions := 8 }, interval := some ⟨5, 0, .onTime, false, false, 0, 0, 990000, 0, 7, 0⟩ })] }
     decide (s.blk.check (portReq a) 0x4000 true = .ok) &&
     let b := s.blk
     decide (b.tsu.pwr.st ≠ .entering) &&
     decide (b.armedAny = true)) = true ∧
    (let a : Access := sp
     let s : State := stI fun t => { t with lctl := { rstBusy := true }  }
     decide (s.blk.check (portReq a) 0x4000 true = .ok) &&
     let b := s.blk
     decide (b.tsu.pwr.st ≠ .entering) &&
     decide (b.armedAny = false) &&
     decide ((b.tsu.spine.calBusy = true ∨ b.tsu.lctl.rstBusy = true))) = true ∧
    (let a : Access := sp
     let s : State := stI fun t => { t with lctl := {  } , spine := { eps := [(3, { en := true, enAtCal := true, calOk := true, rstOk := true, cell := 0xFFFFFFF0 }), (4, { en := true, calOk := true, rstOk := true })] } }
     decide (s.blk.check (portReq a) 0x4000 true = .ok) &&
     let b := s.blk
     decide (b.tsu.pwr.st ≠ .entering) &&
     decide (b.armedAny = false) &&
     decide (b.tsu.spine.calBusy = false) &&
     decide (b.tsu.lctl.rstBusy = false)) = true ∧
    (let m : RstMeas := ⟨3, 4000, 5⟩
     let s : State := stI fun t => { t with lctl := {  } , spine := { eps := [(3, { en := true, enAtCal := true, calOk := true, rstOk := true, cell := 0xFFFFFFF0 }), (4, { en := true, calOk := true, rstOk := true })] } }
     let b := s.blk
     decide (b.tsu.lctl.rstBusy = false)) = true ∧
    (let m : RstMeas := ⟨3, 4000, 5⟩
     let s : State := stI fun t => { t with lctl := { rstStart := true, rstBusy := true }  }
     let b := s.blk
     decide (b.tsu.lctl.rstBusy = true) &&
     decide (smKeys Endpoint.restarts b.tsu.spine.eps = [])) = true ∧
    (let m : RstMeas := ⟨3, 4000, 5⟩
     let s : State := stI fun t => { t with lctl := { rstStart := true, rstBusy := true } , spine := { eps := [(3, { en := true, enAtCal := true, calOk := true, rstOk := true, cell := 0xFFFFFFF0 }), (4, { en := true, calOk := true, rstOk := true })] } }
     let b := s.blk
     let t : Int := (b.tsu.lctl.rlatTgt.toNat * 640 : Nat) - m.rl
     decide (b.tsu.lctl.rstBusy = true) &&
     decide (smKeys Endpoint.restarts b.tsu.spine.eps = [m.ep.toNat]) &&
     decide (0 ≤ t) &&
     decide (t ≤ 4095) &&
     decide (-8 ≤ m.resid.toInt) &&
     decide (m.resid.toInt ≤ 8)) = true ∧
    (let m : RstMeas := ⟨3, 5121, 0⟩
     let s : State := stI fun t => { t with lctl := { rstStart := true, rstBusy := true } , spine := { eps := [(3, { en := true, enAtCal := true, calOk := true, rstOk := true, cell := 0xFFFFFFF0 }), (4, { en := true, calOk := true, rstOk := true })] } }
     let b := s.blk
     let t : Int := (b.tsu.lctl.rlatTgt.toNat * 640 : Nat) - m.rl
     decide (b.tsu.lctl.rstBusy = true) &&
     decide (smKeys Endpoint.restarts b.tsu.spine.eps = [m.ep.toNat]) &&
     decide ((t < 0 ∨ 4095 < t))) = true ∧
    (let ep : BitVec 6 := 3
     let s : State := stI fun t => { t with lctl := {  } , spine := { eps := [(3, { en := true, enAtCal := true, calOk := true, rstOk := true, cell := 0xFFFFFFF0 }), (4, { en := true, calOk := true, rstOk := true })] }, ctxs := [(5, { st := .run, reg := { regions := 8 } })] }
     let b := s.blk
     let counts : Bool := (b.tsu.ctxs.any fun e => e.2.st.isArmed && e.2.reg.regions.getLsbD ep.toNat) && !(b.ep ep.toNat).quiesce
     decide (counts = true)) = true ∧
    (let ep : BitVec 6 := 3
     let s : State := stI fun t => { t with lctl := {  } , spine := { eps := [(3, { en := true, enAtCal := true, calOk := true, rstOk := true, cell := 0xFFFFFFF0 }), (4, { en := true, calOk := true, rstOk := true })] } }
     let b := s.blk
     let counts : Bool := (b.tsu.ctxs.any fun e => e.2.st.isArmed && e.2.reg.regions.getLsbD ep.toNat) && !(b.ep ep.toNat).quiesce
     decide (counts = false)) = true :=
  ⟨by decide +kernel,
   by decide +kernel,
   by decide +kernel,
   by decide +kernel,
   by decide +kernel,
   by decide +kernel,
   by decide +kernel,
   by decide +kernel,
   by decide +kernel,
   by decide +kernel,
   by decide +kernel,
   by decide +kernel,
   by decide +kernel,
   by decide +kernel,
   by decide +kernel,
   by decide +kernel,
   by decide +kernel,
   by decide +kernel,
   by decide +kernel,
   by decide +kernel,
   by decide +kernel,
   by decide +kernel⟩

theorem test_wit_TimersAndTelemetry :
    (let a : Access := np
     let d : BitVec 64 := 0x00012345000AB033
     let s : State := stI fun t => { t with timers := { sel := 9, timers := [(9, {  })] }  }
     decide (s.blk.check (portReq a) 0x7808 true = .ok) &&
     let b := s.blk
     let n := b.tsu.timers.sel.toNat
     let t := b.timer n
     let mine := worldOk (portReq a) (b.ctxWorld t.ctx.toNat || b.ctxWorld (fld d 4 6 : BitVec 6).toNat)
     decide (mine = false)) = true ∧
    (let a : Access := sp
     let d : BitVec 64 := 0x00012345000AB033
     let s : State := stI fun t => { t with timers := { sel := 9, timers := [(9, {  })] } , time := { tc64 := 1000000 } }
     decide (s.blk.check (portReq a) 0x7808 true = .ok) &&
     let b := s.blk
     let n := b.tsu.timers.sel.toNat
     let t := b.timer n
     let mine := worldOk (portReq a) (b.ctxWorld t.ctx.toNat || b.ctxWorld (fld d 4 6 : BitVec 6).toNat)
     decide (mine = true) &&
     decide (d.getLsbD 0 = true) &&
     decide (b.timeOk = false)) = true ∧
    (let a : Access := sp
     let d : BitVec 64 := 0x000123450000A03A
     let s : State := stI fun t => { t with timers := { sel := 9, timers := [(9, { at_ := 5, en := true })] }  }
     decide (s.blk.check (portReq a) 0x7808 true = .ok) &&
     let b := s.blk
     let n := b.tsu.timers.sel.toNat
     let t := b.timer n
     let mine := worldOk (portReq a) (b.ctxWorld t.ctx.toNat || b.ctxWorld (fld d 4 6 : BitVec 6).toNat)
     decide (mine = true) &&
     decide (d.getLsbD 0 = false)) = true ∧
    (let a : Access := sp
     let d : BitVec 64 := 0x00012345000AB033
     let s : State := stI fun t => { t with timers := { sel := 9, timers := [(9, { at_ := 1000000 })] }  }
     decide (s.blk.check (portReq a) 0x7808 true = .ok) &&
     let b := s.blk
     let n := b.tsu.timers.sel.toNat
     let t := b.timer n
     let mine := worldOk (portReq a) (b.ctxWorld t.ctx.toNat || b.ctxWorld (fld d 4 6 : BitVec 6).toNat)
     let t' : Timer := { t with
           en := d.getLsbD 0, action := fld d 1 2, irq := d.getLsbD 3, ctx := fld d 4 6, addr := fld d 12 19, data := fld d 32 20 }
     decide (mine = true) &&
     decide (d.getLsbD 0 = true) &&
     decide (b.timeOk = true) &&
     decide ((b.due t.at_ = false ∨ t.at_ = b.tc))) = true ∧
    (let a : Access := sp
     let d : BitVec 64 := 0x00012345000AB031
     let s : State := stI fun t => { t with timers := { sel := 9, timers := [(9, { at_ := 999999 })] }  }
     decide (s.blk.check (portReq a) 0x7808 true = .ok) &&
     let b := s.blk
     let n := b.tsu.timers.sel.toNat
     let t := b.timer n
     let mine := worldOk (portReq a) (b.ctxWorld t.ctx.toNat || b.ctxWorld (fld d 4 6 : BitVec 6).toNat)
     let t' : Timer := { t with
           en := d.getLsbD 0, action := fld d 1 2, irq := d.getLsbD 3, ctx := fld d 4 6, addr := fld d 12 19, data := fld d 32 20 }
     decide (mine = true) &&
     decide (d.getLsbD 0 = true) &&
     decide (b.timeOk = true) &&
     decide (b.due t.at_ = true) &&
     decide (t.at_ ≠ b.tc) &&
     decide ((fld d 1 2 : BitVec 2) = 0)) = true ∧
    (let a : Access := np
     let s : State := stI fun t => { t with timers := { sel := 9, timers := [(9, {  })] }  }
     decide (s.blk.check (portReq a) 0x7810 true = .ok) &&
     let b := s.blk
     let n := b.tsu.timers.sel.toNat
     let t := b.timer n
     let mine := worldOk (portReq a) (b.ctxWorld t.ctx.toNat)
     decide (mine = false)) = true ∧
    (let a : Access := sp
     let s : State := stI fun t => { t with timers := { sel := 9, timers := [(9, { en := true })] } , time := { tc64 := 1000000 } }
     decide (s.blk.check (portReq a) 0x7810 true = .ok) &&
     let b := s.blk
     let n := b.tsu.timers.sel.toNat
     let t := b.timer n
     let mine := worldOk (portReq a) (b.ctxWorld t.ctx.toNat)
     decide (mine = true) &&
     decide (b.timeOk = false)) = true ∧
    (let a : Access := sp
     let x : BitVec 64 := 1000007
     let s : State := stI fun t => { t with timers := { sel := 9, timers := [(9, {  })] }  }
     decide (s.blk.check (portReq a) 0x7810 true = .ok) &&
     let b := s.blk
     let n := b.tsu.timers.sel.toNat
     let t := b.timer n
     let mine := worldOk (portReq a) (b.ctxWorld t.ctx.toNat)
     decide (mine = true) &&
     decide (b.timeOk = true) &&
     decide ((t.en = false ∨ b.due x = false ∨ x = b.tc))) = true ∧
    (let n : BitVec 12 := 9
     let s : State := stI fun t => { t with timers := { sel := 9, timers := [(9, {  })] }  }
     let b := s.blk
     let t := b.timer n.toNat
     decide (b.live = false ∨ t.en = false ∨ b.due t.at_ = false)) = true ∧
    (let n : BitVec 12 := 9
     let s : State := stI fun t => { t with timers := { sel := 9, timers := [(9, { en := true, at_ := 1000000 })] }  }
     let b := s.blk
     let t := b.timer n.toNat
     decide (b.live = true) &&
     decide (t.en = true) &&
     decide (b.due t.at_ = true) &&
     decide (t.action = 0)) = true ∧
    (let n : BitVec 12 := 9
     let s : State := stI fun t => { t with timers := { sel := 9, timers := [(9, { en := true, at_ := 1000000, action := 1, addr := 70, data := 5, ctx := 3 })] }  }
     let b := s.blk
     let t := b.timer n.toNat
     decide (b.live = true) &&
     decide (t.en = true) &&
     decide (b.due t.at_ = true) &&
     decide (t.action ≠ 0) &&
     decide (t.action ≠ 3)) = true ∧
    (let n : BitVec 12 := 9
     let s : State := stI fun t => { t with timers := { sel := 9, timers := [(9, { en := true, at_ := 1000000, action := 3, addr := 70, data := 5, ctx := 3 })] }  }
     let b := s.blk
     let t := b.timer n.toNat
     decide (b.live = true) &&
     decide (t.en = true) &&
     decide (b.due t.at_ = true) &&
     decide (t.action = 3)) = true ∧
    ((stI fun t => { t with time := { tc64 := 0x8000000, timeValid := true }, tel := { en := true, ch := 5 } }).blk.telDue = true ∧ (stI id).blk.telDue = false) :=
  ⟨by decide +kernel,
   by decide +kernel,
   by decide +kernel,
   by decide +kernel,
   by decide +kernel,
   by decide +kernel,
   by decide +kernel,
   by decide +kernel,
   by decide +kernel,
   by decide +kernel,
   by decide +kernel,
   by decide +kernel,
   by decide +kernel⟩

/-- A root that runs with input 1 (1PPS), input 2 (10 MHz) and port 0 enabled. -/
def catRef (l : List (Nat × Bytes)) : List (Nat × Bytes) :=
  [(0x220201, [1]), (0x220205, [1]), (0x220301, [2]), (0x220501, [1]), (0x220502, [24]), (0x220505, [2])] ++ l ++ [(0x711001, [3])]
/-- A ToD message of second 5, QL 1. -/
def todHead : Bytes := [0x48, 0x5A, 1, 28] ++ toBE 6 5 ++ [1, 1] ++ List.replicate 12 0
def tod5 : Bytes := todHead ++ toBE 4 (crc32c todHead).toNat

theorem test_wit_ReferenceInputs :
    (let n : BitVec 2 := 1
     let t : Ts := ⟨1000000, 3⟩
     let s : State := stD 1 id
     let b := s.blk
     let k := n.toNat
     let r := b.ref k
     let e := tsUnits t
     decide (b.dRole ≠ 3 ∨ b.refType k ≠ 1 ∨ t.fine = 0x3FF)) = true ∧
    (let n : BitVec 2 := 1
     let t : Ts := ⟨1000000, 3⟩
     let s : State := stD 3 fun d => { d with cat := { d.cat with vals := catRef [] }, root := { refs := [(1, {  })]  }  }
     let b := s.blk
     let k := n.toNat
     let r := b.ref k
     let e := tsUnits t
     let inWin := match r.lastEdge with
           | none => true
           | some x => decide ((e - x - 800000000000).natAbs ≤ 800000)
     decide (b.dRole = 3) &&
     decide (b.refType k = 1) &&
     decide (t.fine ≠ 0x3FF) &&
     decide (inWin = true) &&
     decide (r.label = none)) = true ∧
    (let n : BitVec 2 := 1
     let t : Ts := ⟨1250001250, 4⟩
     let s : State := stD 3 fun d => { d with cat := { d.cat with vals := catRef [] }, root := { refs := [(1, { good := true, todGood := true, ql := 1, lastEdge := some 3 })]  }  }
     let b := s.blk
     let k := n.toNat
     let r := b.ref k
     let e := tsUnits t
     let inWin := match r.lastEdge with
           | none => true
           | some x => decide ((e - x - 800000000000).natAbs ≤ 800000)
     decide (b.dRole = 3) &&
     decide (b.refType k = 1) &&
     decide (t.fine ≠ 0x3FF) &&
     decide (inWin = false) &&
     decide (r.miss = 0)) = true ∧
    (let n : BitVec 2 := 1
     let t : Ts := ⟨1250001251, 4⟩
     let s : State := stD 3 fun d => { d with cat := { d.cat with vals := catRef [] }, root := { refs := [(1, { good := true, todGood := true, ql := 1, lastEdge := some 3, miss := 1 })]  }  }
     let b := s.blk
     let k := n.toNat
     let r := b.ref k
     let e := tsUnits t
     let inWin := match r.lastEdge with
           | none => true
           | some x => decide ((e - x - 800000000000).natAbs ≤ 800000)
     decide (b.dRole = 3) &&
     decide (b.refType k = 1) &&
     decide (t.fine ≠ 0x3FF) &&
     decide (inWin = false) &&
     decide (1 ≤ r.miss) &&
     decide (r.good = true)) = true ∧
    (let n : BitVec 2 := 1
     let t : Ts := ⟨1000000, 3⟩
     let s : State := stD 3 fun d => { d with cat := { d.cat with vals := catRef [] }, root := { refs := [(1, { goodRun := 3, label := some 0xFFFFFFFFFFFF })] , role := 2 } , time := { tc64 := 1000000 } }
     let b := s.blk
     let k := n.toNat
     let r := b.ref k
     let e := tsUnits t
     let inWin := match r.lastEdge with
           | none => true
           | some x => decide ((e - x - 800000000000).natAbs ≤ 800000)
     let sec := 0xFFFFFFFFFFFF
     decide (b.dRole = 3) &&
     decide (b.refType k = 1) &&
     decide (t.fine ≠ 0x3FF) &&
     decide (inWin = true) &&
     decide (r.label = some sec) &&
     decide (ht96ToTc64 b.dist.time.epoch ⟨sec, 0, 0⟩ = none) &&
     decide (b.dist.root.role = 2)) = true ∧
    (let n : BitVec 2 := 2
     let t : Ts := ⟨1000000, 3⟩
     let s : State := stD 3 fun d => { d with cat := { d.cat with vals := catRef [] }, root := {  }  }
     let b := s.blk
     let k := n.toNat
     let r := b.ref k
     let e := tsUnits t
     decide (b.refType k ≠ 1)) = true ∧
    (let n : BitVec 2 := 1
     let t : Ts := ⟨1000000, 3⟩
     let s : State := stD 3 fun d => { d with cat := { d.cat with vals := catRef [] }, root := { refs := [(1, { good := true, todGood := true, ql := 1 })]  }  }
     let b := s.blk
     let k := n.toNat
     let r := b.ref k
     let e := tsUnits t
     decide (b.refType k = 1) &&
     decide (r.miss = 0)) = true ∧
    (let n : BitVec 2 := 1
     let t : Ts := ⟨1000000, 3⟩
     let s : State := stD 3 fun d => { d with cat := { d.cat with vals := catRef [] }, root := { refs := [(1, { good := true, todGood := true, ql := 1, miss := 1 })]  }  }
     let b := s.blk
     let k := n.toNat
     let r := b.ref k
     let e := tsUnits t
     decide (b.refType k = 1) &&
     decide (1 ≤ r.miss) &&
     decide (r.good = true)) = true ∧
    (let n : BitVec 2 := 2
     let t : Ts := ⟨1000000, 3⟩
     let s : State := stD 3 fun d => { d with cat := { d.cat with vals := catRef [] }, root := {  }  }
     let b := s.blk
     let k := n.toNat
     let r := b.ref k
     let e := tsUnits t
     decide (b.refType k = 2)) = true ∧
    (let n : BitVec 2 := 1
     let t : Ts := ⟨1000000, 3⟩
     let s : State := stD 3 fun d => { d with cat := { d.cat with vals := catRef [] }, root := {  }  }
     let b := s.blk
     let k := n.toNat
     let r := b.ref k
     let e := tsUnits t
     decide (b.refType k ≠ 2)) = true ∧
    (let n : BitVec 2 := 1
     let t : Ts := ⟨1000000, 3⟩
     let s : State := stD 3 fun d => { d with cat := { d.cat with vals := catRef [] }, root := { refs := [(1, { good := true, ql := 2, prevSec := some 4 })]  }  }
     let b := s.blk
     let k := n.toNat
     let r := b.ref k
     let e := tsUnits t
     decide (b.candValid k = false)) = true ∧
    (let n : BitVec 2 := 1
     let t : Ts := ⟨1000000, 3⟩
     let s : State := stD 3 fun d => { d with cat := { d.cat with vals := catRef [] }, root := { refs := [(1, { good := true, todGood := true, ql := 1 })]  }  }
     let b := s.blk
     let k := n.toNat
     let r := b.ref k
     let e := tsUnits t
     decide (b.candValid k = true)) = true ∧
    (let n : BitVec 2 := 1
     let m : Bytes := tod5
     let s : State := stD 1 id
     let b := s.blk
     let k := n.toNat
     decide (b.dRole ≠ 3 ∨ todParse m = none)) = true ∧
    (let n : BitVec 2 := 1
     let m : Bytes := tod5
     let sec : BitVec 48 := 5
     let ql : BitVec 4 := 1
     let fl : Byte := 1
     let s : State := stD 3 fun d => { d with cat := { d.cat with vals := catRef [] }, root := {  }  }
     let b := s.blk
     let k := n.toNat
     let r := b.ref k
     decide (b.dRole = 3) &&
     decide (todParse m = some (sec, ql, fl)) &&
     decide (r.lastEdge = none) &&
     decide (r.prevSec = none)) = true ∧
    (let n : BitVec 2 := 1
     let m : Bytes := tod5
     let sec : BitVec 48 := 5
     let ql : BitVec 4 := 1
     let fl : Byte := 1
     let s : State := stD 3 fun d => { d with cat := { d.cat with vals := catRef [] }, root := { refs := [(1, { prevSec := some 5 })]  }  }
     let b := s.blk
     let k := n.toNat
     let r := b.ref k
     let p := 5
     decide (b.dRole = 3) &&
     decide (todParse m = some (sec, ql, fl)) &&
     decide (r.prevSec = some p) &&
     decide (sec ≠ p + 1)) = true ∧
    (let n : BitVec 2 := 1
     let m : Bytes := tod5
     let sec : BitVec 48 := 5
     let ql : BitVec 4 := 1
     let fl : Byte := 1
     let s : State := stD 3 fun d => { d with cat := { d.cat with vals := catRef [] }, root := { refs := [(1, { lastEdge := some 560000001 })]  } , time := { tc64 := 125874999, timeValid := true } }
     let b := s.blk
     let k := n.toNat
     let r := b.ref k
     let e := 560000001
     decide (b.dRole = 3) &&
     decide (todParse m = some (sec, ql, fl)) &&
     decide (r.lastEdge = some e) &&
     decide ((b.dist.time.tc64.toNat : Int) * 640 - e < 80000000000 ∨ 720000000000 < (b.dist.time.tc64.toNat : Int) * 640 - e)) = true ∧
    (let n : Bool := true
     let dom : Byte := 24
     let s : State := stD 3 fun d => { d with cat := { d.cat with vals := catRef [] }, root := {  }  }
     let b := s.blk
     let k := n.toNat
     decide (b.dRole ≠ 3 ∨ b.catNat .dist (0x2205 + k) 1 ≠ 1 ∨ dom.toNat ≠ b.catNat .dist (0x2205 + k) 2)) = true ∧
    (let n : Bool := true
     let dom : Byte := 24
     let s : State := stD 3 fun d => { d with cat := { d.cat with vals := catRef [] }, root := {  }  }
     let b := s.blk
     let k := n.toNat
     decide (b.dRole ≠ 3 ∨ b.catNat .dist (0x2205 + k) 1 ≠ 1 ∨ dom.toNat ≠ b.catNat .dist (0x2205 + k) 2)) = true ∧
    (let n : Bool := false
     let dom : Byte := 24
     let ts : Bool := true
     let s : State := stD 3 fun d => { d with cat := { d.cat with vals := catRef [] }, root := {  }  }
     let b := s.blk
     let k := n.toNat
     let was := b.candValid (4 + k)
     decide (b.dRole = 3) &&
     decide (b.catNat .dist (0x2205 + k) 1 = 1) &&
     decide (dom.toNat = b.catNat .dist (0x2205 + k) 2) &&
     decide (was = false) &&
     decide (ts = true)) = true ∧
    (let n : Bool := false
     let dom : Byte := 24
     let cls : Byte := 6
     let acc : Byte := 0x21
     let ts : Bool := true
     let s : State := stD 3 fun d => { d with cat := { d.cat with vals := catRef [] }, root := { selected := some 4, ptps := [(0, { announced := true, ql := 1 })] }  }
     let b := s.blk
     let k := n.toNat
     let was := b.candValid (4 + k)
     decide (b.dRole = 3) &&
     decide (b.catNat .dist (0x2205 + k) 1 = 1) &&
     decide (dom.toNat = b.catNat .dist (0x2205 + k) 2) &&
     decide (was = true) &&
     decide (ts = true) &&
     decide (ptpQl cls acc = (b.ptp k).ql)) = true ∧
    (let n : Bool := false
     let dom : Byte := 24
     let s : State := stD 3 fun d => { d with cat := { d.cat with vals := catRef [] }, root := {  }  }
     let b := s.blk
     let k := n.toNat
     let was := b.candValid (4 + k)
     decide (b.dRole = 3) &&
     decide (b.catNat .dist (0x2205 + k) 1 = 1) &&
     decide (dom.toNat = b.catNat .dist (0x2205 + k) 2) &&
     decide (was = false)) = true ∧
    (let n : Bool := false
     let dom : Byte := 24
     let s : State := stD 3 fun d => { d with cat := { d.cat with vals := catRef [] }, root := { selected := some 4, ptps := [(0, { announced := true, ql := 1 })] }  }
     let b := s.blk
     let k := n.toNat
     let was := b.candValid (4 + k)
     decide (b.dRole = 3) &&
     decide (b.catNat .dist (0x2205 + k) 1 = 1) &&
     decide (dom.toNat = b.catNat .dist (0x2205 + k) 2) &&
     decide (was = true)) = true ∧
    (let n : Bool := false
     let s : State := stD 3 fun d => { d with cat := { d.cat with vals := catRef [] }, root := {  }  }
     let b := s.blk
     let k := n.toNat
     let was := b.candValid (4 + k)
     decide (was = false)) = true ∧
    (let n : Bool := false
     let s : State := stD 3 fun d => { d with cat := { d.cat with vals := catRef [] }, root := { ptps := [(0, { announced := true, ql := 1 })] }  }
     let b := s.blk
     let k := n.toNat
     let was := b.candValid (4 + k)
     decide (was = true)) = true :=
  ⟨by decide +kernel,
   by decide +kernel,
   by decide +kernel,
   by decide +kernel,
   by decide +kernel,
   by decide +kernel,
   by decide +kernel,
   by decide +kernel,
   by decide +kernel,
   by decide +kernel,
   by decide +kernel,
   by decide +kernel,
   by decide +kernel,
   by decide +kernel,
   by decide +kernel,
   by decide +kernel,
   by decide +kernel,
   by decide +kernel,
   by decide +kernel,
   by decide +kernel,
   by decide +kernel,
   by decide +kernel,
   by decide +kernel,
   by decide +kernel⟩

theorem test_wit_RootSelection :
    (let s : State := stD 3 fun d => { d with cat := { d.cat with vals := catRef [] }, root := {  }  }
     let b := s.blk
     let r := b.dist.root
     decide (r.holdoff = none)) = true ∧
    (let s : State := stD 3 fun d => { d with cat := { d.cat with vals := catRef [] }, root := { holdoff := some 2, refs := [(1, { good := true, todGood := true, ql := 1 })] }  }
     let b := s.blk
     let r := b.dist.root
     let h := 2
     let c := 1
     decide (r.holdoff = some h) &&
     decide (b.candBest = some c)) = true ∧
    (let s : State := stD 3 fun d => { d with cat := { d.cat with vals := catRef [] }, root := { holdoff := some 1 }  }
     let b := s.blk
     let r := b.dist.root
     let h := 1
     decide (r.holdoff = some h) &&
     decide (b.candBest = none)) = true ∧
    (let s : State := stD 3 fun d => { d with cat := { d.cat with vals := catRef [] }, root := {  }  }
     let b := s.blk
     let c : BitVec 3 := 1
     decide (b.candValid c.toNat = false)) = true ∧
    (let s : State := stD 3 fun d => { d with cat := { d.cat with vals := catRef [] }, root := { wtr := 3, refs := [(1, { good := true, todGood := true, ql := 1 })] }  }
     let b := s.blk
     let c : BitVec 3 := 1
     decide (b.candValid c.toNat = true)) = true ∧
    (let s : State := stD 2 id
     let b := s.blk
     decide (b.dRole ≠ 3)) = true ∧
    (let s : State := stD 2 id
     let b := s.blk
     decide (b.dRole ≠ 3)) = true ∧
    (let s : State := stD 2 id
     let b := s.blk
     decide (b.dRole ≠ 3)) = true ∧
    (let s : State := stD 3 fun d => { d with cat := { d.cat with vals := catRef [] }, root := {  } , time := { tc64 := 1000000 } }
     let b := s.blk
     let r := b.dist.root
     decide (b.dRole = 3) &&
     decide (r.role = 0) &&
     decide (b.dist.time.timeValid = false) &&
     decide (b.xmst = false) &&
     decide (r.tieValid = false)) = true ∧
    (let s : State := stD 3 fun d => { d with cat := { d.cat with vals := catRef [] }, root := { role := 2, tlk := true }  }
     let b := s.blk
     let r := b.dist.root
     decide (b.dRole = 3) &&
     decide (r.role = 2) &&
     decide (b.xmst = false) &&
     decide (r.tieValid = false)) = true ∧
    (let s : State := stD 3 fun d => { d with cat := { d.cat with vals := catRef [] }, root := { role := 1, selected := some 1 } , lanes := [(5, { upLane with sync := { upLane.sync with rx := { xmst := true } } })] }
     let b := s.blk
     let r := b.dist.root
     decide (b.dRole = 3) &&
     decide (r.role = 1) &&
     decide (b.xmst = true)) = true ∧
    (let s : State := stD 3 fun d => { d with cat := { d.cat with vals := catRef [] }, root := {  }  }
     let b := s.blk
     let t := BitVec.ofNat 64 (b.catNat .dist 0x2120 2)
     decide (t = 0 ∨ Tick.le t b.dist.time.tc64 = false)) = true ∧
    (let s : State := stD 3 fun d => { d with cat := { d.cat with vals := [(0x212002, toLE 8 1000000), (0x711001, [3])] }, root := { role := 1, rsrc := 1, selected := some 2, tieHist := [4] } }
     let b := s.blk
     let r := b.dist.root
     let t := BitVec.ofNat 64 (b.catNat .dist 0x2120 2)
     decide (b.dRole = 3) &&
     decide (t ≠ 0) &&
     decide (Tick.le t b.dist.time.tc64 = true) &&
     decide (r.role = 1)) = true ∧
    (let s : State := stD 3 fun d => { d with cat := { d.cat with vals := [(0x212002, toLE 8 1000000), (0x711001, [3])] }, root := { role := 2, tlk := true } }
     let b := s.blk
     let r := b.dist.root
     let t := BitVec.ofNat 64 (b.catNat .dist 0x2120 2)
     decide (b.dRole = 3) &&
     decide (t ≠ 0) &&
     decide (Tick.le t b.dist.time.tc64 = true) &&
     decide (r.role = 2)) = true ∧
    (let s : State := stD 3 fun d => { d with cat := { d.cat with vals := catRef [(0x222004, [0])] }, root := {  }  }
     let b := s.blk
     let r := b.dist.root
     decide (b.dRole = 3) &&
     decide (r.selected = none) &&
     decide (b.catNat .dist 0x2220 4 ≠ 1)) = true ∧
    (let s : State := stD 3 fun d => { d with cat := { d.cat with vals := catRef [(0x222004, [0])] }, root := { selected := some 2 }  }
     let b := s.blk
     let r := b.dist.root
     decide (b.dRole = 3) &&
     decide (r.selected ≠ none) &&
     decide (b.catNat .dist 0x2220 4 ≠ 1)) = true ∧
    (let s : State := stD 3 fun d => { d with cat := { d.cat with vals := catRef [(0x222004, [1])] }, root := { ageingEst := 77 }  }
     let b := s.blk
     let r := b.dist.root
     decide (b.dRole = 3) &&
     decide (r.selected = none) &&
     decide (b.catNat .dist 0x2220 4 = 1)) = true :=
  ⟨by decide +kernel,
   by decide +kernel,
   by decide +kernel,
   by decide +kernel,
   by decide +kernel,
   by decide +kernel,
   by decide +kernel,
   by decide +kernel,
   by decide +kernel,
   by decide +kernel,
   by decide +kernel,
   by decide +kernel,
   by decide +kernel,
   by decide +kernel,
   by decide +kernel,
   by decide +kernel,
   by decide +kernel⟩

theorem test_wit_RegisterWrites :
    (let a : Access := sp
     let w : Bool := true
     let x : BitVec 24 := 0x1418
     let d : BitVec 64 := 0x00A0BCDE12345678
     let s : State := {}
     let b := s.blk
     decide (b.tsu.boot.tsuRst = true)) = true ∧
    (let a : Access := sp
     let w : Bool := true
     let x : BitVec 24 := 0x1470
     let d : BitVec 64 := 0x00A0BCDE12345678
     let s : State := stI id
     let b := s.blk
     decide (b.tsu.boot.tsuRst = false) &&
     decide (regAssigned x.toNat = false)) = true ∧
    (let a : Access := sp
     let w : Bool := true
     let x : BitVec 24 := 0x1418
     let d : BitVec 64 := 0x00A0BCDE12345678
     let s : State := stI id
     let b := s.blk
     let q := portReq a
     let c := x.toNat / 8 * 8
     decide (b.tsu.boot.tsuRst = false) &&
     decide (regAssigned x.toNat = true) &&
     decide (x.toNat < 0x400000) &&
     decide (isFreeze c = false) &&
     decide (b.check q x.toNat (b.wrWorldOk q c) = .ok)) = true ∧
    (let a : Access := np
     let w : Bool := true
     let x : BitVec 24 := 0xD010
     let d : BitVec 64 := 0x00A0BCDE12345678
     let s : State := stI id
     let b := s.blk
     let q := portReq a
     let c := x.toNat / 8 * 8
     decide (b.tsu.boot.tsuRst = false) &&
     decide (regAssigned x.toNat = true) &&
     decide (x.toNat < 0x400000) &&
     decide (isFreeze c = false) &&
     decide (b.check q x.toNat (b.wrWorldOk q c) = .violation)) = true ∧
    (let a : Access := sp
     let w : Bool := true
     let x : BitVec 24 := 0xA000
     let d : BitVec 64 := 0x00A0BCDE12345678
     let s : State := stI fun t => { t with pwr := { t.pwr with on := ⟨false, false, false, false, false⟩, st := .mitten } }
     let b := s.blk
     let q := portReq a
     let c := x.toNat / 8 * 8
     decide (b.tsu.boot.tsuRst = false) &&
     decide (regAssigned x.toNat = true) &&
     decide (x.toNat < 0x400000) &&
     decide (isFreeze c = false) &&
     decide (b.check q x.toNat (b.wrWorldOk q c) = .power)) = true ∧
    (let q : Req := ⟨true, 3, false⟩
     decide (q.secure = true)) = true ∧
    (let q : Req := ⟨false, 1, false⟩
     let d : BitVec 64 := 0x00A0BCDE12345678
     let b : Block := (stI id).blk
     decide (q.secure = false) &&
     decide ((d ^^^ b.regRead q 0x1408) &&& 0x0FFFFFFF ≠ 0)) = true ∧
    (let r : DebugReq := ⟨false, true, true, 0x1418, 0x00A0BCDE12345678, 9⟩
     let s : State := {}
     let b := s.blk
     let x := r.addr.toNat
     let c := x / 8 * 8
     decide (b.tsu.boot.tsuRst = true)) = true ∧
    (let r : DebugReq := ⟨false, true, true, 0x1418, 0x00A0BCDE12345678, 9⟩
     let s : State := stI id
     let b := s.blk
     let x := r.addr.toNat
     let c := x / 8 * 8
     decide (b.tsu.boot.tsuRst = false) &&
     decide (b.tsu.dbg.level = 0) &&
     decide (0x1000 ≤ x) &&
     decide (isUnlockReg x = false) &&
     decide ((r.write = true → isFreeze c = false))) = true ∧
    (let r : DebugReq := ⟨true, true, true, 0x1418, 0, 9⟩
     let s : State := stI fun t => { t with dbg := { t.dbg with level := 1 } }
     let b := s.blk
     let x := r.addr.toNat
     let c := x / 8 * 8
     decide (b.tsu.boot.tsuRst = false) &&
     decide (b.tsu.dbg.level = 1) &&
     decide (r.secure = true) &&
     decide (0x1000 ≤ x) &&
     decide (isUnlockReg x = false) &&
     decide ((r.write = true → isFreeze c = false))) = true ∧
    (let r : DebugReq := ⟨false, true, true, 0x1418, 0x00A0BCDE12345678, 9⟩
     let s : State := stI fun t => { t with dbg := { t.dbg with level := 2 } }
     let b := s.blk
     let x := r.addr.toNat
     let c := x / 8 * 8
     decide (b.tsu.boot.tsuRst = false) &&
     decide (2 ≤ b.tsu.dbg.level.toNat) &&
     decide (0x1000 ≤ x) &&
     decide (x < 0x100000) &&
     decide ((x < 0xD000 ∨ 0xE000 ≤ x)) &&
     decide (isUnlockReg x = false) &&
     decide (regAssigned x = true) &&
     decide (b.nibbleOk ⟨r.secure, 2, true⟩ x = true) &&
     decide (b.targetOn x = true) &&
     decide (r.write = true) &&
     decide (isFreeze c = false) &&
     decide (b.wrWorldOk ⟨r.secure, 2, true⟩ c = true)) = true ∧
    (let r : DebugReq := ⟨true, false, false, 0x141C, 0x1234, 9⟩
     let s : State := stI fun t => { t with dbg := { t.dbg with level := 2 } }
     let b := s.blk
     let x := r.addr.toNat
     let c := x / 8 * 8
     decide (b.tsu.boot.tsuRst = false) &&
     decide (2 ≤ b.tsu.dbg.level.toNat) &&
     decide (0x1000 ≤ x) &&
     decide (x < 0x100000) &&
     decide ((x < 0xD000 ∨ 0xE000 ≤ x)) &&
     decide (isUnlockReg x = false) &&
     decide (regAssigned x = true) &&
     decide (b.nibbleOk ⟨r.secure, 2, true⟩ x = true) &&
     decide (b.targetOn x = true) &&
     decide (r.write = false) &&
     decide (worldOk ⟨r.secure, 2, true⟩ (b.regSecure c) = true)) = true :=
  ⟨by decide +kernel,
   by decide +kernel,
   by decide +kernel,
   by decide +kernel,
   by decide +kernel,
   by decide +kernel,
   by decide +kernel,
   by decide +kernel,
   by decide +kernel,
   by decide +kernel,
   by decide +kernel,
   by decide +kernel⟩

/-- A sync frame, and a lane in the middle of an exchange. -/
def sf (dir : Bool) (seq : BitVec 16) : SyncFrame :=
  { cmp := false, sseq := seq, tv := true, pcal := true, dir := dir, pmv := false, txPrev := ⟨998990, 50⟩, rxSeq := 7
    rxTs := ⟨999112, 3⟩, epoch := ⟨5, 6, 7⟩, pmean := 3, dsum := 4, dcnt := 2, servo := 0x8100000000000000 }
def syncLane (f : LaneSync → LaneSync) : Lane :=
  { upLane with sync := f { upLane.sync with
      dllLock := true, rxSeq := 7, prevTxSeq := 7, rxTs := some ⟨999000, 100⟩, prevTx := some ⟨999100, 7⟩, accN := 3
      d2s := [14000], lastRxAt := 990000, answer := true } }

theorem test_wit_SyncExchange :
    (let n : Nat := 5
     let s : State := stD 1 fun d => { d with lanes := [] }
     decide (n < 288) &&
     let b := s.blk
     let l := LaneRef.dist n
     let x := b.lane l
     decide (b.up l = false ∨ b.sendsDown = false)) = true ∧
    (let n : Nat := 5
     let s : State := stD 1 fun d => { d with lanes := [(5, syncLane fun y => { y with accN := 3 }), (288, upLane)]  }
     decide (n < 288) &&
     let b := s.blk
     let l := LaneRef.dist n
     let x := b.lane l
     decide (b.up l = true) &&
     decide (b.sendsDown = true)) = true ∧
    (let l : LaneRef := .tsu .A
     let s : State := stI fun t => { t with laneA := syncLane fun y => { y with answer := false }  }
     decide (l.ok = true) &&
     let b := s.blk
     let x := b.lane l
     decide (b.up l = false ∨ x.sync.answer = false)) = true ∧
    (let l : LaneRef := .tsu .A
     let s : State := stI fun t => { t with laneA := syncLane fun y => { y with accN := 3 }  }
     decide (l.ok = true) &&
     let b := s.blk
     let x := b.lane l
     decide (b.up l = true) &&
     decide (x.sync.answer = true)) = true ∧
    (let l : LaneRef := .dist 7
     let s : State := stD 1 fun d => { d with lanes := [(5, syncLane fun y => { y with accN := 3 }), (288, upLane)]  }
     decide (l.ok = true) &&
     let b := s.blk
     let x := b.lane l
     decide (b.up l = false)) = true ∧
    (let l : LaneRef := .tsu .A
     let s : State := stI fun t => { t with laneA := syncLane fun y => { y with lastRxAt := 934464 }  }
     decide (l.ok = true) &&
     let b := s.blk
     let x := b.lane l
     decide (b.up l = true) &&
     decide (16 * 4096 ≤ Tick.diff (b.tcOf (laneUnit l)) x.sync.lastRxAt)) = true ∧
    (let l : LaneRef := .tsu .A
     let s : State := stI fun t => { t with laneA := syncLane fun y => { y with lastRxAt := 934465 }  }
     decide (l.ok = true) &&
     let b := s.blk
     let x := b.lane l
     decide (b.up l = true) &&
     decide (Tick.diff (b.tcOf (laneUnit l)) x.sync.lastRxAt < 16 * 4096)) = true ∧
    (∃ (l : LaneRef) (h : Hdr) (f : SyncFrame) (rx : Ts) (s : State), l.ok = true ∧ f.cmp = true) ∧
    (let p : Plane := .A
     let h : Hdr := hdr 0
     let f : SyncFrame := sf true 8
     let rx : Ts := ⟨999998, 9⟩
     let t2 : Ts := ⟨999000, 100⟩
     let t3 : Ts := ⟨999100, 7⟩
     let s : State := stI fun t => { t with laneA := syncLane fun y => { y with accN := 3 }  }
     decide (s.blk.rxOk (.tsu p) h 0 0 false = true) &&
     decide (s.blk.dRole ≠ 3) &&
     decide (f.cmp = false) &&
     let l := LaneRef.tsu p
     let b := s.blk.rxBook l h 0
     let x := s.blk.lane l
     let now := s.blk.tc
     decide (f.dir = true)) = true ∧
    (let p : Plane := .A
     let h : Hdr := hdr 0
     let f : SyncFrame := sf false 9
     let rx : Ts := ⟨999998, 9⟩
     let t2 : Ts := ⟨999000, 100⟩
     let t3 : Ts := ⟨999100, 7⟩
     let s : State := stI fun t => { t with laneA := syncLane fun y => { y with accN := 3 }  }
     decide (s.blk.rxOk (.tsu p) h 0 0 false = true) &&
     decide (s.blk.dRole ≠ 3) &&
     decide (f.cmp = false) &&
     let l := LaneRef.tsu p
     let b := s.blk.rxBook l h 0
     let x := s.blk.lane l
     let now := s.blk.tc
     decide (f.dir = false) &&
     decide ((f.sseq ≠ x.sync.rxSeq + 1 ∨ f.rxSeq ≠ x.sync.rxSeq ∨ x.sync.prevTxSeq ≠ x.sync.rxSeq ∨ f.txPrev.fine = 0x3FF ∨ f.rxTs.fine = 0x3FF ∨ x.sync.rxTs = none ∨ x.sync.prevTx = none))) = true ∧
    (let p : Plane := .A
     let h : Hdr := hdr 0
     let f : SyncFrame := sf false 8
     let rx : Ts := ⟨999998, 9⟩
     let t2 : Ts := ⟨999000, 100⟩
     let t3 : Ts := ⟨999100, 7⟩
     let s : State := stI fun t => { t with laneA := syncLane fun y => { y with accN := 3 }  }
     decide (s.blk.rxOk (.tsu p) h 0 0 false = true) &&
     decide (s.blk.dRole ≠ 3) &&
     decide (f.cmp = false) &&
     let l := LaneRef.tsu p
     let b := s.blk.rxBook l h 0
     let x := s.blk.lane l
     let now := s.blk.tc
     let d2 := tsDiff t2 f.txPrev + tsDiff f.rxTs t3
     decide (f.dir = false) &&
     decide (f.sseq = x.sync.rxSeq + 1) &&
     decide (f.rxSeq = x.sync.rxSeq) &&
     decide (x.sync.prevTxSeq = x.sync.rxSeq) &&
     decide (f.txPrev.fine ≠ 0x3FF) &&
     decide (f.rxTs.fine ≠ 0x3FF) &&
     decide (x.sync.rxTs = some t2) &&
     decide (x.sync.prevTx = some t3) &&
     let ok : Bool := decide (0 ≤ d2) && (decide (x.sync.accN < 16) ||
             decide ((d2 - median x.sync.d2s).natAbs ≤ 2 * x.reg.delayWin.toNat))
     decide (ok = true)) = true ∧
    (let p : Plane := .A
     let h : Hdr := hdr 0
     let f : SyncFrame := sf false 8
     let rx : Ts := ⟨999998, 9⟩
     let t2 : Ts := ⟨999000, 100⟩
     let t3 : Ts := ⟨999100, 7⟩
     let s : State := stI fun t => { t with laneA := syncLane fun y => { y with accN := 20, d2s := [19000, 14400, 17000] }  }
     decide (s.blk.rxOk (.tsu p) h 0 0 false = true) &&
     decide (s.blk.dRole ≠ 3) &&
     decide (f.cmp = false) &&
     let l := LaneRef.tsu p
     let b := s.blk.rxBook l h 0
     let x := s.blk.lane l
     let now := s.blk.tc
     let d2 := tsDiff t2 f.txPrev + tsDiff f.rxTs t3
     decide (f.dir = false) &&
     decide (f.sseq = x.sync.rxSeq + 1) &&
     decide (f.rxSeq = x.sync.rxSeq) &&
     decide (x.sync.prevTxSeq = x.sync.rxSeq) &&
     decide (f.txPrev.fine ≠ 0x3FF) &&
     decide (f.rxTs.fine ≠ 0x3FF) &&
     decide (x.sync.rxTs = some t2) &&
     decide (x.sync.prevTx = some t3) &&
     let ok : Bool := decide (0 ≤ d2) && (decide (x.sync.accN < 16) ||
             decide ((d2 - median x.sync.d2s).natAbs ≤ 2 * x.reg.delayWin.toNat))
     decide (ok = false)) = true ∧
    (let n : Nat := 5
     let h : Hdr := hdr 0
     let f : SyncFrame := sf true 8
     let rx : Ts := ⟨999998, 9⟩
     let t1 : Ts := ⟨998900, 7⟩
     let t2 : Ts := ⟨999000, 100⟩
     let t4 : Ts := ⟨999112, 3⟩
     let s : State := stD 1 fun d => { d with lanes := [(5, syncLane fun y => { y with prevTxSeq := 8, prev2Tx := some ⟨998900, 7⟩, peerRx := some ⟨999000, 100⟩, rxTs := some ⟨999112, 3⟩ }), (288, upLane)]  }
     decide (n < 288) &&
     decide (s.blk.rxOk (.dist n) h 0 0 false = true) &&
     decide (s.blk.dRole ≠ 3) &&
     decide (f.cmp = false) &&
     decide (f.dir = true) &&
     let l := LaneRef.dist n
     let x := s.blk.lane l
     let d2 := tsDiff t2 t1 + tsDiff t4 f.txPrev
     decide (f.sseq = x.sync.rxSeq + 1) &&
     decide (x.sync.prevTxSeq = x.sync.rxSeq + 1) &&
     decide (f.txPrev.fine ≠ 0x3FF) &&
     decide (x.sync.prev2Tx = some t1) &&
     decide (x.sync.peerRx = some t2) &&
     decide (x.sync.rxTs = some t4) &&
     decide (0 ≤ d2) &&
     decide (x.sync.accN < 16)) = true :=
  ⟨by decide +kernel,
   by decide +kernel,
   by decide +kernel,
   by decide +kernel,
   by decide +kernel,
   by decide +kernel,
   by decide +kernel,
   ⟨.tsu .A, hdr 0, { sf false 8 with cmp := true, txPrev := ⟨0xF3E00, 4⟩, rxTs := ⟨0xF3EFF, 5⟩ }, ⟨999998, 9⟩, stI fun t => { t with laneA := syncLane fun y => { y with accN := 3 }  }, by decide +kernel⟩,
   by decide +kernel,
   by decide +kernel,
   by decide +kernel,
   by decide +kernel,
   by decide +kernel⟩

theorem test_wit_TdcAndRefinement :
    (let p : Plane := .A
     let n : Nat := 5
     let s : State := stI id
     decide (n < 312)) = true ∧
    (let p : Plane := .A
     let n : Nat := 5
     let s : State := stI id
     decide (n < 312)) = true ∧
    (let p : Plane := .A
     let n : Nat := 5
     let s : State := stI id
     decide (n < 312)) = true ∧
    (let p : Plane := .A
     let n : Nat := 5
     let s : State := stI id
     decide (n < 312)) = true ∧
    (let p : Plane := .A
     let n : Nat := 5
     let s : State := stI id
     decide (n < 312)) = true ∧
    (let p : Plane := .A
     let n : Nat := 5
     let s : State := stI id
     decide (n < 312)) = true ∧
    (let p : Plane := .A
     let n : Nat := 5
     let s : State := stI id
     decide (n < 312)) = true ∧
    (let p : Plane := .A
     let n : Nat := 5
     let s : State := stI id
     decide (n < 312)) = true ∧
    (let p : Plane := .A
     let n : Nat := 5
     let s : State := stI id
     decide (n < 312)) = true ∧
    (let a : Access := sp
     let s : State := stI id
     let b := s.blk
     let t := b.tsu.tdc
     decide (b.check (portReq a) 0x3000 true = .ok) &&
     decide (t.busy = false) &&
     decide (t.aonLost = false) &&
     decide (b.tsu.pwr.st ≠ .entering)) = true ∧
    (let a : Access := sp
     let s : State := stI fun t => { t with tdc := { busy := true } }
     let b := s.blk
     let t := b.tsu.tdc
     decide (b.check (portReq a) 0x3000 true = .ok) &&
     decide ((t.busy = true ∨ t.aonLost = true ∨ b.tsu.pwr.st = .entering))) = true ∧
    (let s : State := stI id
     let b := s.blk
     let d := b.dist.tdc
     decide (d.busy = false) &&
     decide (d.aonLost = false)) = true ∧
    (let s : State := stD 1 fun d => { d with tdc := { busy := true } }
     let b := s.blk
     let d := b.dist.tdc
     decide (d.busy = true ∨ d.aonLost = true)) = true ∧
    (let s : State := stI id
     let b := s.blk
     let t := b.tsu.tdc
     decide (t.busy = false)) = true ∧
    (let s : State := stI fun t => { t with tdc := { busy := true, table := 4 }, boot := { t.boot with cdcEnded := true } }
     let b := s.blk
     let t := b.tsu.tdc
     decide (t.busy = true) &&
     decide (b.tsu.boot.cdcEnded = true)) = true ∧
    (let s : State := stI fun t => { t with tdc := { busy := true } }
     let b := s.blk
     let t := b.tsu.tdc
     decide (t.busy = true) &&
     decide (b.tsu.boot.cdcEnded = false)) = true ∧
    (let s : State := stD 1 fun d => { d with tdc := { busy := true } }
     let b := s.blk
     let d := b.dist.tdc
     decide (d.busy = true)) = true ∧
    (let s : State := stI id
     let b := s.blk
     let d := b.dist.tdc
     decide (d.busy = false)) = true ∧
    (let s : State := stI fun t => { t with laneA := { upLane with sync := { upLane.sync with winN := 0 }, reg := { upLane.reg with  } }, laneB := { upLane with sync := { upLane.sync with winN := 3, winSum := 5 }, reg := { upLane.reg with  } }  }
     let b := s.blk
     let x := b.tsu.laneA
     let y := b.tsu.laneB
     decide ((x.sync.winN = 0 ∨ y.sync.winN = 0))) = true ∧
    (let s : State := stI fun t => { t with laneA := { upLane with sync := { upLane.sync with winN := 4, winSum := 4000, winClean := true, pmv := true, smallRun := 2 }, reg := { upLane.reg with pcalRx := true, pmean := 5, aRef := 10, refined := false, cableClass := 1 } }, laneB := { upLane with sync := { upLane.sync with winN := 4, winSum := 1000, winClean := true, pmv := true, smallRun := 2 }, reg := { upLane.reg with pcalRx := true, pmean := 0xFFFFFFFB, aRef := 20, refined := true, cableClass := 2 } }  }
     let b := s.blk
     let x := b.tsu.laneA
     let y := b.tsu.laneB
     decide (x.sync.winN ≠ 0) &&
     decide (y.sync.winN ≠ 0) &&
     decide (aBound x.reg.cableClass ≠ none) &&
     decide (aBound y.reg.cableClass ≠ none) &&
     decide (x.reg.topoRes ≠ 2) &&
     decide (y.reg.topoRes ≠ 2) &&
     decide (b.tsu.time.epochDiff = false)) = true ∧
    (let s : State := stD 1 fun d => { d with lanes := [(0, { upLane with sync := { dsum := 100, dcnt := 5 } }), (5, { upLane with sync := { dsum := 0xFFFFFFFFFF00, dcnt := 3 } }), (6, { sync := { dsum := 100, dcnt := 5 } }), (288, { upLane with sync := { dsum := 4, dcnt := 5 } })], root := { tieHist := [3] } }
     let b := s.blk
     let ch := b.dist.lanes.filter fun e => e.1 < 288 && e.2.reg.state == .up
     decide (b.dRole ≠ 3) &&
     decide (b.dist.servo.timing = none)) = true :=
  ⟨by decide +kernel,
   by decide +kernel,
   by decide +kernel,
   by decide +kernel,
   by decide +kernel,
   by decide +kernel,
   by decide +kernel,
   by decide +kernel,
   by decide +kernel,
   by decide +kernel,
   by decide +kernel,
   by decide +kernel,
   by decide +kernel,
   by decide +kernel,
   by decide +kernel,
   by decide +kernel,
   by decide +kernel,
   by decide +kernel,
   by decide +kernel,
   by decide +kernel,
   by decide +kernel⟩

theorem test_wit_StepServesFront :
    ({ stT id with pending := [.vitCapture sp, .regAbort 3] } : State).pending = .vitCapture sp :: [.regAbort 3] :=
  rfl

theorem test_wit_IdleTick :
    ((stI id).pending = [] ∧ (stI id).blk.tsu.dm.chs = [] ∧ (stI id).blk.tsu.lctl.req = 0 ∧
      (stD 1 id).blk.dist.mod.powered = true ∧ (stI id).blk.tsu.boot.tsuRst = false ∧ (stI id).blk.tsu.pwr.on.time = true) ∧
    (let s := stD 1 id
     let t : State := { blk := { dist := s.blk.dist, tsu := { tsuIn with pwr := { st := .mitten, on := .none } } } }
     decide (t.pending = []) && decide (t.blk.tsu.dm.chs = []) && decide (t.blk.tsu.lctl.req = 0) &&
       t.blk.dist.mod.powered && !t.blk.tsu.boot.tsuRst && !t.blk.tsu.pwr.on.time && (t.blk.tsu.pwr.st == .mitten)) = true ∧
    (let s := stD 1 id
     decide (s.blk.tsu.dm.chs = []) && decide (s.blk.tsu.lctl.req = 0) && s.blk.dist.mod.powered && s.blk.tsu.boot.tsuRst) = true ∧
    (State.reset.pending = [] ∧ State.reset.blk.tsu.dm.chs = [] ∧ State.reset.blk.tsu.lctl.req = 0 ∧
      State.reset.blk.dist.mod.powered = false ∧ State.reset.blk.tsu.boot.tsuRst = true) :=
  ⟨by decide +kernel, by decide +kernel, by decide +kernel, by decide +kernel⟩

theorem test_wit_QueueInvariant :
    ({ stT id with pending := [.vitCapture sp, .regAbort 3] } : State).queueOk = true :=
  by decide +kernel

theorem test_wit_QueueServed :
    (∀ c ∈ [Instr.vitCapture sp, .regAbort 3], c.wf = true) ∧ ({ stT id with pending := [.vitCapture sp, .regAbort 3, .regAbort 4] } : State).pending = [.vitCapture sp, .regAbort 3] ++ [.regAbort 4] :=
  ⟨by decide +kernel, rfl⟩

theorem test_wit_TaggedMemoryForm :
    ∀ i ∈ [Instr.wsConsume sp 3 2 ⟨false, false, false, 0⟩, Instr.wsRead sp 3 2 ⟨false, false, false, 0⟩, Instr.wsProduce sp 3 2 ⟨false, false, false, 0⟩, Instr.wsWriteForce sp 3 2 ⟨false, false, false, 0⟩, Instr.wsFillCount sp 3 2 ⟨false, false, false, 0⟩, Instr.wsProbe sp 3 2 ⟨false, false, false, 0⟩], (stT fun t => { t with tm := { t.tm with words := [(7, ⟨9, true, true, .good⟩)] }, ctxs := [(3, { st := .run })], ws := [(26, { addr := 7, wdata := 5 })] }).blk.tsu.tm.wf = true ∧ (match exec i (stT fun t => { t with tm := { t.tm with words := [(7, ⟨9, true, true, .good⟩)] }, ctxs := [(3, { st := .run })], ws := [(26, { addr := 7, wdata := 5 })] }) with | .next t => t.blk.tsu.tm.wf | _ => false) = true :=
  by decide +kernel

theorem test_wit_Ht96Conversion :
    (htBad ⟨1, 2, 3⟩ = false ∧ (1 : BitVec 48).toNat + 2 ^ 34 < 2 ^ 48) ∧
    htBad ⟨1, 1000000000, 3⟩ = true ∧ htFine ⟨1, 2, 2⟩ < htFine ⟨1, 2, 3⟩ ∧
    2 ^ 64 ≤ (htFine ⟨0xFFFFFFFFFFFF, 2, 3⟩ - htFine ⟨1, 2, 3⟩) * 5 / 262144 ∧
    (htBad ⟨7, 2, 3⟩ = false ∧ htFine ⟨1, 2, 3⟩ ≤ htFine ⟨7, 2, 3⟩ ∧
      (htFine ⟨7, 2, 3⟩ - htFine ⟨1, 2, 3⟩) * 5 / 262144 < 2 ^ 64) :=
  by decide +kernel

theorem test_wit_FillCount :
    (let s := stT fun t => { t with
       tm := { t.tm with words := [(7, ⟨0x3000FFFFF, false, true, .good⟩)] }, ctxs := [(3, { st := .run })]
       ws := [(26, { addr := 7, wdata := 5 })] }
     s.blk.slotFree sp 3 2 = true ∧ (s.blk.wslot (wsIdx 3 2)).addr.toNat % 524288 = 7 ∧ s.blk.wordFree 3 7 = true ∧
     (∀ e ∈ s.blk.tsu.ws, e.2.op = none) ∧ (fld (s.blk.tsu.tm.get 7).data 32 20).toNat = 3) ∧
    (fld (0xFFF : BitVec 64) 32 20).toNat = 0 :=
  by decide +kernel

theorem test_wit_TickArithmetic :
    ({ tc64 := 0xFFFFFFFFFFFFFFFF } : TimeSt).tc64 = 0xFFFFFFFFFFFFFFFF ∧ (2 ^ 63 - 1 : Nat) < 2 ^ 63 :=
  ⟨rfl, by decide⟩

theorem test_wit_LaunchDecision :
    Tick.diff 90 100 ≤ 0 ∧ Tick.diff 100 100 ≤ 0 ∧ (0 < Tick.diff 107 100 ∧ Tick.diff 107 100 + (5 : Nat) < 2 ^ 63) ∧
    0 < Tick.diff 101 100 ∧
    (let d (n : Nat) : Int := Tick.diff ((stT id).blk.tc + 32) (BitVec.ofNat 64 n)
     d 1000032 ≤ 0 ∧ (0 < d 1000031 ∧ d 1000031 ≤ 1) ∧ 1 < d 1000030) :=
  by decide +kernel

theorem test_wit_BrimWindow :
    ({ reg := { fix := true } } : Ctx).reg.fix = true ∧
    (let x : Ctx := { window := [90, 4000], reg := { fix := false, brimMin := 100, brimMax := 3000 } }
     x.reg.fix = false ∧ x.reg.brimMin.toNat ≤ x.reg.brimMax.toNat ∧ x.reg.flags.brimSat = false) :=
  by decide +kernel

theorem test_wit_FrameTurnedAway :
    (let l := LaneRef.tsu .A
     let h : Hdr := hdr 4
     let s := stT id
     let b := s.blk
     let t := b.tsu.boot
     b.up l = false) ∧
    (let l := LaneRef.tsu .A
     let h : Hdr := { hdr 4 with fmt := 2 }
     let s := stI id
     let b := s.blk
     let t := b.tsu.boot
     b.up l = true ∧ h.fmt ≠ 1) ∧
    (let l := LaneRef.tsu .A
     let h : Hdr := hdr 9
     let s := stI id
     let b := s.blk
     let t := b.tsu.boot
     b.up l = true ∧ h.fmt = 1 ∧ 7 ≤ h.cls.toNat) ∧
    (let l := LaneRef.tsu .A
     let h : Hdr := { hdr 4 with lseq := 3 }
     let s := stI id
     let b := s.blk
     let t := b.tsu.boot
     b.up l = true ∧ h.fmt = 1 ∧ h.cls.toNat = 4 ∧ h.lseq ≠ (b.lane l).link.rxSeq) ∧
    (let l := LaneRef.tsu .A
     let h : Hdr := hdr 4
     let s := stI fun t => { t with laneA := { upLane with reg := { upLane.reg with featEff := 0 } } }
     let b := s.blk
     let t := b.tsu.boot
     b.up l = true ∧ h.fmt = 1 ∧ h.cls.toNat = 4 ∧ h.lseq = (b.lane l).link.rxSeq ∧ (b.lane l).reg.featEff.getLsbD 10 = false) ∧
    (let l := LaneRef.tsu .A
     let h : Hdr := { hdr 4 with mepoch := 77 }
     let s := stI id
     let b := s.blk
     let t := b.tsu.boot
     b.up l = true ∧ h.fmt = 1 ∧ h.cls.toNat = 4 ∧ h.lseq = (b.lane l).link.rxSeq ∧
     (b.lane l).reg.featEff.getLsbD 10 = true ∧ h.mepoch ≠ t.ep ∧ h.mepoch ≠ t.prev) ∧
    (let l := LaneRef.tsu .A
     let h : Hdr := hdr 1
     let s := stT fun t => { t with laneA := upLane }
     let b := s.blk
     let t := b.tsu.boot
     b.up l = true ∧ h.fmt = 1 ∧ h.cls.toNat = 1 ∧ h.lseq = (b.lane l).link.rxSeq ∧
     (b.lane l).reg.featEff.getLsbD 0 = true ∧ t.admitted = false) :=
  ⟨by decide +kernel,
   ⟨by decide +kernel, by decide +kernel⟩,
   by decide +kernel,
   by decide +kernel,
   ⟨by decide +kernel, by decide +kernel⟩⟩

theorem test_wit_FrameSent :
    (let b := (stI id).blk
     let l := LaneRef.tsu .A
     let h := FrameBody.hcancel 5 6 7
     let f := FrameBody.fence ⟨4, true, []⟩
     frameCls (.linkctl ⟨0, false, [], false⟩) = 0 ∧
     (frameCls h ≠ 0 ∧ (stT id).blk.usable l (frameCls h) (frameFeature h) = false) ∧
     (∀ x ∈ [h, f], frameCls x ≠ 0 ∧ frameCls x < 7 ∧ b.usable l (frameCls x) (frameFeature x) = true ∧ (b.lane l).link.txq = [] ∧
       (b.lane l).link.replay.length < 256 ∧ (b.lane l).link.credit (frameCls x) = true ∧ frameBytes x ≤ 2068) ∧
     (let b := b.mLink l fun k => { k with credTx := ⟨0, 0, 0, 0, 0⟩ }
      b.usable l (frameCls h) (frameFeature h) = true ∧ (b.lane l).link.txq = [] ∧ (b.lane l).link.credit (frameCls h) = false)) :=
  by decide +kernel

theorem test_wit_PortTurnedAway :
    (let away (a : Access) (x : Nat) (res : Bool) (s : State) : Bool :=
       !s.blk.tsu.boot.tsuRst && (!s.blk.nibbleOk (portReq a) x || !res)
     let s := stT id
     let o := stT fun t => { t with pwr := { st := .mitten, on := .none } }
     (State.reset.blk.tsu.boot.tsuRst = true) ∧
     away np 0xD000 true s = true ∧
     away np (0x100200 + 0x400 * 3) (worldOk (portReq np) (s.blk.ctxWorld 3)) s = true ∧
     away np (collReg 4 0x30) (worldOk (portReq np) (s.blk.collWorld 4)) s = true ∧
     away np (dmReg 3 0x08) (worldOk (portReq np) (s.blk.ctxWorld (s.blk.dmCh 3).ctx.toNat)) s = true ∧
     (o.blk.tsu.boot.tsuRst = false ∧ o.blk.nibbleOk (portReq sp) 0x1040 = true ∧ o.blk.targetOn 0x1040 = false) ∧
     s.blk.tsu.gnt.vValid = false ∧ (stT fun t => { t with gnt := { vValid := true } }).blk.tsu.gnt.vValid = true) :=
  by decide +kernel

theorem test_wit_DebugLeavesGauntlet :
    (let r : DebugReq := ⟨true, true, true, 0xD008, 5, 9⟩
     let s : State := stT id
     let b := s.blk
     let x := r.addr.toNat
     decide (b.tsu.boot.tsuRst = false) &&
     decide (r.write = true) &&
     decide (0xD000 ≤ x) &&
     decide (x < 0xE000) &&
     decide (b.tsu.dbg.level ≠ 1)) = true ∧
    (let r : DebugReq := ⟨true, true, true, 0xD008, 5, 9⟩
     let s := stT fun t => { t with dbg := { level := 1 } }
     s.blk.tsu.boot.tsuRst = false ∧ r.write = true ∧ 0xD000 ≤ r.addr.toNat ∧ r.addr.toNat < 0xE000 ∧ s.blk.tsu.dbg.level = 1) :=
  ⟨by decide +kernel,
   by decide +kernel⟩

theorem test_wit_TopkRanking :
    (let f : Fmt := ⟨8, false, 0, 0, 0, false, 0, 0x7FFFFFFFFFFFFFFF⟩
     ranks f (5, 1) (4, 2) = true ∧ ranks f (4, 2) (4, 3) = true ∧ ranks f (4, 3) (4, 3) = false ∧
     [((5 : BitVec 64), (1 : BitVec 64)), (4, 2), (4, 3)].Pairwise (fun a b => ranks f b a = false)) :=
  by decide +kernel

theorem test_wit_GauntletGuard :
    (portReq np).monitor = false ∧ (portReq ⟨true, 2⟩).monitor = false ∧
    (0xD000 ≤ (0xD008 : BitVec 24).toNat ∧ (0xD008 : BitVec 24).toNat < 0xE000) ∧ (0x501C : BitVec 24).toNat / 8 * 8 = 0x5018 ∧
    (portReq np).monitor = false ∧ (portReq ⟨true, 2⟩).monitor = false ∧
    (0xD000 ≤ (0xD008 : BitVec 24).toNat ∧ (0xD008 : BitVec 24).toNat < 0xE000) ∧ (0x501C : BitVec 24).toNat / 8 * 8 = 0x5018 :=
  ⟨by decide +kernel,
   by decide +kernel⟩

end Sys2Proof.Tests
end

section
/-! SUPPORT. The pages and channels of the register window (R358): which context or channel a cell belongs to, and so what it
shows after reset. -/

namespace Sys2Proof.Machine

open Sys2Proof

/-- Offset `o` of the page of context `n` stands in that page. -/
theorem ctxPage_div (n o : Nat) (h : o < 0x400) : (0x100000 + 0x400 * n + o - 0x100000) / 0x400 = n := by omega

theorem ctxPage_mod (n o : Nat) (h : o < 0x400) : (0x100000 + 0x400 * n + o) % 0x400 = o := by omega

/-- Above the wait slots, a context's page reads the context's own registers. -/
theorem Block.regRead_ctxPage (b : Block) (q : Req) (n o : Nat) (hlo : 0x200 ≤ o) (hhi : o < 0x400) :
    b.regRead q (0x100000 + 0x400 * n + o) = (b.ctx n).rd o := by
  rw [Block.regRead, if_pos (by omega), Block.rdPage, ctxPage_div n o hhi, ctxPage_mod n o hhi, if_neg (by omega)]

theorem Block.regRead_dmCh (b : Block) (q : Req) (n o : Nat) (hn : n < 8) (ho : o < 0x100) :
    b.regRead q (0xA100 + 0x100 * n + o) = b.rdDmCh (b.dmCh n) o := by
  have hblk : (0xA100 + 0x100 * n + o) / 0x1000 = 0xA := by omega
  have hch : (0xA100 + 0x100 * n + o - 0xA100) / 0x100 = n := by omega
  have hoff : (0xA100 + 0x100 * n + o) % 0x100 = o := by omega
  have harr : 0xA100 ≤ 0xA100 + 0x100 * n + o := by omega
  rw [Block.regRead, if_neg (by omega), hblk]
  simp only [Block.rdDm, if_pos harr, hch, hoff]

theorem Block.regRead_strCfg (b : Block) (q : Req) (n : Nat) (hn : n < 64) :
    b.regRead q (0xB100 + 0x20 * n) = (b.strCh n).cfgWord := by
  have hblk : (0xB100 + 0x20 * n) / 0x1000 = 0xB := by omega
  have hch : (0xB100 + 0x20 * n - 0xB100) / 0x20 = n := by omega
  have hoff : (0xB100 + 0x20 * n) % 0x20 = 0 := by omega
  have harr : 0xB100 ≤ 0xB100 + 0x20 * n := by omega
  rw [Block.regRead, if_neg (by omega), hblk]
  simp only [Block.rdStr, if_pos harr, hch, hoff]

@[simp] theorem ctx_reset (n : Nat) : State.reset.blk.ctx n = {} := rfl

@[simp] theorem dmCh_reset (n : Nat) : State.reset.blk.dmCh n = {} := rfl

@[simp] theorem strCh_reset (n : Nat) : State.reset.blk.strCh n = {} := rfl

theorem regRead_reset_ctxPage (q : Req) (n o : Nat) (hlo : 0x200 ≤ o) (hhi : o < 0x400) :
    State.reset.blk.regRead q (0x100000 + 0x400 * n + o) = ({} : Ctx).rd o := by
  rw [Block.regRead_ctxPage _ q n o hlo hhi, ctx_reset]

theorem regRead_reset_dmCh (q : Req) (n o : Nat) (hn : n < 8) (ho : o < 0x100) :
    State.reset.blk.regRead q (0xA100 + 0x100 * n + o) = State.reset.blk.rdDmCh {} o := by
  rw [Block.regRead_dmCh _ q n o hn ho, dmCh_reset]

theorem regRead_reset_strCfg (q : Req) (n : Nat) (hn : n < 64) :
    State.reset.blk.regRead q (0xB100 + 0x20 * n) = 4 := by
  rw [Block.regRead_strCfg _ q n hn, strCh_reset]
  rfl

/-- Settles O43: the fixed registers are read by evaluation at the reset state; a page or channel is that of an unlisted
context or channel, whatever its number. -/
theorem resetValues : Obligations.ResetValues := by
  unfold Obligations.ResetValues
  refine ⟨rfl, fun q => ?fixed, fun q c => ?page, fun q n ch => ?channels, rfl, rfl, rfl, rfl, rfl⟩
  case fixed =>
    intro r
    and_intros
    all_goals rfl
  case page =>
    intro r
    and_intros
    all_goals exact (regRead_reset_ctxPage q c.toNat _ (by decide) (by decide)).trans rfl
  case channels =>
    have hbase : 0xA118 + 0x100 * n.toNat = 0xA100 + 0x100 * n.toNat + 0x18 := by omega
    refine ⟨?_, ?_, regRead_reset_strCfg q ch.toNat ch.isLt⟩
    · exact (regRead_reset_dmCh q n.toNat 0x00 n.isLt (by decide)).trans rfl
    · rw [hbase]
      exact (regRead_reset_dmCh q n.toNat 0x18 n.isLt (by decide)).trans rfl

end Sys2Proof.Machine
end

section
/-! SUPPORT. Writes of the register window (R10, R358, R359) and accesses of the debug port (R342): how the checks turn each
away, and what a write that passes them does to its cell. -/

namespace Sys2Proof.Machine

open Sys2Proof

/-! ### The register port's checks -/

section
variable {b : Block} {q : Req} {a : Access} {w : Bool} {addr : Nat} {d : BitVec 64} {res : Bool} {f : Block → Block}

/-- REGISTER_WRITE is a write at the register port. -/
theorem exec_registerWrite (a : Access) (w : Bool) (x : BitVec 24) (d : BitVec 64) (s : State) :
    exec (.registerWrite a w x d) s = .next { s with blk := s.blk.portWrite a w x.toNat d } := rfl

theorem Block.portWrite_inReset (h : b.tsu.boot.tsuRst = true) : b.portWrite a w addr d = b := by
  simp only [Block.portWrite, h, if_true]

theorem Block.portWrite_unassigned (h : b.tsu.boot.tsuRst = false) (hr : regAssigned addr = false) :
    b.portWrite a w addr d = b.emit (.reg none 1 0) := by
  simp [Block.portWrite, h, hr]

/-- Below the direct window, and apart from the freeze registers, an assigned cell is written under the checks of R352. -/
theorem Block.portWrite_register (h : b.tsu.boot.tsuRst = false) (hr : regAssigned addr = true) (hd : addr < 0x400000)
    (hf : isFreeze (addr / 8 * 8) = false) :
    b.portWrite a w addr d = b.regCmd (portReq a) addr (b.wrWorldOk (portReq a) (addr / 8 * 8)) fun b =>
      b.regWrite (portReq a) addr (accData w addr d) (accMask w addr) := by
  simp [Block.portWrite, h, hr, hf, Nat.not_le.2 hd]

theorem Block.regCmd_ok (h : b.check q addr res = .ok) : b.regCmd q addr res f = (f b).emit (.reg none 0 0) := by
  rw [Block.regCmd, h]

theorem Block.regCmd_violation (h : b.check q addr res = .violation) :
    b.regCmd q addr res f = (b.violate q.src q true (BitVec.ofNat 64 addr)).emit (.reg none 0 0) := by
  rw [Block.regCmd, h]

theorem Block.regCmd_power (h : b.check q addr res = .power) :
    b.regCmd q addr res f = (b.powerErr q).emit (.reg none 2 0) := by
  rw [Block.regCmd, h]

end

/-- R336, R352, R358, R359: how the register port answers a write. -/
theorem registerWrite_checked (a : Access) (w : Bool) (x : BitVec 24) (d : BitVec 64) (s : State)
    (h : s.blk.tsu.boot.tsuRst = false) (hr : regAssigned x.toNat = true) (hd : x.toNat < 0x400000)
    (hf : isFreeze (x.toNat / 8 * 8) = false) :
    exec (.registerWrite a w x d) s = .next { s with
      blk := s.blk.regCmd (portReq a) x.toNat (s.blk.wrWorldOk (portReq a) (x.toNat / 8 * 8)) fun b =>
        b.regWrite (portReq a) x.toNat (accData w x.toNat d) (accMask w x.toNat) } := by
  rw [exec_registerWrite, Block.portWrite_register h hr hd hf]

/-! ### A write that reaches its cell -/

@[simp] theorem Block.when_false (b : Block) (f : Block → Block) : b.when false f = b := rfl

@[simp] theorem Block.when_true (b : Block) (f : Block → Block) : b.when true f = f b := rfl

/-- Hands a write to the block of the cell at `c`. -/
def Block.wrCell (b : Block) (q : Req) (w : Wr) (c : Nat) : Block :=
  if 0x100000 ≤ c then b.wrPage w c
  else match c / 0x1000 with
  | 0x0 => b.wrId w c
  | 0x1 => b.wrTime q w c
  | 0x2 => b.wrLink w c
  | 0x3 => b.wrTdc w c
  | 0x4 => b.wrLaunch w c
  | 0x5 => b.wrCtxs q w c
  | 0x6 => b.wrBar q w c
  | 0x7 => b.wrMem q w c
  | 0x8 => b.wrColl q w c
  | 0x9 => b.wrGen q w c
  | 0xA => b.wrDm q w c
  | 0xB => b.wrStr q w c
  | 0xC => b.wrCat q w c
  | 0xD => b.wrGnt w c
  | 0xE => b.wrPwr q w c
  | _ => b.wrHlth q w c

/-- A write of all 64 bits of the cell at `c`: `m` is what RW fields take, `d` the data. -/
def Wr.whole (c : Nat) (m d : BitVec 64) : Wr := ⟨c, m, d, BitVec.allOnes 64⟩

theorem mrg_allOnes (old d : BitVec 64) : mrg old d (BitVec.allOnes 64) = d := by
  rw [mrg, BitVec.not_allOnes, BitVec.and_zero, BitVec.zero_or, BitVec.and_allOnes]

/-- RW fields take the data where the cell holds no RW-S bit. -/
theorem writeS_noSecureBits (q : Req) (old d : BitVec 64) : writeS q 0 old d (BitVec.allOnes 64) = (d, false) := by
  simp only [writeS, mrg_allOnes, BitVec.ofNat_eq_ofNat, BitVec.not_zero, BitVec.and_allOnes, BitVec.and_zero, BitVec.or_zero]
  cases q.secure <;> rfl

/-- A secure access writes RW-S bits as any others. -/
theorem writeS_secure (q : Req) (s old d : BitVec 64) (h : q.secure = true) :
    writeS q s old d (BitVec.allOnes 64) = (d, false) := by
  simp only [writeS, mrg_allOnes, h, if_true]

/-- R10: a non-secure access that would change an RW-S bit leaves those bits, and is a violation. -/
theorem writeS_refused (q : Req) (s old d : BitVec 64) (h : q.secure = false) (hc : (d ^^^ old) &&& s ≠ 0) :
    writeS q s old d (BitVec.allOnes 64) = ((d &&& ~~~s) ||| (old &&& s), true) := by
  simp only [writeS, mrg_allOnes, h, Bool.false_eq_true, if_false, bne_iff_ne.2 hc]

/-- A whole write by what `writeS` answers for it. -/
theorem Block.regWrite_of_writeS (b : Block) (q : Req) (c : Nat) (d m : BitVec 64) (v : Bool) (hc : c / 8 * 8 = c)
    (h : writeS q (rwsBits c) (b.regRead q c) d (BitVec.allOnes 64) = (m, v)) :
    b.regWrite q c d (BitVec.allOnes 64) =
      (b.when v fun b => b.violate q.src q true (BitVec.ofNat 64 c)).wrCell q (Wr.whole c m d) c := by
  rw [Block.regWrite, hc, h, BitVec.and_allOnes]
  rfl

theorem Block.regWrite_whole (b : Block) (q : Req) (c : Nat) (d : BitVec 64) (hc : c / 8 * 8 = c) (hs : rwsBits c = 0) :
    b.regWrite q c d (BitVec.allOnes 64) = b.wrCell q (Wr.whole c d d) c := by
  rw [b.regWrite_of_writeS q c d d false hc (by rw [hs, writeS_noSecureBits]), Block.when_false]

theorem Block.regWrite_whole_secure (b : Block) (q : Req) (c : Nat) (d : BitVec 64) (hc : c / 8 * 8 = c)
    (hq : q.secure = true) : b.regWrite q c d (BitVec.allOnes 64) = b.wrCell q (Wr.whole c d d) c := by
  rw [b.regWrite_of_writeS q c d d false hc (writeS_secure q _ _ d hq), Block.when_false]

theorem Block.regWrite_whole_refused (b : Block) (q : Req) (c : Nat) (d : BitVec 64) (hc : c / 8 * 8 = c)
    (hq : q.secure = false) (hd : (d ^^^ b.regRead q c) &&& rwsBits c ≠ 0) :
    b.regWrite q c d (BitVec.allOnes 64) = (b.violate q.src q true (BitVec.ofNat 64 c)).wrCell q
      (Wr.whole c ((d &&& ~~~rwsBits c) ||| (b.regRead q c &&& rwsBits c)) d) c := by
  rw [b.regWrite_of_writeS q c d _ true hc (writeS_refused q _ _ d hq hd), Block.when_true]

/-- A field whose bits are all RW-S stays the register's own when the write is refused. -/
theorem fld_refused (s d old : BitVec 64) (lo n : Nat) (hs : fld s lo n = BitVec.allOnes n) :
    fld ((d &&& ~~~s) ||| (old &&& s)) lo n = fld old lo n := by
  ext i hi
  have hbit : s.getLsbD (lo + i) = true := by
    simpa [fld, hi] using congrArg (·.getLsbD i) hs
  simp [fld, hbit]

/-- R110, R10: TSU_SERVO_SLEW. -/
theorem Block.regWrite_slew_refused (b : Block) (q : Req) (d : BitVec 64) (hq : q.secure = false)
    (hd : (d ^^^ b.regRead q 0x1408) &&& 0x0FFFFFFF ≠ 0) :
    b.regWrite q 0x1408 d (BitVec.allOnes 64) =
      (b.violate q.src q true 0x1408).mServo .tsu fun s => { s with slew := slewOf (fld (b.regRead q 0x1408) 0 28) } := by
  rw [b.regWrite_whole_refused q 0x1408 d rfl hq hd, ← fld_refused 0x0FFFFFFF d _ 0 28 rfl]
  rfl

/-- No cell at or above a context's page holds an RW-S bit. -/
theorem rwsBits_page (c : Nat) (h : 0x100000 ≤ c) : rwsBits c = 0 := by
  rw [rwsBits] <;> omega

/-- Above the wait slots, a write in a context's page goes to the context's own registers. -/
theorem Block.regWrite_ctxPage (b : Block) (q : Req) (n o : Nat) (d : BitVec 64) (hlo : 0x200 ≤ o) (hhi : o < 0x400)
    (ho : o % 8 = 0) :
    b.regWrite q (0x100000 + 0x400 * n + o) d (BitVec.allOnes 64) =
      b.wrCtx n (Wr.whole (0x100000 + 0x400 * n + o) d d) o := by
  rw [b.regWrite_whole q _ d (by omega) (rwsBits_page _ (by omega)), Block.wrCell, if_pos (by omega), Block.wrPage,
    ctxPage_div n o hhi, ctxPage_mod n o hhi, if_neg (by omega)]

/-- R115, R143: CTX_JOB is written in IDLE only. -/
theorem Block.wrCtx_job (b : Block) (n : Nat) (w : Wr) :
    b.wrCtx n w 0x220 =
      b.when ((b.ctx n).st == .idle) fun b => b.mCtxReg n fun r => { r with job := w.f 0 32 } := rfl

theorem Block.regWrite_job_idle (b : Block) (q : Req) (n : Nat) (d : BitVec 64) (h : (b.ctx n).st = .idle) :
    b.regWrite q (0x100000 + 0x400 * n + 0x220) d (BitVec.allOnes 64) =
      b.mCtxReg n fun r => { r with job := fld d 0 32 } := by
  rw [b.regWrite_ctxPage q n 0x220 d (by decide) (by decide) rfl, Block.wrCtx_job, h]
  rfl

theorem Block.regWrite_job_notIdle (b : Block) (q : Req) (n : Nat) (d : BitVec 64) (h : (b.ctx n).st ≠ .idle) :
    b.regWrite q (0x100000 + 0x400 * n + 0x220) d (BitVec.allOnes 64) = b := by
  rw [b.regWrite_ctxPage q n 0x220 d (by decide) (by decide) rfl, Block.wrCtx_job, beq_false_of_ne h, Block.when_false]

/-- R123: the brim limits of a context. -/
theorem Block.regWrite_brim (b : Block) (q : Req) (n : Nat) (d : BitVec 64) :
    b.regWrite q (0x100000 + 0x400 * n + 0x258) d (BitVec.allOnes 64) = b.mCtxReg n fun r => { r with
      brimInit := fld d 16 16, brimMin := brimOf (fld d 32 16), brimMax := brimOf (fld d 48 16) } := by
  rw [b.regWrite_ctxPage q n 0x258 d (by decide) (by decide) rfl]
  rfl

/-! ### The debug port -/

section
variable {b : Block} {r : DebugReq}

/-- DEBUG_ACCESS is an access at the debug port. -/
theorem exec_debugAccess (r : DebugReq) (s : State) :
    exec (.debugAccess r) s = .next { s with blk := s.blk.debugAccess r } := rfl

theorem Block.debugAccess_inReset (h : b.tsu.boot.tsuRst = true) : b.debugAccess r = b := by
  simp only [Block.debugAccess, h, if_true]

/-- Such an access is not taken as a write of a freeze register (R343), so that its level decides. -/
theorem DebugReq.notFreezeWrite (hf : r.write = true → isFreeze (r.addr.toNat / 8 * 8) = false) :
    (r.write && isFreeze (r.addr.toNat / 8 * 8)) = false := by
  cases hw : r.write with
  | false => rfl
  | true => exact hf hw

theorem Block.debugAccess_refused (h : b.tsu.boot.tsuRst = false)
    (hf : r.write = true → isFreeze (r.addr.toNat / 8 * 8) = false)
    (hres : b.dbgResolve r.secure r.write r.addr.toNat = .refused) :
    b.debugAccess r = b.dbgRefused.emit (.dbg r.tag 0 0) := by
  simp only [Block.debugAccess, h, DebugReq.notFreezeWrite hf, hres, Bool.false_eq_true, if_false]

theorem Block.debugAccess_violation (h : b.tsu.boot.tsuRst = false)
    (hf : r.write = true → isFreeze (r.addr.toNat / 8 * 8) = false)
    (hres : b.dbgResolve r.secure r.write r.addr.toNat = .violation) :
    b.debugAccess r = b.dbgViolate ⟨r.secure, 2, true⟩ r := by
  simp only [Block.debugAccess, h, DebugReq.notFreezeWrite hf, hres, Bool.false_eq_true, if_false]

theorem Block.debugAccess_perform {q : Req} {free : Bool} (h : b.tsu.boot.tsuRst = false)
    (hf : r.write = true → isFreeze (r.addr.toNat / 8 * 8) = false)
    (hres : b.dbgResolve r.secure r.write r.addr.toNat = .perform q free) :
    b.debugAccess r = b.dbgPerform q free r := by
  simp only [Block.debugAccess, h, DebugReq.notFreezeWrite hf, hres, Bool.false_eq_true, if_false]

end

/-- R342: at level 0 nothing but the unlock registers and reads of the identity block is let through. -/
theorem Block.dbgResolve_level0 (b : Block) (secure write : Bool) (addr : Nat) (hl : b.tsu.dbg.level = 0)
    (hx : 0x1000 ≤ addr) (hu : isUnlockReg addr = false) : b.dbgResolve secure write addr = .refused := by
  simp [Block.dbgResolve, hl, hu, Nat.not_lt.2 hx]

/-- R342: level 1 lets no secure access through. -/
theorem Block.dbgResolve_level1_secure (b : Block) (write : Bool) (addr : Nat) (hl : b.tsu.dbg.level = 1)
    (hx : 0x1000 ≤ addr) (hu : isUnlockReg addr = false) : b.dbgResolve true write addr = .violation := by
  simp [Block.dbgResolve, hl, hu, Nat.not_lt.2 hx]

/-- R342: levels 2 and 3 perform an access outside the Gauntlet block, under the block check. -/
theorem Block.dbgResolve_level2 (b : Block) (secure write : Bool) (addr : Nat) (hl : 2 ≤ b.tsu.dbg.level.toNat)
    (hx : 0x1000 ≤ addr) (hg : addr < 0xD000 ∨ 0xE000 ≤ addr) (hu : isUnlockReg addr = false) :
    b.dbgResolve secure write addr = .perform ⟨secure, 2, true⟩ false := by
  have h0 : ¬b.tsu.dbg.level = 0#2 := fun h => by simp [h] at hl
  have h1 : ¬b.tsu.dbg.level = 1#2 := fun h => by simp [h] at hl
  have hgnt : ¬(0xD000 ≤ addr ∧ addr < 0xE000) := by omega
  simp [Block.dbgResolve, hu, Nat.not_lt.2 hx, h0, h1, hgnt]

section
variable {b : Block} {q : Req} {r : DebugReq}

/-- A debug write below the context pages that passes its checks. -/
theorem Block.dbgPerform_write (hr : regAssigned r.addr.toNat = true) (hx : r.addr.toNat < 0x100000)
    (hn : b.nibbleOk q r.addr.toNat = true) (hp : b.targetOn r.addr.toNat = true) (hw : r.write = true)
    (hok : b.wrWorldOk q (r.addr.toNat / 8 * 8) = true) :
    b.dbgPerform q false r = (b.regWrite q r.addr.toNat (accData r.size64 r.addr.toNat r.data)
      (accMask r.size64 r.addr.toNat)).emit (.dbg r.tag 0 0) := by
  have hd : ¬0x400000 ≤ r.addr.toNat := by omega
  simp [Block.dbgPerform, hr, hd, hn, hp, hw, hok]

/-- A debug read below the context pages that passes its checks. -/
theorem Block.dbgPerform_read (hr : regAssigned r.addr.toNat = true) (hx : r.addr.toNat < 0x100000)
    (hn : b.nibbleOk q r.addr.toNat = true) (hp : b.targetOn r.addr.toNat = true) (hw : r.write = false)
    (hok : worldOk q (b.regSecure (r.addr.toNat / 8 * 8)) = true) :
    b.dbgPerform q false r = b.emit (.dbg r.tag 0
      (partOf (accPart r.size64 r.addr.toNat) (b.regRead q (r.addr.toNat / 8 * 8)))) := by
  have hd : ¬0x400000 ≤ r.addr.toNat := by omega
  have hpage : ¬0x100000 ≤ r.addr.toNat / 8 * 8 := by omega
  simp [Block.dbgPerform, hr, hd, hpage, hn, hp, hw, hok]

end

/-- R359: which part of a cell a read returns. -/
theorem partOf_accPart (size64 : Bool) (addr : Nat) (v : BitVec 64) :
    partOf (accPart size64 addr) v =
      if size64 then v else if addr % 8 = 4 then v >>> 32 else v &&& 0xFFFFFFFF := by
  cases size64 with
  | true => rfl
  | false =>
    by_cases h : addr % 8 = 4 <;> simp [accPart, partOf, h]

/-- Settles O38: the ports' checks, the register write of one cell, and the levels of the debug port, each by the lemma of its
own above; a fixed register's write is `regWrite_whole` and the evaluation of its cell. -/
theorem registerWrites : Obligations.RegisterWrites := by
  unfold Obligations.RegisterWrites
  refine ⟨fun a w x d s => ?port, fun q d b => ?fields, fun r s => ?debug⟩
  case port =>
    refine ⟨fun h => ?_, fun h hr => ?_, fun h hr hd hf => ?_⟩
    · rw [exec_registerWrite, Block.portWrite_inReset h]
    · rw [exec_registerWrite, Block.portWrite_unassigned h hr]
    · rw [registerWrite_checked a w x d s h hr hd hf]
      refine ⟨fun hc => ?_, fun hc => ?_, fun hc => ?_⟩
      · rw [Block.regCmd_ok hc]; rfl
      · rw [Block.regCmd_violation hc]; rfl
      · rw [Block.regCmd_power hc]; rfl
  case fields =>
    exact ⟨b.regWrite_whole q 0x10 d rfl rfl, b.regWrite_whole_secure q 0x1408 d rfl,
      b.regWrite_slew_refused q d, b.regWrite_whole q 0x1418 d rfl rfl, b.regWrite_whole q 0x4010 d rfl rfl,
      b.regWrite_whole q 0x6000 d rfl rfl, b.regWrite_whole q 0x7800 d rfl rfl, b.regWrite_whole q 0xA000 d rfl rfl,
      b.regWrite_whole q 0xB000 d rfl rfl, b.regWrite_whole q 0xD010 d rfl rfl, b.regWrite_whole q 0xE008 d rfl rfl,
      fun c => ⟨b.regWrite_job_idle q c.toNat d, b.regWrite_job_notIdle q c.toNat d, b.regWrite_brim q c.toNat d⟩⟩
  case debug =>
    refine ⟨fun h => ?_, fun h hl hx hu hf => ?_, fun h hl hs hx hu hf => ?_,
      fun h hl hx hpage hg hu hr hn hp => ⟨fun hw hf hok => ?_, fun hw hok => ?_⟩⟩
    · rw [exec_debugAccess, Block.debugAccess_inReset h]
    · rw [exec_debugAccess, Block.debugAccess_refused h hf (Block.dbgResolve_level0 _ _ _ _ hl hx hu)]
      rfl
    · have hres := Block.dbgResolve_level1_secure s.blk r.write _ hl hx hu
      rw [exec_debugAccess, Block.debugAccess_violation h hf (by rw [hs, hres])]
      rfl
    · have hres := Block.dbgResolve_level2 s.blk r.secure r.write _ hl hx hg hu
      rw [exec_debugAccess, Block.debugAccess_perform h (fun _ => hf) hres, Block.dbgPerform_write hr hpage hn hp hw hok]
      rfl
    · have hres := Block.dbgResolve_level2 s.blk r.secure r.write _ hl hx hg hu
      rw [exec_debugAccess, Block.debugAccess_perform h (by simp [hw]) hres,
        Block.dbgPerform_read hr hpage hn hp hw hok, partOf_accPart]

end Sys2Proof.Machine
end

section
/-! SUPPORT. Hall time: the count and its differences (R13), and the conversions between TC64 and HT96 (R16, R21, R22). -/

namespace Sys2Proof.Machine

open Sys2Proof

/-! ### Ticks -/

theorem TimeSt.tick_unlocked (t : TimeSt) : t.tick false = { t with tc64 := t.tc64 + 1 } := rfl

theorem Tick.le_iff (x y : Tick) : Tick.le x y = true ↔ 0 ≤ Tick.diff y x := by simp [Tick.le]

theorem Tick.diff_lower (x y : Tick) : -(2 ^ 63) ≤ Tick.diff x y := BitVec.le_toInt (x - y)

theorem Tick.diff_upper (x y : Tick) : Tick.diff x y < 2 ^ 63 := BitVec.toInt_lt (x := x - y)

/-- A difference of counts is that of their numbers modulo 2^64. -/
theorem Tick.diff_congr (x y : Tick) : (Tick.diff x y - ((x.toNat : Int) - y.toNat)) % 2 ^ 64 = 0 := by
  have hx := x.isLt
  have hy := y.isLt
  simp only [Tick.diff, BitVec.toInt_eq_toNat_cond, BitVec.toNat_sub]
  omega

/-- A count less than 2^63 ticks ahead differs by those ticks, whether or not it has wrapped. -/
theorem Tick.diff_add_ofNat (x : Tick) (d : Nat) (h : d < 2 ^ 63) : Tick.diff (x + BitVec.ofNat 64 d) x = d := by
  have hd : x + BitVec.ofNat 64 d - x = BitVec.ofNat 64 d := by rw [BitVec.add_comm, BitVec.add_sub_cancel]
  rw [Tick.diff, hd, BitVec.toInt_eq_toNat_cond, BitVec.toNat_ofNat]
  omega

theorem Tick.le_add_ofNat (x : Tick) (d : Nat) (h : d < 2 ^ 63) : Tick.le x (x + BitVec.ofNat 64 d) = true := by
  rw [Tick.le_iff, Tick.diff_add_ofNat x d h]
  omega

/-- Settles O50: a difference of words is that of their numbers modulo 2^64, and a count ahead by less than 2^63 is its own
difference. -/
theorem tickArithmetic : Obligations.TickArithmetic := by
  unfold Obligations.TickArithmetic
  refine ⟨fun t => ⟨rfl, t.tick_unlocked, fun hmax => ?wrap⟩, fun x y => ?difference, fun x d h => ?ahead⟩
  case wrap =>
    rw [t.tick_unlocked, hmax]
    rfl
  case difference => exact ⟨rfl, Tick.diff_lower x y, Tick.diff_upper x y, Tick.diff_congr x y, Tick.le_iff x y⟩
  case ahead => exact ⟨Tick.diff_add_ofNat x d h, Tick.le_add_ofNat x d h⟩

/-! ### TC64 and HT96 -/

/-- Ticks to fine units is the division rounded up. -/
theorem ticksToFine_bounds (t : Nat) : t * 262144 ≤ 5 * ticksToFine t ∧ 5 * ticksToFine t < t * 262144 + 5 := by
  unfold ticksToFine
  omega

/-- Fine units to ticks is the division rounded down. -/
theorem fineToTicks_bounds (d : Nat) : 262144 * fineToTicks d ≤ d * 5 ∧ d * 5 < 262144 * (fineToTicks d + 1) := by
  unfold fineToTicks
  omega

/-- The two roundings meet: the fine units of a tick lie less than one unit past it. -/
theorem fineToTicks_ticksToFine (t : Nat) : fineToTicks (ticksToFine t) = t := by
  have hup := ticksToFine_bounds t
  have hdown := fineToTicks_bounds (ticksToFine t)
  omega

/-- An instant's fields hold any count of fine units whose seconds fit in 48 bits. -/
theorem htFine_fineHt (d : Nat) (h : d / 65536 / 1000000000 < 2 ^ 48) : htFine (fineHt d) = d := by
  simp only [htFine, fineHt, BitVec.toNat_ofNat]
  omega

theorem htBad_fineHt (d : Nat) : htBad (fineHt d) = false := by
  simp only [htBad, fineHt, BitVec.toNat_ofNat, decide_eq_false_iff_not]
  omega

theorem ht96ToTc64_malformed (e h : Ht96) (hbad : htBad h = true) : ht96ToTc64 e h = none := by
  simp [ht96ToTc64, hbad]

theorem ht96ToTc64_early (e h : Ht96) (hlt : htFine h < htFine e) : ht96ToTc64 e h = none := by
  simp [ht96ToTc64, hlt]

theorem ht96ToTc64_late (e h : Ht96) (hlate : 2 ^ 64 ≤ fineToTicks (htFine h - htFine e)) : ht96ToTc64 e h = none := by
  unfold ht96ToTc64
  split
  · rfl
  · exact if_neg (Nat.not_lt.2 hlate)

/-- An instant from the epoch on has the count of its whole ticks, where 64 bits hold it (R22). -/
theorem ht96ToTc64_some (e h : Ht96) (hbad : htBad h = false) (hle : htFine e ≤ htFine h)
    (hlt : fineToTicks (htFine h - htFine e) < 2 ^ 64) :
    ht96ToTc64 e h = some (BitVec.ofNat 64 (fineToTicks (htFine h - htFine e))) := by
  simp only [ht96ToTc64, hbad, Nat.not_lt.2 hle, Bool.false_eq_true, or_self, if_false, if_pos hlt]

/-- Hexzen never produces a malformed instant (R16). -/
theorem htBad_tc64ToHt96 (e : Ht96) (t : Tick) : htBad (tc64ToHt96 e t) = false := htBad_fineHt _

section
variable (e : Ht96) (t : Tick) (hbad : htBad e = false) (hsec : e.sec.toNat ≤ 281460219315396)
include hbad hsec

/-- The limit of R18 on the epoch: no count's instant overflows the seconds. -/
theorem epoch_add_seconds : (htFine e + ticksToFine t.toNat) / 65536 / 1000000000 < 2 ^ 48 := by
  have hns : e.ns.toNat ≤ 999999999 := by simpa [htBad] using hbad
  have hfrac := e.frac.isLt
  have ht := t.isLt
  have hfine := ticksToFine_bounds t.toNat
  simp only [htFine]
  omega

theorem htFine_tc64ToHt96 : htFine (tc64ToHt96 e t) = htFine e + ticksToFine t.toNat :=
  htFine_fineHt _ (epoch_add_seconds e t hbad hsec)

/-- The round trip of R21. -/
theorem ht96ToTc64_tc64ToHt96 : ht96ToTc64 e (tc64ToHt96 e t) = some t := by
  have hfine := htFine_tc64ToHt96 e t hbad hsec
  have hticks : fineToTicks (htFine (tc64ToHt96 e t) - htFine e) = t.toNat := by
    rw [hfine, Nat.add_sub_cancel_left, fineToTicks_ticksToFine]
  rw [ht96ToTc64_some e _ (htBad_tc64ToHt96 e t) (by omega) (by rw [hticks]; exact t.isLt), hticks,
    BitVec.ofNat_toNat, BitVec.setWidth_eq]

end

/-- Settles O48: the two roundings cancel, and the premise on the epoch implies R18's limit. -/
theorem ht96Conversion : Obligations.Ht96Conversion := by
  unfold Obligations.Ht96Conversion
  refine ⟨fun t => ⟨rfl, ticksToFine_bounds t⟩, fun d => ⟨rfl, fineToTicks_bounds d⟩, fun e t hbad hsec => ?roundTrip,
    fun e h => ⟨?none, fun hbad hle hlt => ?some⟩⟩
  case roundTrip =>
    have hlimit : e.sec.toNat ≤ 281460219315396 := by omega
    exact ⟨htFine_tc64ToHt96 e t hbad hlimit, htBad_tc64ToHt96 e t, ht96ToTc64_tc64ToHt96 e t hbad hlimit⟩
  case none =>
    rintro (hbad | hearly | hlate)
    · exact ht96ToTc64_malformed e h hbad
    · exact ht96ToTc64_early e h hearly
    · exact ht96ToTc64_late e h hlate
  case some => exact ⟨_, ht96ToTc64_some e h hbad hle hlt, (BitVec.toNat_ofNat _ _).trans (Nat.mod_eq_of_lt hlt)⟩

end Sys2Proof.Machine
end

section
/-! SUPPORT. The vitrine's captures (R36 to R38) and the promise (R23 to R26). -/

namespace Sys2Proof.Machine

open Sys2Proof

section
variable (b : Block) (w : Bool) (f : VitBank → VitBank)

/-! ### Updates of one bank -/

@[simp] theorem Block.vit_mVit : (b.mVit w f).vit w = f (b.vit w) := by cases w <;> rfl

@[simp] theorem Block.vit_mVit_not : (b.mVit w f).vit (!w) = b.vit (!w) := by cases w <;> rfl

@[simp] theorem Block.mVit_tc64 : (b.mVit w f).tsu.time.tc64 = b.tsu.time.tc64 := by cases w <;> rfl

@[simp] theorem Block.mVit_tc : (b.mVit w f).tc = b.tc := b.mVit_tc64 w f

@[simp] theorem Block.mVit_due (t : Tick) : (b.mVit w f).due t = b.due t := by simp [Block.due]

@[simp] theorem Block.mVit_dist : (b.mVit w f).dist = b.dist := by cases w <;> rfl

@[simp] theorem Block.mVit_out : (b.mVit w f).out = b.out := by cases w <;> rfl

@[simp] theorem Block.vit_emit (o : Out) : (b.emit o).vit w = b.vit w := rfl

/-! ### A capture -/

@[simp] theorem Block.vitCap_seq : ((b.vitCap w).vit w).seq = (b.vit w).seq + 1 := by simp [Block.vitCap]

@[simp] theorem Block.vitCap_vTc64 : ((b.vitCap w).vit w).vTc64 = b.tsu.time.tc64 := by
  simp [Block.vitCap]

@[simp] theorem Block.vitCap_other : (b.vitCap w).vit (!w) = b.vit (!w) := by simp [Block.vitCap]

@[simp] theorem Block.vitCap_dist : (b.vitCap w).dist = b.dist := by simp [Block.vitCap]

@[simp] theorem Block.vitCap_out : (b.vitCap w).out = b.out := by simp [Block.vitCap]

end

/-! ### Arming, and reaching AT -/

section
variable {b : Block} {w : Bool} {t : Tick}

/-- Armed at a tick to come, the bank waits (R38). -/
theorem Block.vitArm_setArm_ahead (hv : b.tsu.time.timeValid = true) (hahead : b.due (b.vit w).at_ = false) :
    b.vitArm w .setArm = b.mVit w fun v => { v with armAt := true } := by
  simp [Block.vitArm, Block.timeOk, hv, hahead]

theorem Block.vitArm_writeAt_ahead (hv : b.tsu.time.timeValid = true) (hahead : b.due t = false) :
    b.vitArm w (.writeAt t) = b.mVit w fun v => { v with at_ := t } := by
  simp [Block.vitArm, Block.timeOk, hv, hahead]

/-- An armed bank whose AT is written with a tick that has passed captures at once (R38). -/
theorem Block.vitArm_writeAt_passed (hv : b.tsu.time.timeValid = true) (harm : (b.vit w).armAt = true) (hne : t ≠ b.tc)
    (hdue : b.due t = true) : b.vitArm w (.writeAt t) = (b.mVit w fun v => { v with at_ := t }).vitPast w := by
  simp [Block.vitArm, Block.timeOk, hv, harm, hne, hdue]

theorem Block.vitReached_due (harm : (b.vit w).armAt = true) (hdue : b.due (b.vit w).at_ = true) :
    b.vitReached w = (b.vitCap w).mVit w fun v => { v with armAt := false } := by
  simp [Block.vitReached, harm, hdue]

end

/-! ### The commands -/

/-- A register command that passes its checks takes effect and is answered. -/
theorem State.run_regCmd_ok {q : Req} {addr : Nat} {res : Bool} {s : State} (f : Block → Block)
    (hok : s.blk.check q addr res = .ok) :
    s.run (fun b => b.regCmd q addr res f) = .next { s with blk := (f s.blk).emit (.reg none 0 0) } := by
  rw [State.run_eq, Block.regCmd_ok hok]

theorem exec_vitCapture {a : Access} {s : State} (hok : s.blk.check (portReq a) 0x1040 true = .ok) :
    exec (.vitCapture a) s = .next { s with blk := (s.blk.vitCap a.secure).emit (.reg none 0 0) } :=
  State.run_regCmd_ok _ hok

theorem exec_vitArmAt_setArm {a : Access} {s : State} (hok : s.blk.check (portReq a) 0x1040 true = .ok) :
    exec (.vitArmAt a .setArm) s = .next { s with blk := (s.blk.vitArm a.secure .setArm).emit (.reg none 0 0) } :=
  State.run_regCmd_ok _ hok

theorem exec_vitArmAt_writeAt {a : Access} {t : Tick} {s : State} (hok : s.blk.check (portReq a) 0x1048 true = .ok) :
    exec (.vitArmAt a (.writeAt t)) s =
      .next { s with blk := (s.blk.vitArm a.secure (.writeAt t)).emit (.reg none 0 0) } :=
  State.run_regCmd_ok _ hok

theorem exec_vitAtReached (w : Bool) (s : State) :
    exec (.vitAtReached w) s = .next { s with blk := s.blk.vitReached w } := rfl

theorem exec_lockAgeTenMinutes (s : State) : exec .lockAgeTenMinutes s = .next { s with blk := s.blk.promise } := rfl

/-- Settles O1: each command is its check followed by the capture, the arming or the promise. -/
theorem vitrineAndPromise : Obligations.VitrineAndPromise := by
  unfold Obligations.VitrineAndPromise
  refine ⟨fun a s hok => exec_vitCapture hok, fun a s hok hv hahead => ?setArm, fun a t s hok hv hahead => ?writeAhead,
    fun a t s hok hv harm hne hdue => ⟨_, exec_vitArmAt_writeAt hok, ?writePassed⟩,
    fun w s harm hdue => ⟨_, exec_vitAtReached w s, ?reached⟩, exec_lockAgeTenMinutes⟩
  case setArm => rw [exec_vitArmAt_setArm hok, Block.vitArm_setArm_ahead hv hahead]
  case writeAhead => rw [exec_vitArmAt_writeAt hok, Block.vitArm_writeAt_ahead hv hahead]
  case writePassed =>
    rw [Block.vitArm_writeAt_passed hv harm hne hdue]
    simp [Block.vitPast]
  case reached =>
    rw [Block.vitReached_due harm hdue]
    simp

end Sys2Proof.Machine
end

section
/-! SUPPORT. Spine calibration, tracking and LOAD (R28 to R32, R35). -/

namespace Sys2Proof.Machine

open Sys2Proof

/-! ### What the promise and the start of restart calibration update -/

section
variable (b : Block)

@[simp] theorem Block.promise_tsu :
    b.promise.tsu = { b.tsu with time := { b.tsu.time with promise := b.promiseHolds } } := rfl

@[simp] theorem Block.promise_dist : b.promise.dist = b.dist := rfl

@[simp] theorem Block.promise_out : b.promise.out = b.out := rfl

@[simp] theorem Block.rstBegin_tsu : b.rstBegin.tsu = { b.tsu with
    lctl := { b.tsu.lctl with rstStart := true, rstBusy := true },
    spine := { b.tsu.spine with
      eps := smMap {} (fun e => if e.restarts then { e with rstOk := false } else e) b.tsu.spine.eps } } := rfl

@[simp] theorem Block.rstBegin_dist : b.rstBegin.dist = b.dist := rfl

@[simp] theorem Block.rstBegin_out : b.rstBegin.out = b.out := rfl

end

/-! ### Calibration begins -/

section
variable {b : Block}

/-- EN takes effect; after TIME_VALID the age of the lock and the promise clear (R26, R29). -/
theorem Block.calBegin_tsu (b : Block) : b.calBegin.tsu = { b.tsu with
    spine := { b.tsu.spine with
      calBusy := true, calDone := false
      eps := smMap {} (fun e => { e with enAtCal := e.en }) b.tsu.spine.eps }
    time := if b.tsu.time.timeValid then { b.tsu.time with lockAge := 0, promise := false } else b.tsu.time } := by
  cases hv : b.tsu.time.timeValid <;> simp [Block.calBegin, Block.timeOk, Block.clearAge, hv]

@[simp] theorem Block.calBegin_dist (b : Block) : b.calBegin.dist = b.dist := by
  cases hv : b.tsu.time.timeValid <;> simp [Block.calBegin, Block.timeOk, Block.clearAge, hv]

@[simp] theorem Block.calBegin_out (b : Block) : b.calBegin.out = b.out := by
  cases hv : b.tsu.time.timeValid <;> simp [Block.calBegin, Block.timeOk, Block.clearAge, hv]

theorem Block.calStart_begins (hbusy : b.tsu.spine.calBusy = false) (hst : b.tsu.pwr.st ≠ .entering)
    (harm : b.armedAny = false) : b.calStart = (b.mSpine fun x => { x with calStart := true }).calBegin := by
  simp [Block.calStart, hbusy, hst, harm]

/-- While a context is armed a calibration does not begin (R30). -/
theorem Block.calStart_armed (hbusy : b.tsu.spine.calBusy = false) (hst : b.tsu.pwr.st ≠ .entering)
    (harm : b.armedAny = true) : b.calStart = b.mSpine fun x => { x with calFail := true } := by
  simp [Block.calStart, hbusy, hst, harm]

theorem exec_calStart {a : Access} {s : State} (hok : s.blk.check (portReq a) 0x1100 true = .ok) :
    exec (.calStart a) s = .next { s with blk := s.blk.calStart.emit (.reg none 0 0) } :=
  State.run_regCmd_ok _ hok

/-! ### Calibration ends -/

/-- With no LOAD pending, V is L, 32 ticks ahead (R28). -/
theorem Block.sendLoad_none (hload : b.tsu.spine.load = none) :
    b.sendLoad 0 false = (b.mSpine fun x => { x with load := some (b.tc + 32, b.tc + 32), loadStep := false }).emit
      (.load (b.tc + 32) (b.tc + 32)) := by
  simp [Block.sendLoad, hload]

/-- What the end of calibration leaves, the endpoints and CAL_FAIL apart (R29). -/
theorem Block.calEnd_none (ms : List EpMeas) (hload : b.tsu.spine.load = none) :
    ∃ (eps : List (Nat × Endpoint)) (failed : Bool), b.calEnd ms =
      (b.mSpine fun x => { x with
        eps := eps, calBusy := false, calStart := false, calDone := true, calFail := x.calFail || failed
        load := some (b.tc + 32, b.tc + 32), loadStep := false }).emit (.load (b.tc + 32) (b.tc + 32)) := by
  simp only [Block.calEnd, Block.mSpine]
  -- which endpoints passed is not looked into: any list of endpoints will do
  generalize List.foldl _ b.tsu.spine.eps (List.range 64) = eps
  rw [Block.sendLoad_none]
  · exact ⟨eps, _, rfl⟩
  · exact hload

/-- At bring-up restart calibration follows, else the spine's end is all (R394). -/
theorem Block.spineCalDone_busy (ms : List EpMeas) (hbusy : b.tsu.spine.calBusy = true) :
    b.spineCalDone ms = ((b.calEnd ms).mBoot fun t => { t with spineEnded := true }).promise ∨
      b.spineCalDone ms = ((b.calEnd ms).mBoot fun t => { t with spineEnded := true }).promise.rstBegin := by
  simp only [Block.spineCalDone, hbusy, Bool.not_true, Bool.false_eq_true, if_false]
  split
  · exact .inl rfl
  · exact .inr rfl

theorem exec_spineCalDone (ms : List EpMeas) (s : State) :
    exec (.spineCalDone ms) s = .next { s with blk := s.blk.spineCalDone ms } := rfl

/-! ### Tracking -/

/-- A good measurement moves TRIM by at most one step and clears the run of bad ones (R32). -/
theorem Endpoint.track_good (e : Endpoint) (r : BitVec 8) (hr : r.toInt.natAbs ≤ 8) :
    e.track true r = { e with
      badRun := 0, resid := r
      trim := if 0 < r.toInt then (if e.trim = 0 then 0 else e.trim - 1)
        else if r.toInt < 0 then (if e.trim = 639 then 639 else e.trim + 1) else e.trim } := by
  simp [Endpoint.track, Nat.not_lt.2 hr]

theorem Block.track_next {n : Nat} (r : BitVec 8) (hen : b.tsu.spine.trackEn = true)
    (hn : nextEp b.tsu.spine.eps b.tsu.spine.trackIdx = some n) :
    b.track true r = (b.mEp n fun e => e.track true r).mSpine fun x => { x with trackIdx := (n + 1) % 64 } := by
  simp [Block.track, hen, hn]

theorem exec_spineTrackMeasure (echo : Bool) (r : BitVec 8) (s : State) :
    exec (.spineTrackMeasure echo r) s = .next { s with blk := s.blk.track echo r } := rfl

/-! ### LOAD takes effect -/

theorem Block.loadTake_early {v l : Tick} (hload : b.tsu.spine.load = some (v, l)) (hearly : b.due l = false) :
    b.loadTake = b := by
  simp [Block.loadTake, hload, hearly]

/-- From tick L on the count and the replicas run from V, and the timestamps held at the lanes move with them (R28). -/
theorem Block.loadTake_due {v l : Tick} (hload : b.tsu.spine.load = some (v, l)) (hdue : b.due l = true)
    (hstep : b.tsu.spine.loadStep = false) :
    b.loadTake = { b with tsu := { b.tsu with
      time := { b.tsu.time with tc64 := v + (b.tc - l) }
      spine := { b.tsu.spine with load := none, loadStep := false, replica := v + (b.tc - l) }
      laneA := b.tsu.laneA.moveTs (v - l), laneB := b.tsu.laneB.moveTs (v - l) } } := by
  simp [Block.loadTake, hload, hdue, hstep, Block.mSpine, Block.mTime, Block.mTsu]

theorem exec_spineLoadTake (s : State) : exec .spineLoadTake s = .next { s with blk := s.blk.loadTake } := rfl

end

/-- Settles O2: a calibration's start and end, a tracking step and a LOAD are each one update of the spine. -/
theorem spineCommands : Obligations.SpineCommands := by
  unfold Obligations.SpineCommands
  refine ⟨fun a s hok hbusy hst harm => ⟨_, exec_calStart hok, ?begins⟩, fun a s hok hbusy hst harm => ?armed,
    fun ms s hbusy hload => ⟨_, exec_spineCalDone ms s, ?ends⟩, fun r n s hen hn hr => ?track,
    fun v l s hload hdue hstep => ⟨_, exec_spineLoadTake s, ?load⟩, fun v l s hload hearly => ?early⟩
  case begins =>
    rw [Block.calStart_begins hbusy hst harm]
    cases hv : s.blk.tsu.time.timeValid <;> simp [Block.calBegin_tsu, hv]
  case armed => rw [exec_calStart hok, Block.calStart_armed hbusy hst harm]
  case ends =>
    obtain ⟨eps, failed, hend⟩ := Block.calEnd_none ms hload
    rcases Block.spineCalDone_busy ms hbusy with hdone | hdone
    all_goals
      rw [hdone, hend]
      simp [Block.tc]
  case track =>
    rw [exec_spineTrackMeasure, Block.track_next r hen hn]
    simp only [Endpoint.track_good _ r hr]
  case load =>
    rw [Block.loadTake_due hload hdue hstep]
    simp [Block.tc]
  case early => rw [exec_spineLoadTake, Block.loadTake_early hload hearly]

end Sys2Proof.Machine
end

section
/-! SUPPORT. The passing of one tick (R12 to R14, R26, R349) where neither the data mover nor a refresh request acts. -/

namespace Sys2Proof.Machine

open Sys2Proof

section
variable {t : Tsu} {d : Dist} {b : Block}

/-! ### The units' clocks -/

theorem Tsu.tick_running (hrst : t.boot.tsuRst = false) (hon : t.pwr.on.time = true) :
    t.tick = { t with time := t.time.tick (t.servo.state == .locked)
                      spine := { t.spine with replica := t.spine.replica + 1 } } := by
  simp [Tsu.tick, hrst, hon]

/-- In MITTEN only the always-on clock passes (R349). -/
theorem Tsu.tick_mitten (hrst : t.boot.tsuRst = false) (hoff : t.pwr.on.time = false) (hst : t.pwr.st = .mitten) :
    t.tick = { t with pwr := t.pwr.edge } := by
  simp [Tsu.tick, hrst, hoff, hst]

theorem Tsu.tick_stopped (h : t.boot.tsuRst = true ∨ t.pwr.on.time = false ∧ t.pwr.st ≠ .mitten) : t.tick = t := by
  rcases h with hrst | ⟨hoff, hst⟩
  · simp [Tsu.tick, hrst]
  · simp [Tsu.tick, hoff, hst]

@[simp] theorem Tsu.tick_dm (t : Tsu) : t.tick.dm = t.dm := by
  unfold Tsu.tick
  split_ifs <;> rfl

@[simp] theorem Tsu.tick_lctl (t : Tsu) : t.tick.lctl = t.lctl := by
  unfold Tsu.tick
  split_ifs <;> rfl

theorem Dist.tick_powered (h : d.mod.powered = true) :
    d.tick = { d with time := d.time.tick (d.servo.state == .locked) } := if_pos h

theorem Dist.tick_unpowered (h : d.mod.powered = false) : d.tick = d := by simp [Dist.tick, h]

/-! ### What does not act on the tick -/

theorem Block.grantAll_noRequest (h : b.tsu.lctl.req = 0) (n : Nat) : Block.grantAll n b = b := by
  cases n with
  | zero => rfl
  | succ n =>
    have hnone (gs : List Nat) : (gs.find? fun g => b.tsu.lctl.req.getLsbD g && !b.tsu.lctl.gnt.getLsbD g) = none := by
      simp [h]
    simp only [Block.grantAll, hnone, ite_self]

theorem Block.freeGrants_noRequest (h : b.tsu.lctl.req = 0) : b.freeGrants = b := by
  rw [Block.freeGrants, Block.grantAll_noRequest h, ite_self]

theorem Block.dmGo_noChannel (h : b.tsu.dm.chs = []) : b.dmGo = b := by simp [Block.dmGo, h]

/-- Only the two clocks pass. -/
theorem Block.idle_quiet (hdm : b.tsu.dm.chs = []) (hreq : b.tsu.lctl.req = 0) :
    b.idle = { b with tsu := b.tsu.tick, dist := b.dist.tick } := by
  rw [Block.idle, Block.dmGo_noChannel (by simpa using hdm), Block.freeGrants_noRequest (by simpa using hreq)]

end

theorem step_empty {s : State} (h : s.pending = []) : step s = .next { s with blk := s.blk.idle } := by rw [step, h]

/-- Settles O42: the step is `Block.idle`, which here is the tick of the two units. -/
theorem idleTick : Obligations.IdleTick := by
  unfold Obligations.IdleTick
  intro s hq b d t tick runs
  refine ⟨⟨_, step_empty hq, hq⟩, fun hdm hreq hpow => ?powered, fun hdm hreq hpow hrst => ?unpowered⟩
  case powered =>
    rw [step_empty hq, Block.idle_quiet hdm hreq, Dist.tick_powered hpow]
    refine ⟨fun hrst hon => ?_, fun hrst hoff hst => ?_, fun hstop => ?_⟩
    · rw [Tsu.tick_running hrst hon]
      rfl
    · rw [Tsu.tick_mitten hrst hoff hst]
      rfl
    · rw [Tsu.tick_stopped hstop]
      rfl
  case unpowered =>
    rw [step_empty hq, Block.idle_quiet hdm hreq, Dist.tick_unpowered hpow, Tsu.tick_stopped (.inl hrst)]

end Sys2Proof.Machine
end

section
/-! SUPPORT. What becomes of a received frame at each check that turns it away (R40, R41, R45, R46, R67, R404, R428). -/

namespace Sys2Proof.Machine

open Sys2Proof

/-! ### The checks of a receiver, in their order -/

section
variable {b : Block} {l : LaneRef} {h : Hdr} {cls feat : Nat} {fence : Bool} {k : Block → Block}

theorem Block.rx_notUp (hup : b.up l = false) : b.rx l h cls feat fence k = b := by
  simp only [Block.rx, hup, Bool.not_false, if_true]

theorem Block.rx_badFormat (hup : b.up l = true) (hbad : h.fmt ≠ 1 ∨ 7 ≤ h.cls.toNat) :
    b.rx l h cls feat fence k = (b.corrected l h.corr).dropProto l := by
  simp only [Block.rx, hup, Bool.not_true, Bool.false_eq_true, if_false, Bool.or_eq_true, bne_iff_ne, ne_eq,
    decide_eq_true_eq, if_pos hbad]

/-- A well-formed frame of the class expected goes on to the order of LSEQ. -/
theorem Block.rx_wellFormed (hup : b.up l = true) (hfmt : h.fmt = 1) (hcls : h.cls.toNat = cls) (h7 : cls < 7) :
    b.rx l h cls feat fence k =
      if cls ≠ 0 ∧ h.lseq ≠ (b.lane l).link.rxSeq then b.corrected l h.corr
      else if ((b.lane l).reg.featEff.getLsbD feat) = false then (b.rxBook l h cls).dropProto l
      else if ((b.rxBook l h cls).admitRx l cls h.mepoch fence).1 = true then
        k ((b.rxBook l h cls).admitRx l cls h.mepoch fence).2
      else ((b.rxBook l h cls).admitRx l cls h.mepoch fence).2 := by
  have hbook : (if cls = 0 then b.corrected l h.corr else (b.corrected l h.corr).mLink l fun x =>
      { x with rxSeq := x.rxSeq + 1, rxDiscard := false, credRx := x.credRx.inc cls }) = b.rxBook l h cls := rfl
  unfold Block.rx
  dsimp only
  rw [if_neg (by simp [hup]), if_neg (by simp [hfmt]; omega), if_neg (by simp [hcls]), corrected_rxSeq, hbook,
    (rxBook_same b l h cls).reg l]
  simp only [Bool.not_eq_true']

theorem Block.rx_outOfOrder (hup : b.up l = true) (hfmt : h.fmt = 1) (hcls : h.cls.toNat = cls) (h7 : cls < 7)
    (h0 : cls ≠ 0) (hseq : h.lseq ≠ (b.lane l).link.rxSeq) :
    b.rx l h cls feat fence k = b.corrected l h.corr := by
  rw [Block.rx_wellFormed hup hfmt hcls h7, if_pos ⟨h0, hseq⟩]

theorem Block.rx_noFeature (hup : b.up l = true) (hfmt : h.fmt = 1) (hcls : h.cls.toNat = cls) (h7 : cls < 7)
    (hseq : h.lseq = (b.lane l).link.rxSeq) (hfeat : (b.lane l).reg.featEff.getLsbD feat = false) :
    b.rx l h cls feat fence k = (b.rxBook l h cls).dropProto l := by
  rw [Block.rx_wellFormed hup hfmt hcls h7, if_neg fun hne => hne.2 hseq, if_pos hfeat]

theorem Block.rx_notAdmitted {c : Block} (hup : b.up l = true) (hfmt : h.fmt = 1) (hcls : h.cls.toNat = cls)
    (h7 : cls < 7) (hseq : h.lseq = (b.lane l).link.rxSeq) (hfeat : (b.lane l).reg.featEff.getLsbD feat = true)
    (hadm : (b.rxBook l h cls).admitRx l cls h.mepoch fence = (false, c)) :
    b.rx l h cls feat fence k = c := by
  rw [Block.rx_wellFormed hup hfmt hcls h7, if_neg fun hne => hne.2 hseq, if_neg (by simp [hfeat]), hadm]
  rfl

end

/-! ### Membership at a TSU -/

/-- An MEPOCH that is neither the unit's own, nor the one before within its grace (R428). -/
theorem epochOk_wrong {m ep prev : BitVec 32} {adoptAt now : Tick} {grace : Nat} (hne : m ≠ ep)
    (hold : m ≠ prev ∨ (grace : Int) < Tick.diff now adoptAt) : epochOk m ep prev adoptAt now grace = false := by
  rcases hold with hprev | hlate
  · simp [epochOk, hne, hprev]
  · simp [epochOk, hne, hlate]

/-- R404, R428: a frame of classes 1 to 4 that comes before admission, or with a wrong MEPOCH. -/
theorem Block.admitRx_tsu_refused {b : Block} {p : Plane} {cls : Nat} {m : BitVec 32} (h0 : cls ≠ 0) (h4 : cls ≤ 4)
    (hm : b.tsu.boot.admitted = false ∨ epochOk m b.tsu.boot.ep b.tsu.boot.prev b.tsu.boot.adoptAt b.tc
      (b.catNat .tsu 0x7131 3) = false) :
    b.admitRx (.tsu p) cls m false = (false, b.dropEpoch (.tsu p)) := by
  unfold Block.admitRx
  rw [if_neg h0]
  by_cases hcarries : b.topoCarries (.tsu p) cls = true
  · cases hadm : b.tsu.boot.admitted with
    | false => simp [hcarries, hadm, h4]
    | true =>
      have hepoch := hm.resolve_left (by simp [hadm])
      simp [hcarries, hadm, hepoch]
  · simp [hcarries]

/-- The same at the block that the receipt leaves, in terms of the block before it. -/
theorem Block.admitRx_rxBook_refused {b : Block} {p : Plane} {h : Hdr} {cls : Nat} (h0 : cls ≠ 0) (h4 : cls ≤ 4)
    (hm : b.tsu.boot.admitted = false ∨ (h.mepoch ≠ b.tsu.boot.ep ∧
      (h.mepoch ≠ b.tsu.boot.prev ∨ (b.catNat .tsu 0x7131 3 : Int) < Tick.diff b.tc b.tsu.boot.adoptAt))) :
    (b.rxBook (.tsu p) h cls).admitRx (.tsu p) cls h.mepoch false =
      (false, (b.rxBook (.tsu p) h cls).dropEpoch (.tsu p)) := by
  have same := rxBook_same b (.tsu p) h cls
  apply Block.admitRx_tsu_refused h0 h4
  rw [same.tsu, same.catNat, Block.tc, same.time]
  exact hm.imp_right fun ⟨hne, hold⟩ => epochOk_wrong hne hold

/-! ### The commands that receive a frame -/

/-- `c` is the receipt on lane `l` of a frame of class `cls` that needs feature `feat`. -/
def IsReceipt (c : Instr) (l : LaneRef) (h : Hdr) (cls feat : Nat) : Prop :=
  ∃ k : Block → Block, ∀ s : State, exec c s = s.runLane l fun b => b.rx l h cls feat false k

section
variable {c : Instr} {p : Plane} {h : Hdr} {cls feat : Nat} {s : State}

/-- What a receipt does, from what the checks make of the frame whatever would follow them. -/
theorem IsReceipt.exec_eq (hc : IsReceipt c (.tsu p) h cls feat) {b' : Block}
    (hrx : ∀ k, s.blk.rx (.tsu p) h cls feat false k = b') : exec c s = .next { s with blk := b' } := by
  obtain ⟨k, hk⟩ := hc
  rw [hk, State.runLane_tsu, hrx]

end

/-- Settles O53: each command listed is a receipt, and each check that turns a frame away is a lemma about `Block.rx`. -/
theorem frameTurnedAway : Obligations.FrameTurnedAway := by
  unfold Obligations.FrameTurnedAway
  intro p h g ba ca arm com ab go sat tr kd re hq hr ha pda tag c cls feat s l b t hmem
  have hc : IsReceipt c l h cls feat ∧ cls ≠ 0 ∧ cls ≤ 4 := by
    simp only [List.mem_cons, Prod.mk.injEq, List.not_mem_nil, or_false] at hmem
    rcases hmem with ⟨rfl, rfl, rfl⟩ | ⟨rfl, rfl, rfl⟩ | ⟨rfl, rfl, rfl⟩ | ⟨rfl, rfl, rfl⟩ |
      ⟨rfl, rfl, rfl⟩ | ⟨rfl, rfl, rfl⟩ | ⟨rfl, rfl, rfl⟩ | ⟨rfl, rfl, rfl⟩ | ⟨rfl, rfl, rfl⟩ |
      ⟨rfl, rfl, rfl⟩ | ⟨rfl, rfl, rfl⟩
    all_goals exact ⟨⟨_, fun _ => rfl⟩, by decide, by decide⟩
  obtain ⟨hc, h0, h4⟩ := hc
  refine ⟨fun hup => hc.exec_eq fun k => Block.rx_notUp hup, fun hup =>
    ⟨fun hbad => hc.exec_eq fun k => Block.rx_badFormat hup hbad,
      fun hfmt hcls hseq => hc.exec_eq fun k => Block.rx_outOfOrder hup hfmt hcls (by omega) h0 hseq,
      fun hfmt hcls hseq =>
        ⟨fun hfeat => hc.exec_eq fun k => Block.rx_noFeature hup hfmt hcls (by omega) hseq hfeat,
          fun hfeat hm => hc.exec_eq fun k => Block.rx_notAdmitted hup hfmt hcls (by omega) hseq hfeat
            (Block.admitRx_rxBook_refused h0 h4 hm)⟩⟩⟩

end Sys2Proof.Machine
end

section
/-! SUPPORT. What the lanes hold after updates of one of them and of other parts, and when two updates are one. -/

namespace Sys2Proof.Machine

open Sys2Proof

section
variable (b : Block) (l : LaneRef)

@[simp] theorem lane_mLane_self (f : Lane → Lane) : (b.mLane l f).lane l = f (b.lane l) := by
  rw [lane_mLane, if_pos rfl]

@[simp] theorem lane_mReg_self (f : LaneReg → LaneReg) :
    (b.mReg l f).lane l = { b.lane l with reg := f (b.lane l).reg } := lane_mLane_self b l _

@[simp] theorem lane_mLink_self (f : LaneLink → LaneLink) :
    (b.mLink l f).lane l = { b.lane l with link := f (b.lane l).link } := lane_mLane_self b l _

@[simp] theorem lane_emit (o : Out) : (b.emit o).lane l = b.lane l := by
  rcases l with (_ | _) | _ <;> rfl

@[simp] theorem lane_mCnt_self (f : LaneCnt → LaneCnt) :
    (b.mCnt l f).lane l = { b.lane l with link := { (b.lane l).link with cnt := f (b.lane l).link.cnt } } :=
  lane_mLane_self b l _

@[simp] theorem lane_mDBoot (f : DBoot → DBoot) : (b.mDBoot f).lane l = b.lane l := by
  rcases l with (_ | _) | _ <;> rfl

@[simp] theorem lane_mServo (u : UnitRef) (f : Servo → Servo) : (b.mServo u f).lane l = b.lane l := by
  cases u <;> rcases l with (_ | _) | _ <;> rfl

@[simp] theorem lane_mTime (u : UnitRef) (f : TimeSt → TimeSt) : (b.mTime u f).lane l = b.lane l := by
  cases u <;> rcases l with (_ | _) | _ <;> rfl

/-- Two changes of one lane that agree on what it holds are one. -/
theorem mLane_congr {f g : Lane → Lane} (h : f (b.lane l) = g (b.lane l)) :
    b.mLane l f = b.mLane l g := by
  match l with
  | .tsu .A => simp only [Block.mLane]; rw [show f b.tsu.laneA = g b.tsu.laneA from h]
  | .tsu .B => simp only [Block.mLane]; rw [show f b.tsu.laneB = g b.tsu.laneB from h]
  | .dist n =>
    simp only [Block.mLane, smMod]
    rw [show f (smGet {} b.dist.lanes n) = g (smGet {} b.dist.lanes n) from h]

theorem mLink_congr {f g : LaneLink → LaneLink} (h : f (b.lane l).link = g (b.lane l).link) :
    b.mLink l f = b.mLink l g :=
  mLane_congr b l (by rw [h])

theorem mLink_mLink (f g : LaneLink → LaneLink) :
    (b.mLink l f).mLink l g = b.mLink l fun x => g (f x) :=
  mLane_mLane b l _ _

end

end Sys2Proof.Machine
end

section
/-! SUPPORT. What a frame that is alone in its lane's queue does there (R41, R46, R67, R401, R446, R447). -/

namespace Sys2Proof.Machine

open Sys2Proof

/-! ### The rounds of what waits -/

/-- One round over the classes: class 1, then classes 2 to 6 by deficit (R42, R447). -/
def Block.round (l : LaneRef) (b : Block) : Block :=
  [2, 3, 4, 5, 6].foldl (fun b c => Block.sendRun l c 256 (2048 * b.weight c + 2068) b)
    (Block.sendRun l 1 256 (256 * 4096) b)

theorem Block.pump_succ (l : LaneRef) (n : Nat) (b : Block) :
    Block.pump l (n + 1) b =
      if b.up l then
        if ((b.round l).lane l).link.txq.length < (b.lane l).link.txq.length then Block.pump l n (b.round l)
        else b.round l
      else b := rfl

/-- A class with nothing to send leaves the block as it is; one whose turn it is leaves `b'`. -/
theorem Block.round_eq {l : LaneRef} {b b' : Block} (cls : Nat) (h1 : 1 ≤ cls) (h6 : cls ≤ 6)
    (hturn : ∀ d, 2068 ≤ d → Block.sendRun l cls 256 d b = b')
    (hother : ∀ c d, c ≠ cls → Block.sendRun l c 256 d b = b)
    (hafter : ∀ c d, Block.sendRun l c 256 d b' = b') : b.round l = b' := by
  have hfold (cs : List Nat) (x : Block) (hx : x = b' ∨ x = b ∧ cls ∈ cs) :
      cs.foldl (fun b c => Block.sendRun l c 256 (2048 * b.weight c + 2068) b) x = b' := by
    induction cs generalizing x with
    | nil => exact hx.resolve_right fun h => by simp at h
    | cons c cs ih =>
      apply ih
      rcases hx with rfl | ⟨rfl, hmem⟩
      · exact .inl (hafter _ _)
      · by_cases hc : c = cls
        · subst hc
          exact .inl (hturn _ (by omega))
        · exact .inr ⟨hother c _ hc, (List.mem_cons.1 hmem).resolve_left (Ne.symm hc)⟩
  apply hfold
  by_cases hc : 1 = cls
  · subst hc
    exact .inl (hturn _ (by decide))
  · refine .inr ⟨hother 1 _ hc, ?_⟩
    simp only [List.mem_cons, List.not_mem_nil, or_false]
    omega

/-! ### What one class sends -/

section
variable {b : Block} {l : LaneRef} {f : TxFrame}

theorem takeFirst_single_self (f : TxFrame) : takeFirst (fun g => g.cls == f.cls) [f] = some (f, []) := by
  simp [takeFirst]

theorem takeFirst_single_other {f : TxFrame} {c : Nat} (h : c ≠ f.cls) : takeFirst (fun g => g.cls == c) [f] = none := by
  simp [takeFirst, Ne.symm h]

theorem Block.sendRun_noneWaiting {c n d : Nat} (h : takeFirst (fun g => g.cls == c) (b.lane l).link.txq = none) :
    Block.sendRun l c n d b = b := by
  cases n with
  | zero => rfl
  | succ n => rw [Block.sendRun, h]

theorem Block.sendRun_empty {c n d : Nat} (h : (b.lane l).link.txq = []) : Block.sendRun l c n d b = b :=
  Block.sendRun_noneWaiting (by rw [h]; rfl)

theorem Block.sendRun_other {c n d : Nat} (hq : (b.lane l).link.txq = [f]) (hc : c ≠ f.cls) :
    Block.sendRun l c n d b = b :=
  Block.sendRun_noneWaiting (by rw [hq, takeFirst_single_other hc])

/-- Without credit, or with a full replay buffer, a class sends nothing (R46, R446). -/
theorem Block.sendRun_blocked {c n d : Nat} (h : b.sendOne l c = none) : Block.sendRun l c n d b = b := by
  cases n with
  | zero => rfl
  | succ n =>
    rw [Block.sendRun]
    split
    · rfl
    · rw [h]
      exact ite_self _

theorem Block.sendOne_noCredit {c : Nat} (h : (b.lane l).link.credit c = false) : b.sendOne l c = none := by
  simp [Block.sendOne, h]

/-- What is left when a frame `f` has been the only one to wait, and has left (R46). -/
def Block.sentFrame (b : Block) (l : LaneRef) (f : TxFrame) : Block :=
  (b.mLink l fun k => { k with
    txq := [], txSeq := k.txSeq + 1, sent := k.sent.inc f.cls, replay := k.replay ++ [⟨k.txSeq, 0, f⟩] }).emit
      (.frame l (b.lane l).link.txSeq false f)

@[simp] theorem Block.sentFrame_txq (b : Block) (l : LaneRef) (f : TxFrame) :
    ((b.sentFrame l f).lane l).link.txq = [] := by simp [Block.sentFrame]

theorem Block.sendOne_single (hq : (b.lane l).link.txq = [f]) (hroom : (b.lane l).link.replay.length < 256)
    (hcred : (b.lane l).link.credit f.cls = true) :
    b.sendOne l f.cls = some (frameBytes f.body, b.sentFrame l f) := by
  simp only [Block.sendOne, hroom, hcred, and_self, if_true, hq, takeFirst_single_self, Option.map_some]
  rfl

theorem Block.sendRun_single {d : Nat} (hq : (b.lane l).link.txq = [f]) (hroom : (b.lane l).link.replay.length < 256)
    (hcred : (b.lane l).link.credit f.cls = true) (hd : frameBytes f.body ≤ d) (n : Nat) :
    Block.sendRun l f.cls (n + 1) d b = b.sentFrame l f := by
  rw [Block.sendRun, hq, takeFirst_single_self]
  simp only [if_neg (Nat.not_lt.2 hd), Block.sendOne_single hq hroom hcred]
  exact Block.sendRun_empty (Block.sentFrame_txq b l f)

/-! ### What a lane sends whose queue holds one frame -/

theorem Block.round_empty (hq : (b.lane l).link.txq = []) : b.round l = b :=
  Block.round_eq 1 (by decide) (by decide) (fun _ _ => Block.sendRun_empty hq) (fun _ _ _ => Block.sendRun_empty hq)
    fun _ _ => Block.sendRun_empty hq

/-- Nothing waits, so nothing leaves. -/
theorem Block.pump_empty (n : Nat) (hq : (b.lane l).link.txq = []) : Block.pump l n b = b := by
  cases n with
  | zero => rfl
  | succ n => rw [Block.pump_succ, Block.round_empty hq, if_neg (Nat.lt_irrefl _), ite_self]

/-- A frame without credit waits. -/
theorem Block.pump_noCredit (n : Nat) (h1 : 1 ≤ f.cls) (h6 : f.cls ≤ 6) (hq : (b.lane l).link.txq = [f])
    (hcred : (b.lane l).link.credit f.cls = false) : Block.pump l n b = b := by
  cases n with
  | zero => rfl
  | succ n =>
    have hstay (c d : Nat) : Block.sendRun l c 256 d b = b := by
      by_cases hc : c = f.cls
      · subst hc
        exact Block.sendRun_blocked (Block.sendOne_noCredit hcred)
      · exact Block.sendRun_other hq hc
    rw [Block.pump_succ, Block.round_eq f.cls h1 h6 (fun d _ => hstay f.cls d) (fun c d _ => hstay c d) hstay,
      if_neg (Nat.lt_irrefl _), ite_self]

/-- A frame with credit and room leaves at once. -/
theorem Block.pump_single (n : Nat) (h1 : 1 ≤ f.cls) (h6 : f.cls ≤ 6) (hup : b.up l = true)
    (hq : (b.lane l).link.txq = [f]) (hroom : (b.lane l).link.replay.length < 256)
    (hcred : (b.lane l).link.credit f.cls = true) (hlen : frameBytes f.body ≤ 2068) :
    Block.pump l (n + 1) b = b.sentFrame l f := by
  have hround : b.round l = b.sentFrame l f :=
    Block.round_eq f.cls h1 h6 (fun d hd => Block.sendRun_single hq hroom hcred (by omega) 255)
      (fun c d hc => Block.sendRun_other hq hc) fun c d => Block.sendRun_empty (Block.sentFrame_txq b l f)
  rw [Block.pump_succ, if_pos hup, hround, Block.sentFrame_txq, hq, List.length_nil, List.length_singleton,
    if_pos Nat.zero_lt_one, Block.pump_empty n (Block.sentFrame_txq b l f)]

end

/-! ### Sending -/

section
variable {b : Block} {l : LaneRef} {w : Bool} {body : FrameBody}

theorem Block.send_time (h0 : frameCls body = 0) :
    b.send l w body = b.emit (.frame l 0 false ⟨frameCls body, w, b.epochOf (laneUnit l), body⟩) := by
  simp only [Block.send, h0, if_true]

theorem Block.send_unusable (h0 : frameCls body ≠ 0) (hu : b.usable l (frameCls body) (frameFeature body) = false) :
    b.send l w body = b := by
  simp only [Block.send, h0, hu, if_false, Bool.false_eq_true]

/-- On a lane that nothing waits for, the frame is the only one in the queue. -/
theorem Block.send_idle (h0 : frameCls body ≠ 0) (hu : b.usable l (frameCls body) (frameFeature body) = true)
    (hq : (b.lane l).link.txq = []) :
    b.send l w body = Block.pump l 64 (b.mLink l fun k => { k with
      txq := [⟨frameCls body, w, b.epochOf (laneUnit l), body⟩] }) := by
  simp only [Block.send, h0, hu, if_false, if_true]
  congr 1
  exact mLink_congr b l (by rw [hq]; rfl)

theorem Block.up_of_usable {cls feat : Nat} (h : b.usable l cls feat = true) : b.up l = true := by
  simp only [Block.usable, Bool.and_eq_true] at h
  exact h.1.1.1

end

/-- Settles O54: TIME frames and frames that cannot be carried by the definition of sending; the others by what a queue of
one frame sends. -/
theorem frameSent : Obligations.FrameSent := by
  unfold Obligations.FrameSent
  intro l w body b cls k ep f
  have hf : (⟨frameCls body, w, b.epochOf (laneUnit l), body⟩ : TxFrame) = f := by cases l <;> rfl
  refine ⟨fun h0 => ?time, fun h0 hu => Block.send_unusable h0 hu, fun h0 h7 hu hq hcred => ?waits,
    fun h0 h7 hu hq hroom hcred hlen => ?leaves⟩
  case time => rw [Block.send_time h0, hf]
  case waits =>
    rw [Block.send_idle h0 hu hq, hf]
    exact Block.pump_noCredit (f := f) 64 (Nat.pos_of_ne_zero h0) (Nat.le_of_lt_succ h7) (by rw [lane_mLink_self])
      (by rw [lane_mLink_self]; exact hcred)
  case leaves =>
    have hup : (b.mLink l fun k => { k with txq := [f] }).up l = true := by
      simpa [Block.up] using Block.up_of_usable hu
    rw [Block.send_idle h0 hu hq, hf, Block.pump_single (f := f) 63 (Nat.pos_of_ne_zero h0) (Nat.le_of_lt_succ h7) hup
      (by rw [lane_mLink_self]) (by rw [lane_mLink_self]; exact hroom) (by rw [lane_mLink_self]; exact hcred) hlen,
      Block.sentFrame, mLink_mLink, lane_mLink_self]

end Sys2Proof.Machine
end

section
/-! SUPPORT. The states of a lane (R48, R64, R69, R70, R396, R397, R402, R406, R456): enable and disable, training and its
failures, negotiation, retrain, listening. -/

namespace Sys2Proof.Machine

open Sys2Proof

/-! ### Commands that name a lane -/

/-- A command that is no register command, on a lane that exists. -/
theorem exec_of_runLane {c : Instr} {l : LaneRef} {f : Block → Block} {s : State} {b' : Block} (hl : l.ok = true)
    (hc : exec c s = s.runLane l f) (hf : f s.blk = b') : exec c s = .next { s with blk := b' } := by
  rw [hc, State.runLane_ok l f s hl, hf]

theorem State.runLane_missing {n : Nat} (f : Block → Block) (s : State) (h : 312 ≤ n) :
    s.runLane (.dist n) f = .fault (.noSuchLane n) := if_neg (by omega)

/-- A command of a lane's registers that passes takes effect and is answered. -/
theorem State.laneCmd_pass {a : Access} {l : LaneRef} {s : State} (f : Block → Block) (h : s.blk.lanePass a l = true) :
    s.laneCmd a l f = .next { s with blk := (f s.blk).laneAns l } := by
  cases l with
  | tsu p =>
    have hok : s.blk.check (portReq a) (lnkReg p 0) true = .ok := of_decide_eq_true h
    rw [State.laneCmd, State.runLane_tsu]
    simp only [Block.regCmd_ok hok, Block.laneAns]
  | dist n => exact State.runLane_ok (.dist n) f s h

theorem exec_of_laneCmd {c : Instr} {a : Access} {l : LaneRef} {f : Block → Block} {s : State} {b' : Block}
    (h : s.blk.lanePass a l = true) (hc : exec c s = s.laneCmd a l f) (hf : f s.blk = b') :
    exec c s = .next { s with blk := b'.laneAns l } := by
  rw [hc, State.laneCmd_pass f h, hf]

/-! ### Enable and disable (R406) -/

section
variable {b : Block} {l : LaneRef} {p : Plane} {n : Nat}

theorem Block.laneEnable_shutting (hs : (b.lane l).reg.shutting = true) :
    b.laneEnable l = b.mReg l fun r => { r with enPend := true } := by
  simp only [Block.laneEnable, hs, if_true]

theorem Block.laneEnable_enabled (hs : (b.lane l).reg.shutting = false) (he : (b.lane l).reg.enable = true) :
    b.laneEnable l = b := by
  simp only [Block.laneEnable, hs, he, if_true, Bool.false_eq_true, if_false]

/-- A lane that is enabled and may train starts training. -/
theorem Block.startTrain_enabled (hcan : (b.mReg l fun r => { r with enable := true }).canTrain l = true) :
    (b.mReg l fun r => { r with enable := true }).startTrain l = b.mReg l fun r => { r with
      enable := true, state := .training, backoff := false, fullTrain := !r.fastStart || allZero (b.eqSaved l) } := by
  rw [startTrain_yes _ _ hcan, mReg_mReg, eqSaved_mReg]

theorem Block.laneEnable_tsu (hs : (b.lane (.tsu p)).reg.shutting = false) (he : (b.lane (.tsu p)).reg.enable = false)
    (hlive : b.live = true) (hon : b.linkOn p = true) (hent : b.tsu.pwr.st ≠ .entering)
    (hmit : b.tsu.pwr.st ≠ .mitten) :
    b.laneEnable (.tsu p) = b.mReg (.tsu p) fun r => { r with
      enable := true, state := .training, backoff := false
      fullTrain := !r.fastStart || allZero (b.eqSaved (.tsu p)) } := by
  simp only [Block.laneEnable, hs, he, Bool.false_eq_true, if_false]
  exact Block.startTrain_enabled (by simp [Block.canTrain, hs, hlive, hon, hent, hmit])

theorem Block.laneEnable_dist (hs : (b.lane (.dist n)).reg.shutting = false) (he : (b.lane (.dist n)).reg.enable = false)
    (hpow : b.dist.mod.powered = true) (hbad : (b.lane (.dist n)).reg.bad = false)
    (hcage : (b.lane (.dist n)).reg.cageOff = false) (hrole : b.roleUses n = true) :
    b.laneEnable (.dist n) = (b.mReg (.dist n) fun r => { r with
      enable := true, state := .training, backoff := false
      fullTrain := !r.fastStart || allZero (b.eqSaved (.dist n)) }).octets := by
  simp only [Block.laneEnable, hs, he, Bool.false_eq_true, if_false]
  rw [Block.startTrain_enabled (by simp [Block.canTrain, hs, hpow, hbad, hcage, hrole])]

theorem Block.laneDisable_disabled (he : (b.lane l).reg.enable = false) :
    b.laneDisable l = b.mReg l fun r => { r with enPend := false } := by
  simp [Block.laneDisable, he]

/-- The registers of a lane that is not UP and goes DOWN. -/
theorem Block.leaveDown_notUp (hup : (b.lane l).reg.state ≠ .up) :
    ((b.leave l .down).mReg l fun r => { r with retrainReq := false, backoff := false, failStarts := 0 }) =
      b.mReg l fun r => { r with state := .down, retrainReq := false, backoff := false, failStarts := 0 } := by
  rw [leave_notUp _ _ _ hup, mReg_mReg]

theorem Block.laneDisable_tsu (he : (b.lane (.tsu p)).reg.enable = true) (hup : (b.lane (.tsu p)).reg.state ≠ .up) :
    b.laneDisable (.tsu p) = (b.mReg (.tsu p) fun r => { r with
      enPend := false, enable := false, shutting := true, state := .down, retrainReq := false, backoff := false
      failStarts := 0 }).hallEndAll p stNOPATH := by
  simp only [Block.laneDisable, lane_mReg_self, he, Bool.not_true, Bool.false_eq_true, if_false, mReg_mReg]
  rw [Block.laneDown, Block.leaveDown_notUp (by simpa using hup), mReg_mReg]

theorem Block.laneDisable_dist (he : (b.lane (.dist n)).reg.enable = true)
    (hup : (b.lane (.dist n)).reg.state ≠ .up) :
    b.laneDisable (.dist n) = (b.mReg (.dist n) fun r => { r with
      enPend := false, enable := false, shutting := true, state := .down, retrainReq := false, backoff := false
      failStarts := 0 }).octets := by
  simp only [Block.laneDisable, lane_mReg_self, he, Bool.not_true, Bool.false_eq_true, if_false, mReg_mReg]
  rw [Block.laneDown, Block.leaveDown_notUp (by simpa using hup), mReg_mReg]

/-! ### The end of a shut-down (R406) -/

theorem Block.laneShut_idle (hs : (b.lane l).reg.shutting = false) : b.laneShut l = b := by simp [Block.laneShut, hs]

theorem Block.laneShut_shutting (hs : (b.lane l).reg.shutting = true) :
    b.laneShut l =
      let c := (b.mReg l fun r => { r with shutting := false, enPend := false }).mLink l LaneLink.discard
      if (b.lane l).reg.enPend then c.laneEnable l else c := by
  simp [Block.laneShut, hs]

/-! ### Retrain and training (R48, R396) -/

theorem Block.retrainWrite_idle (hst : (b.lane l).reg.state = .down ∨ (b.lane l).reg.state = .listen) :
    b.retrainWrite l = b := by
  rcases hst with h | h <;> simp [Block.retrainWrite, h]

theorem Block.retrainWrite_running (hd : (b.lane l).reg.state ≠ .down) (hl : (b.lane l).reg.state ≠ .listen) :
    b.retrainWrite l = (b.mReg l fun r => { r with retrainReq := true }).retrainLane l := by
  cases h : (b.lane l).reg.state <;> simp_all [Block.retrainWrite]

theorem Block.trained_fallsBack {eye : BitVec 8} {st : Bytes} (hst : (b.lane l).reg.state = .training)
    (hbo : (b.lane l).reg.backoff = false) (hfull : (b.lane l).reg.fullTrain = false)
    (heye : eye.toNat < b.eyeFail (laneUnit l)) :
    b.trained l eye st = b.mReg l fun r => { r with fullTrain := true } := by
  simp [Block.trained, hst, hbo, hfull, heye]

theorem Block.trained_aligns {eye : BitVec 8} {st : Bytes} (hst : (b.lane l).reg.state = .training)
    (hbo : (b.lane l).reg.backoff = false)
    (hgood : (b.lane l).reg.fullTrain = true ∨ b.eyeFail (laneUnit l) ≤ eye.toNat) :
    b.trained l eye st = b.mReg l fun r => { r with state := .aligning, settings := slice st 0 64 } := by
  have hno : ¬((b.lane l).reg.fullTrain = false ∧ eye.toNat < b.eyeFail (laneUnit l)) := by
    rintro ⟨hfull, heye⟩
    rcases hgood with h | h
    · simp [hfull] at h
    · omega
  simp [Block.trained, hst, hbo, hno]

/-! ### Failed starts (R64, R397) -/

/-- A failed start on a lane that is not UP, before it starts again. -/
theorem Block.failStart_notUp (hup : (b.lane l).reg.state ≠ .up) :
    (b.leave l .training).mLane l Lane.failStart = b.mReg l fun r => { r with
      state := .training, failStarts := r.failStarts + 1, backoff := decide (3 ≤ r.failStarts + 1) } := by
  rw [leave_notUp _ _ _ hup]
  exact mLane_mLane b l _ _

/-- The third failed start in a row, and each one after it, waits. -/
theorem Block.startFailed_waits (hup : (b.lane l).reg.state ≠ .up) (hf : 2 ≤ (b.lane l).reg.failStarts) :
    b.startFailed l = b.mReg l fun r => { r with
      state := .training, failStarts := r.failStarts + 1, backoff := true } := by
  have h3 : decide (3 ≤ (b.lane l).reg.failStarts + 1) = true := by simpa using hf
  simp only [Block.startFailed, Block.failStart_notUp hup, lane_mReg_self, h3, if_true]
  exact mReg_congr _ _ _ _ (by rw [h3])

theorem Block.startFailed_again (hup : (b.lane l).reg.state ≠ .up) (hf : (b.lane l).reg.failStarts < 2) :
    b.startFailed l = (b.mReg l fun r => { r with
      state := .training, failStarts := r.failStarts + 1, backoff := false }).retrainLane l := by
  have h3 : decide (3 ≤ (b.lane l).reg.failStarts + 1) = false := decide_eq_false (by omega)
  simp only [Block.startFailed, Block.failStart_notUp hup, lane_mReg_self, h3, Bool.false_eq_true, if_false]
  rw [mReg_congr b l _ (fun r => { r with state := .training, failStarts := r.failStarts + 1, backoff := false })
    (by rw [h3])]

theorem Block.negFail_other (hst : (b.lane l).reg.state ≠ .negotiating) : b.negFail l = b := if_neg hst

theorem Block.negFail_waits (hst : (b.lane l).reg.state = .negotiating) (hf : 2 ≤ (b.lane l).reg.failStarts) :
    b.negFail l = b.mReg l fun r => { r with
      negFail := true, state := .training, failStarts := r.failStarts + 1, backoff := true } := by
  rw [Block.negFail, if_pos hst, Block.startFailed_waits (by simp [hst]) (by simpa using hf), mReg_mReg]

theorem Block.negFail_again (hst : (b.lane l).reg.state = .negotiating) (hf : (b.lane l).reg.failStarts < 2) :
    b.negFail l = (b.mReg l fun r => { r with
      negFail := true, state := .training, failStarts := r.failStarts + 1, backoff := false }).retrainLane l := by
  rw [Block.negFail, if_pos hst, Block.startFailed_again (by simp [hst]) (by simpa using hf), mReg_mReg]

/-! ### Negotiation (R64) -/

theorem Block.tryUp_yes (hst : (b.lane l).reg.state = .negotiating) (hrx : (b.lane l).reg.ackRx = true)
    (htx : (b.lane l).reg.ackTx = true) : b.tryUp l = b.goUp l := if_pos ⟨hst, hrx, htx⟩

theorem Block.tryUp_no (h : ((b.lane l).reg.ackRx && (b.lane l).reg.ackTx) = false) : b.tryUp l = b := by
  refine if_neg ?_
  rintro ⟨-, hrx, htx⟩
  simp [hrx, htx] at h

/-- What sending HELLO does before the exchange may be complete. -/
def Block.helloSent (b : Block) (l : LaneRef) : Block :=
  (b.mReg l fun r => { r with featAdv := (b.helloOf l).feat, ackTx := r.ackTx || r.helloSeen }).emit
    (.frame l 0 false ⟨0, true, b.epochOf (laneUnit l), .hello (b.helloOf l)⟩)

theorem Block.helloSend_negotiating (hst : (b.lane l).reg.state = .negotiating) :
    b.helloSend l = (b.helloSent l).tryUp l := by
  have h : (b.mReg l fun r => { r with featAdv := (b.helloOf l).feat, ackTx := r.ackTx || (b.helloOf l).ack }) =
      b.mReg l fun r => { r with featAdv := (b.helloOf l).feat, ackTx := r.ackTx || r.helloSeen } :=
    mReg_congr _ _ _ _ rfl
  simp only [Block.helloSend, hst, ne_eq, not_true_eq_false, if_false, h, Block.helloSent]

theorem Block.helloSend_other (hst : (b.lane l).reg.state ≠ .negotiating) : b.helloSend l = b := if_pos hst

theorem Block.helloSend_incomplete (hst : (b.lane l).reg.state = .negotiating)
    (h : ((b.lane l).reg.ackRx && ((b.lane l).reg.ackTx || (b.lane l).reg.helloSeen)) = false) :
    b.helloSend l = b.helloSent l := by
  rw [Block.helloSend_negotiating hst, Block.tryUp_no (by simpa [Block.helloSent] using h)]

theorem Block.helloSend_complete (hst : (b.lane l).reg.state = .negotiating)
    (h : ((b.lane l).reg.ackRx && ((b.lane l).reg.ackTx || (b.lane l).reg.helloSeen)) = true) :
    b.helloSend l = (b.helloSent l).goUp l := by
  obtain ⟨hrx, htx⟩ := Bool.and_eq_true_iff.1 h
  rw [Block.helloSend_negotiating hst, Block.tryUp_yes] <;> simp [Block.helloSent, hst, hrx, htx]

/-- What a HELLO says of the partner is taken (R64, R69). -/
def Block.tookHello (b : Block) (l : LaneRef) (h : Hdr) (p : Hello) : Block :=
  (b.corrected l h.corr).mReg l fun r => { r with
    verPartner := p.ver, featPartner := p.feat, peerPos := p.pos, peerPlane := p.plane, peerRole := p.role
    peerUnit := p.unitId, posValid := true }

@[simp] theorem roleOf_mReg (b : Block) (l : LaneRef) (f : LaneReg → LaneReg) (u : UnitRef) :
    (b.mReg l f).roleOf u = b.roleOf u := by
  cases u with
  | tsu => rfl
  | dist => exact dRole_mReg b l f

@[simp] theorem roleOf_corrected (b : Block) (l : LaneRef) (k : Nat) (u : UnitRef) :
    (b.corrected l k).roleOf u = b.roleOf u := by
  cases u with
  | tsu => rfl
  | dist => simp only [Block.roleOf, Block.dRole, (corrected_same b l k).dcat]

theorem Block.tookHello_reg (b : Block) (l : LaneRef) (h : Hdr) (p : Hello) :
    ((b.tookHello l h p).lane l).reg = { (b.lane l).reg with
      verPartner := p.ver, featPartner := p.feat, peerPos := p.pos, peerPlane := p.plane, peerRole := p.role
      peerUnit := p.unitId, posValid := true } := by
  simp [Block.tookHello, corrected_reg]

/-- A well-formed HELLO on a lane that negotiates. -/
theorem Block.helloRx_negotiating {h : Hdr} {p : Hello} (hst : (b.lane l).reg.state = .negotiating) (hfmt : h.fmt = 1)
    (hcls : h.cls = 0) :
    b.helloRx l h p =
      if p.ver.toNat < 0x100 ∨ p.role.toNat = b.roleOf (laneUnit l) then (b.tookHello l h p).negFail l
      else ((b.tookHello l h p).mReg l fun r => { r with helloSeen := true, ackRx := r.ackRx || p.ack }).tryUp l := by
  have hrole : (b.tookHello l h p).roleOf (laneUnit l) = b.roleOf (laneUnit l) := by simp [Block.tookHello]
  rw [← hrole]
  simp [Block.helloRx, hst, hfmt, hcls, Block.tookHello]

theorem Block.helloRx_refused {h : Hdr} {p : Hello} (hst : (b.lane l).reg.state = .negotiating) (hfmt : h.fmt = 1)
    (hcls : h.cls = 0) (hbad : p.ver.toNat < 0x100 ∨ p.role.toNat = b.roleOf (laneUnit l)) :
    b.helloRx l h p = (b.tookHello l h p).negFail l := by
  rw [Block.helloRx_negotiating hst hfmt hcls, if_pos hbad]

theorem Block.helloRx_incomplete {h : Hdr} {p : Hello} (hst : (b.lane l).reg.state = .negotiating) (hfmt : h.fmt = 1)
    (hcls : h.cls = 0) (hver : 0x100 ≤ p.ver.toNat) (hrole : p.role.toNat ≠ b.roleOf (laneUnit l))
    (hack : (((b.lane l).reg.ackRx || p.ack) && (b.lane l).reg.ackTx) = false) :
    b.helloRx l h p = (b.tookHello l h p).mReg l fun r => { r with helloSeen := true, ackRx := r.ackRx || p.ack } := by
  rw [Block.helloRx_negotiating hst hfmt hcls, if_neg (by omega), Block.tryUp_no]
  simpa [Block.tookHello_reg] using hack

theorem Block.helloRx_complete {h : Hdr} {p : Hello} (hst : (b.lane l).reg.state = .negotiating) (hfmt : h.fmt = 1)
    (hcls : h.cls = 0) (hver : 0x100 ≤ p.ver.toNat) (hrole : p.role.toNat ≠ b.roleOf (laneUnit l))
    (hack : (((b.lane l).reg.ackRx || p.ack) && (b.lane l).reg.ackTx) = true) :
    b.helloRx l h p =
      ((b.tookHello l h p).mReg l fun r => { r with helloSeen := true, ackRx := r.ackRx || p.ack }).goUp l := by
  obtain ⟨hrx, htx⟩ := Bool.and_eq_true_iff.1 hack
  rw [Block.helloRx_negotiating hst hfmt hcls, if_neg (by omega), Block.tryUp_yes] <;>
    simp [Block.tookHello_reg, hst, hrx, htx]

theorem Block.helloRx_other {h : Hdr} {p : Hello} (hst : (b.lane l).reg.state ≠ .negotiating) :
    b.helloRx l h p = b := if_pos hst

end

/-! ### Loss of UP: the lane itself -/

/-- `c` is `b` but for the servo and the time of the TSU. -/
def ServoTimeOnly (b c : Block) : Prop := ∃ servo time, c = { b with tsu := { b.tsu with servo := servo, time := time } }

section
variable {b c : Block}

theorem ServoTimeOnly.refl (b : Block) : ServoTimeOnly b b := ⟨_, _, rfl⟩

theorem ServoTimeOnly.mServo (h : ServoTimeOnly b c) (f : Servo → Servo) : ServoTimeOnly b (c.mServo .tsu f) := by
  obtain ⟨servo, time, rfl⟩ := h
  exact ⟨_, _, rfl⟩

theorem ServoTimeOnly.mTime (h : ServoTimeOnly b c) (f : TimeSt → TimeSt) : ServoTimeOnly b (c.mTime .tsu f) := by
  obtain ⟨servo, time, rfl⟩ := h
  exact ⟨_, _, rfl⟩

theorem ServoTimeOnly.measure (h : ServoTimeOnly b c) : ServoTimeOnly b (c.measure .tsu) := by
  rw [Block.measure]
  exact h.mServo _

theorem ServoTimeOnly.loseLock (h : ServoTimeOnly b c) : ServoTimeOnly b (c.loseLock .tsu) := (h.mServo _).mTime _

theorem ServoTimeOnly.enterHold (h : ServoTimeOnly b c) : ServoTimeOnly b (c.enterHold .tsu) := (h.mServo _).loseLock

theorem ServoTimeOnly.switchTo (h : ServoTimeOnly b c) (q : Plane) : ServoTimeOnly b (c.switchTo q) := by
  rw [Block.switchTo]
  exact (h.mServo _).mTime _

/-- The rules of selection change the servo and the time of the TSU only (R83 to R88). -/
theorem ServoTimeOnly.reselect (h : ServoTimeOnly b c) : ServoTimeOnly b c.reselect := by
  have hk : ServoTimeOnly b c.wtrKeep := by
    rw [Block.wtrKeep]
    exact h.mServo _
  rw [Block.reselect]
  generalize c.wtrKeep = k at hk
  dsimp only
  split
  case isTrue => exact hk
  case isFalse =>
    split
    case h_1 => exact hk
    case h_2 => exact hk
    case h_3 =>
      split
      · exact (hk.mTime _).measure
      · exact hk
    case h_4 =>
      split
      · split
        · exact (hk.mTime _).mServo _
        · exact hk
      · split
        · split
          · exact hk.switchTo _
          · exact hk
        · split
          · exact hk
          · exact hk.enterHold

theorem ServoTimeOnly.promise (h : ServoTimeOnly b c) : ServoTimeOnly b c.promise := h.mTime _

theorem ServoTimeOnly.lane (h : ServoTimeOnly b c) (m : LaneRef) : c.lane m = b.lane m := by
  obtain ⟨servo, time, rfl⟩ := h
  rcases m with (_ | _) | _ <;> rfl

theorem ServoTimeOnly.dist (h : ServoTimeOnly b c) : c.dist = b.dist := by
  obtain ⟨servo, time, rfl⟩ := h
  rfl

end

section
variable (b : Block) (m : LaneRef)

theorem loseLock_lane (u : UnitRef) : (b.loseLock u).lane m = b.lane m := by
  rw [Block.loseLock, lane_mTime, lane_mServo]

theorem enterHold_lane (u : UnitRef) : (b.enterHold u).lane m = b.lane m := by
  rw [Block.enterHold, loseLock_lane, lane_mServo]

theorem distLoss_lane : b.distLoss.lane m = b.lane m := by
  unfold Block.distLoss
  split
  · rfl
  · split
    · rfl
    · split
      · rfl
      · exact enterHold_lane b m .dist

theorem servoLoss_lane (l : LaneRef) : (b.servoLoss l).lane m = b.lane m := by
  cases l with
  | tsu p => exact (ServoTimeOnly.refl b).reselect.promise.lane m
  | dist n =>
    simp only [Block.servoLoss]
    split
    · rfl
    · exact distLoss_lane b m

end

/-! ### A retrain from UP (R48, R63, R69) -/

section
variable {b : Block} {l : LaneRef}

/-- The topology check leaves all of a lane but its result. -/
theorem tsuTopo_lane (b : Block) (p : Plane) : ∃ res why, b.tsuTopo.lane (.tsu p) =
    { b.lane (.tsu p) with reg := { (b.lane (.tsu p)).reg with topoRes := res, topoReason := why } } := by
  cases p <;> exact ⟨_, _, rfl⟩

/-- A lane that leaves UP, its topology result apart. -/
theorem Block.leave_up (hup : b.up l = true) (st : LaneSt) : ∃ res why, (b.leave l st).lane l =
    { (b.lane l).leaveUp with
      reg := { (b.lane l).leaveUp.reg with state := st, topoRes := res, topoReason := why } } := by
  unfold Block.leave
  simp only [hup, if_true, Bool.not_true, Bool.false_eq_true, if_false, servoLoss_lane]
  cases l with
  | tsu p =>
    obtain ⟨res, why, h⟩ := tsuTopo_lane (b.mLane (.tsu p) fun x =>
      { x.leaveUp with reg := { x.leaveUp.reg with state := st } }) p
    exact ⟨res, why, by rw [h, lane_mLane_self]⟩
  | dist n => exact ⟨_, _, by rw [lane_mDBoot, lane_mLane_self]⟩

/-- Starting to train leaves all of a lane but where its training stands. -/
theorem Block.startTrain_lane (b : Block) (l : LaneRef) : ∃ st full bo req, (b.startTrain l).lane l =
    { b.lane l with reg := { (b.lane l).reg with
      state := st, fullTrain := full, backoff := bo, retrainReq := req } } := by
  unfold Block.startTrain
  dsimp only
  split
  · exact ⟨_, _, _, _, lane_mLane_self b l _⟩
  · exact ⟨_, _, _, _, lane_mReg_self b l _⟩

theorem Block.retrainLane_up (hup : b.up l = true) :
    ((b.retrainLane l).lane l).reg.refLost = (b.lane l).reg.refLost ∧
      ((b.retrainLane l).lane l).reg.refined = false ∧ ((b.retrainLane l).lane l).reg.tvRx = false ∧
      ((b.retrainLane l).lane l).link.cnt.retrain = sat1 (b.lane l).link.cnt.retrain := by
  unfold Block.retrainLane
  obtain ⟨res, why, hleave⟩ := Block.leave_up hup .training
  obtain ⟨st, full, bo, req, htrain⟩ := Block.startTrain_lane
    ((((b.leave l .training).mCnt l fun c => { c with retrain := sat1 c.retrain })).bucket (laneChan l) 3 1) l
  simp only [htrain, bucket_lane, lane_mCnt_self, hleave]
  exact ⟨rfl, rfl, rfl, rfl⟩

end

/-! ### The commands -/

section
variable {l : LaneRef} {s : State}

theorem exec_cdrLockLoss_idle (hl : l.ok = true) (h : (s.blk.lane l).reg.state = .down ∨
    (s.blk.lane l).reg.state = .training ∨ (s.blk.lane l).reg.state = .listen) :
    exec (.cdrLockLoss l) s = .next s :=
  exec_of_runLane hl rfl (by rcases h with h | h | h <;> simp only [h])

theorem exec_cdrLockLoss_running (hl : l.ok = true) (h : (s.blk.lane l).reg.state = .aligning ∨
    (s.blk.lane l).reg.state = .negotiating ∨ (s.blk.lane l).reg.state = .up) :
    exec (.cdrLockLoss l) s =
      .next { s with blk := (s.blk.mReg l fun r => { r with refLost := true }).retrainLane l } :=
  exec_of_runLane hl rfl (by rcases h with h | h | h <;> simp only [h])

/-- Loss of CDR lock on a lane that is UP (R48). -/
theorem exec_cdrLockLoss_up (hl : l.ok = true) (h : (s.blk.lane l).reg.state = .up) :
    ∃ t, exec (.cdrLockLoss l) s = .next t ∧ (t.blk.lane l).reg.refLost = true ∧
      (t.blk.lane l).reg.refined = false ∧ (t.blk.lane l).reg.tvRx = false ∧
      (t.blk.lane l).link.cnt.retrain = sat1 (s.blk.lane l).link.cnt.retrain ∧ t.pending = s.pending := by
  have hup : (s.blk.mReg l fun r => { r with refLost := true }).up l = true := by simp [Block.up, h]
  obtain ⟨hlost, hrefined, htv, hcnt⟩ := Block.retrainLane_up hup
  refine ⟨_, exec_cdrLockLoss_running hl (.inr (.inr h)), ?_, hrefined, htv, ?_, rfl⟩
  · rw [hlost, lane_mReg_self]
  · rw [hcnt, lane_mReg_self]

/-- TRAINING_TIMEOUT matters while the lane is on its way to UP and does not wait (R397). -/
theorem exec_trainingTimeout (hl : l.ok = true) (h : (s.blk.lane l).reg.state = .training ∨
    (s.blk.lane l).reg.state = .aligning ∨ (s.blk.lane l).reg.state = .negotiating)
    (hbo : (s.blk.lane l).reg.backoff = false) :
    exec (.trainingTimeout l) s = .next { s with blk := s.blk.startFailed l } :=
  exec_of_runLane hl rfl (by rcases h with h | h | h <;> simp [h, hbo])

theorem exec_trainingTimeout_waiting (hl : l.ok = true) (hbo : (s.blk.lane l).reg.backoff = true) :
    exec (.trainingTimeout l) s = .next s :=
  exec_of_runLane hl rfl (by simp only [hbo, if_true]; split <;> rfl)

theorem exec_codewordLock_aligning (hl : l.ok = true) (h : (s.blk.lane l).reg.state = .aligning) :
    exec (.codewordLock l) s = .next { s with blk := s.blk.mReg l fun r => { r with
      state := .negotiating, helloSeen := false, ackRx := false, ackTx := false } } :=
  exec_of_runLane hl rfl (mReg_congr _ _ _ _ (if_pos h))

theorem exec_codewordLock_other (hl : l.ok = true) (h : (s.blk.lane l).reg.state ≠ .aligning) :
    exec (.codewordLock l) s = .next { s with blk := s.blk.mReg l id } :=
  exec_of_runLane hl rfl (mReg_congr _ _ _ _ (if_neg h))

theorem exec_retrainBackoffExpire (hl : l.ok = true) :
    exec (.retrainBackoffExpire l) s =
      .next { s with blk := if (s.blk.lane l).reg.backoff then s.blk.retrainLane l else s.blk } :=
  exec_of_runLane hl rfl rfl

end

/-! ### Listening (R456) -/

section
variable {n : Nat} {s : State}

theorem exec_portListen_idle (hn : n < 312)
    (h : 288 ≤ n ∨ (s.blk.lane (.dist n)).reg.state = .down ∨ (s.blk.lane (.dist n)).reg.state = .listen) :
    exec (.portListen n) s = .next s :=
  exec_of_runLane (l := .dist n) (by simpa [LaneRef.ok] using hn) rfl (if_pos (by simpa [or_assoc] using h))

theorem exec_portListen_notUp (hn : n < 288) (hd : (s.blk.lane (.dist n)).reg.state ≠ .down)
    (hl : (s.blk.lane (.dist n)).reg.state ≠ .listen) (hup : (s.blk.lane (.dist n)).reg.state ≠ .up) :
    exec (.portListen n) s = .next { s with blk := s.blk.mReg (.dist n) fun r => { r with
      state := .listen, backoff := false, failStarts := 0, retrainReq := false } } := by
  refine exec_of_runLane (l := .dist n) (by simp only [LaneRef.ok, decide_eq_true_eq]; omega) rfl ?_
  rw [if_neg (by simp [hd, hl, hn]), leave_notUp _ _ _ hup, mReg_mReg]

theorem exec_portEnergyDetect (hn : n < 312) :
    exec (.portEnergyDetect n) s = .next { s with blk := s.blk.wakePort n } :=
  exec_of_runLane (l := .dist n) (by simpa [LaneRef.ok] using hn) rfl rfl

theorem Block.wakePort_other {b : Block} (h : (b.lane (.dist n)).reg.state ≠ .listen) : b.wakePort n = b := if_neg h

theorem Block.wakePort_listen {b : Block} (h : (b.lane (.dist n)).reg.state = .listen)
    (hcan : b.canTrain (.dist n) = true) :
    b.wakePort n = b.mReg (.dist n) fun r => { r with
      state := .training, backoff := false, fullTrain := !r.fastStart || allZero (b.eqSaved (.dist n)) } := by
  rw [Block.wakePort, if_pos h, startTrain_yes _ _ hcan]

end

/-- Settles O29: the register commands by what enable, disable and retrain do, the events by their lemmas above, one for
each state the lane may be in. -/
theorem laneStates : Obligations.LaneStates := by
  unfold Obligations.LaneStates
  refine ⟨fun a l s hp => ?registers, fun l s hl => ?events, fun n s hn => ?ports, ?missing⟩
  case registers =>
    refine ⟨fun hs => exec_of_laneCmd hp rfl (Block.laneEnable_shutting hs),
      fun hs he => exec_of_laneCmd hp rfl (Block.laneEnable_enabled hs he), ?_, ?_,
      fun he => exec_of_laneCmd hp rfl (Block.laneDisable_disabled he), ?_, ?_,
      fun hst => exec_of_laneCmd hp rfl (Block.retrainWrite_idle hst),
      fun hd hl => exec_of_laneCmd hp rfl (Block.retrainWrite_running hd hl), exec_of_laneCmd hp rfl rfl⟩
    · rintro p rfl hs he hlive hon hent hmit
      exact exec_of_laneCmd hp rfl (Block.laneEnable_tsu hs he hlive hon hent hmit)
    · rintro n rfl hs he hpow hbad hcage hrole
      exact exec_of_laneCmd hp rfl (Block.laneEnable_dist hs he hpow hbad hcage hrole)
    · rintro p rfl he hup
      exact exec_of_laneCmd hp rfl (Block.laneDisable_tsu he hup)
    · rintro n rfl he hup
      exact exec_of_laneCmd hp rfl (Block.laneDisable_dist he hup)
  case events =>
    refine ⟨fun hs => exec_of_runLane hl rfl (Block.laneShut_idle hs),
      fun hs hpend => exec_of_runLane hl rfl ?shut, fun hs hpend => exec_of_runLane hl rfl ?shutEnable,
      fun eye st hst hbo =>
        ⟨fun hfull heye => exec_of_runLane hl rfl (Block.trained_fallsBack hst hbo hfull heye),
          fun hgood => exec_of_runLane hl rfl (Block.trained_aligns hst hbo hgood)⟩,
      exec_codewordLock_aligning hl, exec_codewordLock_other hl,
      fun hst hbo => ⟨fun hf => ?timeoutWaits, fun hf => ?timeoutAgain⟩,
      exec_trainingTimeout_waiting hl, fun hbo => ?expire, fun hbo => ?noExpire,
      fun hst hf => exec_of_runLane hl rfl (Block.negFail_waits hst hf),
      fun hst hf => exec_of_runLane hl rfl (Block.negFail_again hst hf),
      fun hst => exec_of_runLane hl rfl (Block.negFail_other hst),
      exec_cdrLockLoss_idle hl, exec_cdrLockLoss_running hl,
      fun hst h => exec_of_runLane hl rfl (Block.helloSend_incomplete hst h),
      fun hst h => exec_of_runLane hl rfl (Block.helloSend_complete hst h),
      fun hst => exec_of_runLane hl rfl (Block.helloSend_other hst),
      fun h p hst hfmt hcls =>
        ⟨fun hbad => exec_of_runLane hl rfl (Block.helloRx_refused hst hfmt hcls hbad),
          fun hver hrole hack => exec_of_runLane hl rfl (Block.helloRx_incomplete hst hfmt hcls hver hrole hack),
          fun hver hrole hack => exec_of_runLane hl rfl (Block.helloRx_complete hst hfmt hcls hver hrole hack)⟩,
      fun h p hst => exec_of_runLane hl rfl (Block.helloRx_other hst), exec_cdrLockLoss_up hl⟩
    case shut => rw [Block.laneShut_shutting hs]; exact if_neg (by simp [hpend])
    case shutEnable => rw [Block.laneShut_shutting hs]; exact if_pos hpend
    case timeoutWaits =>
      rw [exec_trainingTimeout hl hst hbo, Block.startFailed_waits (by rcases hst with h | h | h <;> simp [h]) hf]
    case timeoutAgain =>
      rw [exec_trainingTimeout hl hst hbo, Block.startFailed_again (by rcases hst with h | h | h <;> simp [h]) hf]
    case expire => rw [exec_retrainBackoffExpire hl, if_pos hbo]
    case noExpire => rw [exec_retrainBackoffExpire hl, if_neg (by simp [hbo])]
  case ports =>
    refine ⟨exec_portListen_idle hn, exec_portListen_notUp, fun hst => ?_, fun hst hcan => ?_⟩
    · rw [exec_portEnergyDetect hn, Block.wakePort_other hst]
    · rw [exec_portEnergyDetect hn, Block.wakePort_listen hst hcan]
  case missing =>
    intro n a x tm h p eye st s hn c hc
    simp only [List.mem_cons, List.not_mem_nil, or_false] at hc
    rcases hc with rfl | rfl | rfl | rfl | rfl | rfl | rfl | rfl | rfl | rfl | rfl | rfl | rfl | rfl | rfl | rfl | rfl
    all_goals exact State.runLane_missing _ s hn

end Sys2Proof.Machine
end

section
/-! SUPPORT. Corrupted frames and LINKCTL (R45, R46, R48, R445, R448). -/

namespace Sys2Proof.Machine

open Sys2Proof

/-! ### Corrupted frames (R45, R46, R48) -/

theorem satAdd_zero {w : Nat} (x : BitVec w) : satAdd x 0 = x := by
  simp [satAdd, x.isLt]

theorem Tick.diff_self (t : Tick) : Tick.diff t t = 0 := by simp [Tick.diff]

/-- The uncorrectable codewords that count against a lane after `n` more at tick `now` (R48). -/
def LaneLink.uncsAfter (k : LaneLink) (now : Tick) (n : Nat) : List (Tick × Nat) :=
  (if n = 0 then k.uncs else (now, n) :: k.uncs).filter fun u => decide (Tick.diff now u.1 < 2 ^ 20)

/-- Those that come now count. -/
theorem LaneLink.uncsAfter_some (k : LaneLink) (now : Tick) {n : Nat} (h : 1 ≤ n) :
    k.uncsAfter now n = (now, n) :: k.uncs.filter fun u => decide (Tick.diff now u.1 < 2 ^ 20) := by
  rw [LaneLink.uncsAfter, if_neg (by omega), List.filter_cons_of_pos (by simp [Tick.diff_self])]

/-- The uncorrectable codewords of a dropped frame. -/
def errWords : FrameErr → Nat
  | .unc n => n
  | .crc => 0

@[simp] theorem errWords_unc (n : Nat) : errWords (.unc n) = n := rfl

@[simp] theorem errWords_crc : errWords .crc = 0 := rfl

/-- What a dropped frame leaves of the link: it is counted, and unless it was a TIME frame, what follows it is dropped and
a NAK is due (R45, R46). -/
def LaneLink.dropped (x : LaneLink) (now : Tick) (e : FrameErr) (time : Bool) : LaneLink :=
  { x with
    cnt := { x.cnt with
      fecUnc := satAdd x.cnt.fecUnc (errWords e)
      crcErr := if e = .crc then sat1 x.cnt.crcErr else x.cnt.crcErr
      syncDrop := if time then sat1 x.cnt.syncDrop else x.cnt.syncDrop }
    rxDiscard := x.rxDiscard || !time
    nakDue := x.nakDue || !time
    uncs := x.uncsAfter now (errWords e) }

section
variable {b : Block} {l : LaneRef} {e : FrameErr} {time : Bool}

theorem Block.corrupt_notUp (hup : b.up l = false) : b.corrupt l e time = b := by simp [Block.corrupt, hup]

/-- A dropped frame is counted, and more than 16 codewords within the window retrain the lane. -/
theorem Block.corrupt_up (hup : b.up l = true) :
    b.corrupt l e time =
      if 16 < ((b.lane l).link.uncsAfter (b.tcOf (laneUnit l)) (errWords e)).foldl (fun n u => n + u.2) 0 then
        (b.mLink l fun x => x.dropped (b.tcOf (laneUnit l)) e time).retrainLane l
      else b.mLink l fun x => x.dropped (b.tcOf (laneUnit l)) e time := by
  unfold Block.corrupt
  cases e
  all_goals
    simp only [hup, Bool.not_true, Bool.false_eq_true, if_false, lane_mLink_self]
    rfl

/-- A frame whose CRC failed, where the codewords of the window stand as they were. -/
theorem Block.corrupt_crc (hup : b.up l = true)
    (hold : ((b.lane l).link.uncs.filter fun u => decide (Tick.diff (b.tcOf (laneUnit l)) u.1 < 2 ^ 20)) =
      (b.lane l).link.uncs)
    (hfew : (b.lane l).link.uncs.foldl (fun n u => n + u.2) 0 ≤ 16) :
    b.corrupt l .crc time = b.mLink l fun x => { x with
      cnt := { x.cnt with
        crcErr := sat1 x.cnt.crcErr, syncDrop := if time then sat1 x.cnt.syncDrop else x.cnt.syncDrop }
      rxDiscard := x.rxDiscard || !time, nakDue := x.nakDue || !time } := by
  have huncs : (b.lane l).link.uncsAfter (b.tcOf (laneUnit l)) (errWords .crc) = (b.lane l).link.uncs := hold
  rw [Block.corrupt_up hup, huncs, if_neg (by omega)]
  refine mLink_congr b l ?_
  rw [LaneLink.dropped, huncs]
  simp only [errWords_crc, satAdd_zero, if_true]

/-- A frame with uncorrectable codewords, on the lane's link. -/
theorem Block.mLink_dropped_unc {n : Nat} (hn : 1 ≤ n) :
    (b.mLink l fun x => x.dropped (b.tcOf (laneUnit l)) (.unc n) time) = b.mLink l fun x => { x with
      cnt := { x.cnt with
        fecUnc := satAdd x.cnt.fecUnc n, syncDrop := if time then sat1 x.cnt.syncDrop else x.cnt.syncDrop }
      rxDiscard := x.rxDiscard || !time, nakDue := x.nakDue || !time
      uncs := (b.tcOf (laneUnit l), n) ::
        (b.lane l).link.uncs.filter fun u => decide (Tick.diff (b.tcOf (laneUnit l)) u.1 < 2 ^ 20) } := by
  refine mLink_congr b l ?_
  rw [LaneLink.dropped, errWords_unc, LaneLink.uncsAfter_some _ _ hn, if_neg (by simp)]

end

/-! ### LINKCTL (R46, R48, R445, R448) -/

section
variable {b : Block} {l : LaneRef} {p : LinkCtl}

theorem Block.linkctlSend_notUp (hup : b.up l = false) : b.linkctlSend l = b := by simp [Block.linkctlSend, hup]

theorem Block.linkctlSend_up (hup : b.up l = true) :
    b.linkctlSend l = (b.mLink l fun k => { k with nakDue := false }).send l true
      (.linkctl ⟨(b.lane l).link.rxSeq - 1, (b.lane l).link.nakDue, (b.lane l).link.granted,
        (b.lane l).link.bypTx⟩) := by
  simp [Block.linkctlSend, hup]

/-- The symbols corrected change nothing of the lane but their count. -/
theorem corrected_lane (b : Block) (l : LaneRef) (k : Nat) :
    (b.corrected l k).lane l = { b.lane l with link := { (b.lane l).link with
      cnt := { (b.lane l).link.cnt with fecCorr := satAdd (b.lane l).link.cnt.fecCorr k } } } := by
  rw [Block.corrected, bucket_lane, lane_mCnt_self]

theorem rxBook_time_replay (b : Block) (l : LaneRef) (h : Hdr) :
    ((b.rxBook l h 0).lane l).link.replay = (b.lane l).link.replay :=
  congrArg (·.link.replay) (corrected_lane b l h.corr)

/-- Frames that leave change no lane. -/
theorem emitAll_lane (b : Block) (m : LaneRef) (ss : List Sent) (o : Sent → Out) :
    (ss.foldl (fun b s => b.emit (o s)) b).lane m = b.lane m := by
  induction ss generalizing b with
  | nil => rfl
  | cons s ss ih => rw [List.foldl_cons, ih, lane_emit]

/-- Each frame sent again has been tried once more (R48). -/
theorem resend_replay (b : Block) (l : LaneRef) :
    ((b.resend l).lane l).link.replay = (b.lane l).link.replay.map fun s => { s with tries := s.tries + 1 } := by
  simp only [Block.resend, bucket_lane, emitAll_lane, lane_mLink_self]

/-- What LINKCTL tells of the partner's receipt, credits and bypass is taken. -/
def Block.tookLinkctl (b : Block) (l : LaneRef) (p : LinkCtl) : Block :=
  b.mLink l fun k => { k with
    replay := ackTo p.ack k.replay, bypRx := p.byp
    credTx := ⟨p.cred.getD 0 0, p.cred.getD 1 0, p.cred.getD 2 0, p.cred.getD 3 0, p.cred.getD 4 0⟩ }

theorem tookLinkctl_replay (b : Block) (l : LaneRef) (p : LinkCtl) :
    ((b.tookLinkctl l p).lane l).link.replay = ackTo p.ack (b.lane l).link.replay := by
  rw [Block.tookLinkctl, lane_mLink_self]

/-- With NAK the replay buffer is sent again; a frame tried 8 times retrains the lane. -/
theorem Block.linkctlRx_eq (b : Block) (l : LaneRef) (p : LinkCtl) :
    b.linkctlRx l p =
      let c := if p.nak then (b.tookLinkctl l p).resend l else b.tookLinkctl l p
      if (c.lane l).link.replay.any fun s => 8 ≤ s.tries then c.retrainLane l else Block.pump l 64 c := rfl

theorem Block.linkctlRx_ack (hnak : p.nak = false) (htries : ∀ e ∈ ackTo p.ack (b.lane l).link.replay, e.tries < 8) :
    b.linkctlRx l p = Block.pump l 64 (b.tookLinkctl l p) := by
  simp only [Block.linkctlRx_eq, hnak, Bool.false_eq_true, if_false]
  exact if_neg (by simpa [tookLinkctl_replay] using htries)

theorem Block.linkctlRx_nak (hnak : p.nak = true) :
    b.linkctlRx l p =
      if ∃ e ∈ ackTo p.ack (b.lane l).link.replay, 7 ≤ e.tries then ((b.tookLinkctl l p).resend l).retrainLane l
      else Block.pump l 64 ((b.tookLinkctl l p).resend l) := by
  simp only [Block.linkctlRx_eq, hnak, if_true]
  exact if_congr (by simp [resend_replay, tookLinkctl_replay]) rfl rfl

end

section
variable {l : LaneRef} {h : Hdr} {p : LinkCtl} {s : State}

/-- A LINKCTL that passes every check. -/
theorem exec_linkctlReceive (hl : l.ok = true) (hok : s.blk.rxOk l h 0 0 false = true) :
    exec (.linkctlReceive l h p) s = .next { s with blk := (s.blk.rxBook l h 0).linkctlRx l p } :=
  exec_of_runLane hl rfl (rx_ok _ _ _ _ _ _ _ hok)

end

/-- Settles O30: a dropped frame by `Block.corrupt_up`, a LINKCTL by how often the frames of the replay buffer have been
tried. -/
theorem linkControl : Obligations.LinkControl := by
  unfold Obligations.LinkControl
  intro l s hl b k now
  refine ⟨fun hup => ⟨exec_of_runLane hl rfl (Block.linkctlSend_notUp hup),
      fun e t => exec_of_runLane hl rfl (Block.corrupt_notUp hup)⟩,
    fun t hup hold hfew => exec_of_runLane hl rfl (Block.corrupt_crc hup hold hfew),
    fun n t hn hup => ⟨fun hfew => exec_of_runLane hl rfl ?few, fun hmany => exec_of_runLane hl rfl ?many⟩,
    fun hup => exec_of_runLane hl rfl (Block.linkctlSend_up hup), fun h p hok => ?received⟩
  case few =>
    rw [Block.corrupt_up hup, Block.mLink_dropped_unc hn, errWords_unc, LaneLink.uncsAfter_some _ _ hn]
    exact if_neg (Nat.not_lt.2 hfew)
  case many =>
    rw [Block.corrupt_up hup, Block.mLink_dropped_unc hn, errWords_unc, LaneLink.uncsAfter_some _ _ hn]
    exact if_pos hmany
  case received =>
    have hreplay := rxBook_time_replay s.blk l h
    rw [exec_linkctlReceive hl hok]
    refine ⟨fun hnak htries => ?_, fun hnak htries => ?_, fun hnak htries => ?_⟩
    · rw [Block.linkctlRx_ack hnak (by rwa [hreplay])]
      rfl
    · rw [Block.linkctlRx_nak hnak, hreplay, if_neg (by simpa using htries)]
      rfl
    · rw [Block.linkctlRx_nak hnak, hreplay, if_pos htries]
      rfl

end Sys2Proof.Machine
end

section
/-! SUPPORT. The sync exchange (R49 to R57, R61, R91, R92): what is sent, what a received frame completes, and loss of
sync. -/

namespace Sys2Proof.Machine

open Sys2Proof

/-! ### A servo at the TSU leaves the distributor alone -/

section
variable (b : Block)

theorem stepDue_tsu_dist (ts : List Int) : (b.stepDue .tsu ts).dist = b.dist := by
  unfold Block.stepDue
  split <;> rfl

theorem measured_tsu_dist (th2 : Int) : (b.measured .tsu th2).dist = b.dist := by
  unfold Block.measured
  split <;> rfl

theorem lockCount_tsu_dist (th2 : Int) : (b.lockCount .tsu th2).dist = b.dist := by
  unfold Block.lockCount
  dsimp only
  split
  · split <;> rfl
  · split <;> rfl

theorem servoIn_tsu_dist (th2 : Int) (ts : List Int) : (b.servoIn .tsu th2 ts).dist = b.dist := by
  unfold Block.servoIn
  dsimp only
  split
  · exact stepDue_tsu_dist b ts
  · split
    case h_1 => rfl
    case h_2 => rfl
    case h_3 => rfl
    case h_4 =>
      split
      · split
        · exact measured_tsu_dist _ _
        · rfl
      · exact lockCount_tsu_dist _ _

theorem acquire_tsu_dist (p : Plane) (th2 : Int) : (b.acquire (.tsu p) th2).dist = b.dist := by
  unfold Block.acquire
  dsimp only
  split
  · rfl
  · split <;> rfl

end

/-- The filtered estimate of an accepted exchange, and Δ where both estimators are valid (R82). -/
def Block.estimates (b : Block) (p : Plane) : Block :=
  let c := b.draw.2.mSync (.tsu p) fun s => { s with est := (b.draw.1.setWidth 32).toInt }
  if c.estValid (.tsu .A) && c.estValid (.tsu .B) then
    c.draw.2.mServo .tsu fun s => { s with delta := c.draw.1.setWidth 32 }
  else c.mServo .tsu fun s => { s with delta := 0 }

/-- What an accepted exchange then does: before TIME_VALID it acquires, after it the loop takes it from the selected plane
(R79, R85). -/
def Block.exchangeIn (b : Block) (p : Plane) (th2 : Int) : Block :=
  if !b.timeOk then
    if b.acqPlane p == p then
      (b.mTime .tsu fun t => { t with selB := p == .B, epoch := ((match p with
        | .A => t.epochA | .B => t.epochB).getD t.epoch) }).acquire (.tsu p) th2
    else b
  else if p == b.reselect.selPlane then
    let w := b.reselect.tsu.servo.walkNow b.reselect.tc
    let c := b.reselect.mServo .tsu fun s => { s with walk := w, walkAt := b.reselect.tc }
    c.servoIn .tsu (th2 + Int.tdiv w 781250) (c.lane (.tsu p)).sync.th2s
  else b.reselect

theorem tsuExchange_eq (b : Block) (p : Plane) (th2 : Int) :
    b.tsuExchange p th2 = (b.estimates p).exchangeIn p th2 := rfl

theorem estimates_dist (b : Block) (p : Plane) : (b.estimates p).dist = b.dist := by
  unfold Block.estimates
  dsimp only
  split <;> simp

theorem exchangeIn_dist (b : Block) (p : Plane) (th2 : Int) : (b.exchangeIn p th2).dist = b.dist := by
  have hsel : b.reselect.dist = b.dist := (ServoTimeOnly.refl b).reselect.dist
  unfold Block.exchangeIn
  dsimp only
  split
  · split
    · exact acquire_tsu_dist _ p th2
    · rfl
  · split
    · exact (servoIn_tsu_dist _ _ _).trans hsel
    · exact hsel

theorem tsuExchange_dist (b : Block) (p : Plane) (th2 : Int) : (b.tsuExchange p th2).dist = b.dist := by
  rw [tsuExchange_eq, exchangeIn_dist, estimates_dist]

/-! ### Sending (R49, R50, R61, R91, R92) -/

section
variable {b : Block} {l : LaneRef} {n : Nat} {tx : Ts}

theorem Block.syncDown_idle (h : b.up (.dist n) = false ∨ b.sendsDown = false) : b.syncDown n tx = b := by
  rcases h with h | h <;> simp [Block.syncDown, h]

theorem Block.syncDown_up (hn : n < 288) (hup : b.up (.dist n) = true) (hdown : b.sendsDown = true) :
    b.syncDown n tx =
      ((b.send (.dist n) false (.sync { b.syncFrame (.dist n) false (b.lane (.dist n)).sync.sseqTx with
        pcal := b.pcalDown, pmv := b.dist.root.tieValid, pmean := b.dist.root.mean, epoch := b.dist.time.epoch
        servo := if (b.lane (.dist n)).reg.featEff.getLsbD 16 then b.servoDown else 0 })).sentAt (.dist n)
          (b.lane (.dist n)).sync.sseqTx tx).mSync (.dist n) fun y =>
            { y with sseqTx := (b.lane (.dist n)).sync.sseqTx + 1 } :=
  if_neg (by simp [hup, hdown, hn])

theorem Block.syncUp_idle (h : b.up l = false ∨ (b.lane l).sync.answer = false) : b.syncUp l tx = b := by
  rcases h with h | h <;> simp [Block.syncUp, h]

theorem Block.syncUp_up (hup : b.up l = true) (hans : (b.lane l).sync.answer = true) :
    b.syncUp l tx =
      ((b.send l false (.sync { b.syncFrame l true (b.lane l).sync.rxSeq with
        dsum := (b.sumsUp l).1, dcnt := (b.sumsUp l).2
        servo := if (b.lane l).reg.featEff.getLsbD 16 then putB 63 (b.xmstUp l) else 0 })).sentAt l
          (b.lane l).sync.rxSeq tx).mSync l fun y => { y with answer := false } :=
  if_neg (by simp [hup, hans])

/-! ### Loss of sync (R57, R69) -/

theorem Block.syncLoss_notUp (hup : b.up l = false) : b.syncLoss l = b := by simp [Block.syncLoss, hup]

/-- No frame came in the 16 periods either. -/
theorem Block.syncLoss_silent (hup : b.up l = true)
    (hsilent : 16 * 4096 ≤ Tick.diff (b.tcOf (laneUnit l)) (b.lane l).sync.lastRxAt) :
    b.syncLoss l = (b.mLane l fun x => { x with
      reg := { x.reg with syncLoss := true, pcalRx := false, tvRx := false, refined := false }
      sync := { x.sync with periods := List.replicate 16 false } }).servoLoss l := by
  simp only [Block.syncLoss, hup, Bool.not_true, Bool.false_eq_true, if_false]
  refine congrArg (·.servoLoss l) (mLane_congr b l ?_)
  simp only [hsilent, decide_true, Bool.not_true, Bool.and_false]

theorem Block.syncLoss_heard (hup : b.up l = true)
    (hheard : Tick.diff (b.tcOf (laneUnit l)) (b.lane l).sync.lastRxAt < 16 * 4096) :
    b.syncLoss l = (b.mLane l fun x => { x with
      reg := { x.reg with syncLoss := true }
      sync := { x.sync with periods := List.replicate 16 false } }).servoLoss l := by
  simp only [Block.syncLoss, hup, Bool.not_true, Bool.false_eq_true, if_false]
  refine congrArg (·.servoLoss l) (mLane_congr b l ?_)
  simp only [decide_eq_false (Int.not_le.2 hheard), Bool.not_false, Bool.and_true]

end

/-! ### A received sync frame -/

theorem tcOf_rxBook (b : Block) (l : LaneRef) (h : Hdr) (cls : Nat) (u : UnitRef) :
    (b.rxBook l h cls).tcOf u = b.tcOf u := by
  have same := rxBook_same b l h cls
  cases u with
  | tsu => rw [Block.tcOf, same.time]; rfl
  | dist => rw [Block.tcOf, same.dtime]; rfl

theorem dRole_rxBook (b : Block) (l : LaneRef) (h : Hdr) (cls : Nat) : (b.rxBook l h cls).dRole = b.dRole := by
  rw [Block.dRole, (rxBook_same b l h cls).dcat]; rfl

theorem Block.xmstFollow_notRoot {b : Block} (h : b.dRole ≠ 3) : b.xmstFollow = b := by simp [Block.xmstFollow, h]

theorem Block.rx_otherClass {b : Block} {l : LaneRef} {h : Hdr} {cls feat : Nat} {fence : Bool} {k : Block → Block}
    (hup : b.up l = true) (hgood : ¬(h.fmt ≠ 1 ∨ 7 ≤ h.cls.toNat)) (hcls : h.cls.toNat ≠ cls) :
    b.rx l h cls feat fence k = b.corrected l h.corr := by
  obtain ⟨hfmt, h7⟩ := not_or.1 hgood
  simp [Block.rx, hup, not_not.1 hfmt, h7, hcls]

/-- What becomes of a TIME frame depends on what acts on it only by the block that its receipt leaves. -/
theorem Block.rx_time_congr {b : Block} {l : LaneRef} {h : Hdr} {feat : Nat} {k k' : Block → Block}
    (hk : k (b.rxBook l h 0) = k' (b.rxBook l h 0)) : b.rx l h 0 feat false k = b.rx l h 0 feat false k' := by
  by_cases hup : b.up l = true
  · by_cases hbad : h.fmt ≠ 1 ∨ 7 ≤ h.cls.toNat
    · rw [Block.rx_badFormat hup hbad, Block.rx_badFormat hup hbad]
    · by_cases hcls : h.cls.toNat = 0
      · have hfmt : h.fmt = 1 := not_not.1 (not_or.1 hbad).1
        rw [Block.rx_wellFormed hup hfmt hcls (by decide), Block.rx_wellFormed hup hfmt hcls (by decide),
          show (b.rxBook l h 0).admitRx l 0 h.mepoch false = (true, b.rxBook l h 0) from rfl, hk]
      · rw [Block.rx_otherClass hup hbad hcls, Block.rx_otherClass hup hbad hcls]
  · rw [Bool.not_eq_true] at hup
    rw [Block.rx_notUp hup, Block.rx_notUp hup]

section
variable {b : Block} {l : LaneRef} {f : SyncFrame} {rx : Ts}

/-- A compressed frame is read as the extended one (R52). -/
theorem Block.syncRx_compressed (hcmp : f.cmp = true) :
    b.syncRx l f rx = b.syncRx l { f with
      cmp := false, txPrev := extendTs (b.tcOf (laneUnit l)) f.txPrev
      rxTs := extendTs (b.tcOf (laneUnit l)) f.rxTs } rx := by
  simp only [Block.syncRx, hcmp, if_true]
  rfl

end

theorem exec_syncFrameReceive (l : LaneRef) (h : Hdr) (f : SyncFrame) (rx : Ts) (s : State) (hl : l.ok = true) :
    exec (.syncFrameReceive l h f rx) s =
      .next { s with blk := s.blk.rx l h 0 0 false fun b => (b.syncRx l f rx).xmstFollow } :=
  exec_of_runLane hl rfl rfl

/-- A sync frame that passes every check, at a unit that is no root. -/
theorem exec_syncFrameReceive_ok {l : LaneRef} {h : Hdr} {f : SyncFrame} {rx : Ts} {s : State} {b' : Block}
    (hl : l.ok = true) (hok : s.blk.rxOk l h 0 0 false = true) (hrx : (s.blk.rxBook l h 0).syncRx l f rx = b')
    (hrole : b'.dRole ≠ 3) : exec (.syncFrameReceive l h f rx) s = .next { s with blk := b' } := by
  rw [exec_syncFrameReceive l h f rx s hl, rx_ok _ _ _ _ _ _ _ hok, hrx, Block.xmstFollow_notRoot hrole]

theorem dRole_mLane (b : Block) (l : LaneRef) (f : Lane → Lane) : (b.mLane l f).dRole = b.dRole := by
  match l with | .tsu .A => rfl | .tsu .B => rfl | .dist _ => rfl

theorem dRole_of_dist {b c : Block} (h : b.dist = c.dist) : b.dRole = c.dRole := by rw [Block.dRole, h]; rfl

/-! ### The exchange that a frame completes (R50, R56, R57) -/

theorem Lane.capture_eq (x : Lane) (t : Ts) :
    x.capture t = if x.sync.dllLock && t.fine != 0x3FF then some t else none := by
  cases h : x.sync.dllLock <;> simp [Lane.capture, tsSome, h]

theorem tsSome_present {t : Ts} (h : t.fine ≠ 0x3FF) : tsSome t = some t := if_neg h

theorem tsSome_absent {t : Ts} (h : t.fine = 0x3FF) : tsSome t = none := if_pos h

section
variable {x : Lane} {f : SyncFrame} {t1 t2 t3 t4 : Ts}

theorem Lane.childTimes_complete (hseq : f.sseq = x.sync.rxSeq + 1) (hrx : f.rxSeq = x.sync.rxSeq)
    (htx : x.sync.prevTxSeq = x.sync.rxSeq) (h1 : f.txPrev.fine ≠ 0x3FF) (h4 : f.rxTs.fine ≠ 0x3FF)
    (h2 : x.sync.rxTs = some t2) (h3 : x.sync.prevTx = some t3) :
    x.childTimes f = some (f.txPrev, t2, t3, f.rxTs) := by
  simp only [Lane.childTimes, hseq, hrx, htx, and_self, if_true, tsSome_present h1, tsSome_present h4, h2, h3]

theorem Lane.childTimes_incomplete (h : f.sseq ≠ x.sync.rxSeq + 1 ∨ f.rxSeq ≠ x.sync.rxSeq ∨
    x.sync.prevTxSeq ≠ x.sync.rxSeq ∨ f.txPrev.fine = 0x3FF ∨ f.rxTs.fine = 0x3FF ∨ x.sync.rxTs = none ∨
    x.sync.prevTx = none) : x.childTimes f = none := by
  unfold Lane.childTimes
  dsimp only
  split
  case isFalse => rfl
  case isTrue hseqs =>
    obtain ⟨hseq, hrx, htx⟩ := hseqs
    split
    case h_2 => rfl
    case h_1 h1 h2 h3 h4 =>
      -- every timestamp stands, so no case of `h` is left
      exfalso
      rcases h with h | h | h | h | h | h | h
      · exact h hseq
      · exact h hrx
      · exact h htx
      · simp [tsSome_absent h] at h1
      · simp [tsSome_absent h] at h4
      · simp [h] at h2
      · simp [h] at h3

theorem Lane.parentTimes_complete (hseq : f.sseq = x.sync.rxSeq + 1) (htx : x.sync.prevTxSeq = x.sync.rxSeq + 1)
    (h3 : f.txPrev.fine ≠ 0x3FF) (h1 : x.sync.prev2Tx = some t1) (h2 : x.sync.peerRx = some t2)
    (h4 : x.sync.rxTs = some t4) : x.parentTimes f = some (t1, t2, f.txPrev, t4) := by
  simp only [Lane.parentTimes, hseq, htx, and_self, if_true, tsSome_present h3, h1, h2, h4]

end

/-! ### A downward frame at a TSU -/

/-- What a TSU takes of a downward frame that came at tick `now` (R18, R51). -/
def Block.tookDown (b : Block) (p : Plane) (f : SyncFrame) (rx : Ts) (now : Tick) : Block :=
  (b.mLane (.tsu p) fun x =>
    x.takeFields f (if x.sync.dllLock && rx.fine != 0x3FF then some rx else none) now).takeEpoch (.tsu p) f

section
variable {b : Block} {p : Plane} {f : SyncFrame} {rx : Ts} {now : Tick}

theorem takeEpoch_tsu_lane (b : Block) (p : Plane) (f : SyncFrame) (m : LaneRef) :
    (b.takeEpoch (.tsu p) f).lane m = b.lane m := by
  cases p <;> exact (lane_mTime _ m .tsu _).trans (lane_mTime _ m .tsu _)

theorem tookDown_dist (b : Block) (p : Plane) (f : SyncFrame) (rx : Ts) (now : Tick) :
    (b.tookDown p f rx now).dist = b.dist := by cases p <;> rfl

theorem servoLoss_tsu_dist (b : Block) (p : Plane) : (b.servoLoss (.tsu p)).dist = b.dist :=
  (ServoTimeOnly.refl b).reselect.promise.dist

/-- The fields that judge an exchange are not the frame's. -/
theorem tookDown_accepts (b : Block) (p : Plane) (f : SyncFrame) (rx : Ts) (now : Tick) (d2 : Int) :
    ((b.tookDown p f rx now).lane (.tsu p)).accepts d2 = (b.lane (.tsu p)).accepts d2 := by
  rw [Block.tookDown, takeEpoch_tsu_lane, lane_mLane_self]
  rfl

theorem tookDown_eq (hnow : b.tc = now) :
    ((b.mLane (.tsu p) fun x => x.takeFields f (x.capture rx) (b.tcOf .tsu)).takeEpoch (.tsu p) f) =
      b.tookDown p f rx now := by
  simp only [Lane.capture_eq, Block.tookDown, ← hnow]
  rfl

/-- A frame that came from below is not for a TSU. -/
theorem Block.syncRx_tsu_upward (hcmp : f.cmp = false) (hdir : f.dir = true) : b.syncRx (.tsu p) f rx = b := by
  simp [Block.syncRx, hcmp, hdir]

theorem Block.syncRx_tsu_incomplete (hcmp : f.cmp = false) (hdir : f.dir = false) (hnow : b.tc = now)
    (hnone : (b.lane (.tsu p)).childTimes f = none) :
    b.syncRx (.tsu p) f rx = ((b.tookDown p f rx now).mLane (.tsu p) Lane.period).servoLoss (.tsu p) := by
  simp only [Block.syncRx, hcmp, hdir, hnone, Bool.false_eq_true, if_false, if_true, laneUnit, tookDown_eq hnow,
    Bool.false_beq, Bool.not_true]

theorem Block.syncRx_tsu_accepted {t1 t2 t3 t4 : Ts} {d2 th2 : Int} (hcmp : f.cmp = false) (hdir : f.dir = false)
    (hnow : b.tc = now) (hsome : (b.lane (.tsu p)).childTimes f = some (t1, t2, t3, t4))
    (hex : exchange t1 t2 t3 t4 (aClass (b.lane (.tsu p)).reg.cableClass + (b.lane (.tsu p)).reg.aRef.toInt) = (d2, th2))
    (hacc : (b.lane (.tsu p)).accepts d2 = true) :
    b.syncRx (.tsu p) f rx =
      (((b.tookDown p f rx now).mLane (.tsu p) fun x => x.accept d2 th2).tsuExchange p th2).promise := by
  simp only [Block.syncRx, hcmp, hdir, hsome, hex, Bool.false_eq_true, if_false, if_true, laneUnit, tookDown_eq hnow,
    Bool.false_beq, Bool.not_true, tookDown_accepts, hacc]

theorem Block.syncRx_tsu_rejected {t1 t2 t3 t4 : Ts} {d2 th2 : Int} (hcmp : f.cmp = false) (hdir : f.dir = false)
    (hnow : b.tc = now) (hsome : (b.lane (.tsu p)).childTimes f = some (t1, t2, t3, t4))
    (hex : exchange t1 t2 t3 t4 (aClass (b.lane (.tsu p)).reg.cableClass + (b.lane (.tsu p)).reg.aRef.toInt) = (d2, th2))
    (hacc : (b.lane (.tsu p)).accepts d2 = false) :
    b.syncRx (.tsu p) f rx = (((b.tookDown p f rx now).mLane (.tsu p) Lane.period).mCnt (.tsu p) fun c =>
      { c with syncDrop := sat1 c.syncDrop }).servoLoss (.tsu p) := by
  simp only [Block.syncRx, hcmp, hdir, hsome, hex, Bool.false_eq_true, if_false, if_true, laneUnit, tookDown_eq hnow,
    Bool.false_beq, Bool.not_true, tookDown_accepts, hacc]

end

/-! ### An upward frame at a distributor -/

theorem Block.syncRx_dist_accepted {b : Block} {n : Nat} {f : SyncFrame} {rx t1 t2 t3 t4 : Ts} {d2 th2 : Int}
    (hn : n < 288) (hcmp : f.cmp = false) (hdir : f.dir = true)
    (hsome : (b.lane (.dist n)).parentTimes f = some (t1, t2, t3, t4))
    (hex : exchange t1 t2 t3 t4 (aClass (b.lane (.dist n)).reg.cableClass + (b.lane (.dist n)).reg.aRef.toInt) = (d2, th2))
    (h0 : 0 ≤ d2) (hearly : (b.lane (.dist n)).sync.accN < 16) :
    b.syncRx (.dist n) f rx = (b.mLane (.dist n) fun x =>
      x.takeFields f (x.capture rx) b.dist.time.tc64).mLane (.dist n) fun x => x.accept d2 th2 := by
  have hdown : decide (288 ≤ n) = false := decide_eq_false (by omega)
  have hacc : (((b.mLane (.dist n) fun x => x.takeFields f (x.capture rx) (b.tcOf .dist))).lane (.dist n)).accepts d2 =
      true := by
    simp [Lane.accepts, Lane.takeFields, h0, hearly]
  simp only [Block.syncRx, hcmp, hdir, hsome, hex, hdown, Bool.false_eq_true, if_false, if_true, laneUnit,
    Bool.true_beq, hacc]
  rfl

/-- What the receipt of a TIME frame leaves of what an exchange is computed and judged from. -/
theorem rxBook_time_lane (b : Block) (l : LaneRef) (h : Hdr) :
    ∃ k, (b.rxBook l h 0).lane l = { b.lane l with link := k } :=
  ⟨_, corrected_lane b l h.corr⟩

/-- Settles O39: what is sent and the loss of sync by their lemmas; a received frame by whether it completes an exchange,
and whether that is accepted. -/
theorem syncExchange : Obligations.SyncExchange := by
  unfold Obligations.SyncExchange
  refine ⟨fun n tx s hn => ?down, fun l tx s hl => ?up, fun l h f rx s hl hcmp => ?compressed,
    fun p h f rx t2 t3 s hok hrole hcmp => ?tsu, fun n h f rx t1 t2 t4 s hn hok hrole hcmp hdir => ?dist⟩
  case down =>
    have hl : (LaneRef.dist n).ok = true := by
      simp only [LaneRef.ok, decide_eq_true_eq]
      omega
    exact ⟨fun h => exec_of_runLane hl rfl (Block.syncDown_idle h),
      fun hup hdown => exec_of_runLane hl rfl (Block.syncDown_up hn hup hdown)⟩
  case up =>
    exact ⟨fun h => exec_of_runLane hl rfl (Block.syncUp_idle h),
      fun hup hans => exec_of_runLane hl rfl (Block.syncUp_up hup hans),
      fun hup => exec_of_runLane hl rfl (Block.syncLoss_notUp hup),
      fun hup hsilent => exec_of_runLane hl rfl (Block.syncLoss_silent hup hsilent),
      fun hup hheard => exec_of_runLane hl rfl (Block.syncLoss_heard hup hheard)⟩
  case compressed =>
    rw [exec_syncFrameReceive _ _ _ _ _ hl, exec_syncFrameReceive _ _ _ _ _ hl]
    congr 2
    apply Block.rx_time_congr
    rw [Block.syncRx_compressed hcmp, tcOf_rxBook]
  case tsu =>
    intro l b x now took d2 th2
    obtain ⟨k, hlane⟩ := rxBook_time_lane s.blk l h
    have hnow : b.tc = now := tcOf_rxBook s.blk l h 0 .tsu
    have hb : ∀ {c : Block}, c.dist = b.dist → c.dRole ≠ 3 := fun hc => by
      rwa [dRole_of_dist hc, dRole_rxBook]
    have htook : took.dist = b.dist := tookDown_dist b p f rx now
    refine ⟨?upward, ?incomplete, ?complete⟩
    case upward =>
      intro hdir
      exact exec_syncFrameReceive_ok rfl hok (Block.syncRx_tsu_upward hcmp hdir) (hb rfl)
    case incomplete =>
      intro hdir hnone
      have hchild : (b.lane l).childTimes f = none := by
        rw [hlane]
        exact Lane.childTimes_incomplete hnone
      exact exec_syncFrameReceive_ok rfl hok (Block.syncRx_tsu_incomplete hcmp hdir hnow hchild)
        (hb (by rw [servoLoss_tsu_dist, Block.mLane_tsu_dist, htook]))
    case complete =>
      intro hdir hseq hrx htx h1 h4 h2 h3 ok
      have hchild : (b.lane l).childTimes f = some (f.txPrev, t2, t3, f.rxTs) := by
        rw [hlane]
        exact Lane.childTimes_complete hseq hrx htx h1 h4 h2 h3
      have hex : exchange f.txPrev t2 t3 f.rxTs (aClass (b.lane l).reg.cableClass + (b.lane l).reg.aRef.toInt) =
          (d2, th2) := by
        rw [hlane]
        rfl
      have haccepts : (b.lane l).accepts d2 = ok := by
        rw [hlane]
        rfl
      refine ⟨fun hacc => ?_, fun hacc => ?_⟩
      · exact exec_syncFrameReceive_ok rfl hok
          (Block.syncRx_tsu_accepted hcmp hdir hnow hchild hex (haccepts.trans hacc))
          (hb (by rw [Block.promise_dist, tsuExchange_dist, Block.mLane_tsu_dist, htook]))
      · exact exec_syncFrameReceive_ok rfl hok
          (Block.syncRx_tsu_rejected hcmp hdir hnow hchild hex (haccepts.trans hacc))
          (hb (by rw [servoLoss_tsu_dist, Block.mCnt, Block.mLink_tsu_dist, Block.mLane_tsu_dist, htook]))
  case dist =>
    intro l x took d2 th2 hseq htx h3 h1 h2 h4 h0 hearly
    obtain ⟨k, hlane⟩ := rxBook_time_lane s.blk l h
    have hl : l.ok = true := by
      simp only [l, LaneRef.ok, decide_eq_true_eq]
      omega
    have hparent : ((s.blk.rxBook l h 0).lane l).parentTimes f = some (t1, t2, f.txPrev, t4) := by
      rw [hlane]
      exact Lane.parentTimes_complete hseq htx h3 h1 h2 h4
    have hrx : (s.blk.rxBook l h 0).syncRx l f rx = took.mLane l fun x => x.accept d2 th2 := by
      rw [Block.syncRx_dist_accepted (d2 := d2) (th2 := th2) hn hcmp hdir hparent (by rw [hlane]; rfl) h0
        (by rw [hlane]; exact hearly), (rxBook_same s.blk l h 0).dtime]
    exact exec_syncFrameReceive_ok hl hok hrx (by rwa [dRole_mLane, dRole_mLane, dRole_rxBook])

end Sys2Proof.Machine
end

section
/-! SUPPORT. The TDC with its calibration (R53 to R55, R72, R109, R348, R394), and the end of a refinement window (R58,
R60 to R63, R71). -/

namespace Sys2Proof.Machine

open Sys2Proof

/-! ### Code-density calibration (R55, R109, R348, R394) -/

section
variable {b : Block} {u : UnitRef} {inl : BitVec 8}

theorem Block.cdcStart_tsu (hbusy : b.tsu.tdc.busy = false) (haon : b.tsu.tdc.aonLost = false)
    (hst : b.tsu.pwr.st ≠ .entering) : b.cdcStart .tsu = b.mTdc .tsu fun t => { t with busy := true } := by
  simp [Block.cdcStart, Block.tdcOf, hbusy, haon, hst]

theorem Block.cdcStart_tsu_refused
    (h : b.tsu.tdc.busy = true ∨ b.tsu.tdc.aonLost = true ∨ b.tsu.pwr.st = .entering) : b.cdcStart .tsu = b := by
  rcases h with h | h | h <;> simp [Block.cdcStart, Block.tdcOf, h]

theorem Block.cdcStart_dist (hbusy : b.dist.tdc.busy = false) (haon : b.dist.tdc.aonLost = false) :
    b.cdcStart .dist = b.mTdc .dist fun t => { t with busy := true } := by
  simp [Block.cdcStart, Block.tdcOf, hbusy, haon]

theorem Block.cdcStart_dist_refused (h : b.dist.tdc.busy = true ∨ b.dist.tdc.aonLost = true) :
    b.cdcStart .dist = b := by
  rcases h with h | h <;> simp [Block.cdcStart, Block.tdcOf, h]

theorem exec_cdcStart_tsu {a : Access} {s : State} (hok : s.blk.check (portReq a) 0x3000 true = .ok) :
    exec (.cdcStart a .tsu) s = .next { s with blk := (s.blk.cdcStart .tsu).emit (.reg none 0 0) } :=
  State.run_regCmd_ok _ hok

theorem exec_cdcStart_dist (a : Access) (s : State) :
    exec (.cdcStart a .dist) s = .next { s with blk := s.blk.cdcStart .dist } := rfl

/-- The new table takes effect. -/
def Block.cdcTable (b : Block) (u : UnitRef) (inl : BitVec 8) : Block :=
  b.mTdc u fun t => { t with busy := false, done := true, inlMax := inl, table := t.table + 1 }

theorem Block.cdcDone_idle (u : UnitRef) (h : (b.tdcOf u).busy = false) : b.cdcDone u inl = b := by
  simp [Block.cdcDone, h]

theorem Block.cdcDone_dist (h : b.dist.tdc.busy = true) : b.cdcDone .dist inl = b.cdcTable .dist inl := by
  have hb : (b.tdcOf .dist).busy = true := h
  simp only [Block.cdcDone, hb]
  rfl

/-- The first one at bring-up is followed by spine calibration (R394). -/
theorem Block.cdcDone_tsu (h : b.tsu.tdc.busy = true) :
    b.cdcDone .tsu inl =
      if b.tsu.boot.cdcEnded then b.cdcTable .tsu inl
      else ((b.cdcTable .tsu inl).mBoot fun t => { t with cdcEnded := true }).calBegin := by
  have hb : (b.tdcOf .tsu).busy = true := h
  cases he : b.tsu.boot.cdcEnded <;> simp [Block.cdcDone, hb, he, Block.cdcTable]

theorem exec_cdcDone (u : UnitRef) (inl : BitVec 8) (s : State) :
    exec (.cdcDone u inl) s = .next { s with blk := s.blk.cdcDone u inl } := rfl

end

/-! ### The update of a lane at the end of a window (R62, R63) -/

section
variable {x : Lane} {own : Option Int} {side : Bool} {m k : Int}

/-- Without REFINE_EN the registers stay. -/
theorem Lane.refine_off (h : x.reg.refineEn = false) : (x.refine own side).reg = x.reg := by
  cases own with
  | none => rfl
  | some m => simp [Lane.refine, h]

/-- The correction of A_REF, limited to the class's bound, towards the side of the lane. -/
theorem Lane.refine_on (hk : aBound x.reg.cableClass = some k) (hen : x.reg.refineEn = true)
    (hpcal : x.reg.pcalRx = true) (hpmv : x.sync.pmv = true) :
    let step := Int.tdiv (m - x.reg.pmean.toInt) (if x.reg.refined then 32 else 4)
    let v := x.reg.aRef.toInt + (if side then -step else step)
    (x.refine (some m) side).reg.aRef = BitVec.ofInt 16 (clampI (-k) k v) ∧
      (x.refine (some m) side).reg.asymLimit = (x.reg.asymLimit || decide (k < v.natAbs)) := by
  simp [Lane.refine, hk, hen, hpcal, hpmv, clampRef]

/-- A lane with what its window is reported by (R61). -/
def Lane.report (d : Option Int) (x : Lane) : Lane :=
  { x with sync := { x.sync with dsum := BitVec.ofInt 48 (d.getD 0), dcnt := if d.isSome then 1 else 0 } }

end

/-! ### A window at a die (R61, R71) -/

section
variable {b : Block}

/-- D does not count where a lane had no exchange in the window. -/
theorem Block.dieD_empty (h : b.tsu.laneA.sync.winN = 0 ∨ b.tsu.laneB.sync.winN = 0) : b.dieD = none := by
  rcases h with h | h <;> simp [Block.dieD, h]

theorem Block.dieD_some (hA : b.tsu.laneA.sync.winN ≠ 0) (hB : b.tsu.laneB.sync.winN ≠ 0)
    (hbA : aBound b.tsu.laneA.reg.cableClass ≠ none) (hbB : aBound b.tsu.laneB.reg.cableClass ≠ none)
    (htA : b.tsu.laneA.reg.topoRes ≠ 2) (htB : b.tsu.laneB.reg.topoRes ≠ 2) (he : b.tsu.time.epochDiff = false) :
    b.dieD = some (b.tsu.laneA.winMean - b.tsu.laneB.winMean) := by
  have hresA : ¬b.tsu.laneA.reg.topoRes = 2#2 := htA
  have hresB : ¬b.tsu.laneB.reg.topoRes = 2#2 := htB
  simp [Block.dieD, hA, hB, hbA, hbB, hresA, hresB, he]

/-- What the window's D leaves. -/
theorem Block.tsuWindow_eq (b : Block) :
    b.tsuWindow = { b with tsu := { b.tsu with
      abDiff := BitVec.ofInt 32 (b.dieD.getD 0)
      laneA := (b.tsu.laneA.refine b.dieD false).report b.dieD
      laneB := (b.tsu.laneB.refine b.dieD true).report b.dieD } }.promise := rfl

end

theorem exec_refineWindowEnd_tsu (s : State) :
    exec (.refineWindowEnd .tsu) s = .next { s with blk := s.blk.tsuWindow } := rfl

theorem exec_refineWindowEnd_dist (s : State) :
    exec (.refineWindowEnd .dist) s = .next { s with blk := s.blk.distWindow } := rfl

/-! ### A window at a distributor (R61, R93) -/

theorem mRoot_root (b : Block) (f : Root → Root) : (b.mRoot f).dist.root = f b.dist.root := rfl

theorem mRoot_dRole (b : Block) (f : Root → Root) : (b.mRoot f).dRole = b.dRole := rfl

/-- The uplink lanes after a window, `own` the unit's own mean where valid. -/
def Block.refineUplinks (b : Block) (own : Option Int) : Block :=
  b.each uplinks fun b k => b.mLane (.dist k) fun x => x.refine own (b.dPlane == .B)

section
variable (b : Block) (own : Option Int)

theorem refineUplinks_keeps {α : Type} (g : Block → α) (h : ∀ (c : Block) (n : Nat) (f : Lane → Lane),
    g (c.mLane (.dist n) f) = g c) : g (b.refineUplinks own) = g b := by
  unfold Block.refineUplinks
  exact each_keeps g uplinks _ (fun c n => h c n _) b

theorem refineUplinks_tsu : (b.refineUplinks own).tsu = b.tsu :=
  refineUplinks_keeps b own Block.tsu fun _ _ _ => rfl

theorem refineUplinks_out : (b.refineUplinks own).out = b.out :=
  refineUplinks_keeps b own Block.out fun _ _ _ => rfl

theorem refineUplinks_root : (b.refineUplinks own).dist.root = b.dist.root :=
  refineUplinks_keeps b own (fun b => b.dist.root) fun _ _ _ => rfl

theorem refineUplinks_dRole : (b.refineUplinks own).dRole = b.dRole :=
  refineUplinks_keeps b own Block.dRole fun c n f => dRole_mLane c (.dist n) f

end

/-- The UP lanes of the children, whose sums a window adds (R61). -/
def Block.windowLanes (b : Block) : List (Nat × Lane) := b.dist.lanes.filter fun e => e.1 < 288 && e.2.reg.state == .up

def Block.windowCount (b : Block) : Nat := b.windowLanes.foldl (fun a e => a + e.2.sync.dcnt.toNat) 0

def Block.windowSum (b : Block) : Int := b.windowLanes.foldl (fun a e => a + e.2.sync.dsum.toInt) 0

def Block.windowMean (b : Block) : Int := if b.windowCount = 0 then 0 else Int.tdiv b.windowSum b.windowCount

/-- The sums of a window, as they are sent upward (R61). -/
def Block.tookSums (b : Block) : Block :=
  b.mRoot fun r => { r with
    sumD := BitVec.ofInt 48 b.windowSum, sumN := BitVec.ofNat 16 b.windowCount, mean := satI 32 b.windowMean
    tieValid := decide (8 ≤ b.windowCount) }

/-- The tie has its use at a root only. -/
theorem Block.tieIn_notRoot {b : Block} (h : b.dRole ≠ 3) (m : Int) : b.tieIn m = b := if_pos (.inl h)

/-- The bundle follows its timing lane, where there is one (R60). -/
def Block.alignTimed (b : Block) : Block :=
  match b.dist.servo.timing with
  | some t => b.alignBundle t
  | none => b

theorem Block.alignTimed_none {b : Block} (h : b.dist.servo.timing = none) : b.alignTimed = b := by
  rw [Block.alignTimed, h]

/-- The block when the sums, the lanes and the tie's runs have been brought up to date. -/
def Block.windowDone (b : Block) : Block :=
  (b.tookSums.alignTimed.refineUplinks (if decide (8 ≤ b.windowCount) then some b.windowMean else none)).mRoot
    fun r => r.tieWindow b.windowMean (decide (8 ≤ b.windowCount))

theorem Block.distWindow_eq (b : Block) : b.distWindow = b.windowDone.tieIn b.windowMean := rfl

section
variable {b : Block}

/-- A window where there is no timing lane leaves the root record's sums and the other unit. -/
theorem Block.windowDone_untimed (htiming : b.dist.servo.timing = none) :
    b.windowDone.tsu = b.tsu ∧ b.windowDone.out = b.out ∧ b.windowDone.dRole = b.dRole ∧
      b.windowDone.dist.root = b.tookSums.dist.root.tieWindow b.windowMean (decide (8 ≤ b.windowCount)) := by
  have halign : b.tookSums.alignTimed = b.tookSums := Block.alignTimed_none htiming
  rw [Block.windowDone, halign, Block.mRoot_tsu, Block.mRoot_out, mRoot_dRole, mRoot_root, refineUplinks_tsu,
    refineUplinks_out, refineUplinks_dRole, refineUplinks_root]
  exact ⟨rfl, rfl, rfl, rfl⟩

end

/-- Settles O40: the channels by one update each, the calibration by its lemmas, and a window by whether D counts, or by
what the sums of the children leave. -/
theorem tdcAndRefinement : Obligations.TdcAndRefinement := by
  unfold Obligations.TdcAndRefinement
  refine ⟨fun p n s hn => ?channels, fun a inl s => ?calibration, fun s => ⟨fun h => ?empty, ?counts⟩,
    fun s => ?distributor⟩
  case channels =>
    have hl : (LaneRef.dist n).ok = true := by simpa [LaneRef.ok] using hn
    cases p
    all_goals
      exact ⟨rfl, exec_of_runLane hl rfl rfl, rfl, rfl, exec_of_runLane hl rfl rfl, rfl, rfl,
        exec_of_runLane hl rfl rfl, rfl⟩
  case calibration =>
    refine ⟨fun hok hbusy haon hst => ?_, fun hok h => ?_, fun hbusy haon => ?_, fun h => ?_, fun hbusy => ?_,
      fun hbusy hend => ?_, fun hbusy hend => ?_, fun hbusy => ?_, fun hbusy => ?_⟩
    · rw [exec_cdcStart_tsu hok, Block.cdcStart_tsu hbusy haon hst]
    · rw [exec_cdcStart_tsu hok, Block.cdcStart_tsu_refused h]
    · rw [exec_cdcStart_dist, Block.cdcStart_dist hbusy haon]
    · rw [exec_cdcStart_dist, Block.cdcStart_dist_refused h]
    · rw [exec_cdcDone, Block.cdcDone_idle .tsu hbusy]
    · rw [exec_cdcDone, Block.cdcDone_tsu hbusy, if_pos hend]
      rfl
    · rw [exec_cdcDone, Block.cdcDone_tsu hbusy, if_neg (by simp [hend])]
      rfl
    · rw [exec_cdcDone, Block.cdcDone_dist hbusy]
      rfl
    · rw [exec_cdcDone, Block.cdcDone_idle .dist hbusy]
  case empty =>
    refine ⟨_, exec_refineWindowEnd_tsu s, rfl, ?_⟩
    rw [Block.tsuWindow_eq, Block.dieD_empty h]
    exact ⟨rfl, rfl, rfl, rfl, rfl, rfl, rfl, rfl, rfl, rfl, rfl⟩
  case counts =>
    intro hA hB hbA hbB htA htB he
    refine ⟨_, exec_refineWindowEnd_tsu s, rfl, ?_⟩
    rw [Block.tsuWindow_eq, Block.dieD_some hA hB hbA hbB htA htB he]
    refine ⟨rfl, rfl, rfl, rfl, rfl, rfl, rfl, fun k hk hen hpcal hpmv => ?_, fun k hk hen hpcal hpmv => ?_,
      fun hen => Lane.refine_off hen⟩
    · obtain ⟨href, hlim⟩ := Lane.refine_on (side := false) hk hen hpcal hpmv
      exact ⟨href, fun hbig => hlim.trans (by rw [Bool.or_eq_true]; exact .inr (decide_eq_true hbig))⟩
    · obtain ⟨href, -⟩ := Lane.refine_on (side := true) hk hen hpcal hpmv
      exact href
  case distributor =>
    intro b ch n d hrole htiming
    obtain ⟨htsu, hout, hdrole, hroot⟩ := Block.windowDone_untimed htiming
    refine ⟨_, exec_refineWindowEnd_dist s, rfl, ?_⟩
    rw [Block.distWindow_eq, Block.tieIn_notRoot (by rwa [hdrole]), hroot]
    exact ⟨htsu, hout, rfl, rfl, rfl, rfl⟩

end Sys2Proof.Machine
end

section
/-! SUPPORT. The step arm (R81), and selection at a TSU (R83 to R85): the switch to the other plane, and the end of a plane's
wait. -/

namespace Sys2Proof.Machine

open Sys2Proof

/-! ### The step arm (R81) -/

section
variable {b : Block} {u : UnitRef} {q : Req}

theorem Block.stepRefused_tsu (b : Block) :
    b.stepRefused .tsu = (b.armedAny || !(b.estValid (.tsu .A) || b.estValid (.tsu .B))) := rfl

theorem Block.stepRefused_dist (b : Block) : b.stepRefused .dist = !b.stepSource .dist := rfl

theorem Block.armStep_allowed (h : b.stepRefused u = false) : b.armStep u = b.mServo u fun x => { x with stepArm := true } := by
  simp [Block.armStep, h]

theorem Block.armStep_refused (h : b.stepRefused u = true) :
    b.armStep u = b.mServo u fun x => { x with stepRef := true, stepArm := false } := if_pos h

theorem Block.stepArmWrite_secure (h : q.secure = true) : b.stepArmWrite q u = b.armStep u := if_pos h

end

theorem exec_stepArm_tsu {p : BitVec 2} {s : State} (hok : s.blk.check (portReq ⟨true, p⟩) 0x1400 true = .ok) :
    exec (.stepArm ⟨true, p⟩ .tsu) s = .next { s with blk := (s.blk.armStep .tsu).emit (.reg none 0 0) } := by
  have hsecure : (portReq ⟨true, p⟩).secure = true := rfl
  have hrun : exec (.stepArm ⟨true, p⟩ .tsu) s =
      .next { s with blk := (s.blk.stepArmWrite (portReq ⟨true, p⟩) .tsu).emit (.reg none 0 0) } :=
    State.run_regCmd_ok _ hok
  rw [hrun, Block.stepArmWrite_secure hsecure]

theorem exec_stepArm_dist (p : BitVec 2) (s : State) :
    exec (.stepArm ⟨true, p⟩ .dist) s = .next { s with blk := s.blk.armStep .dist } := rfl

/-! ### What an update of the servo leaves of the planes -/

section
variable (b : Block)

theorem estValid_mServo (u : UnitRef) (f : Servo → Servo) (l : LaneRef) :
    (b.mServo u f).estValid l = b.estValid l := by
  cases u <;> rcases l with (_ | _) | _ <;> rfl

/-- Outside HOLD the selected plane is selectable without a wait (R83). -/
theorem selectable_selPlane (hst : b.tsu.servo.state ≠ .hold) :
    b.selectable b.selPlane = (b.estValid (.tsu b.selPlane) &&
      (!b.twinEff || b.selLane.sync.rx.mst || b.selLane.sync.rx.tlk)) := by
  simp [Block.selectable, Block.selLane, hst]

theorem selectable_selPlane_mServo (f : Servo → Servo) (hst : b.tsu.servo.state ≠ .hold)
    (hf : (f b.tsu.servo).state ≠ .hold) :
    (b.mServo .tsu f).selectable b.selPlane = b.selectable b.selPlane := by
  have hsel : (b.mServo .tsu f).selPlane = b.selPlane := rfl
  have hlane : (b.mServo .tsu f).selLane = b.selLane := by rw [Block.selLane, Block.selLane, hsel, lane_mServo]
  rw [selectable_selPlane b hst, ← hsel, selectable_selPlane _ hf, hsel, hlane, estValid_mServo]
  rfl

/-! ### The switch to the other plane (R85) -/

@[simp] theorem Block.switchTo_selPlane (q : Plane) : (b.switchTo q).selPlane = q := by cases q <;> rfl

theorem exec_twinSwitch (s : State) : exec .twinSwitch s = .next { s with blk := s.blk.twinSwitch } := rfl

end

section
variable {b : Block} {p : Plane}

/-- The selected plane is no longer selectable and the other is: the servo follows the other (R85). -/
theorem Block.twinSwitch_follows (hv : b.tsu.time.timeValid = true) (htwin : b.twinMode = true)
    (hmade : b.tsu.servo.selMade = true) (hhold : b.tsu.servo.state ≠ .hold) (hlost : b.tsu.servo.state ≠ .lost)
    (hsel : b.wtrKeep.selectable b.selPlane = false) (hother : b.wtrKeep.selectable (flipP b.selPlane) = true) :
    b.twinSwitch = b.wtrKeep.switchTo (flipP b.selPlane) := by
  have htime : b.wtrKeep.timeOk = true := hv
  have htwin' : b.wtrKeep.twinMode = true := htwin
  have hmade' : b.wtrKeep.tsu.servo.selMade = true := hmade
  have hstate : b.wtrKeep.tsu.servo.state = b.tsu.servo.state := rfl
  have hplane : b.wtrKeep.selPlane = b.selPlane := rfl
  simp [Block.twinSwitch, htime, htwin', hmade', hstate, hhold, hlost, hplane, hsel, hother]

/-! ### The end of a plane's wait (R83) -/

/-- The plane's wait has ended. -/
def Block.waitEnded (b : Block) (p : Plane) : Block :=
  b.mServo .tsu fun s => match p with
    | .A => { s with wtrA := true } | .B => { s with wtrB := true }

/-- A plane that is not selected, whose estimator is valid and whose Δ is small, has met the condition of its wait. -/
theorem Block.planeWtr_ended (hp : p ≠ b.selPlane) (hest : b.estValid (.tsu p) = true)
    (hdelta : b.tsu.servo.delta.toInt.natAbs ≤ 320) : b.planeWtr p = (b.waitEnded p).reselect := by
  have hcond : ¬((p == b.selPlane && b.tsu.servo.state != .hold) || !b.estValid (.tsu p) ||
      decide (320 < b.tsu.servo.delta.toInt.natAbs)) = true := by
    simp [hp, hest, hdelta]
  exact if_neg hcond

/-- A locked servo whose plane is selectable changes plane for a more preferred one only with REVERT or FORCE (R84). -/
theorem Block.reselect_keeps (hv : b.tsu.time.timeValid = true) (hst : b.tsu.servo.state = .locked)
    (hmade : b.tsu.servo.selMade = true) (hsel : b.selectable b.selPlane = true) (hrev : b.tsu.servo.revert = false)
    (hforce : b.tsu.servo.force = 0) : b.reselect = b.wtrKeep := by
  have htime : b.wtrKeep.timeOk = true := hv
  have hst' : b.wtrKeep.tsu.servo.state = .locked := hst
  have hmade' : b.wtrKeep.tsu.servo.selMade = true := hmade
  have hrev' : b.wtrKeep.tsu.servo.revert = false := hrev
  have hforce' : b.wtrKeep.tsu.servo.forces (flipP b.wtrKeep.selPlane) = false := by
    have h : b.wtrKeep.tsu.servo.force = 0 := hforce
    cases b.wtrKeep.selPlane <;> simp [Servo.forces, flipP, h]
  have hsel' : b.wtrKeep.selectable b.wtrKeep.selPlane = true :=
    (selectable_selPlane_mServo b _ (by simp [hst]) (by simp [hst])).trans hsel
  simp [Block.reselect, htime, hst', hmade', hrev', hforce', hsel']

theorem Block.waitEnded_selectable (hst : b.tsu.servo.state = .locked) :
    (b.waitEnded p).selectable b.selPlane = b.selectable b.selPlane :=
  selectable_selPlane_mServo b _ (by simp [hst]) (by cases p <;> simp [hst])

/-- The plane's bit of R83. -/
def Servo.wtrOf (s : Servo) (p : Plane) : Bool := match p with | .A => s.wtrA | .B => s.wtrB

theorem Block.waitEnded_wtrOf : (b.waitEnded p).tsu.servo.wtrOf p = true := by cases p <;> rfl

theorem Block.wtrKeep_wtrOf (b : Block) (p : Plane) : b.wtrKeep.tsu.servo.wtrOf p =
    (b.tsu.servo.wtrOf p && (b.estValid (.tsu p) && decide (b.tsu.servo.delta.toInt.natAbs ≤ 320))) := by
  cases p <;> rfl

/-- Once ended, the wait of a plane that still meets its condition stands. -/
theorem Block.waitEnded_wtrKeep (hest : b.estValid (.tsu p) = true) (hdelta : b.tsu.servo.delta.toInt.natAbs ≤ 320) :
    (b.waitEnded p).wtrKeep.tsu.servo.wtrOf p = true := by
  have hest' : (b.waitEnded p).estValid (.tsu p) = true := (estValid_mServo b .tsu _ (.tsu p)).trans hest
  have hdelta' : (b.waitEnded p).tsu.servo.delta = b.tsu.servo.delta := by cases p <;> rfl
  simp [Block.wtrKeep_wtrOf, Block.waitEnded_wtrOf, hest', hdelta', hdelta]

theorem exec_planeWtrExpire (p : Plane) (s : State) :
    exec (.planeWtrExpire p) s = .next { s with blk := s.blk.planeWtr p } := rfl

end

/-- Settles O3: STEP_ARM by whether the step is refused, the switch and the end of a wait by what selection does then. -/
theorem servoSelection : Obligations.ServoSelection := by
  unfold Obligations.ServoSelection
  refine ⟨fun p s hok harmed hest => ?armed, fun p s hok href => ?refused, fun p s hsrc => ?dist,
    fun s hv htwin hmade hhold hlost hsel hother => ⟨_, exec_twinSwitch s, ?switch⟩,
    fun p s hv hst hmade hp hest hdelta hsel hrev hforce => ⟨_, exec_planeWtrExpire p s, ?wait⟩⟩
  case armed =>
    rw [exec_stepArm_tsu hok, Block.armStep_allowed (by rw [Block.stepRefused_tsu, harmed, hest]; rfl)]
  case refused => rw [exec_stepArm_tsu hok, Block.armStep_refused (s.blk.stepRefused_tsu.trans href)]
  case dist => rw [exec_stepArm_dist, Block.armStep_allowed (by rw [Block.stepRefused_dist, hsrc]; rfl)]
  case switch =>
    rw [Block.twinSwitch_follows hv htwin hmade hhold hlost hsel hother]
    exact ⟨Block.switchTo_selPlane _ _, rfl, rfl, rfl, rfl, rfl, rfl, rfl, rfl, rfl, rfl, rfl⟩
  case wait =>
    have hne : p ≠ s.blk.selPlane := by
      rw [hp]
      cases s.blk.selPlane <;> decide
    have hstays : (s.blk.waitEnded p).reselect = (s.blk.waitEnded p).wtrKeep := by
      refine Block.reselect_keeps hv ?_ ?_ ((Block.waitEnded_selectable hst).trans hsel) ?_ ?_
      all_goals cases p <;> assumption
    rw [Block.planeWtr_ended hne hest hdelta, hstays]
    have hwtr := Block.waitEnded_wtrKeep hest hdelta
    cases p <;> exact ⟨hwtr, rfl, rfl, rfl, rfl, rfl⟩

end Sys2Proof.Machine
end

section
/-! SUPPORT. The inputs of a root's reference candidates: 1PPS edges (R97, R98), ToD messages (R99, R100), the 10 MHz (R98),
PTP and ESMC (R101 to R103), and the AON clock monitor (R109). -/

namespace Sys2Proof.Machine

open Sys2Proof

theorem State.run_of {f : Block → Block} {s : State} {b : Block} (h : f s.blk = b) : s.run f = .next { s with blk := b } := by
  rw [State.run_eq, h]

/-! ### Updates of one input or port -/

section
variable (b : Block) (n : Nat)

@[simp] theorem ref_mRef (f : RefIn → RefIn) : (b.mRef n f).ref n = f (b.ref n) := by
  simp [Block.ref, Block.mRef, Block.mRoot]

/-- Two changes of one input that agree on what it holds are one. -/
theorem mRef_congr {f g : RefIn → RefIn} (h : f (b.ref n) = g (b.ref n)) : b.mRef n f = b.mRef n g := by
  have hmod : smMod {} b.dist.root.refs n f = smMod {} b.dist.root.refs n g := by
    rw [smMod, smMod]
    exact congrArg (smPut {} _ n) h
  simp only [Block.mRef, Block.mRoot, hmod]

@[simp] theorem ptp_mPtp (f : PtpPort → PtpPort) : (b.mPtp n f).ptp n = f (b.ptp n) := by
  simp [Block.ptp, Block.mPtp, Block.mRoot]

@[simp] theorem ref_bucket (ch : Option Nat) (sub k : Nat) : (b.bucket ch sub k).ref n = b.ref n := by
  cases ch with
  | none => rfl
  | some c =>
    unfold Block.bucket
    dsimp only
    split <;> rfl

theorem refsChange_follower {b : Block} (h : b.dist.root.role = 2) : b.refsChange = b := if_pos (.inr h)

end

/-! ### Edges missing or rejected (R98) -/

section
variable {b : Block} {n : Nat}

/-- The first edge missed since the last good one. -/
theorem Block.ppsMiss_first (h : (b.ref n).miss = 0) :
    b.ppsMiss n = b.mRef n fun r => { r with miss := 1, goodRun := 0 } := by
  have hone : (b.mRef n fun r => { r with miss := r.miss + 1, goodRun := 0 }) =
      b.mRef n fun r => { r with miss := 1, goodRun := 0 } := mRef_congr b n (by rw [h])
  simp [Block.ppsMiss, hone]

/-- A second edge missed loses a good input. -/
theorem Block.ppsMiss_again (h : 1 ≤ (b.ref n).miss) (hgood : (b.ref n).good = true) :
    b.ppsMiss n = ((b.mRef n fun r => { r with miss := r.miss + 1, goodRun := 0 }).mRef n fun r =>
      { r with good := false, goodRun := 0, miss := 0, lastEdge := none, hist := [] }).candLost n := by
  simp [Block.ppsMiss, Block.ppsLost, h, hgood]

theorem exec_ppsEdgeMissing_one {n : BitVec 2} {s : State} (h : s.blk.refType n.toNat = 1) :
    exec (.ppsEdgeMissing n) s = .next { s with blk := s.blk.ppsMiss n.toNat } :=
  State.run_of (if_pos h)

theorem exec_ppsEdgeMissing_other {n : BitVec 2} {s : State} (h : s.blk.refType n.toNat ≠ 1) :
    exec (.ppsEdgeMissing n) s = .next s :=
  State.run_of (if_neg h)

end

/-! ### Edges (R97, R98) -/

/-- The edge at `e` comes within its window after the last accepted one. -/
def RefIn.inWindow (r : RefIn) (e : Int) : Bool :=
  match r.lastEdge with
  | none => true
  | some x => decide ((e - x - 800000000000).natAbs ≤ 800000)

/-- An edge in its window, with the label that names it. -/
def RefIn.edgeTaken (r : RefIn) (e : Int) (label : Option (BitVec 48)) : RefIn :=
  { r with
    lastEdge := some e, miss := 0, label := none
    goodRun := if label.isSome then r.goodRun + 1 else 0
    good := r.good || (label.isSome && decide (4 ≤ r.goodRun + 1)) }

theorem RefIn.edgeTaken_none (r : RefIn) (e : Int) :
    r.edgeTaken e none = { r with lastEdge := some e, miss := 0, label := none, goodRun := 0 } := by
  simp [RefIn.edgeTaken]

section
variable {b : Block} {n : Nat} {t : Ts}

theorem exec_ppsEdge (n : BitVec 2) (t : Ts) (s : State) :
    exec (.ppsEdge n t) s = .next { s with blk := s.blk.ppsEdge n.toNat t } := rfl

theorem Block.ppsEdge_ignored (h : b.dRole ≠ 3 ∨ b.refType n ≠ 1 ∨ t.fine = 0x3FF) : b.ppsEdge n t = b := if_pos h

section
variable (hrole : b.dRole = 3) (htype : b.refType n = 1) (hfine : t.fine ≠ 0x3FF)
include hrole htype hfine

theorem edge_not_ignored : ¬(b.dRole ≠ 3 ∨ b.refType n ≠ 1 ∨ t.fine = 0x3FF) :=
  fun h => h.elim (· hrole) fun h => h.elim (· htype) hfine

theorem Block.ppsEdge_outside (hwin : (b.ref n).inWindow (tsUnits t) = false) :
    b.ppsEdge n t = (b.bucket (some (24 + n)) 5 1).ppsMiss n := by
  rw [Block.ppsEdge, if_neg (edge_not_ignored hrole htype hfine)]
  exact if_pos (congrArg (! ·) hwin)

/-- An edge that no label names starts the run of good edges afresh. -/
theorem Block.ppsEdge_unlabelled (hwin : (b.ref n).inWindow (tsUnits t) = true) (hlabel : (b.ref n).label = none) :
    b.ppsEdge n t = (b.mRef n fun r => r.edgeTaken (tsUnits t) none).refsChange := by
  rw [Block.ppsEdge, if_neg (edge_not_ignored hrole htype hfine)]
  refine (if_neg (Bool.not_eq_true _ ▸ congrArg (! ·) hwin)).trans ?_
  rw [hlabel]
  rfl

/-- At a follower, an edge that a label names with an instant that has no TC64 is only counted (R22). The offset is kept
as a variable: the kernel is not to evaluate the instant's conversion. -/
theorem Block.ppsEdge_noTick {sec : BitVec 48} (hwin : (b.ref n).inWindow (tsUnits t) = true)
    (hlabel : (b.ref n).label = some sec) (hsec : ht96ToTc64 b.dist.time.epoch ⟨sec, 0, 0⟩ = none)
    (hfollow : b.dist.root.role = 2) :
    b.ppsEdge n t = b.mRef n fun r => r.edgeTaken (tsUnits t) (some sec) := by
  rw [Block.ppsEdge, if_neg (edge_not_ignored hrole htype hfine)]
  refine (if_neg (Bool.not_eq_true _ ▸ congrArg (! ·) hwin)).trans ?_
  extract_lets label c d
  have hlab : label = some sec := hlabel
  have hc : c = b.mRef n fun r => r.edgeTaken (tsUnits t) (some sec) := by rw [← hlab]; rfl
  have hd : d = c := refsChange_follower hfollow
  have hoffset : d.ppsOffset n t sec = none := by
    rw [hd, Block.ppsOffset, show ht96ToTc64 c.dist.time.epoch ⟨sec, 0, 0⟩ = none from hsec]
    rfl
  obtain ⟨offset, hf⟩ : ∃ f, f = Block.ppsOffset := ⟨_, rfl⟩
  rw [← hf] at hoffset ⊢
  simp only [hlab, hoffset]
  rw [hd, hc]

end

end

/-! ### The 10 MHz (R98, R106) -/

theorem exec_tenmhzRecover_ten {n : BitVec 2} {s : State} (h : s.blk.refType n.toNat = 2) :
    exec (.tenmhzRecover n) s = .next { s with blk := s.blk.mRef n.toNat fun r => { r with tenGood := true } } :=
  State.run_of (if_pos h)

theorem exec_tenmhzRecover_other {n : BitVec 2} {s : State} (h : s.blk.refType n.toNat ≠ 2) :
    exec (.tenmhzRecover n) s = .next s :=
  State.run_of (if_neg h)

/-! ### ToD messages (R98 to R100) -/

/-- A ToD message at `now` comes between 100 and 900 ms after the last accepted edge. -/
def RefIn.inTime (r : RefIn) (now : Tick) : Bool :=
  match r.lastEdge with
  | none => true
  | some e => decide (80000000000 ≤ (now.toNat : Int) * 640 - e ∧ (now.toNat : Int) * 640 - e ≤ 720000000000)

/-- A message for second `sec` is discarded: it is out of its time, or does not follow the previous one's second. -/
def RefIn.discards (r : RefIn) (now : Tick) (sec : BitVec 48) : Bool :=
  !r.inTime now || (match r.prevSec with | some p => sec != p + 1 | none => false)

theorem RefIn.discards_late {r : RefIn} {now : Tick} {sec : BitVec 48} {e : Int} (hedge : r.lastEdge = some e)
    (h : (now.toNat : Int) * 640 - e < 80000000000 ∨ 720000000000 < (now.toNat : Int) * 640 - e) :
    r.discards now sec = true := by
  have hlate : r.inTime now = false := by
    simp only [RefIn.inTime, hedge, decide_eq_false_iff_not]
    omega
  simp [RefIn.discards, hlate]

theorem RefIn.discards_gap {r : RefIn} {now : Tick} {sec p : BitVec 48} (hprev : r.prevSec = some p) (h : sec ≠ p + 1) :
    r.discards now sec = true := by
  rw [RefIn.discards, Bool.or_eq_true]
  exact .inr (by simpa only [hprev, bne_iff_ne] using h)

section
variable {b : Block} {n : Nat} {m : Bytes} {sec : BitVec 48} {ql : BitVec 4} {fl : Byte}

theorem Block.todMessage_ignored (h : b.dRole ≠ 3 ∨ todParse m = none) : b.todMessage n m = b := by
  rcases h with h | h
  · exact if_pos h
  · simp only [Block.todMessage, h, ite_self]

theorem Block.todMessage_discarded (hparse : todParse m = some (sec, ql, fl))
    (h : (b.ref n).discards b.dist.time.tc64 sec = true) : b.todMessage n m = b := by
  unfold Block.todMessage
  split
  · rfl
  · simp only [hparse]
    exact if_pos h

/-- The first message of an input that has taken no edge yet. -/
theorem Block.todMessage_first (hrole : b.dRole = 3) (hparse : todParse m = some (sec, ql, fl))
    (hedge : (b.ref n).lastEdge = none) (hprev : (b.ref n).prevSec = none) :
    b.todMessage n m = (b.mRef n fun r => { r with
      label := some sec, prevSec := some sec, ql := todQl ql fl, todRun := r.todRun + 1, todBad := 0
      todGood := r.todGood || decide (3 ≤ r.todRun + 1) }).refsChange := by
  simp [Block.todMessage, hrole, hparse, hedge, hprev]

theorem exec_todMessageReceive (n : BitVec 2) (m : Bytes) (s : State) :
    exec (.todMessageReceive n m) s = .next { s with blk := s.blk.todMessage n.toNat m } := rfl

end

/-- A ToD line that has fallen silent. -/
def Block.todSilent (b : Block) (n : Nat) : Block :=
  b.mRef n fun r => { r with todGood := false, todRun := 0, todBad := 0, prevSec := none, ql := 15 }

theorem exec_todTimeout (n : BitVec 2) (s : State) :
    exec (.todTimeout n) s = .next { s with
      blk := if s.blk.candValid n.toNat then (s.blk.todSilent n.toNat).candLost n.toNat else s.blk.todSilent n.toNat } :=
  rfl

/-! ### PTP and ESMC (R101 to R103) -/

section
variable {b : Block} {n : Nat} {dom cls acc : Byte} {ts : Bool} {off : Int}

theorem exec_ptpMessageReceive (n : Bool) (m : PtpMsg) (s : State) :
    exec (.ptpMessageReceive n m) s = .next { s with blk := s.blk.ptpMessage n.toNat m } := rfl

/-- Only a root's enabled port takes messages, and only those of its domain. -/
theorem Block.ptpMessage_ignored (h : b.dRole ≠ 3 ∨ b.catNat .dist (0x2205 + n) 1 ≠ 1 ∨
    dom.toNat ≠ b.catNat .dist (0x2205 + n) 2) :
    b.ptpMessage n (.announce dom cls acc ts) = b ∧ b.ptpMessage n (.exchange dom off) = b := by
  rcases h with h | h | h <;> simp [Block.ptpMessage, h]

theorem Block.ptpMessage_exchange_invalid (h : b.candValid (4 + n) = false) :
    b.ptpMessage n (.exchange dom off) = b := by
  simp [Block.ptpMessage, h]

section
variable (hrole : b.dRole = 3) (hen : b.catNat .dist (0x2205 + n) 1 = 1)
  (hdom : dom.toNat = b.catNat .dist (0x2205 + n) 2)
include hrole hen hdom

/-- An announcement that does not change the QL of a valid candidate, or comes at a port that was not one. -/
theorem Block.ptpMessage_announce
    (h : b.candValid (4 + n) = true → ptpQl cls acc = (b.ptp n).ql) :
    b.ptpMessage n (.announce dom cls acc true) =
      (b.mPtp n fun p => { p with announced := true, ql := ptpQl cls acc }).refsChange := by
  have hsame : (b.candValid (4 + n) && ptpQl cls acc != (b.ptp n).ql) = false := by
    cases hv : b.candValid (4 + n)
    · rfl
    · simp [h hv]
  simp [Block.ptpMessage, hrole, hen, hdom, hsame]

/-- The offset of an exchange at a valid candidate joins its history and reaches the loop. -/
theorem Block.ptpMessage_exchange (h : b.candValid (4 + n) = true) :
    b.ptpMessage n (.exchange dom off) =
      (b.mPtp n fun p => { p with hist := (2 * (off - b.catInt .dist (0x2205 + n) 7) :: p.hist).take 16 }).rootIn (4 + n)
        (2 * (off - b.catInt .dist (0x2205 + n) 7))
        ((2 * (off - b.catInt .dist (0x2205 + n) 7) :: (b.ptp n).hist).take 16) := by
  simp [Block.ptpMessage, hrole, hen, hdom, h]

end

end

/-- A port whose announcements have ceased. -/
def Block.ptpSilent (b : Block) (n : Nat) : Block := b.mPtp n fun p => { p with announced := false }

theorem exec_ptpAnnounceTimeout (n : Bool) (s : State) :
    exec (.ptpAnnounceTimeout n) s = .next { s with
      blk := if s.blk.candValid (4 + n.toNat) then (s.blk.ptpSilent n.toNat).candLost (4 + n.toNat)
        else s.blk.ptpSilent n.toNat } := rfl

/-- Settles O36: an edge by its window and its label, a message by the checks that it passes or fails, and a loss by whether
the candidate was valid. -/
theorem referenceInputs : Obligations.ReferenceInputs := by
  unfold Obligations.ReferenceInputs
  refine ⟨fun n t s => ?inputs, fun n m sec ql fl s => ?tod, fun n dom cls acc ts off s => ?ptp, fun s => ?aon⟩
  case inputs =>
    intro b k r e inWin
    refine ⟨fun h => ?ignored, fun hrole htype hfine hwin hlabel => ?unlabelled,
      fun hrole htype hfine hwin hmiss => ?outside, fun hrole htype hfine hwin hmiss hgood => ?outsideAgain,
      fun sec hrole htype hfine hwin hlabel hsec hfollow => ?noTick, exec_ppsEdgeMissing_other,
      fun htype hmiss => ?missing, fun htype hmiss hgood => ?missingAgain, rfl, exec_tenmhzRecover_ten,
      exec_tenmhzRecover_other, fun hv => ?silent, fun hv => ?silentValid⟩
    case ignored => rw [exec_ppsEdge, Block.ppsEdge_ignored h]
    case unlabelled =>
      rw [exec_ppsEdge, Block.ppsEdge_unlabelled hrole htype hfine hwin hlabel]
      simp only [RefIn.edgeTaken_none]
      rfl
    case outside =>
      rw [exec_ppsEdge, Block.ppsEdge_outside hrole htype hfine hwin, Block.ppsMiss_first (by rwa [ref_bucket])]
    case outsideAgain =>
      rw [exec_ppsEdge, Block.ppsEdge_outside hrole htype hfine hwin,
        Block.ppsMiss_again (by rwa [ref_bucket]) (by rwa [ref_bucket])]
    case noTick =>
      rw [exec_ppsEdge, Block.ppsEdge_noTick hrole htype hfine hwin hlabel hsec hfollow]
      rfl
    case missing => rw [exec_ppsEdgeMissing_one htype, Block.ppsMiss_first hmiss]
    case missingAgain => rw [exec_ppsEdgeMissing_one htype, Block.ppsMiss_again hmiss hgood]
    case silent =>
      rw [exec_todTimeout, hv]
      rfl
    case silentValid =>
      rw [exec_todTimeout, hv]
      rfl
  case tod =>
    intro b k r
    refine ⟨fun h => ?_, fun hrole hparse hedge hprev => ?_, fun p hrole hparse hprev h => ?_,
      fun e hrole hparse hedge h => ?_⟩
    · rw [exec_todMessageReceive, Block.todMessage_ignored h]
    · rw [exec_todMessageReceive, Block.todMessage_first hrole hparse hedge hprev]
    · rw [exec_todMessageReceive, Block.todMessage_discarded hparse (RefIn.discards_gap hprev h)]
    · rw [exec_todMessageReceive, Block.todMessage_discarded hparse (RefIn.discards_late hedge h)]
  case ptp =>
    intro b k was
    refine ⟨fun h => ?ignored, fun hrole hen hdom => ⟨fun hwas hts => ?announced, fun hwas hts hql => ?again,
      fun hwas => ?invalid, fun hwas => ?exchange⟩, fun hwas => ?silent, fun hwas => ?silentValid,
      fun code ext => rfl, rfl⟩
    case ignored =>
      rw [exec_ptpMessageReceive, exec_ptpMessageReceive]
      obtain ⟨hannounce, hexchange⟩ := Block.ptpMessage_ignored h
      exact ⟨by rw [hannounce], by rw [hexchange]⟩
    case announced =>
      rw [hts, exec_ptpMessageReceive,
        Block.ptpMessage_announce hrole hen hdom fun hv => absurd (hv.symm.trans hwas) (by decide)]
    case again =>
      rw [hts, exec_ptpMessageReceive, Block.ptpMessage_announce hrole hen hdom fun _ => hql]
    case invalid => rw [exec_ptpMessageReceive, Block.ptpMessage_exchange_invalid hwas]
    case exchange => rw [exec_ptpMessageReceive, Block.ptpMessage_exchange hrole hen hdom hwas]
    case silent =>
      rw [exec_ptpAnnounceTimeout, show s.blk.candValid (4 + n.toNat) = false from hwas]
      rfl
    case silentValid =>
      rw [exec_ptpAnnounceTimeout, show s.blk.candValid (4 + n.toNat) = true from hwas]
      rfl
  case aon => exact ⟨rfl, rfl, rfl, rfl⟩

end Sys2Proof.Machine
end

section
/-! SUPPORT. A root's selection when a hold-off or a wait ends (R104, R105), the changes of its role (R94), and the learning of
the ageing (R107). -/

namespace Sys2Proof.Machine

open Sys2Proof

/-! ### Selection (R104, R105) -/

section
variable {s : State}

theorem exec_refHoldoffExpire_none (h : s.blk.dist.root.holdoff = none) : exec .refHoldoffExpire s = .next s :=
  State.run_of (if_neg (by rw [h]; decide))

/-- The end of a hold-off selects the best candidate. -/
theorem exec_refHoldoffExpire_some {c : BitVec 3} (h : s.blk.dist.root.holdoff = some c) :
    exec .refHoldoffExpire s = .next { s with blk := s.blk.selectCand s.blk.candBest } :=
  State.run_of (if_pos (by rw [h]; rfl))

theorem exec_refWtrExpire_invalid {c : BitVec 3} (h : s.blk.candValid c.toNat = false) :
    exec (.refWtrExpire c) s = .next s :=
  State.run_of (if_neg (by rw [h]; decide))

theorem exec_refWtrExpire_valid {c : BitVec 3} (h : s.blk.candValid c.toNat = true) :
    exec (.refWtrExpire c) s = .next { s with
      blk := (s.blk.mRoot fun r => { r with wtr := r.wtr &&& ~~~(1#6 <<< c.toNat) }).refsChange } :=
  State.run_of (if_pos h)

end

/-! ### Roles (R94) -/

section
variable {b : Block}

theorem exec_tieHoldoffExpire (s : State) : exec .tieHoldoffExpire s = .next { s with blk := s.blk.tieHoldoff } := rfl

theorem exec_tieSwitchAt (s : State) : exec .tieSwitchAt s = .next { s with blk := s.blk.tieSwitch } := rfl

theorem Block.tieHoldoff_notRoot (h : b.dRole ≠ 3) : b.tieHoldoff = b := if_pos h

theorem Block.tieSwitch_notRoot (h : b.dRole ≠ 3) : b.tieSwitch = b := if_pos (.inl h)

section
variable (hrole : b.dRole = 3)
include hrole

/-- Nothing is heard of another root: one that has no role yet becomes master. -/
theorem Block.tieHoldoff_alone (hr : b.dist.root.role = 0) (hv : b.dist.time.timeValid = false) (hx : b.xmst = false)
    (ht : b.dist.root.tieValid = false) : b.tieHoldoff = b.mRoot fun r => { r with role := 1 } := by
  simp [Block.tieHoldoff, hrole, hr, hv, hx, ht]

/-- A follower that has lost its master leads. -/
theorem Block.tieHoldoff_orphan (hr : b.dist.root.role = 2) (hx : b.xmst = false)
    (ht : b.dist.root.tieValid = false) : b.tieHoldoff = b.lead := by
  simp [Block.tieHoldoff, hrole, hr, hx, ht]

/-- A master that hears another yields, or stays, by its preference. -/
theorem Block.tieHoldoff_rival (hr : b.dist.root.role = 1) (hx : b.xmst = true) :
    b.tieHoldoff = if (if b.catNat .dist 0x2120 1 = Config.otherRolePref then b.dPlane == .B
      else b.catNat .dist 0x2120 1 == 1) then b.follow.measure .dist else b := by
  simp [Block.tieHoldoff, hrole, hr, hx]

end

/-- The tick of the planned switch; 0 is none. -/
def Block.switchTick (b : Block) : Tick := BitVec.ofNat 64 (b.catNat .dist 0x2120 2)

theorem Block.tieSwitch_notDue (h : b.switchTick = 0 ∨ Tick.le b.switchTick b.dist.time.tc64 = false) :
    b.tieSwitch = b :=
  if_pos (.inr (h.imp_right fun h => by rw [← Block.switchTick, h]; rfl))

/-- At its tick the planned switch changes the role. -/
theorem Block.tieSwitch_due (hrole : b.dRole = 3) (hne : b.switchTick ≠ 0)
    (hdue : Tick.le b.switchTick b.dist.time.tc64 = true) :
    b.tieSwitch = if b.dist.root.role = 1 then b.follow else if b.dist.root.role = 2 then b.lead else b := by
  refine if_neg fun h => ?_
  rcases h with h | h | h
  · exact h hrole
  · exact hne h
  · rw [← Block.switchTick, hdue] at h
    exact absurd h (by decide)

end

/-! ### Ageing (R107) -/

section
variable {b : Block}

theorem exec_ageingLearn (s : State) : exec .ageingLearn s = .next { s with blk := s.blk.ageingLearn } := rfl

theorem Block.ageingLearn_notRoot (h : b.dRole ≠ 3) : b.ageingLearn = b := if_pos h

/-- The estimate is renewed with the next free value. -/
def Block.newAgeing (b : Block) : Block :=
  b.draw.2.mRoot fun r => { r with ageingEst := b.draw.1.setWidth 32 }

theorem catNat_newAgeing (b : Block) (u : UnitRef) (i j : Nat) : b.newAgeing.catNat u i j = b.catNat u i j := by
  cases u <;> rfl

section
variable (hrole : b.dRole = 3)
include hrole

/-- Without ageing_learn the estimate stays an estimate, renewed while a reference is followed. -/
theorem Block.ageingLearn_off (hoff : b.catNat .dist 0x2220 4 ≠ 1) :
    b.ageingLearn = if b.dist.root.selected.isSome then b.newAgeing else b := by
  refine (if_neg (not_not_intro hrole)).trans (if_neg ?_)
  split
  · exact (catNat_newAgeing b .dist 0x2220 4).trans_ne hoff
  · exact hoff

/-- With ageing_learn the last estimate becomes the ageing in use. -/
theorem Block.ageingLearn_on (hsel : b.dist.root.selected = none) (hon : b.catNat .dist 0x2220 4 = 1) :
    b.ageingLearn = b.catSetNat .dist 0x2220 3 b.dist.root.ageingEst.toNat := by
  simp [Block.ageingLearn, hrole, hsel, hon]

end

end

/-- Settles O37: the end of a hold-off by what selection picks, a role by the situation of R94 that holds, and the ageing by
whether a reference is followed and the estimate is taken. -/
theorem rootSelection : Obligations.RootSelection := by
  unfold Obligations.RootSelection
  intro s b r t pref
  refine ⟨exec_refHoldoffExpire_none, fun h c hhold hbest => ?candidate, fun h hhold hbest => ?nominal,
    fun c => exec_refWtrExpire_invalid, fun c => exec_refWtrExpire_valid, fun h => ⟨?_, ?_, ?_⟩,
    fun hrole hr hv hx ht => ?alone, fun hrole hr hx ht => ?orphan, fun hrole hr hx => ?rival, fun h => ?notDue,
    fun hrole hne hdue hr => ?yields, fun hrole hne hdue hr => ?leads, fun hrole hsel hoff => ?idle,
    fun hrole hsel hoff => ?renewed, fun hrole hsel hon => ?taken⟩
  case candidate =>
    rw [exec_refHoldoffExpire_some hhold, hbest]
    rfl
  case nominal =>
    rw [exec_refHoldoffExpire_some hhold, hbest]
    rfl
  · rw [exec_tieHoldoffExpire, Block.tieHoldoff_notRoot h]
  · rw [exec_tieSwitchAt, Block.tieSwitch_notRoot h]
  · rw [exec_ageingLearn, Block.ageingLearn_notRoot h]
  case alone => rw [exec_tieHoldoffExpire, Block.tieHoldoff_alone hrole hr hv hx ht]
  case orphan =>
    rw [exec_tieHoldoffExpire, Block.tieHoldoff_orphan hrole hr hx ht]
    rfl
  case rival =>
    rw [exec_tieHoldoffExpire, Block.tieHoldoff_rival hrole hr hx]
    rfl
  case notDue => rw [exec_tieSwitchAt, Block.tieSwitch_notDue h]
  case yields =>
    rw [exec_tieSwitchAt, Block.tieSwitch_due hrole hne hdue, if_pos hr]
    rfl
  case leads =>
    have hne1 : s.blk.dist.root.role ≠ 1 := by rw [show s.blk.dist.root.role = 2 from hr]; decide
    rw [exec_tieSwitchAt, Block.tieSwitch_due hrole hne hdue, if_neg hne1, if_pos hr]
    rfl
  case idle =>
    rw [exec_ageingLearn, Block.ageingLearn_off hrole hoff, show s.blk.dist.root.selected = none from hsel]
    rfl
  case renewed =>
    rw [exec_ageingLearn, Block.ageingLearn_off hrole hoff, if_pos (Option.isSome_iff_ne_none.2 hsel)]
    rfl
  case taken => rw [exec_ageingLearn, Block.ageingLearn_on hrole hsel hon]

end Sys2Proof.Machine
end

section
/-! SUPPORT. The canonical form of tagged memory (log entry 2) through a command on a tagged word at a wait slot (R161 to
R169). -/

namespace Sys2Proof.Machine

open Sys2Proof

/-! ### What leaves tagged memory as it is -/

theorem lessWaits_tm {b c : Block} (h : b.lessWaits = c.lessWaits) : b.tsu.tm = c.tsu.tm :=
  congrArg (fun x => x.tsu.tm) h

@[simp] theorem wsDone_tm (b : Block) (i : Nat) (r : WRes) : (b.wsDone i r).tsu.tm = b.tsu.tm :=
  lessWaits_tm (lessWaits_wsDone b i r)

@[simp] theorem mWslot_tm (b : Block) (i : Nat) (f : WSlot → WSlot) : (b.mWslot i f).tsu.tm = b.tsu.tm := rfl

@[simp] theorem demand_tm (b : Block) : b.demand.tsu.tm = b.tsu.tm := rfl

@[simp] theorem hold_tm (b : Block) (e : EngOp) : (b.hold e).tsu.tm = b.tsu.tm := rfl

@[simp] theorem violate_tm (b : Block) (src : BitVec 4) (q : Req) (w : Bool) (a : BitVec 64) :
    (b.violate src q w a).tsu.tm = b.tsu.tm := rfl

@[simp] theorem powerErr_tm (b : Block) (q : Req) : (b.powerErr q).tsu.tm = b.tsu.tm := by
  unfold Block.powerErr
  split <;> rfl

/-! ### One operation on a word -/

/-- What every turn keeps, all keep. -/
theorem Block.each_preserves {α : Type} {P : Block → Prop} {f : Block → α → Block} (h : ∀ b a, P b → P (f b a))
    (l : List α) {b : Block} (hb : P b) : P (b.each l f) :=
  List.foldlRecOn l f hb fun b hb a _ => h b a hb

/-- Tagged memory of the block is in its canonical form. -/
def Block.tmWf (b : Block) : Prop := b.tsu.tm.wf = true

section
variable {b : Block}

theorem Block.tmWf.of_tm {c : Block} (h : b.tmWf) (e : c.tsu.tm = b.tsu.tm) : c.tmWf := (congrArg TagMem.wf e).trans h

theorem Block.tmWf.set (h : b.tmWf) (n : Nat) (x : TWord) : (b.mTm fun m => m.set n x).tmWf := TagMem.set_wf _ n x h

theorem Block.tmWf.wordUe (h : b.tmWf) (n : Nat) : (b.wordUe n).tmWf := h

theorem Block.tmWf.wordFix (h : b.tmWf) (n : Nat) : (b.wordFix n).tmWf := by
  unfold Block.wordFix
  dsimp only
  split
  · exact TagMem.set_wf _ n _ h
  · exact h

theorem Block.tmWf.wordTry (h : b.tmWf) (q : Req) (src : BitVec 4) (n op : Nat) (d : BitVec 64) (waits : Bool) :
    (b.wordTry q src n op d waits).2.tmWf := by
  unfold Block.wordTry
  split
  case isTrue => exact h.of_tm (violate_tm _ _ _ _ _)
  dsimp only
  split
  case isTrue => exact h.wordUe n
  split
  case isTrue => exact (h.wordFix n).of_tm (violate_tm _ _ _ _ _)
  cases wordOp op d waits ((b.wordFix n).regionWorld n) ((b.wordFix n).tsu.tm.get n) with
  | none => exact h.wordFix n
  | some rx =>
    obtain ⟨r, x⟩ := rx
    dsimp only
    split
    · exact h.wordFix n
    · exact (h.wordFix n).set n x

/-- The examination of the operations that wait on a word (R168). -/
theorem Block.tmWf.examine (h : b.tmWf) (n : Nat) : (b.examine n).tmWf := by
  refine Block.each_preserves (fun b x hb => ?_) _ h
  have ht := hb.wordTry (b.ctxReq (x.1 / 8)) 1 n x.2.op.toNat x.2.wdata true
  dsimp only
  split
  · exact ht
  · exact ht.of_tm (wsDone_tm _ _ _)

theorem Block.tmWf.wordSlot (h : b.tmWf) (i : Nat) (o : WOp) : (b.wordSlot i o).tmWf := by
  unfold Block.wordSlot
  have ht := h.wordTry (b.ctxReq (i / 8)) 1 (o.addr.toNat % 524288) o.op.toNat o.wdata (!o.flags.nowait)
  dsimp only
  split
  · exact ht
  · have hd := fun r => ht.of_tm (wsDone_tm _ i r)
    split
    · exact hd _
    · exact (hd _).examine _

theorem Block.tmWf.onWord (h : b.tmWf) (n : Nat) (e : EngOp) {f : Block → Block} (hf : ∀ c : Block, c.tmWf → (f c).tmWf) :
    (b.onWord n e f).tmWf := by
  unfold Block.onWord
  split
  · exact h.of_tm (hold_tm b e)
  · exact hf _ (h.of_tm (demand_tm b))

/-! ### The command -/

/-- An operation on a local word is performed there, or held. -/
theorem Block.wsPerform_word {i : Nat} {o : WOp} (ho : (b.wslot i).op = some o) (hs : o.space = 0) :
    b.wsPerform i = b.onWord (o.addr.toNat % 524288) (.waitOp (i / 8) (i % 8)) fun b =>
      (b.mWslot i fun w => { w with op := some { o with held := false } }).wordSlot i { o with held := false } := by
  rw [Block.wsPerform, ho]
  exact if_pos hs

/-- The block in which a command's operation has been taken, before it is performed (R169). -/
def Block.takeOp (b : Block) (i : Nat) (o : WOp) : Block :=
  (b.mWslot i fun w => { w with op := some o }).mTsu fun t => { t with wseq := t.wseq + 1 }

theorem Block.takeOp_wslot (i : Nat) (o : WOp) (j : Nat) :
    (b.takeOp i o).wslot j = if i = j then { b.wslot i with op := some o } else b.wslot j :=
  wslot_mWslot b i j fun w => { w with op := some o }

/-- A command on a word, or on a barrier slot that its VBID names, past the checks of its issue. -/
theorem Block.wsIssue_takes {c k : Nat} {space : BitVec 2} {op : BitVec 4} {f : WsFlags}
    (hfree : (b.wslot (wsIdx c k)).op = none) (hstop : b.issueStop c space op = none) (hhall : space ≠ 1)
    (hslot : space = 2 → (b.newOp c (wsIdx c k) space op f).slot.isNone = false) :
    b.wsIssue c k space op f = (b.takeOp (wsIdx c k) (b.newOp c (wsIdx c k) space op f)).wsPerform (wsIdx c k) := by
  have hmap : ¬(space = 2 ∧ (b.newOp c (wsIdx c k) space op f).slot.isNone = true) := fun ⟨h2, h⟩ =>
    absurd ((hslot h2).symm.trans h) (by decide)
  unfold Block.wsIssue
  dsimp only
  rw [hfree, if_neg (show ¬(none : Option WOp).isSome = true by decide), hstop]
  exact (if_neg hhall).trans (if_neg hmap)

theorem Block.tmWf.wsIssue (h : b.tmWf) (c k : Nat) (op : BitVec 4) (f : WsFlags) : (b.wsIssue c k 0 op f).tmWf := by
  cases hop : (b.wslot (wsIdx c k)).op with
  | some o =>
    rw [Block.wsIssue, hop]
    exact h.of_tm (mWslot_tm _ _ _)
  | none =>
    cases hstop : b.issueStop c 0 op with
    | some st =>
      simp only [Block.wsIssue, hop, hstop]
      exact h.of_tm (wsDone_tm _ _ _)
    | none =>
      rw [Block.wsIssue_takes hop hstop (by decide) (fun h => absurd h (by decide)),
        Block.wsPerform_word (o := b.newOp c (wsIdx c k) 0 op f) (by rw [Block.takeOp_wslot, if_pos rfl]) rfl]
      exact Block.tmWf.onWord (b := b.takeOp _ _) h _ _ fun c hc => (hc.of_tm (mWslot_tm _ _ _)).wordSlot _ _

theorem Block.tmWf.regCmd (h : b.tmWf) (q : Req) (a : Nat) (res : Bool) {f : Block → Block} (hf : (f b).tmWf) :
    (b.regCmd q a res f).tmWf := by
  unfold Block.regCmd
  split
  · exact h
  · exact h.of_tm (violate_tm _ _ _ _ _)
  · exact h.of_tm (powerErr_tm b q)
  · exact hf

end

/-- A command on a tagged word, whatever the access meets. -/
theorem wsCmd_word_tmWf {a : Access} {c : Ctx6} {k : BitVec 3} {op : BitVec 4} {f : WsFlags} {s t : State}
    (h : s.blk.tmWf) (ht : s.wsCmd a c k 0 op f = .next t) : t.blk.tmWf := by
  rw [State.wsCmd, State.run_eq] at ht
  cases ht
  exact h.regCmd _ _ _ (h.wsIssue _ _ _ _)

/-- Settles O47: every write of a word keeps the form, and all else leaves the words as they are. -/
theorem taggedMemoryForm : Obligations.TaggedMemoryForm := by
  unfold Obligations.TaggedMemoryForm
  intro a c k f i s t hi hwf ht
  simp only [List.mem_cons, List.not_mem_nil, or_false] at hi
  rcases hi with rfl | rfl | rfl | rfl | rfl | rfl <;> exact wsCmd_word_tmWf hwf ht

end Sys2Proof.Machine
end

section
/-! SUPPORT. FILL_COUNT on every word (R167). -/

namespace Sys2Proof.Machine

open Sys2Proof

/-! ### The count field of a word -/

/-- A word with another COUNT. -/
def putCount (d : BitVec 64) (c : BitVec 20) : BitVec 64 := (d &&& ~~~0xFFFFF#64) ||| put 0 c

theorem getLsbD_countMask (i : Nat) : (0xFFFFF#64).getLsbD i = decide (i < 20) := by
  rw [show (0xFFFFF#64) = (BitVec.allOnes 20).setWidth 64 by decide, BitVec.getLsbD_setWidth, BitVec.getLsbD_allOnes]
  by_cases hi : i < 20
  · simp [hi, show i < 64 by omega]
  · simp [hi]

theorem getLsbD_putCount (d : BitVec 64) (c : BitVec 20) (i : Nat) :
    (putCount d c).getLsbD i = if i < 20 then c.getLsbD i else d.getLsbD i := by
  simp only [putCount, put, BitVec.shiftLeft_zero, BitVec.getLsbD_or, BitVec.getLsbD_and, BitVec.getLsbD_not,
    BitVec.getLsbD_setWidth, getLsbD_countMask]
  by_cases hi : i < 20
  · simp [hi, show i < 64 by omega]
  · by_cases hw : i < 64
    · simp [hi, hw, BitVec.getLsbD_of_ge c i (by omega)]
    · simp [hi, hw, BitVec.getLsbD_of_ge d i (by omega)]

@[simp] theorem fld_putCount (d : BitVec 64) (c : BitVec 20) : fld (putCount d c) 0 20 = c := by
  refine BitVec.eq_of_getLsbD_eq fun i hi => ?_
  simp [fld, getLsbD_putCount, hi]

/-- The fields above COUNT are kept. -/
theorem fld_putCount_above (d : BitVec 64) (c : BitVec 20) (lo n : Nat) (h : 20 ≤ lo) :
    fld (putCount d c) lo n = fld d lo n := by
  refine BitVec.eq_of_getLsbD_eq fun i hi => ?_
  simp [fld, getLsbD_putCount, show ¬lo + i < 20 by omega]

/-! ### The operation -/

section
variable (n : BitVec 20) (rw : Bool) (w : TWord)

/-- COUNT and the increment, before saturation. -/
def TWord.fillSum : Nat := (fld w.data 0 20).toNat + n.toNat

/-- COUNT after the addition, saturated. -/
def TWord.filled : Nat := if 1048575 < w.fillSum n then 1048575 else w.fillSum n

/-- TARGET of a word. -/
def TWord.target : Nat := (fld w.data 32 20).toNat

/-- The fill makes an EMPTY word FULL. -/
def TWord.fills : Bool := !w.fe && decide (w.target ≤ w.filled n)

theorem TWord.filled_lt : w.filled n < 2 ^ 20 := by
  unfold TWord.filled
  split <;> omega

theorem fillCount_eq : fillCount n rw w =
    ({ w with data := putCount w.data (BitVec.ofNat 20 (if w.fills n then w.filled n - w.target else w.filled n))
              fe := w.fe || w.fills n, w := rw },
     decide (1048575 < w.fillSum n), BitVec.ofNat 20 (if w.fills n then w.filled n - w.target else w.filled n)) := rfl

theorem fillCount_count_toNat :
    (fillCount n rw w).2.2.toNat = if w.fills n then w.filled n - w.target else w.filled n := by
  rw [fillCount_eq]
  have hlt := w.filled_lt n
  refine Nat.mod_eq_of_lt ?_
  split <;> omega

/-- With TARGET 0 every fill makes the word FULL. -/
theorem TWord.fills_target_zero (h : w.target = 0) : (w.fe || w.fills n) = true := by
  simp [TWord.fills, h]

theorem wordOp_fill (d : BitVec 64) (waits : Bool) : wordOp 4 d waits rw w =
    some ({ status := stOK, full := (fillCount (d.setWidth 20) rw w).1.fe, w := rw
            sat := (fillCount (d.setWidth 20) rw w).2.1, count := (fillCount (d.setWidth 20) rw w).2.2
            rdata := (fillCount (d.setWidth 20) rw w).1.data }, (fillCount (d.setWidth 20) rw w).1) := rfl

end

end Sys2Proof.Machine
end

section
/-! SUPPORT. The commands on a tagged word that is free, at a wait slot that is free (R165 to R169). -/

namespace Sys2Proof.Machine

open Sys2Proof

section
variable {s : State} {a : Access} {c : Ctx6} {k : BitVec 3} {f : WsFlags}

/-! ### A wait slot that takes a command -/

theorem Block.slotFree_iff {b : Block} {c k : Nat} : b.slotFree a c k = true ↔
    b.check (portReq a) (wsReg c k 0x10) (worldOk (portReq a) (b.ctxWorld c)) = .ok ∧
      (b.wslot (wsIdx c k)).op = none ∧ (b.ctx c).st ≠ .off ∧ (b.ctx c).st ≠ .stopping ∧ (b.ctx c).st ≠ .halt ∧
      (b.ctx c).missedWin = false := by
  simp [Block.slotFree, and_assoc]

theorem Block.slotFree.issueStop {b : Block} {c k : Nat} (h : b.slotFree a c k = true) {space : BitVec 2} {op : BitVec 4}
    (hpair : opPairs space op = true) : b.issueStop c space op = none := by
  obtain ⟨_, _, hoff, hstop, hhalt, hmiss⟩ := Block.slotFree_iff.1 h
  simp [Block.issueStop, hoff, hstop, hhalt, hmiss, hpair]

/-- The command at a free slot passes the checks of the register port and is answered. -/
theorem State.wsCmd_free (hfree : s.blk.slotFree a c.toNat k.toNat = true) (space : BitVec 2) (op : BitVec 4) :
    s.wsCmd a c k space op f =
      .next { s with blk := (s.blk.wsIssue c.toNat k.toNat space op f).emit (.reg none 0 0) } :=
  State.run_regCmd_ok _ (Block.slotFree_iff.1 hfree).1

/-! ### What a completed operation leaves of tagged memory -/

theorem WordDone.get {t : State} {i n : Nat} {r : WRes} {x : TWord} (h : WordDone s t i n r x) (j : Nat) :
    t.blk.tsu.tm.get j = if n = j then x else s.blk.tsu.tm.get j := by
  obtain ⟨_, htm, _⟩ := h
  rw [htm]
  split
  case isTrue hx =>
    split
    · next hj => rw [hx, hj]
    · rfl
  · exact tm_get_set _ n j x

/-! ### The commands -/

section
variable (hfree : s.blk.slotFree a c.toNat k.toNat = true) (hidle : ∀ e ∈ s.blk.tsu.ws, e.2.op = none)
  (hword : s.blk.wordFree c.toNat ((s.blk.wslot (wsIdx c.toNat k.toNat)).addr.toNat % 524288) = true)
include hfree hidle hword

/-- An operation that need not wait completes with its result. -/
theorem wsCmd_wordDone {op : BitVec 4} (hop : op.toNat ≤ 5) {r : WRes} {x : TWord}
    (ho : wordOp op.toNat (s.blk.wslot (wsIdx c.toNat k.toNat)).wdata (!f.nowait)
      (s.blk.regionWorld ((s.blk.wslot (wsIdx c.toNat k.toNat)).addr.toNat % 524288))
      (s.blk.tsu.tm.get ((s.blk.wslot (wsIdx c.toNat k.toNat)).addr.toNat % 524288)) = some (r, x)) :
    ∃ t, s.wsCmd a c k 0 op f = .next t ∧ WordDone s t (wsIdx c.toNat k.toNat)
      ((s.blk.wslot (wsIdx c.toNat k.toNat)).addr.toNat % 524288) r x :=
  ⟨_, State.wsCmd_free hfree 0 op, wsIssue_word s a c.toNat k.toNat op f k.isLt hfree hidle hop hword r x ho⟩

end

end

/-- Settles O49: the fields of the word that FILL_COUNT leaves, and the command that performs it on a free word. -/
theorem fillCount_spec : Obligations.FillCount := by
  unfold Obligations.FillCount
  intro filled
  have hop : ∀ (d : BitVec 64) (waits rw : Bool) (w : TWord), ∃ r v, wordOp 4 d waits rw w = some (r, v) ∧
      v.w = rw ∧ r.w = rw ∧ filled w v r (d.toNat % 1048576) := by
    intro d waits rw w
    have hd : (d.setWidth 20).toNat = d.toNat % 1048576 := BitVec.toNat_setWidth 20 d
    refine ⟨_, _, wordOp_fill rw w d waits, rfl, rfl, ?_⟩
    dsimp only [filled]
    rw [← hd]
    refine ⟨rfl, ?_, ?_, ?_, ?_, ?_, rfl, rfl, rfl, rfl, ?_, rfl⟩
    · exact (congrArg BitVec.toNat (fld_putCount _ _)).trans (fillCount_count_toNat _ rw w)
    · exact fld_putCount_above _ _ 32 20 (by decide)
    · exact fld_putCount_above _ _ 20 12 (by decide)
    · exact fld_putCount_above _ _ 52 12 (by decide)
    · exact w.fills_target_zero _
    · exact (fld_putCount _ _).symm
  refine ⟨fun d waits rw w => ?_, fun a c k f s hfree => ?_⟩
  · obtain ⟨r, v, hw, hv, _, hf⟩ := hop d waits rw w
    exact ⟨r, v, hw, hv, hf⟩
  · intro i n hword hidle
    obtain ⟨r, v, hw, hv, hrw, hf⟩ := hop (s.blk.wslot i).wdata (!f.nowait) (s.blk.regionWorld n) (s.blk.tsu.tm.get n)
    obtain ⟨t, ht, hdone⟩ := wsCmd_wordDone (op := 4) hfree hidle hword (by decide) hw
    have hget := hdone.get
    obtain ⟨⟨hopn, hst, hsat, _, hfull, hww, hcnt, hrd⟩, _, hslots, _, hdist, hpend⟩ := hdone
    have hn : t.blk.tsu.tm.get n = v := (hget n).trans (if_pos rfl)
    have ⟨_, _, _, _, _, _, _, hok, _⟩ := hf
    exact ⟨t, r, ht, hn ▸ hf, hn ▸ hv, ⟨hopn, hst.trans hok, hsat, hfull, hww.trans hrw, hcnt, hrd⟩,
      fun j hj => (hget j).trans (if_neg (Ne.symm hj)), hslots, hdist, hpend⟩

end Sys2Proof.Machine
end

section
/-! SUPPORT. Operations on a tagged word that have to wait (R166, R168, R169). -/

namespace Sys2Proof.Machine

open Sys2Proof

/-- The count of R167 as a minimum. -/
theorem TWord.filled_eq_min (n : BitVec 20) (w : TWord) : w.filled n = min (w.fillSum n) 1048575 := by
  unfold TWord.filled
  split <;> omega

/-! ### The operations by what the word's FE is (R166) -/

section
variable {d : BitVec 64} {waits rw : Bool} {w : TWord}

theorem wordOp_consume_full (h : w.fe = true) : wordOp 0 d waits rw w =
    some ({ status := stOK, full := false, w := w.w, rdata := w.data }, { w with fe := false }) := if_pos h

theorem wordOp_read_full (h : w.fe = true) : wordOp 1 d waits rw w =
    some ({ status := stOK, full := true, w := w.w, rdata := w.data }, w) := by
  simp [wordOp, h]

theorem wordOp_produce_empty (h : w.fe = false) : wordOp 2 d waits rw w =
    some ({ status := stOK, full := true, w := rw }, { w with data := d, fe := true, w := rw }) := by
  simp [wordOp, h]

theorem wordOp_consume_empty (h : w.fe = false) : wordOp 0 d waits rw w =
    if waits then none else some ({ status := stNOTREADY, full := false, w := w.w }, w) := by
  simp [wordOp, h]

theorem wordOp_read_empty (h : w.fe = false) : wordOp 1 d waits rw w =
    if waits then none else some ({ status := stNOTREADY, full := false, w := w.w }, w) := by
  simp [wordOp, h]

theorem wordOp_produce_full (h : w.fe = true) : wordOp 2 d waits rw w =
    if waits then none else some ({ status := stREFUSED, full := true, w := w.w }, w) := by
  simp [wordOp, h]

end

/-! ### Waiting -/

section
variable {b : Block} {c k n : Nat} {op : BitVec 4} {f : WsFlags}

/-- An attempt on a free word that has to wait leaves all as it is. -/
theorem wordTry_waits {q : Req} {src : BitVec 4} {op : Nat} {d : BitVec 64} {waits : Bool}
    (hregion : (!q.secure && b.regionWorld n) = false) (hecc : (b.tsu.tm.get n).ecc = .good)
    (hw : (!q.secure && (b.tsu.tm.get n).w) = false)
    (ho : wordOp op d waits (b.regionWorld n) (b.tsu.tm.get n) = none) :
    b.wordTry q src n op d waits = (none, b) := by
  have hfix : b.wordFix n = b := if_neg (by rw [hecc]; decide)
  simp [Block.wordTry, hregion, hecc, hfix, hw, ho]

theorem Block.wordFree_iff : b.wordFree c n = true ↔
    b.engOn = true ∧ b.wordHeld n = false ∧ (b.tsu.tm.get n).ecc = .good ∧
      (b.ctxWorld c = true ∨ b.regionWorld n = false ∧ (b.tsu.tm.get n).w = false) := by
  simp [Block.wordFree, and_assoc]

theorem wordStart_op (i : Nat) (o : WOp) : ((wordStart b i o).wslot i).op = some o := by
  rw [wordStart, wslot_mWslot, if_pos rfl]

/-- An operation that has to wait stays outstanding at its slot. -/
theorem wsIssue_waits {a : Access} (hk : k < 8) (hfree : b.slotFree a c k = true) (hop : op.toNat ≤ 5)
    (hword : b.wordFree c ((b.wslot (wsIdx c k)).addr.toNat % 524288) = true)
    (ho : wordOp op.toNat (b.wslot (wsIdx c k)).wdata (!f.nowait)
      (b.regionWorld ((b.wslot (wsIdx c k)).addr.toNat % 524288))
      (b.tsu.tm.get ((b.wslot (wsIdx c k)).addr.toNat % 524288)) = none) :
    b.wsIssue c k 0 op f = wordStart b (wsIdx c k) (wordOpOf b (wsIdx c k) op f) := by
  obtain ⟨_, _, hecc, hworld⟩ := Block.wordFree_iff.1 hword
  have hc : wsIdx c k / 8 = c := by unfold wsIdx; omega
  rw [wsIssue_reach b a c k op f hfree hop hword]
  generalize hst : wordStart b (wsIdx c k) (wordOpOf b (wsIdx c k) op f) = b1
  have htm : b1.tsu.tm = b.tsu.tm := by rw [← hst, wordStart_tm]
  have hrw : ∀ n, b1.regionWorld n = b.regionWorld n := fun n => by rw [← hst, wordStart_rw]
  have hcw : b1.ctxWorld c = b.ctxWorld c := by rw [← hst, wordStart_world]
  have htry : b1.wordTry (b1.ctxReq (wsIdx c k / 8)) 1 ((b.wslot (wsIdx c k)).addr.toNat % 524288) op.toNat
      (b.wslot (wsIdx c k)).wdata (!f.nowait) = (none, b1) := by
    rw [hc]
    refine wordTry_waits ?_ ?_ ?_ ?_
    · rw [hrw, Block.ctxReq, hcw]
      rcases hworld with h | ⟨h, _⟩ <;> simp [h]
    · rw [htm, hecc]
    · rw [htm, Block.ctxReq, hcw]
      rcases hworld with h | ⟨_, h⟩ <;> simp [h]
    · rw [hrw, htm, ho]
  unfold Block.wordSlot
  dsimp only [wordOpOf]
  rw [htry]

end

/-- Settles O12: each operation by what R166 says of the word's FE, and the arithmetic of R167. -/
theorem taggedWordOperations : Obligations.TaggedWordOperations := by
  unfold Obligations.TaggedWordOperations
  refine ⟨fun a c k f s hfree hidle hword => ?commands, fun x rw w => ?fill⟩
  case commands =>
    have done := fun (op : BitVec 4) (hop : op.toNat ≤ 5) (r : WRes) (x : TWord) =>
      wsCmd_wordDone (f := f) hfree hidle hword hop (r := r) (x := x)
    intro i n d w rw
    refine ⟨fun hfe => done 0 (by decide) _ _ (wordOp_consume_full hfe),
      fun hfe => done 1 (by decide) _ _ (wordOp_read_full hfe),
      fun hfe => done 2 (by decide) _ _ (wordOp_produce_empty hfe), done 3 (by decide) _ _ rfl,
      done 4 (by decide) _ _ (wordOp_fill _ _ _ _), done 5 (by decide) _ _ rfl,
      fun hfe hnow => done 0 (by decide) _ _ ?_, fun hfe hnow => done 1 (by decide) _ _ ?_,
      fun hfe hnow => done 2 (by decide) _ _ ?_, fun hfe hnow => ?waits⟩
    · exact (wordOp_consume_empty hfe).trans (if_neg (by simp [hnow]))
    · exact (wordOp_read_empty hfe).trans (if_neg (by simp [hnow]))
    · exact (wordOp_produce_full hfe).trans (if_neg (by simp [hnow]))
    case waits =>
      have hwait := wsIssue_waits (f := f) (op := 0) k.isLt hfree (by decide) hword
        ((wordOp_consume_empty hfe).trans (if_pos (by simp [hnow])))
      refine ⟨_, State.wsCmd_free hfree 0 0, ?_⟩
      rw [hwait]
      exact ⟨congrArg Option.isSome (wordStart_op i _), wordStart_tm _ _ _⟩
  case fill =>
    intro c target
    have hc : w.filled x = c := w.filled_eq_min x
    have hfills : w.fills x = (!w.fe && decide (target ≤ c)) := by rw [← hc]; rfl
    have hfe : (fillCount x rw w).1.fe = (w.fe || w.fills x) := rfl
    rw [fillCount_count_toNat, hfe, hfills, hc]
    refine ⟨fun he hle => ?reached, fun he hlt => ?below, fun he => ?full, rfl, rfl⟩
    case reached => simp [he, hle, show w.target = target from rfl]
    case below => simp [he, Nat.not_le.2 hlt]
    case full => simp [he]

end Sys2Proof.Machine
end

section
/-! SUPPORT. Barrier slots and DIE semaphores where no operation waits on them (R147, R148, R159). -/

namespace Sys2Proof.Machine

open Sys2Proof

/-! ### Slots after updates -/

section
variable (b : Block) (n : Nat)

@[simp] theorem slot_mSlot (f : Slot → Slot) (j : Nat) :
    (b.mSlot n f).slot j = if n = j then f (b.slot n) else b.slot j :=
  smGet_smMod _ b.tsu.bar.slots n f j

theorem slot_mSlot_self (f : Slot → Slot) : (b.mSlot n f).slot n = f (b.slot n) := by rw [slot_mSlot, if_pos rfl]

/-- Two updates of a slot are one. -/
theorem mSlot_mSlot (f g : Slot → Slot) : (b.mSlot n f).mSlot n g = b.mSlot n fun x => g (f x) := by
  simp [Block.mSlot, Block.mBar]

theorem mSlot_congr {f g : Slot → Slot} (h : f (b.slot n) = g (b.slot n)) : b.mSlot n f = b.mSlot n g :=
  congrArg (fun x => b.mBar fun y => { y with slots := smPut {} y.slots n x }) h

@[simp] theorem slot_mWslot (i : Nat) (f : WSlot → WSlot) : (b.mWslot i f).slot n = b.slot n := rfl

@[simp] theorem slot_emit (o : Out) : (b.emit o).slot n = b.slot n := rfl

theorem wsDone_bar (i : Nat) (r : WRes) : (b.wsDone i r).tsu.bar = b.tsu.bar := by
  obtain ⟨_, h⟩ := wsDone_tsu b i r
  rw [h]

@[simp] theorem closers_mSlot (j : Nat) (f : Slot → Slot) : (b.mSlot j f).closers n = b.closers n := rfl

end

/-! ### What waits -/

/-- Every outstanding operation is still to be performed: none waits on a phase, a count or a word. -/
def Block.noneWaits (b : Block) : Prop := ∀ e ∈ b.tsu.ws, ∀ o, e.2.op = some o → o.held = true

section
variable {b : Block}

theorem wsWhere_noneWaits (h : b.noneWaits) {p : Nat → WOp → Bool} (hp : ∀ i o, o.held = true → p i o = false) :
    b.wsWhere p = [] := by
  unfold Block.wsWhere
  dsimp only
  generalize hl : List.filterMap _ b.tsu.ws = l
  have hnil : l = [] := by
    rw [← hl, List.filterMap_eq_nil_iff]
    intro e he
    split
    · next o ho => exact if_neg (by rw [hp e.1 o (h e he o ho)]; decide)
    · rfl
  rw [hnil]
  rfl

theorem releasePhase_noneWaits (h : b.noneWaits) (n : Nat) (ph : Bool) : b.releasePhase n ph = b := by
  unfold Block.releasePhase
  rw [wsWhere_noneWaits h fun _ o ho => by simp [ho]]
  rfl

theorem takes_noneWaits (h : b.noneWaits) (n : Nat) : b.takes n = [] := wsWhere_noneWaits h fun _ o ho => by simp [ho]

theorem semServe_noneWaits (h : b.noneWaits) (n : Nat) : b.semServe n = b := by
  unfold Block.semServe
  rw [takes_noneWaits h]
  exact ite_self b

theorem Block.noneWaits.mSlot (h : b.noneWaits) (n : Nat) (f : Slot → Slot) : (b.mSlot n f).noneWaits := h

end

/-! ### One arrival -/

/-- A slot in which `c` arrivals of a phase are counted. -/
def Slot.counted (x : Slot) (s : Bool) (c : Nat) (sat void : Bool) : Slot :=
  if s then { x with c1 := c, sat := x.sat || sat, void1 := x.void1 || void }
  else { x with c0 := c, sat := x.sat || sat, void0 := x.void0 || void }

section
variable (x : Slot) (s : Bool) (c : Nat) (sat void : Bool)

@[simp] theorem Slot.counted_kind : (x.counted s c sat void).kind = x.kind := by cases s <;> rfl
@[simp] theorem Slot.counted_scope : (x.counted s c sat void).scope = x.scope := by cases s <;> rfl
@[simp] theorem Slot.counted_sense : (x.counted s c sat void).sense = x.sense := by cases s <;> rfl
@[simp] theorem Slot.counted_sent : (x.counted s c sat void).sent = x.sent := by cases s <;> rfl
@[simp] theorem Slot.counted_need : (x.counted s c sat void).need = x.need := by cases s <;> rfl
@[simp] theorem Slot.counted_count : (x.counted s c sat void).count s = c := by cases s <;> rfl
@[simp] theorem Slot.counted_count_other : (x.counted s c sat void).count (!s) = x.count (!s) := by cases s <;> rfl

end

/-- EXPECT fits the count (R147). -/
theorem Slot.need_le (x : Slot) : x.need ≤ cntMax := by
  have h : x.expect.toNat < 2 ^ 20 := x.expect.isLt
  unfold Slot.need cntMax
  split <;> omega

/-- The count that a phase reaches with `n` more arrivals, where 0 acts as 1 (R147). -/
def Slot.sum (x : Slot) (s : Bool) (n : BitVec 20) : Nat := x.count s + max 1 n.toNat

/-- What WS_WAIT shows of an arrival that is counted (R147, R148). -/
def Slot.arrivalRes (x : Slot) (s : Bool) (n : BitVec 20) : WRes :=
  let ovr := s == x.sense && decide (x.need < min (x.sum s n) cntMax)
  { status := stOK, sat := decide (cntMax < x.sum s n), ovr := ovr
    count := BitVec.ofNat 20 (if ovr then x.need else min (x.sum s n) cntMax) }

/-- An arrival before the die's has been made is counted. -/
theorem Slot.arrive_counted {x : Slot} (hsent : x.sent = false) (s : Bool) (n : BitVec 20) (void : Bool) :
    x.arrive s n void =
      (x.counted s (min (x.sum s n) cntMax) (decide (cntMax < x.sum s n)) void, false, x.arrivalRes s n) := by
  have hn : (if n.toNat = 0 then 1 else n.toNat) = max 1 n.toNat := by split <;> omega
  have hc : (if cntMax < x.count s + max 1 n.toNat then cntMax else x.count s + max 1 n.toNat) =
      min (x.sum s n) cntMax := by
    unfold Slot.sum
    split <;> omega
  unfold Slot.arrive
  rw [if_neg (by simp [hsent])]
  simp only [hn, hc]
  cases s <;> rfl

/-! ### The end of a phase -/

/-- A slot whose phase has completed at once (R148). -/
def Slot.completed (x : Slot) : Slot :=
  let y := { x.setCount x.sense 0 with
    ovr := x.ovr || decide (x.need < x.count x.sense), sense := !x.sense, sent := false }
  if x.sense then { y with void1 := false } else { y with void0 := false }

section
variable (x : Slot)

@[simp] theorem Slot.completed_sense : x.completed.sense = !x.sense := by
  cases h : x.sense <;> simp [Slot.completed, h]

@[simp] theorem Slot.completed_sent : x.completed.sent = false := by
  cases h : x.sense <;> simp [Slot.completed, h]

@[simp] theorem Slot.completed_need : x.completed.need = x.need := by
  cases h : x.sense <;> simp [Slot.completed, h, Slot.setCount, Slot.need]

@[simp] theorem Slot.completed_count : x.completed.count x.sense = 0 := by
  cases h : x.sense <;> simp [Slot.completed, h, Slot.setCount, Slot.count]

@[simp] theorem Slot.completed_count_other : x.completed.count (!x.sense) = x.count (!x.sense) := by
  cases h : x.sense <;> simp [Slot.completed, h, Slot.setCount, Slot.count]

@[simp] theorem Slot.completed_void : x.completed.void x.sense = false := by
  cases h : x.sense <;> simp [Slot.completed, h, Slot.void]

end

section
variable {b : Block} {n : Nat}

/-- A count below EXPECT completes nothing. -/
theorem Block.reach_below (h : (b.slot n).count (b.slot n).sense < (b.slot n).need) (f : Nat) : Block.reach f b n = b := by
  cases f with
  | zero => rfl
  | succ f => exact if_neg fun ⟨_, _, hle⟩ => absurd hle (Nat.not_le.2 h)

/-- The phase of a DIE barrier that closes no context completes when EXPECT is reached. -/
theorem Block.reach_completes (hnone : b.noneWaits) (hkind : (b.slot n).kind = 1) (hscope : (b.slot n).scope = 0)
    (hsent : (b.slot n).sent = false) (hneed : (b.slot n).need ≤ (b.slot n).count (b.slot n).sense)
    (hclose : b.closers n = []) (hother : (b.slot n).count (!(b.slot n).sense) < (b.slot n).need) (f : Nat) :
    Block.reach (f + 1) b n = b.mSlot n Slot.completed := by
  have hcond : (b.slot n).kind = 1 ∧ (!(b.slot n).sent) = true ∧ (b.slot n).need ≤ (b.slot n).count (b.slot n).sense :=
    ⟨hkind, by rw [hsent]; rfl, hneed⟩
  have hend : (b.mSlot n fun x => { x with ovr := x.ovr || decide (x.need < x.count x.sense) }).phaseEnd n [] =
      b.mSlot n Slot.completed := by
    unfold Block.phaseEnd
    rw [slot_mSlot_self]
    dsimp only
    rw [mSlot_mSlot, releasePhase_noneWaits (hnone.mSlot n _)]
    refine mSlot_congr b n ?_
    cases hs : (b.slot n).sense <;> simp [Slot.completed, hs, Slot.setCount]
  rw [Block.reach, if_pos hcond]
  simp only [closers_mSlot, hclose, hend, hscope, if_true]
  refine Block.reach_below ?_ f
  rw [slot_mSlot_self, Slot.completed_sense, Slot.completed_need, Slot.completed_count_other]
  exact hother

end

/-! ### An arrival at a DIE barrier -/

section
variable {b : Block} {n : Nat}

/-- The block with an arrival counted. -/
def Block.countArrival (b : Block) (n : Nat) (s : Bool) (d : BitVec 20) (void : Bool) : Block :=
  b.mSlot n fun x => x.counted s (min (x.sum s d) cntMax) (decide (cntMax < x.sum s d)) void

theorem Block.countArrival_slot (s : Bool) (d : BitVec 20) (void : Bool) : (b.countArrival n s d void).slot n =
    (b.slot n).counted s (min ((b.slot n).sum s d) cntMax) (decide (cntMax < (b.slot n).sum s d)) void :=
  slot_mSlot_self b n _

theorem Block.countArrival_eq (s : Bool) (d : BitVec 20) (void : Bool) : b.countArrival n s d void = b.mSlot n fun _ =>
    (b.slot n).counted s (min ((b.slot n).sum s d) cntMax) (decide (cntMax < (b.slot n).sum s d)) void :=
  mSlot_congr b n rfl

/-- The operation of an ARRIVE_WAIT after its arrival (R150). -/
def WOp.bound (o : WOp) (s : Bool) (r : WRes) : WOp :=
  { o with phase := some s, held := false, arrived := (r.sat, r.ovr, r.count) }

section
variable (hkind : (b.slot n).kind = 1) (hscope : (b.slot n).scope = 0) (hsent : (b.slot n).sent = false)
include hkind hscope hsent

theorem Block.arriveAt_free (s : Bool) (d : BitVec 20) (void : Bool) :
    b.arriveAt n s d void none =
      ((b.slot n).arrivalRes s d, Block.reach reachFuel (b.countArrival n s d void) n) := by
  simp only [Block.arriveAt, hkind, hscope, ne_eq, not_true_eq_false, false_and, if_false, Slot.arrive_counted hsent,
    Bool.false_eq_true]
  rw [Block.countArrival_eq]

theorem Block.arriveAt_bound (s : Bool) (d : BitVec 20) (void : Bool) (i : Nat) :
    b.arriveAt n s d void (some i) =
      ((b.slot n).arrivalRes s d, Block.reach reachFuel ((b.countArrival n s d void).mWslot i fun w => { w with
        op := w.op.map fun o => o.bound s ((b.slot n).arrivalRes s d) }) n) := by
  simp only [Block.arriveAt, hkind, hscope, ne_eq, not_true_eq_false, false_and, if_false, Slot.arrive_counted hsent,
    Bool.false_eq_true]
  rw [Block.countArrival_eq]
  rfl

end

end

end Sys2Proof.Machine
end

section
/-! SUPPORT. The commands of a wait slot on a barrier or a DIE semaphore, where ENGINE runs and no other operation is
outstanding (R146 to R150, R159, R169). -/

namespace Sys2Proof.Machine

open Sys2Proof

/-! ### The operation that a command starts -/

/-- The block in which an operation that needs ENGINE is performed. -/
def Block.issued (b : Block) (i : Nat) (o : WOp) : Block := (b.takeOp i o).demand

/-- `c` is `b` but for wait slot `i`, the barrier slots, the issue counter and the demand for ENGINE. -/
def IssueOnly (b : Block) (i : Nat) (c : Block) : Prop :=
  (∀ j, j ≠ i → c.wslot j = b.wslot j) ∧
    c.tsu = { b.tsu with bar := c.tsu.bar, ws := c.tsu.ws, wseq := c.tsu.wseq, pwr := c.tsu.pwr } ∧ c.dist = b.dist

section
variable {b : Block} {i : Nat}

theorem issueOnly_takeOp (o : WOp) : IssueOnly b i (b.takeOp i o) :=
  ⟨fun j hj => (b.takeOp_wslot i o j).trans (if_neg (Ne.symm hj)), rfl, rfl⟩

theorem issueOnly_issued (o : WOp) : IssueOnly b i (b.issued i o) :=
  ⟨fun j hj => (b.takeOp_wslot i o j).trans (if_neg (Ne.symm hj)), rfl, rfl⟩

theorem IssueOnly.mSlot {c : Block} (h : IssueOnly b i c) (n : Nat) (f : Slot → Slot) : IssueOnly b i (c.mSlot n f) := by
  obtain ⟨hws, htsu, hdist⟩ := h
  exact ⟨hws, congrArg (fun t : Tsu => { t with bar := (c.mSlot n f).tsu.bar }) htsu, hdist⟩

theorem IssueOnly.countArrival {c : Block} (h : IssueOnly b i c) (n : Nat) (s : Bool) (d : BitVec 20) (void : Bool) :
    IssueOnly b i (c.countArrival n s d void) :=
  h.mSlot n _

/-- The operation completes with the result `r`. -/
theorem IssueOnly.waitDone {s : State} {c : Block} (h : IssueOnly s.blk i c) (r : WRes) :
    WaitDone s { s with blk := (c.wsDone i r).emit (.reg none 0 0) } i r := by
  obtain ⟨hws, htsu, hdist⟩ := h
  have hslot : ∀ j, ((c.wsDone i r).emit (.reg none 0 0)).wslot j = if i = j then shown r (c.wslot i) else c.wslot j :=
    fun j => wslot_wsDone c i j r
  refine ⟨?_, fun j hj => ?_, ?_, (wsDone_dist c i r).trans hdist, rfl⟩
  · dsimp only
    rw [hslot, if_pos rfl]
    exact ⟨rfl, rfl, rfl, rfl, rfl, rfl, rfl, rfl⟩
  · exact (hslot j).trans ((if_neg (Ne.symm hj)).trans (hws j hj))
  · obtain ⟨reads, hdone⟩ := wsDone_tsu c i r
    dsimp only [Block.emit]
    rw [hdone, htsu]

theorem issued_noneWaits (h : ∀ e ∈ b.tsu.ws, e.2.op = none) {o : WOp} (ho : o.held = true) :
    (b.issued i o).noneWaits := by
  intro e he p hp
  rcases mem_smPut (show e ∈ smMod {} b.tsu.ws i (fun w => { w with op := some o }) from he) with he | rfl
  · exact absurd ((h e he).symm.trans hp) (by simp)
  · exact (Option.some.inj hp) ▸ ho

end

/-- A command past the checks of its issue whose VBID has no translation. -/
theorem Block.wsIssue_nomap {b : Block} {c k : Nat} {op : BitVec 4} {f : WsFlags}
    (hfree : (b.wslot (wsIdx c k)).op = none) (hstop : b.issueStop c 2 op = none)
    (hx : b.xlat c ((b.wslot (wsIdx c k)).addr.toNat % 1024) = none) :
    b.wsIssue c k 2 op f =
      (b.takeOp (wsIdx c k) (b.newOp c (wsIdx c k) 2 op f)).wsDone (wsIdx c k) { status := stNOMAP } := by
  unfold Block.wsIssue
  dsimp only
  rw [hfree, if_neg (show ¬(none : Option WOp).isSome = true by decide), hstop]
  exact (if_neg (by decide)).trans (if_pos ⟨rfl, Option.isNone_iff_eq_none.2 hx⟩)

section
variable {s : State} {a : Access} {c : Ctx6} {k : BitVec 3} {op : BitVec 4} {f : WsFlags}

/-- A command whose VBID has a translation is performed on that slot. -/
theorem wsCmd_slot {n : Nat} (hfree : s.blk.slotFree a c.toNat k.toNat = true) (hE : s.blk.engOn = true)
    (hpair : opPairs 2 op = true)
    (hx : s.blk.xlat c.toNat ((s.blk.wslot (wsIdx c.toNat k.toNat)).addr.toNat % 1024) = some n) :
    s.wsCmd a c k 2 op f = .next { s with
      blk := ((s.blk.issued (wsIdx c.toNat k.toNat)
        (s.blk.newOp c.toNat (wsIdx c.toNat k.toNat) 2 op f)).slotOp (wsIdx c.toNat k.toNat)
          (s.blk.newOp c.toNat (wsIdx c.toNat k.toNat) 2 op f)).emit (.reg none 0 0) } := by
  generalize ho : s.blk.newOp c.toNat (wsIdx c.toNat k.toNat) 2 op f = o
  have hslot : o.slot = some n := by rw [← ho]; exact hx
  have hspace : o.space ≠ 0 := by rw [← ho]; exact (by decide : (2 : BitVec 2) ≠ 0)
  have hstop := Block.slotFree.issueStop hfree hpair
  obtain ⟨_, hop, _⟩ := Block.slotFree_iff.1 hfree
  have htaken : ((s.blk.takeOp (wsIdx c.toNat k.toNat) o).wslot (wsIdx c.toNat k.toNat)).op = some o := by
    rw [Block.takeOp_wslot, if_pos rfl]
  have hperform : (s.blk.takeOp (wsIdx c.toNat k.toNat) o).wsPerform (wsIdx c.toNat k.toNat) =
      (s.blk.issued (wsIdx c.toNat k.toNat) o).slotOp (wsIdx c.toNat k.toNat) o := by
    rw [Block.wsPerform, htaken]
    exact (if_neg hspace).trans (if_neg (by rw [show (s.blk.takeOp _ o).engOn = true from hE]; decide))
  rw [State.wsCmd_free hfree, Block.wsIssue_takes hop hstop (by decide) (fun _ => by rw [ho, hslot]; rfl), ho, hperform]

/-- A VBID without a translation completes NOMAP. -/
theorem wsCmd_nomap (hfree : s.blk.slotFree a c.toNat k.toNat = true) (hpair : opPairs 2 op = true)
    (hx : s.blk.xlat c.toNat ((s.blk.wslot (wsIdx c.toNat k.toNat)).addr.toNat % 1024) = none) :
    s.wsCmd a c k 2 op f = .next { s with
      blk := ((s.blk.takeOp (wsIdx c.toNat k.toNat)
        (s.blk.newOp c.toNat (wsIdx c.toNat k.toNat) 2 op f)).wsDone (wsIdx c.toNat k.toNat)
          { status := stNOMAP }).emit (.reg none 0 0) } := by
  have hstop := Block.slotFree.issueStop hfree hpair
  obtain ⟨_, hop, _⟩ := Block.slotFree_iff.1 hfree
  rw [State.wsCmd_free hfree, Block.wsIssue_nomap hop hstop hx]

end

/-! ### The operations on a slot -/

section
variable {b : Block} {i n : Nat} {o : WOp}

section
variable (hslot : o.slot = some n)
include hslot

theorem Block.slotOp_arrive (hop : o.op = 8) : b.slotOp i o = b.slotArrive i n o false := by simp [Block.slotOp, hslot, hop]

theorem Block.slotOp_arriveWait (hop : o.op = 9) : b.slotOp i o = b.slotArrive i n o true := by
  simp [Block.slotOp, hslot, hop]

theorem Block.slotOp_wait (hop : o.op = 10) : b.slotOp i o = b.slotWait i n o := by simp [Block.slotOp, hslot, hop]

theorem Block.slotOp_sem (hop : 11 ≤ o.op.toNat) : b.slotOp i o = b.slotSem i n o := by
  have hne : ∀ v : BitVec 4, v.toNat < 11 → o.op ≠ v := fun v hv h => absurd (h ▸ hop) (by omega)
  rw [Block.slotOp, hslot]
  exact (if_neg (hne 8 (by decide))).trans ((if_neg (hne 9 (by decide))).trans (if_neg (hne 10 (by decide))))

end

/-! Barriers (R148, R150). -/

theorem Slot.arrivalRes_below {x : Slot} {s : Bool} {d : BitVec 20} (h : x.sum s d < x.need) :
    x.arrivalRes s d = { status := stOK, count := BitVec.ofNat 20 (x.sum s d) } := by
  have hle := x.need_le
  have hmin : min (x.sum s d) cntMax = x.sum s d := by omega
  simp [Slot.arrivalRes, hmin, show ¬x.need < x.sum s d by omega, show ¬cntMax < x.sum s d by omega]

section
variable {x : Slot} {s : Bool} {d : BitVec 20} (hs : s = x.sense)
include hs

theorem Slot.arrivalRes_ovr : (x.arrivalRes s d).ovr = decide (x.need < min (x.sum s d) cntMax) := by
  simp [Slot.arrivalRes, hs]

/-- The count shown by the arrival that reaches EXPECT is EXPECT. -/
theorem Slot.arrivalRes_reached (h : x.need ≤ x.sum s d) : (x.arrivalRes s d).count.toNat = x.need := by
  have hle := x.need_le
  have hval : (if x.need < min (x.sum s d) cntMax then x.need else min (x.sum s d) cntMax) = x.need := by
    split <;> omega
  have hcount : (x.arrivalRes s d).count = BitVec.ofNat 20 x.need := by
    rw [← hval]
    simp [Slot.arrivalRes, hs]
  rw [hcount]
  exact Nat.mod_eq_of_lt (Nat.lt_of_le_of_lt hle (by decide))

end

section
variable (hkind : (b.slot n).kind = 1) (hscope : (b.slot n).scope = 0) (hsent : (b.slot n).sent = false)

section
include hkind hscope hsent

/-- ARRIVE that does not reach EXPECT. -/
theorem Block.slotArrive_below (hs : o.flags.sense = (b.slot n).sense)
    (hlt : (b.slot n).sum o.flags.sense (o.wdata.setWidth 20) < (b.slot n).need) :
    b.slotArrive i n o false = (b.countArrival n o.flags.sense (o.wdata.setWidth 20) o.flags.voidreq).wsDone i
      { status := stOK, count := BitVec.ofNat 20 ((b.slot n).sum o.flags.sense (o.wdata.setWidth 20)) } := by
  unfold Block.slotArrive
  rw [if_neg (by decide), Block.arriveAt_free hkind hscope hsent, Slot.arrivalRes_below hlt, Block.reach_below]
  · rfl
  · rw [Block.countArrival_slot, Slot.counted_sense, Slot.counted_need, ← hs, Slot.counted_count]
    omega

/-- ARRIVE_WAIT that does not reach EXPECT stays outstanding. -/
theorem Block.slotArrive_waits (hnow : o.flags.nowait = false) (hs : o.flags.sense = (b.slot n).sense)
    (hlt : (b.slot n).sum o.flags.sense (o.wdata.setWidth 20) < (b.slot n).need) :
    b.slotArrive i n o true =
      (b.countArrival n o.flags.sense (o.wdata.setWidth 20) o.flags.voidreq).mWslot i fun w => { w with
        op := w.op.map fun p => p.bound o.flags.sense ((b.slot n).arrivalRes o.flags.sense (o.wdata.setWidth 20)) } := by
  unfold Block.slotArrive
  rw [if_pos rfl, Block.arriveAt_bound hkind hscope hsent, Block.reach_below]
  · simp [hnow, Slot.arrivalRes]
  · rw [slot_mWslot, Block.countArrival_slot, Slot.counted_sense, Slot.counted_need, ← hs,
      Slot.counted_count]
    omega

/-- ARRIVE that reaches EXPECT completes the phase. -/
theorem Block.slotArrive_completes (hnone : b.noneWaits) (hclose : b.closers n = [])
    (hs : o.flags.sense = (b.slot n).sense)
    (hle : (b.slot n).need ≤ (b.slot n).sum o.flags.sense (o.wdata.setWidth 20))
    (hother : (b.slot n).count (!(b.slot n).sense) < (b.slot n).need) :
    b.slotArrive i n o false =
      ((b.countArrival n o.flags.sense (o.wdata.setWidth 20) o.flags.voidreq).mSlot n Slot.completed).wsDone i
        ((b.slot n).arrivalRes o.flags.sense (o.wdata.setWidth 20)) := by
  have hmax := (b.slot n).need_le
  have hreach : Block.reach reachFuel (b.countArrival n o.flags.sense (o.wdata.setWidth 20) o.flags.voidreq) n =
      (b.countArrival n o.flags.sense (o.wdata.setWidth 20) o.flags.voidreq).mSlot n Slot.completed := by
    refine Block.reach_completes (b := b.countArrival n _ _ _) (hnone.mSlot n _) ?_ ?_ ?_ ?_ hclose ?_ 3
    all_goals rw [Block.countArrival_slot]
    · rw [Slot.counted_kind, hkind]
    · rw [Slot.counted_scope, hscope]
    · rw [Slot.counted_sent, hsent]
    · rw [Slot.counted_need, Slot.counted_sense, ← hs, Slot.counted_count]
      omega
    · rw [Slot.counted_need, Slot.counted_sense, ← hs, Slot.counted_count_other, hs]
      exact hother
  unfold Block.slotArrive
  rw [if_neg (by decide), Block.arriveAt_free hkind hscope hsent, hreach]
  rfl

end

include hkind hscope

/-- WAIT for a phase that is over. -/
theorem Block.slotWait_over (hs : o.flags.sense ≠ (b.slot n).sense) : b.slotWait i n o = b.wsDone i { status := stOK } := by
  simp [Block.slotWait, hkind, hscope, hs.symm]

/-- WAIT with NOWAIT for the phase being collected. -/
theorem Block.slotWait_nowait (hs : o.flags.sense = (b.slot n).sense) (hnow : o.flags.nowait = true) :
    b.slotWait i n o = b.wsDone i { status := stNOTREADY } := by
  simp [Block.slotWait, hkind, hscope, hs, hnow]

end

/-! DIE semaphores (R159). -/

section
variable (hkind : (b.slot n).kind = 2) (hscope : (b.slot n).scope = 0)
include hkind hscope

theorem Block.slotSem_signal (hnone : b.noneWaits) (hop : o.op = 11) :
    b.slotSem i n o = (b.mSlot n fun x => { x with
      c0 := min (x.c0 + (o.wdata.setWidth 20).toNat) 1048575
      sat := x.sat || decide (1048575 < x.c0 + (o.wdata.setWidth 20).toNat) }).wsDone i
        { status := stOK, sat := decide (1048575 < (b.slot n).c0 + (o.wdata.setWidth 20).toNat)
          count := BitVec.ofNat 20 (min ((b.slot n).c0 + (o.wdata.setWidth 20).toNat) 1048575) } := by
  have hmin : ∀ m : Nat, (if cntMax < m then cntMax else m) = min m 1048575 := fun m => by
    unfold cntMax
    split <;> omega
  have hsem : b.slotSem i n o =
      (b.dieSignal n (o.wdata.setWidth 20).toNat).2.wsDone i (b.dieSignal n (o.wdata.setWidth 20).toNat).1 := by
    simp [Block.slotSem, hkind, hscope, hop]
  rw [hsem, Block.dieSignal]
  dsimp only
  rw [semServe_noneWaits (hnone.mSlot n _), slot_mSlot_self, hmin]
  congr 1

theorem Block.slotSem_take (hnone : b.noneWaits) (hop : o.op = 12)
    (hle : (o.wdata.setWidth 20).toNat ≤ (b.slot n).c0) :
    b.slotSem i n o = (b.mSlot n fun x => { x with c0 := x.c0 - (o.wdata.setWidth 20).toNat }).wsDone i
      { status := stOK, count := BitVec.ofNat 20 ((b.slot n).c0 - (o.wdata.setWidth 20).toNat) } := by
  simp only [Block.slotSem, hkind, hscope, hop, takes_noneWaits hnone, hle]
  rfl

theorem Block.slotSem_take_nowait (hop : o.op = 12) (hnow : o.flags.nowait = true)
    (hlt : (b.slot n).c0 < (o.wdata.setWidth 20).toNat) :
    b.slotSem i n o = b.wsDone i { status := stNOTREADY, count := BitVec.ofNat 20 (b.slot n).c0 } := by
  simp only [Block.slotSem, hkind, hscope, hop, hnow, Nat.not_le.2 hlt]
  rfl

theorem Block.slotSem_readCount (hop : o.op = 13) :
    b.slotSem i n o = b.wsDone i { status := stOK, count := BitVec.ofNat 20 (b.slot n).c0 } := by
  simp only [Block.slotSem, hkind, hscope, hop]
  rfl

end

end

end Sys2Proof.Machine
end

section
/-! SUPPORT. What the commands on a barrier or a DIE semaphore leave (R146, R148, R150, R159). -/

namespace Sys2Proof.Machine

open Sys2Proof

theorem slot_of_bar {b c : Block} (h : b.tsu.bar = c.tsu.bar) (n : Nat) : b.slot n = c.slot n := by
  unfold Block.slot
  rw [h]

/-- `o` is the operation `op` of wait slot `i` on barrier slot `n` with flags `f`, and `c` the block in which a command of
`b` performs it. -/
structure Performs (b : Block) (i n : Nat) (op : BitVec 4) (f : WsFlags) (o : WOp) (c : Block) : Prop where
  slot : o.slot = some n
  op : o.op = op
  flags : o.flags = f
  wdata : o.wdata = (b.wslot i).wdata
  taken : (c.wslot i).op = some o
  only : IssueOnly b i c
  bar : c.tsu.bar = b.tsu.bar
  slots : ∀ j, c.slot j = b.slot j
  closers : c.closers n = b.closers n
  noneWaits : (∀ e ∈ b.tsu.ws, e.2.op = none) → c.noneWaits

theorem performs_issued {b : Block} {c i n : Nat} {op : BitVec 4} {f : WsFlags}
    (hx : b.xlat c ((b.wslot i).addr.toNat % 1024) = some n) :
    Performs b i n op f (b.newOp c i 2 op f) (b.issued i (b.newOp c i 2 op f)) where
  slot := hx
  op := rfl
  flags := rfl
  wdata := rfl
  taken := congrArg WSlot.op ((b.takeOp_wslot i (b.newOp c i 2 op f) i).trans (if_pos rfl))
  only := issueOnly_issued _
  bar := rfl
  slots _ := rfl
  closers := rfl
  noneWaits h := issued_noneWaits h rfl

/-- A command at a free slot whose VBID has a translation, while ENGINE runs. -/
theorem wsCmd_performs {s : State} {a : Access} {c : Ctx6} {k : BitVec 3} {op : BitVec 4} {f : WsFlags} {n : Nat}
    (hfree : s.blk.slotFree a c.toNat k.toNat = true) (hE : s.blk.engOn = true) (hpair : opPairs 2 op = true)
    (hx : s.blk.xlat c.toNat ((s.blk.wslot (wsIdx c.toNat k.toNat)).addr.toNat % 1024) = some n) :
    ∃ o b, Performs s.blk (wsIdx c.toNat k.toNat) n op f o b ∧ s.wsCmd a c k 2 op f =
      .next { s with blk := (b.slotOp (wsIdx c.toNat k.toNat) o).emit (.reg none 0 0) } :=
  ⟨_, _, performs_issued hx, wsCmd_slot hfree hE hpair hx⟩

/-- A performed operation completes with the result `r`, and leaves the barrier slots of `c`. -/
theorem performed_done {s : State} {i : Nat} {o : WOp} {b c : Block} {r : WRes} {out : Host.Outcome State Fault Refusal}
    (hcmd : out = .next { s with blk := (b.slotOp i o).emit (.reg none 0 0) }) (hdone : b.slotOp i o = c.wsDone i r)
    (hc : IssueOnly s.blk i c) : ∃ t, out = .next t ∧ WaitDone s t i r ∧ t.blk.tsu.bar = c.tsu.bar := by
  refine ⟨_, hcmd, ?_⟩
  rw [hdone]
  exact ⟨hc.waitDone r, wsDone_bar c i r⟩

/-! ### Barriers (R148, R150) -/

section
variable {s : State} {a : Access} {c : Ctx6} {k : BitVec 3} {f : WsFlags} {n : Nat}
  (hfree : s.blk.slotFree a c.toNat k.toNat = true) (hE : s.blk.engOn = true)
  (hx : s.blk.xlat c.toNat ((s.blk.wslot (wsIdx c.toNat k.toNat)).addr.toNat % 1024) = some n)
include hfree hE hx

section
variable (hkind : (s.blk.slot n).kind = 1) (hscope : (s.blk.slot n).scope = 0)
include hkind hscope

/-- WAIT for a phase that is over. -/
theorem wsCmd_wait_over (hs : f.sense ≠ (s.blk.slot n).sense) :
    ∃ t, s.wsCmd a c k 2 10 f = .next t ∧ WaitDone s t (wsIdx c.toNat k.toNat) { status := stOK } ∧
      t.blk.tsu.bar = s.blk.tsu.bar := by
  obtain ⟨o, b, hp, hcmd⟩ := wsCmd_performs (op := 10) (f := f) hfree hE rfl hx
  rw [← hp.slots] at hkind hscope hs
  obtain rfl := hp.flags
  rw [← hp.bar]
  exact performed_done hcmd ((Block.slotOp_wait hp.slot hp.op).trans (Block.slotWait_over hkind hscope hs)) hp.only

/-- WAIT with NOWAIT for the phase being collected. -/
theorem wsCmd_wait_nowait (hs : f.sense = (s.blk.slot n).sense) (hnow : f.nowait = true) :
    ∃ t, s.wsCmd a c k 2 10 f = .next t ∧ WaitDone s t (wsIdx c.toNat k.toNat) { status := stNOTREADY } ∧
      t.blk.tsu.bar = s.blk.tsu.bar := by
  obtain ⟨o, b, hp, hcmd⟩ := wsCmd_performs (op := 10) (f := f) hfree hE rfl hx
  rw [← hp.slots] at hkind hscope hs
  obtain rfl := hp.flags
  rw [← hp.bar]
  exact performed_done hcmd ((Block.slotOp_wait hp.slot hp.op).trans (Block.slotWait_nowait hkind hscope hs hnow)) hp.only

section
variable (hsent : (s.blk.slot n).sent = false) (hs : f.sense = (s.blk.slot n).sense)
include hsent hs

section
variable (hlt : (s.blk.slot n).sum f.sense ((s.blk.wslot (wsIdx c.toNat k.toNat)).wdata.setWidth 20) < (s.blk.slot n).need)
include hlt

/-- ARRIVE below EXPECT. -/
theorem wsCmd_arrive_below :
    ∃ t, s.wsCmd a c k 2 8 f = .next t ∧ WaitDone s t (wsIdx c.toNat k.toNat)
        { status := stOK, count := BitVec.ofNat 20
            ((s.blk.slot n).sum f.sense ((s.blk.wslot (wsIdx c.toNat k.toNat)).wdata.setWidth 20)) } ∧
      (t.blk.slot n).count f.sense =
        (s.blk.slot n).sum f.sense ((s.blk.wslot (wsIdx c.toNat k.toNat)).wdata.setWidth 20) ∧
      (t.blk.slot n).sense = (s.blk.slot n).sense := by
  obtain ⟨o, b, hp, hcmd⟩ := wsCmd_performs (op := 8) (f := f) hfree hE rfl hx
  have hle := (s.blk.slot n).need_le
  rw [← hp.slots] at hkind hscope hsent hs hlt hle ⊢
  rw [← hp.wdata] at hlt ⊢
  obtain rfl := hp.flags
  obtain ⟨t, ht, hdone, hbar⟩ := performed_done hcmd
    ((Block.slotOp_arrive hp.slot hp.op).trans (Block.slotArrive_below hkind hscope hsent hs hlt))
    (hp.only.countArrival n _ _ _)
  refine ⟨t, ht, hdone, ?_, ?_⟩
  · rw [slot_of_bar hbar, Block.countArrival_slot, Slot.counted_count]
    omega
  · rw [slot_of_bar hbar, Block.countArrival_slot, Slot.counted_sense]

/-- ARRIVE_WAIT below EXPECT stays outstanding, bound to the phase (R150). -/
theorem wsCmd_arriveWait_below (hnow : f.nowait = false) :
    ∃ t, s.wsCmd a c k 2 9 f = .next t ∧
      (t.blk.slot n).count f.sense =
        (s.blk.slot n).sum f.sense ((s.blk.wslot (wsIdx c.toNat k.toNat)).wdata.setWidth 20) ∧
      (t.blk.wslot (wsIdx c.toNat k.toNat)).op.map (fun o => (o.phase, o.held, o.slot)) =
        some (some (s.blk.slot n).sense, false, some n) := by
  obtain ⟨o, b, hp, hcmd⟩ := wsCmd_performs (op := 9) (f := f) hfree hE rfl hx
  have hle := (s.blk.slot n).need_le
  rw [← hp.slots] at hkind hscope hsent hs hlt hle ⊢
  rw [← hp.wdata] at hlt ⊢
  obtain rfl := hp.flags
  rw [Block.slotOp_arriveWait hp.slot hp.op, Block.slotArrive_waits hkind hscope hsent hnow hs hlt] at hcmd
  refine ⟨_, hcmd, ?_, ?_⟩
  · rw [slot_emit, slot_mWslot, Block.countArrival_slot, Slot.counted_count]
    omega
  · have hw : ((b.countArrival n o.flags.sense (o.wdata.setWidth 20) o.flags.voidreq).wslot
        (wsIdx c.toNat k.toNat)).op = some o := hp.taken
    refine (congrArg (fun w : WSlot => w.op.map _) ((wslot_mWslot _ _ _ _).trans (if_pos rfl))).trans ?_
    rw [hw, ← hs]
    simp [WOp.bound, hp.slot]

end

/-- ARRIVE that reaches EXPECT completes the phase (R148). -/
theorem wsCmd_arrive_completes (hidle : ∀ e ∈ s.blk.tsu.ws, e.2.op = none) (hclose : s.blk.closers n = [])
    (hle : (s.blk.slot n).need ≤
      (s.blk.slot n).sum f.sense ((s.blk.wslot (wsIdx c.toNat k.toNat)).wdata.setWidth 20))
    (hother : (s.blk.slot n).count (!(s.blk.slot n).sense) < (s.blk.slot n).need) :
    ∃ t, s.wsCmd a c k 2 8 f = .next t ∧ WaitDone s t (wsIdx c.toNat k.toNat)
        ((s.blk.slot n).arrivalRes f.sense ((s.blk.wslot (wsIdx c.toNat k.toNat)).wdata.setWidth 20)) ∧
      t.blk.slot n = ((s.blk.slot n).counted f.sense
        (min ((s.blk.slot n).sum f.sense ((s.blk.wslot (wsIdx c.toNat k.toNat)).wdata.setWidth 20)) cntMax)
        (decide (cntMax < (s.blk.slot n).sum f.sense ((s.blk.wslot (wsIdx c.toNat k.toNat)).wdata.setWidth 20)))
        f.voidreq).completed ∧
      ∀ j, j ≠ n → t.blk.slot j = s.blk.slot j := by
  obtain ⟨o, b, hp, hcmd⟩ := wsCmd_performs (op := 8) (f := f) hfree hE rfl hx
  rw [← hp.slots] at hkind hscope hsent hs hle hother ⊢
  rw [← hp.wdata] at hle ⊢
  obtain rfl := hp.flags
  rw [← hp.closers] at hclose
  obtain ⟨t, ht, hdone, hbar⟩ := performed_done hcmd ((Block.slotOp_arrive hp.slot hp.op).trans
    (Block.slotArrive_completes hkind hscope hsent (hp.noneWaits hidle) hclose hs hle hother))
    ((hp.only.countArrival n _ _ _).mSlot n _)
  refine ⟨t, ht, hdone, ?_, fun j hj => ?_⟩
  · rw [slot_of_bar hbar, slot_mSlot_self, Block.countArrival_slot]
  · rw [slot_of_bar hbar, slot_mSlot, if_neg (Ne.symm hj), Block.countArrival, slot_mSlot, if_neg (Ne.symm hj), hp.slots]

end

end

/-! ### DIE semaphores (R159) -/

section
variable (hkind : (s.blk.slot n).kind = 2) (hscope : (s.blk.slot n).scope = 0)
include hkind hscope

theorem wsCmd_signal (hidle : ∀ e ∈ s.blk.tsu.ws, e.2.op = none) :
    let d : BitVec 20 := (s.blk.wslot (wsIdx c.toNat k.toNat)).wdata.setWidth 20
    ∃ t, s.wsCmd a c k 2 11 f = .next t ∧ WaitDone s t (wsIdx c.toNat k.toNat)
        { status := stOK, sat := decide (1048575 < (s.blk.slot n).c0 + d.toNat)
          count := BitVec.ofNat 20 (min ((s.blk.slot n).c0 + d.toNat) 1048575) } ∧
      (t.blk.slot n).c0 = min ((s.blk.slot n).c0 + d.toNat) 1048575 ∧ ∀ j, j ≠ n → t.blk.slot j = s.blk.slot j := by
  intro d
  obtain ⟨o, b, hp, hcmd⟩ := wsCmd_performs (op := 11) (f := f) hfree hE rfl hx
  have hd : o.wdata.setWidth 20 = d := congrArg (BitVec.setWidth 20) hp.wdata
  rw [← hp.slots] at hkind hscope ⊢
  rw [← hd]
  obtain ⟨t, ht, hdone, hbar⟩ := performed_done hcmd ((Block.slotOp_sem hp.slot (by rw [hp.op]; decide)).trans
    (Block.slotSem_signal hkind hscope (hp.noneWaits hidle) hp.op)) (hp.only.mSlot n _)
  refine ⟨t, ht, hdone, ?_, fun j hj => ?_⟩
  · rw [slot_of_bar hbar, slot_mSlot_self]
  · rw [slot_of_bar hbar, slot_mSlot, if_neg (Ne.symm hj), hp.slots]

/-- TAKE of no more than the count. -/
theorem wsCmd_take (hidle : ∀ e ∈ s.blk.tsu.ws, e.2.op = none) :
    let d : BitVec 20 := (s.blk.wslot (wsIdx c.toNat k.toNat)).wdata.setWidth 20
    d.toNat ≤ (s.blk.slot n).c0 → ∃ t, s.wsCmd a c k 2 12 f = .next t ∧ WaitDone s t (wsIdx c.toNat k.toNat)
        { status := stOK, count := BitVec.ofNat 20 ((s.blk.slot n).c0 - d.toNat) } ∧
      (t.blk.slot n).c0 = (s.blk.slot n).c0 - d.toNat ∧ ∀ j, j ≠ n → t.blk.slot j = s.blk.slot j := by
  intro d hle
  obtain ⟨o, b, hp, hcmd⟩ := wsCmd_performs (op := 12) (f := f) hfree hE rfl hx
  have hd : o.wdata.setWidth 20 = d := congrArg (BitVec.setWidth 20) hp.wdata
  rw [← hp.slots] at hkind hscope hle ⊢
  rw [← hd] at hle ⊢
  obtain ⟨t, ht, hdone, hbar⟩ := performed_done hcmd ((Block.slotOp_sem hp.slot (by rw [hp.op]; decide)).trans
    (Block.slotSem_take hkind hscope (hp.noneWaits hidle) hp.op hle)) (hp.only.mSlot n _)
  refine ⟨t, ht, hdone, ?_, fun j hj => ?_⟩
  · rw [slot_of_bar hbar, slot_mSlot_self]
  · rw [slot_of_bar hbar, slot_mSlot, if_neg (Ne.symm hj), hp.slots]

/-- TAKE with NOWAIT of more than the count. -/
theorem wsCmd_take_nowait (hnow : f.nowait = true)
    (hlt : (s.blk.slot n).c0 < ((s.blk.wslot (wsIdx c.toNat k.toNat)).wdata.setWidth 20 : BitVec 20).toNat) :
    ∃ t, s.wsCmd a c k 2 12 f = .next t ∧ WaitDone s t (wsIdx c.toNat k.toNat)
      { status := stNOTREADY, count := BitVec.ofNat 20 (s.blk.slot n).c0 } ∧ t.blk.tsu.bar = s.blk.tsu.bar := by
  obtain ⟨o, b, hp, hcmd⟩ := wsCmd_performs (op := 12) (f := f) hfree hE rfl hx
  rw [← hp.slots] at hkind hscope hlt ⊢
  rw [← hp.wdata] at hlt
  rw [← hp.bar]
  exact performed_done hcmd ((Block.slotOp_sem hp.slot (by rw [hp.op]; decide)).trans
    (Block.slotSem_take_nowait hkind hscope hp.op (hp.flags ▸ hnow) hlt)) hp.only

theorem wsCmd_readCount :
    ∃ t, s.wsCmd a c k 2 13 f = .next t ∧ WaitDone s t (wsIdx c.toNat k.toNat)
      { status := stOK, count := BitVec.ofNat 20 (s.blk.slot n).c0 } ∧ t.blk.tsu.bar = s.blk.tsu.bar := by
  obtain ⟨o, b, hp, hcmd⟩ := wsCmd_performs (op := 13) (f := f) hfree hE rfl hx
  rw [← hp.slots] at hkind hscope ⊢
  rw [← hp.bar]
  exact performed_done hcmd ((Block.slotOp_sem hp.slot (by rw [hp.op]; decide)).trans
    (Block.slotSem_readCount hkind hscope hp.op)) hp.only

end

end

/-- Settles O14: a VBID without a translation stops at NOMAP; a barrier goes by whether the phase reaches EXPECT or is over,
and a DIE semaphore by its count. -/
theorem barrierAndSemaphoreOperations : Obligations.BarrierAndSemaphoreOperations := by
  unfold Obligations.BarrierAndSemaphoreOperations
  intro a c k f s hfree hE hidle i vbid d
  refine ⟨fun hx => ⟨_, wsCmd_nomap hfree rfl hx, (issueOnly_takeOp _).waitDone _, wsDone_bar _ _ _⟩, fun n hx => ?_⟩
  intro x
  refine ⟨fun hkind hscope hsent => ?barrier, fun hkind hscope =>
    ⟨wsCmd_signal hfree hE hx hkind hscope hidle, wsCmd_take hfree hE hx hkind hscope hidle,
      fun hlt hnow => wsCmd_take_nowait hfree hE hx hkind hscope hnow hlt, wsCmd_readCount hfree hE hx hkind hscope⟩⟩
  case barrier =>
    intro m
    refine ⟨fun hs hlt _ => ⟨wsCmd_arrive_below hfree hE hx hkind hscope hsent hs hlt,
      wsCmd_arriveWait_below hfree hE hx hkind hscope hsent hs hlt rfl⟩, fun hs hle hclose hother => ?completes,
      fun hs => wsCmd_wait_over hfree hE hx hkind hscope hs,
      fun hs hnow => wsCmd_wait_nowait hfree hE hx hkind hscope hs hnow⟩
    case completes =>
      obtain ⟨t, ht, ⟨⟨hop, hst, _, hovr, _, _, hcnt, _⟩, _⟩, hn, hslots⟩ :=
        wsCmd_arrive_completes hfree hE hx hkind hscope hsent hs hidle hclose hle hother
      have hcounted : ∀ c sat, ((x.counted f.sense c sat f.voidreq).completed).sense = (!x.sense) ∧
          ((x.counted f.sense c sat f.voidreq).completed).sent = false ∧
          ((x.counted f.sense c sat f.voidreq).completed).count x.sense = 0 ∧
          ((x.counted f.sense c sat f.voidreq).completed).void x.sense = false := fun c sat =>
        ⟨by simp, by simp, by simpa using (x.counted f.sense c sat f.voidreq).completed_count,
          by simpa using (x.counted f.sense c sat f.voidreq).completed_void⟩
      obtain ⟨hsense, hnosent, hcount, hvoid⟩ := hcounted _ _
      refine ⟨t, ht, hop, hst, ?count, ?ovr, hn ▸ hsense, hn ▸ hnosent, hn ▸ hcount, hn ▸ hvoid, hslots⟩
      case count => exact (congrArg BitVec.toNat hcnt).trans (Slot.arrivalRes_reached hs hle)
      case ovr => exact hovr.trans (Slot.arrivalRes_ovr hs)

end Sys2Proof.Machine
end

section
/-! SUPPORT. Reads of WS_WAIT, REG_ABORT and time-outs of operations on a word (R169, R170, R360), and the direct window
(R165). -/

namespace Sys2Proof.Machine

open Sys2Proof

/-! ### Reads of WS_WAIT (R169, R360) -/

theorem dropFirst_eq_eraseP {α : Type} (p : α → Bool) (l : List α) : dropFirst p l = l.eraseP p := by
  induction l with
  | nil => rfl
  | cons x t ih =>
    rw [dropFirst, List.eraseP_cons, ih]
    cases p x <;> rfl

section
variable {b : Block} {q : Req} {c k part : Nat} {tag : BitVec 8} (hport : q.dbg = false)
  (hroom : (b.tsu.heldReads.filter fun r => !r.dbg).length < 240)
  (hok : b.check q (wsReg c k 0x18) (worldOk q (b.ctxWorld c)) = .ok)
include hport hroom hok

/-- A read that passes its checks is answered where nothing is outstanding. -/
theorem Block.readWait_idle (ho : (b.wslot (wsIdx c k)).op = none) :
    b.readWait q c k part tag = b.answer q.dbg (some tag) 0 (partOf part (b.wslot (wsIdx c k)).waitWord) := by
  simp [Block.readWait, hport, Nat.not_le.2 hroom, hok, ho]

/-- A read that passes its checks is held while an operation is outstanding. -/
theorem Block.readWait_busy (ho : (b.wslot (wsIdx c k)).op.isSome = true) :
    b.readWait q c k part tag =
      b.mTsu fun t => { t with heldReads := t.heldReads ++ [⟨tag, q.dbg, part, c, k⟩] } := by
  simp [Block.readWait, hport, Nat.not_le.2 hroom, hok, ho]

end

theorem exec_wsWaitRead (a : Access) (c : Ctx6) (k : BitVec 3) (tag : BitVec 8) (s : State) :
    exec (.wsWaitRead a c k tag) s =
      .next { s with blk := s.blk.readWait (portReq a) c.toNat k.toNat 0 tag } := rfl

section
variable {tag : BitVec 8} {s : State}

theorem exec_regAbort_held (h : s.blk.tsu.heldReads.any (fun r => !r.dbg && r.tag == tag) = true) :
    exec (.regAbort tag) s = .next { s with
      blk := (s.blk.mTsu fun t =>
        { t with heldReads := t.heldReads.eraseP fun r => !r.dbg && r.tag == tag }).emit (.reg (some tag) 3 0) } := by
  refine State.run_of ((if_pos h).trans ?_)
  simp only [dropFirst_eq_eraseP]

theorem exec_regAbort_none (h : s.blk.tsu.heldReads.any (fun r => !r.dbg && r.tag == tag) = false) :
    exec (.regAbort tag) s = .next s :=
  State.run_of (if_neg (by rw [h]; decide))

end

/-! ### Time-outs (R170) -/

section
variable {b : Block} {i : Nat} {o : WOp}

/-- The operation on a word is withdrawn: its slot shows the status, and it is held no more. -/
theorem Block.wsWithdraw_word (ho : (b.wslot i).op = some o) (hs : o.space = 0) (st : Byte) (arr cancel : Bool)
    (e : HallEnd) : b.wsWithdraw i st arr cancel e =
      (b.wsDone i (if arr then o.result st else { status := st })).mTsu fun t =>
        { t with held := t.held.filter fun x => x != .waitOp (i / 8) (i % 8) } := by
  rw [Block.wsWithdraw, ho]
  simp [hs]

theorem Block.waitTimeout_due {x : Tick} (ho : (b.wslot i).op = some o) (hx : o.expiry = some x) (hdue : b.due x = true) :
    b.waitTimeout i = b.wsWithdraw i stTIMEOUT true true .cancel := by
  rw [Block.waitTimeout, ho]
  dsimp only
  rw [hx]
  exact if_pos hdue

theorem Block.waitTimeout_none (ho : (b.wslot i).op = none) : b.waitTimeout i = b := by
  rw [Block.waitTimeout, ho]

end

theorem exec_waitTimeout (c : Ctx6) (k : BitVec 3) (s : State) :
    exec (.waitTimeout c k) s = .next { s with blk := s.blk.waitTimeout (wsIdx c.toNat k.toNat) } := rfl

/-! ### The direct window (R165) -/

/-- A word given a value. -/
def Block.putWord (b : Block) (n : Nat) (x : TWord) : Block :=
  if x = b.tsu.tm.get n then b else b.mTm fun m => m.set n x

section
variable {b : Block} {n : Nat}

theorem putWord_get (x : TWord) (m : Nat) : (b.putWord n x).tsu.tm.get m = if n = m then x else b.tsu.tm.get m := by
  unfold Block.putWord
  split
  case isTrue hx =>
    split
    · next hm => rw [hx, hm]
    · rfl
  case isFalse => exact tm_get_set _ n m x

/-- A word's write leaves all but tagged memory. -/
theorem putWord_eq (x : TWord) : ∃ m, b.putWord n x = b.mTm fun _ => m := by
  unfold Block.putWord
  split
  · exact ⟨b.tsu.tm, rfl⟩
  · exact ⟨b.tsu.tm.set n x, rfl⟩

/-- An operation on a word that is not held is performed now. -/
theorem Block.onWord_now (hE : b.engOn = true) (hheld : b.wordHeld n = false) (e : EngOp) (f : Block → Block) :
    b.onWord n e f = f b.demand :=
  if_neg (by rw [hE, hheld]; decide)

section
variable {q : Req} {tag : Option Byte} (hrst : b.tsu.boot.tsuRst = false)
include hrst

theorem Block.dirAccess_narrow (data : Option (BitVec 64)) : b.dirAccess q false tag n data = b.answer q.dbg tag 1 0 := by
  simp [Block.dirAccess, hrst]

section
variable (hok : b.check q (0x400000 + 8 * n) (worldOk q (b.regionWorld n)) = .ok) (hE : b.engOn = true)
  (hheld : b.wordHeld n = false)
include hok hE hheld

/-- A read of a word that can be reached now. -/
theorem Block.dirAccess_read : b.dirAccess q true tag n none = b.demand.dirRead q tag n := by
  simp [Block.dirAccess, hrst, hok, Block.onWord_now hE hheld]

/-- A write of a word that can be reached now. -/
theorem Block.dirAccess_write (d : BitVec 64) : b.dirAccess q true tag n (some d) = b.demand.dirWrite q tag n d := by
  simp [Block.dirAccess, hrst, hok, Block.onWord_now hE hheld]

end

end

section
variable {q : Req} (hecc : (b.tsu.tm.get n).ecc = .good)
  (hworld : q.secure = true ∨ b.regionWorld n = false ∧ (b.tsu.tm.get n).w = false)
include hecc hworld

/-- One attempt on a word with good check bits that the worlds allow. -/
theorem Block.wordTry_reached {src : BitVec 4} {op : Nat} {d : BitVec 64} {waits : Bool} {r : WRes} {x : TWord}
    (ho : wordOp op d waits (b.regionWorld n) (b.tsu.tm.get n) = some (r, x)) :
    b.wordTry q src n op d waits = (some r, b.putWord n x) := by
  refine wordTry_free b q src n op d waits ?_ hecc ?_ r x ho
  · rcases hworld with h | ⟨h, _⟩ <;> simp [h]
  · rcases hworld with h | ⟨_, h⟩ <;> simp [h]

/-- A read answers DATA, whatever FE. -/
theorem Block.dirRead_reached (tag : Option Byte) : b.dirRead q tag n = b.answer q.dbg tag 0 (b.tsu.tm.get n).data := by
  unfold Block.dirRead
  rw [Block.wordTry_reached hecc hworld rfl]
  dsimp only
  rw [Block.putWord, if_pos rfl]

/-- A write is WRITE_FORCE; nothing waits on the word. -/
theorem Block.dirWrite_reached (hidle : ∀ e ∈ b.tsu.ws, e.2.op = none) (tag : Option Byte) (d : BitVec 64) :
    b.dirWrite q tag n d =
      (b.putWord n { b.tsu.tm.get n with data := d, fe := true, w := b.regionWorld n }).answer q.dbg tag 0 0 := by
  unfold Block.dirWrite Block.wordNow
  rw [Block.wordTry_reached hecc hworld rfl]
  obtain ⟨m, hm⟩ := putWord_eq (b := b) (n := n) { b.tsu.tm.get n with data := d, fe := true, w := b.regionWorld n }
  dsimp only
  rw [hm, examine_idle (b.mTm fun _ => m) hidle, ite_self]

end

end

theorem exec_directWindowRead (a : Access) (wide : Bool) (n : BitVec 19) (tag : BitVec 8) (s : State) :
    exec (.directWindowRead a wide n tag) s =
      .next { s with blk := s.blk.dirAccess (portReq a) wide (some tag) n.toNat none } := rfl

theorem exec_directWindowWrite (a : Access) (wide : Bool) (n : BitVec 19) (d : BitVec 64) (s : State) :
    exec (.directWindowWrite a wide n d) s =
      .next { s with blk := s.blk.dirAccess (portReq a) wide none n.toNat (some d) } := rfl

/-- Settles O15: a read of WS_WAIT by what is outstanding, an abort by whether the read is held, a time-out by what it
withdraws, and the window by the word it reaches. -/
theorem waitsAndWindow : Obligations.WaitsAndWindow := by
  unfold Obligations.WaitsAndWindow
  refine ⟨fun a c k tag s hroom hok => ⟨fun hnone => ?answered, fun hsome => ?held⟩,
    fun tag s => ⟨exec_regAbort_held, exec_regAbort_none⟩,
    fun c k o x s ho hx hs hdue => ?timeout, fun c k s ho => ?noTimeout, fun a n tag d s hrst => ⟨?_, ?_⟩,
    fun a n tag d s hrst hok hE hheld hecc hworld hidle => ⟨?read, ?write⟩⟩
  case answered =>
    rw [exec_wsWaitRead, Block.readWait_idle rfl hroom hok hnone]
    rfl
  case held =>
    rw [exec_wsWaitRead, Block.readWait_busy rfl hroom hok hsome]
    rfl
  case timeout =>
    refine ⟨_, exec_waitTimeout c k s, ?_⟩
    rw [Block.waitTimeout_due ho hx hdue, Block.wsWithdraw_word ho hs]
    generalize hr : (if true then o.result stTIMEOUT else { status := stTIMEOUT } : WRes) = r
    have hst : r.status = 0x01 := by rw [← hr]; rfl
    have hslot := fun j => wslot_wsDone s.blk (wsIdx c.toNat k.toNat) j r
    refine ⟨?_, ?_, fun j hj => (hslot j).trans (if_neg (Ne.symm hj)), ?_, ?_, wsDone_dist _ _ _, rfl⟩
    · exact congrArg WSlot.op ((hslot _).trans (if_pos rfl))
    · exact (congrArg WSlot.status ((hslot _).trans (if_pos rfl))).trans hst
    · exact wsDone_tm _ _ _
    · exact wsDone_bar _ _ _
  case noTimeout => rw [exec_waitTimeout, Block.waitTimeout_none ho]
  · rw [exec_directWindowRead, Block.dirAccess_narrow hrst]
    rfl
  · rw [exec_directWindowWrite, Block.dirAccess_narrow hrst]
    rfl
  case read =>
    rw [exec_directWindowRead, Block.dirAccess_read hrst hok hE hheld,
      Block.dirRead_reached (b := s.blk.demand) hecc hworld]
    rfl
  case write =>
    refine ⟨_, exec_directWindowWrite a true n d s, ?_⟩
    rw [Block.dirAccess_write hrst hok hE hheld, Block.dirWrite_reached (b := s.blk.demand) hecc hworld hidle]
    generalize hx : ({ s.blk.demand.tsu.tm.get n.toNat with
      data := d, fe := true, w := s.blk.demand.regionWorld n.toNat } : TWord) = x
    have hget := putWord_get (b := s.blk.demand) (n := n.toNat) x
    have hgood : x = { data := d, fe := true, w := s.blk.regionWorld n.toNat, ecc := .good } := by
      rw [← hx, ← hecc]
      rfl
    refine ⟨(hget _).trans ((if_pos rfl).trans hgood), fun m hm => (hget m).trans (if_neg (Ne.symm hm)), ?_⟩
    obtain ⟨m, hm⟩ := putWord_eq (b := s.blk.demand) (n := n.toNat) x
    rw [hm]
    exact ⟨rfl, rfl, rfl, rfl⟩

end Sys2Proof.Machine
end

section
/-! SUPPORT. ENGINE on demand (R346), and what its absence leaves of the work that waits for it. -/

namespace Sys2Proof.Machine

open Sys2Proof

/-! ### Demands -/

section
variable {b : Block}

theorem mPwr_congr {f g : Pwr → Pwr} (h : f b.tsu.pwr = g b.tsu.pwr) : b.mPwr f = b.mPwr g :=
  congrArg (fun p => b.mPwr fun _ => p) h

/-- A demand while ENGINE is stopped and its last stop has ended requests its start. -/
theorem Block.demand_requests (hst : b.tsu.pwr.st = .idle) (hoff : b.tsu.pwr.on.engine = false)
    (hack : b.tsu.pwr.ack.engine = false) : b.demand = b.mPwr fun p => { p with
      demandAt := b.tsu.time.tc64, engWanted := true, req := { p.req with engine := true } } := by
  unfold Block.demand
  refine mPwr_congr ?_
  simp [hst, hoff, hack, Block.tc]

/-- A demand while ENGINE runs notes its tick. -/
theorem Block.demand_running (hon : b.tsu.pwr.on.engine = true) :
    b.demand = b.mPwr fun p => { p with demandAt := b.tsu.time.tc64 } := by
  unfold Block.demand
  refine mPwr_congr ?_
  simp [hon, Block.tc]

/-- A demand starts and stops no domain. -/
theorem Block.demand_on : b.demand.tsu.pwr.on = b.tsu.pwr.on := by
  simp only [Block.demand, Block.mPwr_tsu]
  split <;> rfl

theorem Block.engStarted_due (hlive : b.live = true) (hst : b.tsu.pwr.st = .idle) (hoff : b.tsu.pwr.on.engine = false)
    (hmem : b.tsu.pwr.on.mem = true) (hreq : b.tsu.pwr.req.engine = true) (hack : b.tsu.pwr.ack.engine = true) :
    b.engStarted = (b.mPwr fun p => { p with
      on := { p.on with engine := true }, st := .on, engStarts := sat1 p.engStarts, engWanted := false
      demandAt := b.tsu.time.tc64 }).runHeld := by
  simp [Block.engStarted, hlive, hst, hoff, hmem, hreq, hack, Block.tc]

end

section
variable {s : State}

theorem exec_engineDemand (h : s.blk.live = true) : exec .engineDemand s = .next { s with blk := s.blk.demand } :=
  State.run_of (if_pos h)

theorem exec_engineStarted (s : State) : exec .engineStarted s = .next { s with blk := s.blk.engStarted } := rfl

theorem Pwr.lead_eq_max (p : Pwr) : p.lead = max 2500 p.engLead.toNat := by
  unfold Pwr.lead
  split <;> omega

/-- ENG_LEAD ahead of an armed launch lies a demand. -/
theorem exec_engLeadExpire {c : Ctx6} {m : ArmMsg} (hlive : s.blk.live = true)
    (hst : (s.blk.ctx c.toNat).st = .armed) (hm : (s.blk.ctx c.toNat).arm = some m) :
    exec (.engLeadExpire c) s = .next { s with
      blk := if Tick.le (m.tStart - BitVec.ofNat 64 (max 2500 s.blk.tsu.pwr.engLead.toNat)) s.blk.tsu.time.tc64 then
        s.blk.demand else s.blk } := by
  have hat : (s.blk.ctx c.toNat).armedAt = some m.tStart := by simp [Ctx.armedAt, hst, hm]
  rw [show exec (.engLeadExpire c) s = execEngLeadExpire c s from rfl]
  refine State.run_of ?_
  rw [hat]
  simp [hlive, Pwr.lead_eq_max, Block.due, Block.tc]

theorem exec_engIdleExpire (s : State) : exec .engIdleExpire s = execEngIdleExpire s := rfl

/-- ENG_IDLE ticks without work, without a context that runs and without a demand stop ENGINE. -/
theorem exec_engIdleExpire_due (hlive : s.blk.live = true) (hst : s.blk.tsu.pwr.st = .on)
    (hon : s.blk.tsu.pwr.on.engine = true) (hauto : s.blk.tsu.pwr.engAuto = true) (hbusy : s.blk.engBusy = false)
    (hruns : s.blk.anyRuns = false)
    (hidle : (s.blk.tsu.pwr.engIdle.toNat : Int) ≤ Tick.diff s.blk.tsu.time.tc64 s.blk.tsu.pwr.demandAt) :
    exec .engIdleExpire s = .next { s with blk := s.blk.mPwr fun p => { p with
      on := { p.on with engine := false }, req := { p.req with engine := false }, st := .idle } } := by
  rw [exec_engIdleExpire]
  refine State.run_of (if_pos ?_)
  simp only [hlive, hst, hon, hauto, hbusy, hruns, beq_self_eq_true, Bool.not_false, Bool.and_true, Bool.true_and]
  exact decide_eq_true hidle

theorem exec_engIdleExpire_kept (h : s.blk.anyRuns = true ∨ s.blk.tsu.pwr.engAuto = false) :
    exec .engIdleExpire s = .next s := by
  rw [exec_engIdleExpire]
  refine State.run_of (if_neg ?_)
  rcases h with h | h <;> simp [h]

end

/-! ### What waits while ENGINE is stopped -/

/-- `c` is `b` but for the operations held, the demand for ENGINE, and completions of the collective engine that no signal
follows; the same domains are on. -/
def HoldsOnly (b c : Block) : Prop :=
  ∃ held pwr coll, c = { b with tsu := { b.tsu with held := held, pwr := pwr, coll := coll } } ∧ pwr.on = b.tsu.pwr.on

section
variable {b c d : Block}

theorem HoldsOnly.refl (b : Block) : HoldsOnly b b := ⟨_, _, _, rfl, rfl⟩

theorem HoldsOnly.trans (h : HoldsOnly b c) (g : HoldsOnly c d) : HoldsOnly b d := by
  obtain ⟨_, _, _, rfl, hon⟩ := h
  obtain ⟨_, _, _, rfl, hon'⟩ := g
  exact ⟨_, _, _, rfl, hon'.trans hon⟩

theorem HoldsOnly.engOn (h : HoldsOnly b c) : c.engOn = b.engOn := by
  obtain ⟨_, _, _, rfl, hon⟩ := h
  exact congrArg Doms.engine hon

section
variable (h : HoldsOnly b c)
include h

theorem HoldsOnly.tm : c.tsu.tm = b.tsu.tm := by
  obtain ⟨_, _, _, rfl, _⟩ := h
  rfl

theorem HoldsOnly.gnt : c.tsu.gnt = b.tsu.gnt := by
  obtain ⟨_, _, _, rfl, _⟩ := h
  rfl

theorem HoldsOnly.ctxs : c.tsu.ctxs = b.tsu.ctxs := by
  obtain ⟨_, _, _, rfl, _⟩ := h
  rfl

theorem HoldsOnly.dist : c.dist = b.dist := by
  obtain ⟨_, _, _, rfl, _⟩ := h
  rfl

end

theorem holdsOnly_held (b : Block) (f : List EngOp → List EngOp) : HoldsOnly b (b.mTsu fun t => { t with held := f t.held }) :=
  ⟨_, _, _, rfl, rfl⟩

theorem holdsOnly_demand (b : Block) : HoldsOnly b b.demand := ⟨_, _, _, rfl, b.demand_on⟩

theorem holdsOnly_hold (b : Block) (e : EngOp) : HoldsOnly b (b.hold e) :=
  (holdsOnly_held b fun l => l ++ [e]).trans (holdsOnly_demand _)

theorem holdsOnly_collDone (b : Block) (n : Nat) : HoldsOnly b (b.collDone n) :=
  ⟨_, _, _, rfl, rfl⟩

/-- Turns that hold what they meet while ENGINE is stopped. -/
theorem holdsOnly_each {α : Type} {f : Block → α → Block} (h : ∀ b a, b.engOn = false → HoldsOnly b (f b a))
    (hE : b.engOn = false) (l : List α) : HoldsOnly b (b.each l f) :=
  Block.each_preserves (fun c a hc => hc.trans (h c a (hc.engOn.trans hE))) l (HoldsOnly.refl b)

section
variable (hE : b.engOn = false)
include hE

theorem holdsOnly_onWord (n : Nat) (e : EngOp) (f : Block → Block) : HoldsOnly b (b.onWord n e f) := by
  rw [Block.onWord, if_pos (by rw [hE]; rfl)]
  exact holdsOnly_hold b e

theorem holdsOnly_onEngine (e : EngOp) (f : Block → Block) : HoldsOnly b (b.onEngine e f) := by
  rw [Block.onEngine, if_pos (by rw [hE]; rfl)]
  exact holdsOnly_hold b e

theorem holdsOnly_timerDo (n : Nat) : HoldsOnly b (b.timerDo n) := by
  unfold Block.timerDo
  dsimp only
  split
  · exact HoldsOnly.refl b
  · split
    · exact holdsOnly_onEngine hE _ _
    · exact holdsOnly_onWord hE _ _ _

theorem holdsOnly_collOutDone (n : Nat) : HoldsOnly b (b.collOutDone n) := by
  unfold Block.collOutDone
  dsimp only
  split
  · exact HoldsOnly.refl b
  · split
    · exact holdsOnly_collDone b n
    · split
      · exact holdsOnly_onEngine hE _ _
      · exact holdsOnly_onWord hE _ _ _

theorem holdsOnly_wsPerform (i : Nat) : HoldsOnly b (b.wsPerform i) := by
  unfold Block.wsPerform
  split
  · exact HoldsOnly.refl b
  · dsimp only
    split
    · exact holdsOnly_onWord hE _ _ _
    · exact holdsOnly_onEngine hE _ _

theorem holdsOnly_redo (e : EngOp) : HoldsOnly b (b.redo e) := by
  unfold Block.redo
  cases e with
  | dirRead dbg secure priv tag word => exact holdsOnly_onWord hE _ _ _
  | dirWrite dbg secure priv tag word data => exact holdsOnly_onWord hE _ _ _
  | timer n => exact holdsOnly_timerDo hE n
  | collSig n => exact holdsOnly_collOutDone hE n
  | genSig n => exact holdsOnly_onWord hE _ _ _
  | dmSig n => exact HoldsOnly.refl b
  | waitOp c k => exact holdsOnly_wsPerform hE _

theorem holdsOnly_collTry (n : Nat) : HoldsOnly b (b.collTry n) := by
  unfold Block.collTry
  dsimp only
  split
  · exact HoldsOnly.refl b
  · rw [if_pos (by rw [hE]; rfl)]
    exact holdsOnly_demand b

theorem holdsOnly_genBegin (n : Nat) : HoldsOnly b (b.genBegin n) := by
  unfold Block.genBegin
  dsimp only
  split
  · exact HoldsOnly.refl b
  · rw [if_pos (by rw [hE]; rfl)]
    exact holdsOnly_demand b

theorem Block.genNext_off (p : Producer) : b.genNext p = b := by
  cases p with
  | gen n => exact if_neg (by rw [hE]; decide)
  | _ => rfl

theorem holdsOnly_dmGo : HoldsOnly b b.dmGo := by
  unfold Block.dmGo
  split
  · exact HoldsOnly.refl b
  · rw [Block.dmPump, if_pos (by rw [hE]; rfl)]
    split
    · exact holdsOnly_demand b
    · exact HoldsOnly.refl b

/-- All that waits for ENGINE waits on while it is stopped. -/
theorem holdsOnly_runHeld : HoldsOnly b b.runHeld := by
  have h0 := holdsOnly_held b fun _ => []
  have h1 := h0.trans (holdsOnly_each (fun b e hE => holdsOnly_redo hE e) (h0.engOn.trans hE) b.tsu.held)
  have h2 := h1.trans (holdsOnly_each (fun b n hE => holdsOnly_collTry hE n) (h1.engOn.trans hE) (List.range 16))
  have h3 := h2.trans (holdsOnly_each (fun b n hE => holdsOnly_genBegin hE n) (h2.engOn.trans hE) (List.range 8))
  have h4 := h3.trans (holdsOnly_each (f := fun b n =>
      if (b.genSlot n).formed = 0 then b else b.genNext (.gen (BitVec.ofNat 3 n))) (fun b n hE => by
    rw [Block.genNext_off hE, ite_self]
    exact HoldsOnly.refl b) (h3.engOn.trans hE) (List.range 8))
  exact h4.trans (holdsOnly_dmGo (h4.engOn.trans hE))

end

end

end Sys2Proof.Machine
end

section
/-! SUPPORT. Initialisation and scrubs of tagged memory (R162 to R164). -/

namespace Sys2Proof.Machine

open Sys2Proof

/-! ### A region cleared -/

section
variable {α : Type} {d : α} {p : Nat × α → Bool} {n : Nat}

/-- A filter that keeps every entry of a number keeps its value. -/
theorem smGet_filter_keep (l : List (Nat × α)) (h : ∀ v, p (n, v) = true) : smGet d (l.filter p) n = smGet d l n := by
  induction l with
  | nil => rfl
  | cons e t ih =>
    obtain ⟨m, v⟩ := e
    rw [List.filter_cons]
    by_cases hm : m = n
    · subst hm
      rw [if_pos (h v), smGet_cons, smGet_cons, if_pos rfl, if_pos rfl]
    · split
      · rw [smGet_cons, smGet_cons, if_neg hm, if_neg hm, ih]
      · rw [smGet_cons, if_neg hm, ih]

/-- A filter that drops every entry of a number leaves it unlisted. -/
theorem smGet_filter_drop (l : List (Nat × α)) (h : ∀ v, p (n, v) = false) : smGet d (l.filter p) n = d := by
  induction l with
  | nil => rfl
  | cons e t ih =>
    obtain ⟨m, v⟩ := e
    rw [List.filter_cons]
    by_cases hm : m = n
    · subst hm
      rw [if_neg (by rw [h v]; decide), ih]
    · split
      · rw [smGet_cons, if_neg hm, ih]
      · exact ih

end

theorem setBit64_self (w : BitVec 64) {i : Nat} (h : i < 64) (x : Bool) : (setBit64 w i x).getLsbD i = x := by
  cases x <;> simp [setBit64, h]

theorem TWord.fields_of_cleared {x : TWord} {rw : Bool} {e : Ecc} (h : x = ⟨0, false, rw, e⟩) :
    x.data = 0 ∧ x.fe = false ∧ x.w = rw := by
  subst h
  exact ⟨rfl, rfl, rfl⟩

/-- `m'` is `m` with the words of region `r` DATA 0, EMPTY and of the world `rw`. -/
def TagMem.Cleared (m m' : TagMem) (r : Nat) (rw : Bool) : Prop :=
  ∀ n, if regionOf n = r then ∃ e, m'.get n = ⟨0, false, rw, e⟩ else m'.get n = m.get n

section
variable {m m' : TagMem} {r : Nat} {rw : Bool}

theorem TagMem.Cleared.mine (h : m.Cleared m' r rw) {n : Nat} (hn : regionOf n = r) : ∃ e, m'.get n = ⟨0, false, rw, e⟩ := by
  simpa [hn] using h n

theorem TagMem.Cleared.other (h : m.Cleared m' r rw) {n : Nat} (hn : regionOf n ≠ r) : m'.get n = m.get n := by
  simpa [hn] using h n

/-- A word of the region may be marked as failed. -/
theorem TagMem.Cleared.set (h : m.Cleared m' r rw) {k : Nat} (hk : regionOf k = r) (e : Ecc) :
    m.Cleared (m'.set k ⟨0, false, rw, e⟩) r rw := by
  intro n
  rw [tm_get_set]
  by_cases hn : k = n
  · subst hn
    rw [if_pos hk, if_pos rfl]
    exact ⟨e, rfl⟩
  · rw [if_neg hn]
    exact h n

/-- The listed words of the region leave, and the region reads as initialised. -/
theorem TagMem.cleared_unlisted (m : TagMem) (hr : r < 64) (rw : Bool) : m.Cleared
    { m with words := m.words.filter fun e => regionOf e.1 != r, fillW := setBit64 m.fillW r rw } r rw := by
  intro n
  unfold TagMem.get TagMem.dflt
  by_cases hn : regionOf n = r
  · rw [if_pos hn]
    refine ⟨.good, (smGet_filter_drop _ fun v => by simp [hn]).trans ?_⟩
    rw [hn, setBit64_self _ hr]
  · rw [if_neg hn, setBit64_other _ _ _ _ hn]
    exact smGet_filter_keep _ fun v => by simp [hn]

theorem TagMem.clearRegion_cleared (m : TagMem) (hr : r < 64) (rw : Bool) : m.Cleared (m.clearRegion r rw) r rw := by
  unfold TagMem.clearRegion
  refine List.foldlRecOn (motive := fun m' => m.Cleared m' r rw) _ _ (m.cleared_unlisted hr rw)
    fun m' h e he => h.set ?_ _
  obtain ⟨_, hmine⟩ := List.mem_filter.1 he
  simp only [Bool.and_eq_true, beq_iff_eq] at hmine
  exact hmine.1

end

/-! ### Initialisation (R162) -/

/-- The first `k` regions cleared, each for its world. -/
def Block.clearTo (b : Block) (k : Nat) : Block :=
  (List.range k).foldl (fun b r => b.mTm fun m => m.clearRegion r (b.tsu.gnt.tmw.getLsbD r)) b

theorem Block.clearTo_succ (b : Block) (k : Nat) :
    b.clearTo (k + 1) = (b.clearTo k).mTm fun m => m.clearRegion k ((b.clearTo k).tsu.gnt.tmw.getLsbD k) := by
  simp [Block.clearTo, List.range_succ]

theorem Block.clearTo_words (b : Block) (k : Nat) (hk : k ≤ 64) : ∃ m, b.clearTo k = b.mTm (fun _ => m) ∧
    ∀ n, regionOf n < k → ∃ e, m.get n = ⟨0, false, b.tsu.gnt.tmw.getLsbD (regionOf n), e⟩ := by
  induction k with
  | zero => exact ⟨b.tsu.tm, rfl, fun n hn => absurd hn (Nat.not_lt_zero _)⟩
  | succ k ih =>
    obtain ⟨m, hm, hwords⟩ := ih (Nat.le_of_succ_le hk)
    have hclear := TagMem.clearRegion_cleared m (r := k) hk (b.tsu.gnt.tmw.getLsbD k)
    refine ⟨m.clearRegion k (b.tsu.gnt.tmw.getLsbD k), ?_, fun n hn => ?_⟩
    · rw [Block.clearTo_succ, hm]
      rfl
    · rcases Nat.lt_succ_iff_lt_or_eq.1 hn with hlt | heq
      · rw [hclear.other (Nat.ne_of_lt hlt)]
        exact hwords n hlt
      · rw [heq]
        exact hclear.mine heq

section
variable {b : Block}

theorem Block.tmInit_due (hlive : b.live = true) (hmem : b.tsu.pwr.on.mem = true) (hinit : b.tsu.tm.initDone = false)
    (hfuse : b.tsu.boot.fuseBusy = false) :
    b.tmInit = ((b.clearTo 64).mTm fun m => { m with initDone := true }).runHeld := by
  rw [Block.tmInit, if_neg (by simp [hlive, hmem, hinit, hfuse])]
  rfl

/-- Initialisation while ENGINE is stopped: every word cleared for the world of its region, and the rest held. -/
theorem Block.tmInit_off (hlive : b.live = true) (hmem : b.tsu.pwr.on.mem = true) (hinit : b.tsu.tm.initDone = false)
    (hfuse : b.tsu.boot.fuseBusy = false) (hE : b.engOn = false) :
    ∃ m : TagMem, HoldsOnly (b.mTm fun _ => m) b.tmInit ∧ m.initDone = true ∧
      ∀ n, regionOf n < 64 → ∃ e, m.get n = ⟨0, false, b.tsu.gnt.tmw.getLsbD (regionOf n), e⟩ := by
  obtain ⟨m, hm, hwords⟩ := b.clearTo_words 64 (Nat.le_refl 64)
  refine ⟨{ m with initDone := true }, ?_, rfl, hwords⟩
  have hb : (b.mTm fun _ => m).mTm (fun m => { m with initDone := true }) =
      b.mTm fun _ => { m with initDone := true } := rfl
  rw [Block.tmInit_due hlive hmem hinit hfuse, hm, hb]
  exact holdsOnly_runHeld hE

/-! ### Scrubs (R163) -/

theorem Block.scrubStart_denied {q : Req} {r : BitVec 6} (h : worldOk q (b.tsu.gnt.tmw.getLsbD r.toNat) = false) :
    b.scrubStart q r = b.violate q.src q true 0x7008 := by
  simp [Block.scrubStart, h]

/-- A scrub starts unless one runs; the region chosen is noted in any case. -/
theorem Block.scrubStart_allowed {q : Req} {r : BitVec 6} (h : worldOk q (b.tsu.gnt.tmw.getLsbD r.toNat) = true) :
    b.scrubStart q r = b.mTm fun m => { m with
      scrubSel := r, scrub := if m.scrub.isSome then m.scrub else some r } := by
  unfold Block.scrubStart
  rw [if_neg (by rw [h]; decide)]
  cases hs : b.tsu.tm.scrub <;> simp [Block.mTm, Block.mTsu, hs]

theorem Block.waitedWords_idle (hidle : ∀ e ∈ b.tsu.ws, e.2.op = none) (r : Nat) : b.waitedWords r = [] := by
  rw [Block.waitedWords, wsWhere_nil b hidle]
  rfl

/-- The end of a scrub where nothing waits on a word. -/
theorem Block.scrubDone_idle {r : BitVec 6} (hs : b.tsu.tm.scrub = some r) (hlive : b.live = true)
    (hmem : b.tsu.pwr.on.mem = true) (hidle : ∀ e ∈ b.tsu.ws, e.2.op = none) :
    b.scrubDone = (b.mTm fun m =>
      { m.clearRegion r.toNat (b.tsu.gnt.tmw.getLsbD r.toNat) with scrub := none }).runHeld := by
  rw [Block.scrubDone, hs]
  dsimp only
  rw [if_neg (by simp [hlive, hmem]), Block.waitedWords_idle _]
  · rfl
  · exact hidle

/-- The end of a scrub while ENGINE is stopped and nothing waits on a word: its region cleared, and the rest held. -/
theorem Block.scrubDone_off {r : BitVec 6} (hs : b.tsu.tm.scrub = some r) (hlive : b.live = true)
    (hmem : b.tsu.pwr.on.mem = true) (hidle : ∀ e ∈ b.tsu.ws, e.2.op = none) (hE : b.engOn = false) :
    ∃ m : TagMem, HoldsOnly (b.mTm fun _ => m) b.scrubDone ∧ m.scrub = none ∧
      b.tsu.tm.Cleared m r.toNat (b.tsu.gnt.tmw.getLsbD r.toNat) := by
  refine ⟨{ b.tsu.tm.clearRegion r.toNat (b.tsu.gnt.tmw.getLsbD r.toNat) with scrub := none }, ?_, rfl,
    TagMem.clearRegion_cleared _ r.isLt _⟩
  rw [Block.scrubDone_idle hs hlive hmem hidle]
  exact holdsOnly_runHeld hE

end

theorem exec_tmInitDone (s : State) : exec .tmInitDone s = .next { s with blk := s.blk.tmInit } := rfl

theorem exec_tmScrubDone (s : State) : exec .tmScrubDone s = .next { s with blk := s.blk.scrubDone } := rfl

theorem exec_tmScrubStart {a : Access} {r : BitVec 6} {s : State} (hok : s.blk.check (portReq a) 0x7008 true = .ok) :
    exec (.tmScrubStart a r) s = .next { s with blk := (s.blk.scrubStart (portReq a) r).emit (.reg none 0 0) } :=
  State.run_regCmd_ok _ hok

/-- Settles O25: a demand by the state of ENGINE, its start and its stop by their conditions, and the regions that
initialisation and a scrub clear while all that waits for ENGINE waits on. -/
theorem engineAndTaggedMemory : Obligations.EngineAndTaggedMemory := by
  unfold Obligations.EngineAndTaggedMemory
  refine ⟨fun s hlive hst hoff hack => ?requests, fun s hlive hon => ?running,
    fun s hlive hst hoff hmem hreq hack => ?started, fun c m s hlive hst hm => ?lead,
    fun s hlive hst hon => ⟨exec_engIdleExpire_due hlive hst hon, exec_engIdleExpire_kept⟩,
    fun s hlive hmem hinit hfuse hE => ?init, fun a r s hok => ⟨fun hw => ?scrub, fun hw => ?denied⟩,
    fun r s hs hlive hmem _ hidle hE => ?scrubbed⟩
  case requests => rw [exec_engineDemand hlive, Block.demand_requests hst hoff hack]
  case running => rw [exec_engineDemand hlive, Block.demand_running hon]
  case started => rw [exec_engineStarted, Block.engStarted_due hlive hst hoff hmem hreq hack]
  case lead =>
    intro lead
    rw [exec_engLeadExpire hlive hst hm]
    exact ⟨fun hdue => by rw [if_pos hdue], fun hearly => by rw [if_neg (by rw [hearly]; decide)]⟩
  case init =>
    obtain ⟨m, h, hdone, hwords⟩ := Block.tmInit_off hlive hmem hinit hfuse hE
    refine ⟨_, exec_tmInitDone s, (congrArg TagMem.initDone h.tm).trans hdone, fun n hn => ?_, h.gnt, h.dist, rfl⟩
    obtain ⟨e, he⟩ := hwords n (show n / 8192 < 64 by omega)
    exact TWord.fields_of_cleared ((congrArg (fun m => m.get n) h.tm).trans he)
  case scrub => rw [exec_tmScrubStart hok, Block.scrubStart_allowed hw]
  case denied =>
    rw [exec_tmScrubStart hok, Block.scrubStart_denied hw]
    rfl
  case scrubbed =>
    obtain ⟨m, h, hdone, hclear⟩ := Block.scrubDone_off hs hlive hmem hidle hE
    have hget := fun n => congrArg (fun m => m.get n) h.tm
    refine ⟨_, exec_tmScrubDone s, (congrArg TagMem.scrub h.tm).trans hdone, fun n hn => ?_,
      fun n hn => (hget n).trans (hclear.other hn), h.ctxs, h.dist, rfl⟩
    obtain ⟨e, he⟩ := hclear.mine hn
    exact TWord.fields_of_cleared ((hget n).trans he)

end Sys2Proof.Machine
end

section
/-! SUPPORT. Collective arithmetic: records whose fields combine alike in any order (R197, R201, R207), and the ranking of
TOPK with the best K that it gives (R204, R205). -/

namespace Sys2Proof.Machine

open Sys2Proof

/-! ### Ranking (R204) -/

section
variable (f : Fmt)

theorem ranks_iff (x y : BitVec 64 × BitVec 64) : ranks f x y = true ↔
    f.key y.1.toNat < f.key x.1.toNat ∨ f.key x.1.toNat = f.key y.1.toNat ∧ x.2.toNat < y.2.toNat := by
  simp [ranks]

/-- Pair `y` does not rank above pair `x`, so `x` may stand before it in a ranked list. -/
abbrev mayPrecede (x y : BitVec 64 × BitVec 64) : Prop := ranks f y x = false

theorem mayPrecede_iff (x y : BitVec 64 × BitVec 64) : mayPrecede f x y ↔
    f.key y.1.toNat < f.key x.1.toNat ∨ f.key x.1.toNat = f.key y.1.toNat ∧ x.2.toNat ≤ y.2.toNat := by
  rw [mayPrecede, ← Bool.not_eq_true, ranks_iff]
  omega

theorem mayPrecede_total : Std.Total (mayPrecede f) :=
  ⟨fun x y => by rw [mayPrecede_iff, mayPrecede_iff]; omega⟩

theorem mayPrecede_trans : IsTrans _ (mayPrecede f) :=
  ⟨fun x y z => by rw [mayPrecede_iff, mayPrecede_iff, mayPrecede_iff]; omega⟩

/-! ### The best K (R205) -/

theorem rankIn_eq_orderedInsert (x : BitVec 64 × BitVec 64) (l : List (BitVec 64 × BitVec 64)) :
    rankIn f x l = l.orderedInsert (mayPrecede f) x := by
  induction l with
  | nil => rfl
  | cons y t ih => cases h : ranks f y x <;> simp [rankIn, mayPrecede, h, ih]

/-- The union of two lists in ranking order, where the first is ranked. -/
def rankAll (x y : List (BitVec 64 × BitVec 64)) : List (BitVec 64 × BitVec 64) := y.foldl (fun l e => rankIn f e l) x

theorem bestK_eq_take (k : Nat) (x y : List (BitVec 64 × BitVec 64)) : bestK f k x y = (rankAll f x y).take k := rfl

theorem rankAll_perm (x y : List (BitVec 64 × BitVec 64)) : (rankAll f x y).Perm (y ++ x) := by
  induction y generalizing x with
  | nil => rfl
  | cons e t ih =>
    calc (rankAll f (rankIn f e x) t).Perm (t ++ rankIn f e x) := ih _
      _ |>.Perm (t ++ e :: x) := by
        rw [rankIn_eq_orderedInsert]
        exact (List.perm_orderedInsert _ e x).append_left t
      _ |>.Perm (e :: (t ++ x)) := List.perm_middle

theorem rankAll_ranked {x : List (BitVec 64 × BitVec 64)} (hx : x.Pairwise (mayPrecede f))
    (y : List (BitVec 64 × BitVec 64)) : (rankAll f x y).Pairwise (mayPrecede f) := by
  have := mayPrecede_total f
  have := mayPrecede_trans f
  induction y generalizing x with
  | nil => exact hx
  | cons e t ih =>
    refine ih (x := rankIn f e x) ?_
    rw [rankIn_eq_orderedInsert]
    exact hx.orderedInsert e

end

/-- Of a ranked list, an entry is among the first `k`, or none of those is outranked by it. -/
theorem mem_take_or_mayPrecede {f : Fmt} {l : List (BitVec 64 × BitVec 64)} (hl : l.Pairwise (mayPrecede f)) (k : Nat)
    {e : BitVec 64 × BitVec 64} (he : e ∈ l) : e ∈ l.take k ∨ ∀ g ∈ l.take k, mayPrecede f g e := by
  rw [← List.take_append_drop k l] at he hl
  obtain ⟨-, -, hcross⟩ := List.pairwise_append.mp hl
  exact (List.mem_append.mp he).imp_right fun hdrop g hg => hcross g hg e hdrop

/-- Settles O57: `ranks` is decided by key and then by index, and `bestK` cuts off the list that insertion in that order
gives. -/
theorem topkRanking : Obligations.TopkRanking := by
  unfold Obligations.TopkRanking
  refine ⟨fun f x y z => ⟨?irrefl, ?asymm, ?trans, ?total⟩,
    fun f k x y hx => ⟨?ranked, ?length, ?members, ?best⟩⟩
  case irrefl => simp [ranks]
  case asymm =>
    rw [ranks_iff, ← mayPrecede, mayPrecede_iff]
    omega
  case trans =>
    simp only [ranks_iff]
    omega
  case total =>
    intro hxy hyx
    have hx := (mayPrecede_iff f x y).mp hyx
    have hy := (mayPrecede_iff f y x).mp hxy
    exact ⟨by omega, BitVec.eq_of_toNat_eq (by omega)⟩
  case ranked =>
    rw [bestK_eq_take]
    exact (rankAll_ranked f hx y).sublist (List.take_sublist k _)
  case length => rw [bestK_eq_take, List.length_take, (rankAll_perm f x y).length_eq, List.length_append, Nat.add_comm]
  case members =>
    intro e he
    exact (List.mem_append.mp ((rankAll_perm f x y).mem_iff.mp (List.mem_of_mem_take he))).symm
  case best =>
    intro e he
    rw [bestK_eq_take]
    exact mem_take_or_mayPrecede (rankAll_ranked f hx y) k
      ((rankAll_perm f x y).mem_iff.mpr (List.mem_append.mpr he.symm))

/-! ### Records of sums and counts (R197, R201, R207) -/

theorem satC_comm (x y : Nat) : satC x y = satC y x := by rw [satC, satC, Nat.add_comm]

theorem satC_assoc (x y z : Nat) : satC (satC x y) z = satC x (satC y z) := by
  unfold satC
  omega

/-- Settles O58: every field of these records combines by `or`, addition, the greater value or a saturating sum. -/
theorem combineAnyOrder : Obligations.CombineAnyOrder := by
  unfold Obligations.CombineAnyOrder
  refine ⟨fun op f k n p m u z n' p' m' u' z' n'' p'' m'' u'' z'' x y w => ⟨?sumComm, ?sumAssoc⟩,
    fun op f k x y w => ⟨?cntComm, ?cntAssoc⟩,
    fun op f k n u n' u' n'' u'' km km' km'' x y w => ⟨?ssumComm, ?ssumAssoc⟩⟩
  case sumComm => simp only [combineRec, Bool.or_comm, Int.add_comm]
  case sumAssoc => simp only [combineRec, Bool.or_assoc, Int.add_assoc]
  case cntComm => rw [combineRec, combineRec, Nat.add_comm]
  case cntAssoc => simp only [combineRec, Nat.add_assoc]
  case ssumComm => simp only [combineRec, Bool.or_comm, max_comm, satC_comm]
  case ssumAssoc => simp only [combineRec, Bool.or_assoc, max_assoc, satC_assoc]

end Sys2Proof.Machine
end

section
/-! SUPPORT. Completions whose burst finds the output channel closed (R216, R303, R304): OUT_DROP joins the flags of the
completion. -/

namespace Sys2Proof.Machine

open Sys2Proof

@[simp] theorem collSlot_mCollSlot (b : Block) (n k : Nat) (f : CollSlot → CollSlot) :
    (b.mCollSlot n f).collSlot k = if n = k then f (b.collSlot n) else b.collSlot k := by
  unfold Block.mCollSlot Block.collSlot
  rw [Block.mColl_tsu, smGet_smMod]

@[simp] theorem strCh_mStrCh (b : Block) (n k : Nat) (f : StrCh → StrCh) :
    (b.mStrCh n f).strCh k = if n = k then f (b.strCh n) else b.strCh k := by
  unfold Block.mStrCh Block.strCh
  rw [Block.mStr_tsu, smGet_smMod]

/-- The end of a slot's wait for its sources opens and closes no channel. -/
theorem collUnhook_takes (b : Block) (n m : Nat) (c : Bool) :
    ((b.collUnhook n c).strCh m).takes = (b.strCh m).takes := by
  refine each_keeps (fun b => (b.strCh m).takes) _ _ (fun b ch => ?_) b
  dsimp only
  rw [strCh_mStrCh]
  by_cases hm : ch = m
  · subst hm
    rw [if_pos rfl]
    cases (b.strCh ch).inq.any fun i => !i.closed <;> cases c <;> rfl
  · rw [if_neg hm]

/-- A burst of the collective engine that is dropped sets OUT_DROP of its slot (R216). -/
theorem dropBurst_collSlot (b : Block) (o : OutBurst) {n : BitVec 4} (ho : o.prod = .coll n) :
    (b.dropBurst o).collSlot n.toNat = { b.collSlot n.toNat with
      fin := { (b.collSlot n.toNat).fin with flags := (b.collSlot n.toNat).fin.flags ||| 0x100 } } := by
  rw [Block.dropBurst, ho, Block.outDropped, collSlot_mCollSlot, if_pos rfl]
  rfl

/-- A completion without elements whose output channel takes no burst: beside the flags it was given it shows OUT_DROP. -/
theorem collFail_closed {b : Block} {k : BitVec 4} {code : BitVec 3} (flags : BitVec 9) (nmiss : BitVec 16) (npres : BitVec 32)
    (missing : List (BitVec 32)) (hcode : code ≠ 4) (hclosed : (b.strCh (b.collSlot k.toNat).desc.och).takes = false) :
    ((b.collFail k.toNat code flags nmiss npres missing).collSlot k.toNat).fin =
      { code := code, flags := flags ||| 0x100, nmiss := nmiss, nempty := 0, npres := npres } := by
  have hk : BitVec.ofNat 4 k.toNat = k := by simp
  have htakes : (((b.collUnhook k.toNat false).mCollSlot k.toNat fun s => { s with
      st := .output, fin := ⟨code, flags, nmiss, 0, npres⟩, srcs := [] }).strCh
        (b.collSlot k.toNat).desc.och).takes = false :=
    (collUnhook_takes b k.toNat _ false).trans hclosed
  rw [Block.collFail, Block.collFinish, if_neg (fun h => hcode h.1), Block.present, hk, if_neg (by rw [htakes]; decide),
    dropBurst_collSlot _ _ rfl, collSlot_mCollSlot, if_pos rfl]

theorem exec_resGraceExpire (k : BitVec 4) (s : State) :
    exec (.resGraceExpire k) s = .next { s with blk := s.blk.graceEnd k.toNat } := rfl

theorem exec_collCut_tsu (k : BitVec 4) (s : State) :
    exec (.collCut (.tsu k)) s = .next { s with blk := s.blk.collCutTsu k.toNat } := rfl

/-- RES_GRACE ends with no result received (R221). -/
theorem Block.graceEnd_noResult {b : Block} {n : Nat} (hst : (b.collSlot n).st.awaits = true)
    (hscope : (b.collSlot n).desc.scope ≠ 0) (hdue : Tick.le (b.graceTick (b.collSlot n)) b.tsu.time.tc64 = true)
    (hA : (b.collSlot n).resA.last = none) (hB : (b.collSlot n).resB.last = none) :
    b.graceEnd n = b.collFail n 1 0x80 0 0 [] := by
  have hnotDie : ((b.collSlot n).desc.scope == 0) = false := beq_false_of_ne hscope
  simp only [Block.graceEnd, Block.due, Block.tc, hst, hnotDie, hdue, hA, hB]
  rfl

/-- The cut of an operation of scope DIE that still waits for a source (R187). -/
theorem Block.collCutTsu_die {b : Block} {n : Nat} (hst : (b.collSlot n).st = .gather)
    (hscope : (b.collSlot n).desc.scope = 0) (hwait : (b.collSlot n).srcs.contains .wait = true)
    (hdue : Tick.le (b.collSlot n).desc.deadline b.tsu.time.tc64 = true) :
    b.collCutTsu n = b.collFail n 1 0 1 0 [b.ownMissing] := by
  simp only [Block.collCutTsu, Block.due, Block.tc, Block.cutTick, hst, if_pos hscope, hdue, hwait]
  rfl

/-- A TSU in service at tick 1,000,000 whose stream channels are off, with `x` in operation slot 0: software may disable the
output channel of an operation in progress. -/
def outputOff (x : CollSlot) : State :=
  { blk := { tsu := {
      boot := { tsuRst := false, aonRst := false, fuseDone := true, hostReady := true, admitted := true, ldi := 5 }
      time := { tc64 := 1000000, timeValid := true }, coll := { slots := [(0, x)] } } } }

/-- A SUM over the hall, its contribution sent and its DEADLINE 900,000. -/
def sentSum : CollSlot := { d0 := 0x1000000100001000, d1 := 0x0007000900000905, d3 := 900000, st := .sent, useA := true }

/-- A SUM at scope DIE with DEADLINE 900,000 that waits for its one source. -/
def waitingSum : CollSlot := { d0 := 0x1000000100000000, d1 := 0x905, d3 := 900000, st := .gather, srcs := [.wait] }

/-- Refutes O20: where the output channel has been disabled since ISSUE, the completion at the end of RES_GRACE shows
OUT_DROP beside NORES (R216, R304), so its FLAGS are 0x180 and not 0x80. -/
theorem not_collectiveSlots : ¬ Obligations.CollectiveSlots := by
  unfold Obligations.CollectiveSlots
  rintro ⟨-, -, hslot⟩
  obtain ⟨-, hgrace, -, -⟩ := hslot 0 (outputOff sentSum)
  obtain ⟨t, ht, -, hfin, -⟩ := hgrace rfl (by decide) (by decide +kernel) rfl rfl
  rw [exec_resGraceExpire, Block.graceEnd_noResult rfl (by decide) (by decide +kernel) rfl rfl] at ht
  obtain rfl := Host.Outcome.next.inj ht
  exact absurd ((collFail_closed (k := 0) 0x80 0 0 [] (by decide) rfl).symm.trans hfin) (by decide)

/-- Refutes O23: where the output channel has been disabled since ISSUE, the completion at the cut of an operation of scope
DIE shows OUT_DROP (R216, R304), so its FLAGS are 0x100 and not 0. -/
theorem not_hallCollectives : ¬ Obligations.HallCollectives := by
  unfold Obligations.HallCollectives
  rintro ⟨-, -, -, hcut, -⟩
  obtain ⟨-, hdue⟩ := hcut 0 (outputOff waitingSum) rfl rfl rfl
  obtain ⟨t, ht, -, hfin, -⟩ := hdue (by decide)
  rw [exec_collCut_tsu, Block.collCutTsu_die rfl rfl rfl (by decide)] at ht
  obtain rfl := Host.Outcome.next.inj ht
  exact absurd ((collFail_closed (k := 0) 0 1 0 _ (by decide) rfl).symm.trans hfin) (by decide)

end Sys2Proof.Machine
end

section
/-! SUPPORT. The generator's slots from ISSUE to completion (R231 to R234, R236), the self-test (R235), and the keys (R237). -/

namespace Sys2Proof.Machine

open Sys2Proof

/-! ### Updates of a slot -/

theorem genSlot_mGenSlot (b : Block) (n k : Nat) (f : GenSlot → GenSlot) :
    (b.mGenSlot n f).genSlot k = if n = k then f (b.genSlot n) else b.genSlot k := by
  unfold Block.mGenSlot Block.genSlot
  rw [Block.mGen_tsu, smGet_smMod]

@[simp] theorem genSlot_mGenSlot_same (b : Block) (n : Nat) (f : GenSlot → GenSlot) :
    (b.mGenSlot n f).genSlot n = f (b.genSlot n) := by
  rw [genSlot_mGenSlot, if_pos rfl]

theorem genSlot_mGenSlot_other (b : Block) {n k : Nat} (h : k ≠ n) (f : GenSlot → GenSlot) :
    (b.mGenSlot n f).genSlot k = b.genSlot k := by
  rw [genSlot_mGenSlot, if_neg (Ne.symm h)]

section
variable (b : Block) (n : Nat) (f : GenSlot → GenSlot)

@[simp] theorem mGenSlot_dist : (b.mGenSlot n f).dist = b.dist := rfl

@[simp] theorem mGenSlot_out : (b.mGenSlot n f).out = b.out := rfl

@[simp] theorem mGenSlot_str : (b.mGenSlot n f).tsu.str = b.tsu.str := rfl

@[simp] theorem mGenSlot_held : (b.mGenSlot n f).tsu.held = b.tsu.held := rfl

@[simp] theorem mGenSlot_stOk : (b.mGenSlot n f).tsu.gen.stOk = b.tsu.gen.stOk := rfl

@[simp] theorem mGenSlot_calls : (b.mGenSlot n f).tsu.gen.calls = b.tsu.gen.calls := rfl

@[simp] theorem mGenSlot_tc : (b.mGenSlot n f).tc = b.tc := rfl

@[simp] theorem mGenSlot_engOn : (b.mGenSlot n f).engOn = b.engOn := rfl

end

theorem genSlot_mStr (b : Block) (n : Nat) (f : Str → Str) : (b.mStr f).genSlot n = b.genSlot n := rfl

theorem genSlot_mGen_calls (b : Block) (n : Nat) (f : Gen → BitVec 64) :
    (b.mGen fun g => { g with calls := f g }).genSlot n = b.genSlot n := rfl

@[simp] theorem mGenSlot_mGenSlot (b : Block) (n : Nat) (f g : GenSlot → GenSlot) :
    (b.mGenSlot n f).mGenSlot n g = b.mGenSlot n fun x => g (f x) := by
  unfold Block.mGenSlot Block.mGen
  simp only [smMod_smMod]

@[simp] theorem genSlot_demand (b : Block) (n : Nat) : b.demand.genSlot n = b.genSlot n := rfl

@[simp] theorem demand_dist (b : Block) : b.demand.dist = b.dist := rfl

@[simp] theorem demand_out (b : Block) : b.demand.out = b.out := rfl

@[simp] theorem demand_str (b : Block) : b.demand.tsu.str = b.tsu.str := rfl

@[simp] theorem demand_held (b : Block) : b.demand.tsu.held = b.tsu.held := rfl

@[simp] theorem demand_gen (b : Block) : b.demand.tsu.gen = b.tsu.gen := rfl

@[simp] theorem demand_tc (b : Block) : b.demand.tc = b.tc := rfl

@[simp] theorem engOn_demand (b : Block) : b.demand.engOn = b.engOn := congrArg (·.engine) b.demand_on

theorem demand_mPwr (b : Block) (p : Pwr) : b.demand.mPwr (fun _ => p) = b.mPwr fun _ => p := rfl

/-- A demand while ENGINE is stopped notes that ENGINE is wanted, whether or not its start can be requested yet. -/
theorem Block.demand_engWanted {b : Block} (hoff : b.engOn = false) : b.demand.tsu.pwr.engWanted = true := by
  have hoff' : b.tsu.pwr.on.engine = false := hoff
  simp only [Block.demand, Block.mPwr_tsu]
  split
  · simp [hoff']
  · rfl

/-! ### ISSUE (R232, R234) -/

/-- A slot whose ISSUE has latched the step and the key of its context, and no call formed yet (R232, R233). -/
def GenSlot.latched (u : CtxRun) (g : GenSlot) : GenSlot := { g with
  st := .run, code := 0, outDrop := false, formed := 0, cancel := false
  used := if g.d0.getLsbD 8 then g.step else u.lstep.setWidth 48
  key := u.key }

/-- The block after an ISSUE has latched its slot, with ENGINE demanded and the descriptor not yet acted on. -/
def Block.genIssued (b : Block) (n : Nat) : Block :=
  (b.mGenSlot n (GenSlot.latched (b.ctx (b.genSlot n).ctx).run)).demand

/-- What R234 checks of a descriptor at ISSUE. -/
structure Block.DescOk (b : Block) (g : GenSlot) : Prop where
  ncall : g.ncall ≠ 0
  form : g.form < 2
  sigKind : g.sigKind ≠ 3
  channel : b.chFits g.och true (b.ctxWorld g.ctx) = true
  step : g.d0.getLsbD 8 = true ∨ (b.ctx g.ctx).run.lstepOk = true

section
variable {b : Block} {n : Nat}

@[simp] theorem genIssued_slot : (b.genIssued n).genSlot n = (b.genSlot n).latched (b.ctx (b.genSlot n).ctx).run := by
  simp [Block.genIssued]

@[simp] theorem genIssued_engOn : (b.genIssued n).engOn = b.engOn := by simp [Block.genIssued]

@[simp] theorem genIssued_str : (b.genIssued n).tsu.str = b.tsu.str := by simp [Block.genIssued]

@[simp] theorem genIssued_held : (b.genIssued n).tsu.held = b.tsu.held := by simp [Block.genIssued]

@[simp] theorem genIssued_stOk : (b.genIssued n).tsu.gen.stOk = b.tsu.gen.stOk := by simp [Block.genIssued]

@[simp] theorem genIssued_calls : (b.genIssued n).tsu.gen.calls = b.tsu.gen.calls := by simp [Block.genIssued]

@[simp] theorem genIssued_dist : (b.genIssued n).dist = b.dist := by simp [Block.genIssued]

@[simp] theorem genIssued_out : (b.genIssued n).out = b.out := by simp [Block.genIssued]

@[simp] theorem genIssued_tc : (b.genIssued n).tc = b.tc := by simp [Block.genIssued]

theorem strCh_genIssued (ch : Nat) : (b.genIssued n).demand.strCh ch = b.strCh ch := by simp [Block.strCh]

/-- ISSUE neither opens nor closes the slot's output channel. -/
theorem genIssued_open (h : (b.strCh (b.genSlot n).och).takes = true) :
    ((b.genIssued n).demand.strCh ((b.genIssued n).demand.genSlot n).och).takes = true := by
  rw [strCh_genIssued, genSlot_demand, genIssued_slot]
  exact h

theorem Block.genIssue_running (h : (b.genSlot n).st = .run) :
    b.genIssue n = b.mGenSlot n fun g => { g with issueLost := true } := by
  simp [Block.genIssue, h]

theorem Block.genIssue_valid (hst : (b.genSlot n).st ≠ .run) (hd : b.DescOk (b.genSlot n)) :
    b.genIssue n = (b.genIssued n).genBegin n := by
  have hstep : (!(b.genSlot n).d0.getLsbD 8 && !(b.ctx (b.genSlot n).ctx).run.lstepOk) = false := by
    rcases hd.step with h | h <;> simp [h]
  have hform : ¬ 2 ≤ (b.genSlot n).form := by have := hd.form; omega
  unfold Block.genIssue
  dsimp only
  rw [if_neg (by simpa using hst), if_neg (by
    rw [beq_false_of_ne hd.ncall, decide_eq_false hform, beq_false_of_ne hd.sigKind, hd.channel, hstep]; decide)]
  rfl

theorem Block.genIssue_noCalls (hst : (b.genSlot n).st ≠ .run) (h0 : (b.genSlot n).ncall = 0) :
    b.genIssue n = (b.genIssued n).genEnd n 1 := by
  unfold Block.genIssue
  dsimp only
  rw [if_neg (by simpa using hst), if_pos (by simp [h0])]
  rfl

/-- While ENGINE is stopped an issued slot waits for it, and no part but the power control changes (R231). -/
theorem Block.genBegin_stopped (hoff : b.engOn = false) (hw : b.tsu.pwr.engWanted = true) :
    ∃ p, b.genBegin n = b.mPwr (fun _ => p) ∧ p.engWanted = true := by
  unfold Block.genBegin
  dsimp only
  split
  · exact ⟨_, rfl, hw⟩
  · rw [hoff]
    exact ⟨b.demand.tsu.pwr, rfl, Block.demand_engWanted hoff⟩

/-- A valid ISSUE while ENGINE is stopped latches its slot and demands ENGINE. -/
theorem Block.genIssue_stopped (hst : (b.genSlot n).st ≠ .run) (hd : b.DescOk (b.genSlot n)) (hoff : b.engOn = false) :
    ∃ p, b.genIssue n = (b.mGenSlot n (GenSlot.latched (b.ctx (b.genSlot n).ctx).run)).mPwr (fun _ => p) ∧
      p.engWanted = true := by
  obtain ⟨p, hp, hwanted⟩ := Block.genBegin_stopped (n := n) (genIssued_engOn (n := n).trans hoff)
    (Block.demand_engWanted hoff)
  exact ⟨p, by rw [Block.genIssue_valid hst hd, hp, Block.genIssued, demand_mPwr], hwanted⟩

/-- With ENGINE running and the self-test passed, an issued slot forms its bursts (R231, R233). -/
theorem Block.genBegin_running (hon : b.engOn = true) (hok : b.tsu.gen.stOk = true) (hst : (b.genSlot n).st = .run)
    (hcode : (b.genSlot n).code = 0) (hcancel : (b.genSlot n).cancel = false) (hformed : (b.genSlot n).formed = 0)
    (hheld : b.tsu.held.contains (.genSig n) = false) : b.genBegin n = Block.genRun genFuel b.demand n := by
  unfold Block.genBegin
  dsimp only
  rw [if_neg (by rw [hst, hformed, hcancel, hcode, hheld]; decide), if_neg (by rw [hon]; decide),
    if_neg (by rw [hok]; decide)]

/-! ### Bursts (R233) -/

/-- A burst on an open channel waits for admission. -/
theorem Block.present_open {p : Producer} {ch : Nat} {d : Bytes} (h : (b.strCh ch).takes = true) :
    b.present p ch d = (b.mStr fun x => { x with waits := x.waits ++ [⟨p, ch, pad64 d, b.tc⟩] }).demand := if_pos h

/-- A slot that has formed all its calls forms no burst. -/
theorem Block.genRun_formed (f : Nat) (h : (b.genSlot n).ncall.toNat ≤ (b.genSlot n).formed) :
    Block.genRun f b n = b := by
  cases f with
  | zero => rfl
  | succ f =>
    unfold Block.genRun
    exact if_pos (by simp [h])

/-- The calls of a slot's next burst (R233). -/
def GenSlot.burst (g : GenSlot) : Nat := min 256 (g.ncall.toNat - g.formed)

/-- The block after a slot has formed its next burst and presented it. -/
def Block.genBurst (b : Block) (n : Nat) : Block :=
  ((b.mGenSlot n fun g => { g with formed := g.formed + (b.genSlot n).burst }).mGen fun g =>
    { g with calls := satAdd g.calls (b.genSlot n).burst }).present (genProd n) (b.genSlot n).och
      ((b.genSlot n).calls (b.genSlot n).formed (b.genSlot n).burst)

/-- A slot in RUN with calls left and no burst of its own that waits forms its next burst. -/
theorem Block.genRun_burst (f : Nat) (hst : (b.genSlot n).st = .run) (hcode : (b.genSlot n).code = 0)
    (hcancel : (b.genSlot n).cancel = false) (hleft : (b.genSlot n).formed < (b.genSlot n).ncall.toNat)
    (hwaits : (b.tsu.str.waits.any fun o => o.prod == genProd n) = false) :
    Block.genRun (f + 1) b n = Block.genRun f (b.genBurst n) n := by
  rw [Block.genRun]
  dsimp only
  rw [if_neg (by rw [hst, hcode, hcancel, hwaits, decide_eq_false (Nat.not_le.mpr hleft)]; decide)]
  rfl

theorem Block.genBurst_open (h : (b.strCh (b.genSlot n).och).takes = true) :
    b.genBurst n = (((b.mGenSlot n fun g => { g with formed := g.formed + (b.genSlot n).burst }).mGen fun g =>
      { g with calls := satAdd g.calls (b.genSlot n).burst }).mStr fun x => { x with
        waits := x.waits ++ [⟨genProd n, (b.genSlot n).och,
          pad64 ((b.genSlot n).calls (b.genSlot n).formed (b.genSlot n).burst), b.tc⟩] }).demand :=
  Block.present_open h

theorem genBurst_slot (h : (b.strCh (b.genSlot n).och).takes = true) :
    (b.genBurst n).genSlot n = { b.genSlot n with formed := (b.genSlot n).formed + (b.genSlot n).burst } := by
  rw [Block.genBurst_open h, genSlot_demand, genSlot_mStr, genSlot_mGen_calls, genSlot_mGenSlot_same]

theorem genBurst_calls (h : (b.strCh (b.genSlot n).och).takes = true) :
    (b.genBurst n).tsu.gen.calls = satAdd b.tsu.gen.calls (b.genSlot n).burst := by
  rw [Block.genBurst_open h]
  rfl

theorem genBurst_waits (h : (b.strCh (b.genSlot n).och).takes = true) :
    (b.genBurst n).tsu.str.waits = b.tsu.str.waits ++ [⟨genProd n, (b.genSlot n).och,
      pad64 ((b.genSlot n).calls (b.genSlot n).formed (b.genSlot n).burst), b.tc⟩] := by
  rw [Block.genBurst_open h]
  rfl

theorem genBurst_dist (h : (b.strCh (b.genSlot n).och).takes = true) : (b.genBurst n).dist = b.dist := by
  rw [Block.genBurst_open h, demand_dist, Block.mStr_dist, Block.mGen_dist, mGenSlot_dist]

theorem genBurst_out (h : (b.strCh (b.genSlot n).och).takes = true) : (b.genBurst n).out = b.out := by
  rw [Block.genBurst_open h, demand_out, Block.mStr_out, Block.mGen_out, mGenSlot_out]

theorem GenSlot.latched_burst {g : GenSlot} (u : CtxRun) (h : g.ncall.toNat ≤ 256) :
    (g.latched u).burst = g.ncall.toNat := min_eq_right h

/-- The first calls of an issued slot that takes its step from GEN_STEP (R226, R232, R233). -/
theorem GenSlot.latched_calls {g : GenSlot} (u : CtxRun) (hreg : g.d0.getLsbD 8 = true) (k : Nat) :
    (g.latched u).calls (g.latched u).formed k = (List.range k).flatMap fun j =>
      genBytes g.form (cg128 u.key (cgCtr g.step g.stream (g.coord + BitVec.ofNat 64 j))) := by
  have hused : (g.latched u).used = g.step := if_pos hreg
  have hformed : (g.latched u).formed = 0 := rfl
  simp only [GenSlot.calls, hused, hformed, Nat.zero_add]
  rfl

/-- An issued slot of at most 256 calls presents them all in one burst where ENGINE runs and its channel is open. -/
theorem Block.genIssue_single (hst : (b.genSlot n).st ≠ .run) (hd : b.DescOk (b.genSlot n)) (hon : b.engOn = true)
    (hok : b.tsu.gen.stOk = true) (hle : (b.genSlot n).ncall.toNat ≤ 256)
    (hwaits : (b.tsu.str.waits.any fun o => o.prod == genProd n) = false)
    (hheld : b.tsu.held.contains (.genSig n) = false) (hopen : (b.strCh (b.genSlot n).och).takes = true) :
    b.genIssue n = (b.genIssued n).demand.genBurst n := by
  have hslot : (b.genIssued n).genSlot n = (b.genSlot n).latched (b.ctx (b.genSlot n).ctx).run := genIssued_slot
  have hpos : 0 < (b.genSlot n).ncall.toNat := Nat.pos_of_ne_zero fun h => hd.ncall (BitVec.eq_of_toNat_eq h)
  rw [Block.genIssue_valid hst hd, Block.genBegin_running (by simpa using hon) (by simpa using hok) (by rw [hslot]; rfl)
    (by rw [hslot]; rfl) (by rw [hslot]; rfl) (by rw [hslot]; rfl) (by simpa using hheld),
    show genFuel = 4095 + 1 from rfl, Block.genRun_burst 4095 (by rw [genSlot_demand, hslot]; rfl)
      (by rw [genSlot_demand, hslot]; rfl) (by rw [genSlot_demand, hslot]; rfl)
      (by rw [genSlot_demand, hslot]; exact hpos) (by simpa using hwaits)]
  refine Block.genRun_formed _ ?_
  rw [genBurst_slot (genIssued_open hopen), genSlot_demand, hslot, GenSlot.latched_burst _ hle]
  exact Nat.le_add_left _ _

/-! ### Completion and CANCEL (R234, R236) -/

/-- A slot that completes CANCELLED, or has no signal, is DONE at once. -/
theorem Block.genEnd_silent {code : BitVec 3} (h : code = 2 ∨ (b.genSlot n).sigKind = 0) :
    b.genEnd n code = b.mGenSlot n fun g => { g with code := code, st := .done } := by
  have hsig : code = 2 ∨ ((b.genSlot n).sigKind ≠ 1 ∧ (b.genSlot n).sigKind ≠ 2) :=
    h.imp_right fun h0 => by omega
  unfold Block.genEnd
  dsimp only
  rw [genSlot_mGenSlot_same]
  exact (if_pos hsig).trans (mGenSlot_mGenSlot b n _ _)

/-- A slot whose bursts have all been written completes: CANCELLED after a CANCEL, OK after its last call. -/
theorem Block.genComplete_written (hst : (b.genSlot n).st = .run) (hcode : (b.genSlot n).code = 0)
    (hflushed : b.flushed (genProd n) = true) (hheld : b.tsu.held.contains (.genSig n) = false) :
    b.genComplete n = if (b.genSlot n).cancel then b.genEnd n 2
      else if (b.genSlot n).formed = (b.genSlot n).ncall.toNat then b.genEnd n 0 else b := by
  unfold Block.genComplete
  dsimp only
  rw [if_neg (by rw [hst, hcode, hflushed, hheld]; decide)]

/-- A CANCEL before the last call is formed completes a slot that has no burst in progress. -/
theorem Block.genCancel_written (hst : (b.genSlot n).st = .run) (hcode : (b.genSlot n).code = 0)
    (hleft : (b.genSlot n).formed ≠ (b.genSlot n).ncall.toNat) (hflushed : b.flushed (genProd n) = true)
    (hheld : b.tsu.held.contains (.genSig n) = false) :
    b.genCancel n = b.mGenSlot n fun g => { g with cancel := true, code := 2, st := .done } := by
  unfold Block.genCancel
  dsimp only
  rw [if_neg (by rw [hst, hcode, hheld, beq_false_of_ne hleft, hflushed]; decide),
    Block.genComplete_written (b := b.mGenSlot n fun g => { g with cancel := true }) (by simpa using hst)
      (by simpa using hcode) hflushed hheld, if_pos (by simp), Block.genEnd_silent (.inl rfl), mGenSlot_mGenSlot]

end

/-! ### The self-test and the keys (R235, R237) -/

/-- Words 1 and 2 of the reference vector (R230). -/
theorem cg128_reference : (cg128 refKey refCtr).extractLsb' 32 64 = 0x44ADFF39FCEED151 := by decide +kernel

theorem Block.genSelfTest_eq (b : Block) :
    b.genSelfTest = b.mGen fun g => { g with stDone := true, stOk := Config.selfTestWords03 } := by
  unfold Block.genSelfTest
  dsimp only
  rw [cg128_reference]
  rfl

theorem mCtxRun_congr {b : Block} {c : Nat} {f g : CtxRun → CtxRun} (h : f (b.ctx c).run = g (b.ctx c).run) :
    b.mCtxRun c f = b.mCtxRun c g :=
  congrArg (fun u => b.mCtxRun c fun _ => u) h

theorem Block.keyWrite_open {b : Block} {c : Nat} (harmed : (b.ctx c).st.isArmed = false)
    (hacc : (b.ctx c).run.accOn = false) (hi : Bool) (d : BitVec 64) :
    b.keyWrite c hi d = b.mCtxRun c fun u => { u with
      key := if hi then d ++ u.key.extractLsb' 0 64 else u.key.extractLsb' 64 64 ++ d } := by
  unfold Block.keyWrite
  dsimp only
  rw [if_neg (by rw [harmed, hacc]; decide)]
  exact mCtxRun_congr rfl

theorem Block.keyWrite_refused {b : Block} {c : Nat} (h : ((b.ctx c).st.isArmed || (b.ctx c).run.accOn) = true)
    (hi : Bool) (d : BitVec 64) : b.keyWrite c hi d = b.mGen fun g => { g with keyRef := true } := by
  unfold Block.keyWrite
  dsimp only
  rw [if_pos h]

/-! ### The commands -/

section
variable {a : Access} {n : BitVec 3} {s : State}

/-- What the check of a write of GEN_CMD answers (R231, R250). -/
def Block.genCheck (b : Block) (a : Access) (n : Nat) : AccRes :=
  b.check (portReq a) (genReg n 0x28) (worldOk (portReq a) (b.ctxWorld (b.genSlot n).ctx))

theorem exec_genIssue (hok : s.blk.genCheck a n.toNat = .ok) :
    exec (.genIssue a n) s = .next { s with blk := (s.blk.genIssue n.toNat).emit (.reg none 0 0) } :=
  State.run_regCmd_ok _ hok

theorem exec_genCancel (hok : s.blk.genCheck a n.toNat = .ok) :
    exec (.genCancel a n) s = .next { s with blk := (s.blk.genCancel n.toNat).emit (.reg none 0 0) } :=
  State.run_regCmd_ok _ hok

theorem exec_genComplete (n : BitVec 3) (s : State) :
    exec (.genComplete n) s = .next { s with blk := s.blk.genComplete n.toNat } := rfl

end

/-- Settles O11: an ISSUE by what the slot and ENGINE are doing, a completion and a CANCEL by the slot's last burst, and
the test call, the self-test and the key writes each by its own effect. -/
theorem generatorSlots : Obligations.GeneratorSlots := by
  unfold Obligations.GeneratorSlots
  refine ⟨?stopped, ?running, ?lost, ?noCalls, ?complete, ?cancel, ?test, ?selfTest, ?key, ?keyRefused⟩
  case stopped =>
    intro a n s hok hst hncall hform hsig hch hstep hoff
    obtain ⟨p, hp, hwanted⟩ := Block.genIssue_stopped hst ⟨hncall, hform, hsig, hch, hstep⟩ hoff
    refine ⟨_, exec_genIssue hok, ?_⟩
    rw [hp]
    exact ⟨genSlot_mGenSlot_same s.blk _ _, fun k hk => genSlot_mGenSlot_other s.blk hk _, hwanted, rfl, rfl, rfl, rfl⟩
  case running =>
    intro a n s hok hst hncall hform hsig hch htakes hreg hon hstOk hle hnone hheld
    have hwaits : (s.blk.tsu.str.waits.any fun o => o.prod == genProd n.toNat) = false := by simpa [genProd] using hnone
    have hslot : (s.blk.genIssued n.toNat).demand.genSlot n.toNat =
      (s.blk.genSlot n.toNat).latched (s.blk.ctx (s.blk.genSlot n.toNat).ctx).run := genIssued_slot
    have hopen := genIssued_open htakes
    have hissued := genBurst_slot hopen
    have hcalls := genBurst_calls hopen
    have hburst := genBurst_waits hopen
    rw [hslot, GenSlot.latched_burst _ hle] at hissued hcalls hburst
    rw [demand_gen, genIssued_calls] at hcalls
    rw [GenSlot.latched_calls _ hreg, demand_str, genIssued_str, demand_tc, genIssued_tc, genProd, BitVec.ofNat_toNat,
      BitVec.setWidth_eq] at hburst
    refine ⟨_, exec_genIssue hok, ?_⟩
    rw [Block.genIssue_single hst ⟨hncall, hform, hsig, hch, .inl hreg⟩ hon hstOk hle hwaits hheld htakes]
    exact ⟨congrArg GenSlot.st hissued, (congrArg GenSlot.formed hissued).trans (Nat.zero_add _), hcalls, hburst,
      by rw [Block.emit_dist, genBurst_dist hopen, demand_dist, genIssued_dist],
      by rw [Block.emit_out, genBurst_out hopen, demand_out, genIssued_out], rfl⟩
  case lost =>
    intro a n s hok hst
    rw [exec_genIssue hok, Block.genIssue_running hst]
  case noCalls =>
    intro a n s hok hst h0 hsig
    refine ⟨_, exec_genIssue hok, ?_⟩
    rw [Block.genIssue_noCalls hst h0, Block.genEnd_silent (.inr (by rw [genIssued_slot]; exact hsig))]
    have hslot := genSlot_mGenSlot_same (s.blk.genIssued n.toNat) n.toNat fun g => { g with code := 1, st := .done }
    exact ⟨congrArg (·.st) hslot, congrArg (·.code) hslot, by simp, by simp⟩
  case complete =>
    intro n s hst hcode hcancel hformed hflushed hheld hsig
    refine ⟨_, exec_genComplete n s, ?_⟩
    rw [Block.genComplete_written hst hcode hflushed hheld, hcancel, if_neg (by decide), if_pos hformed,
      Block.genEnd_silent (.inr hsig)]
    exact ⟨genSlot_mGenSlot_same _ _ _, fun k hk => genSlot_mGenSlot_other _ hk _, rfl, rfl, rfl, rfl⟩
  case cancel =>
    intro a n s hok hst hcode hleft hflushed hheld
    refine ⟨_, exec_genCancel hok, ?_⟩
    rw [Block.genCancel_written hst hcode hleft hflushed hheld]
    exact ⟨genSlot_mGenSlot_same _ _ _, fun k hk => genSlot_mGenSlot_other _ hk _, rfl, rfl, rfl, rfl⟩
  case test =>
    intro a s hok
    exact State.run_regCmd_ok _ hok
  case selfTest =>
    intro a s hok
    rw [← Block.genSelfTest_eq]
    exact State.run_regCmd_ok _ hok
  case key =>
    intro a c hi d s hok harmed hacc
    rw [← Block.keyWrite_open harmed hacc]
    exact State.run_regCmd_ok _ hok
  case keyRefused =>
    intro a c hi d s hok h
    rw [← Block.keyWrite_refused h hi d]
    exact State.run_regCmd_ok _ hok

end Sys2Proof.Machine
end

section
/-! SUPPORT. The commands of a wait slot on a hall word (R254, R257 to R261, R265). -/

namespace Sys2Proof.Machine

open Sys2Proof

theorem wsIdx_ctx (c : Nat) (k : BitVec 3) : wsIdx c k.toNat / 8 = c := by
  unfold wsIdx
  omega

theorem wsDone_hall (b : Block) (i : Nat) (r : WRes) : (b.wsDone i r).tsu.hall = b.tsu.hall := by
  obtain ⟨_, h⟩ := wsDone_tsu b i r
  rw [h]

/-! ### Issue -/

/-- The block in which a hall operation of wait slot `i` has been taken (R169). -/
def Block.hallTaken (b : Block) (c i : Nat) (op : BitVec 4) (f : WsFlags) : Block := b.takeOp i (b.newOp c i 1 op f)

section
variable {b : Block} {c i : Nat} {op : BitVec 4} {f : WsFlags}

theorem hallTaken_hallStop (ha : BitVec 64) : (b.hallTaken c i op f).hallStop ha = b.hallStop ha := by
  unfold Block.hallStop
  cases haPlane ha <;> rfl

/-- The request of an operation that nothing stops is sent. -/
theorem Block.hallIssue_sends (h : b.hallStop (b.wslot i).addr = none) :
    (b.hallTaken c i op f).hallIssue i (b.newOp c i 1 op f) =
      (b.hallTaken c i op f).hallSend (wsTag i) (b.wslot i).addr op f.nowait (b.hallX f) (b.wslot i).wdata
        (b.ctxWorld (i / 8)) := by
  rw [Block.hallIssue, hallTaken_hallStop, show (b.newOp c i 1 op f).addr = (b.wslot i).addr from rfl, h]
  rfl

/-- An operation whose request cannot be sent completes with its status; a missing way is counted (R261). -/
theorem Block.hallIssue_stops {st : Byte} (h : b.hallStop (b.wslot i).addr = some st) :
    (b.hallTaken c i op f).hallIssue i (b.newOp c i 1 op f) =
      ((b.hallTaken c i op f).mHall fun x =>
        { x with nopath := if st = stNOPATH then sat1 x.nopath else x.nopath }).wsDone i { status := st } := by
  rw [Block.hallIssue, hallTaken_hallStop, show (b.newOp c i 1 op f).addr = (b.wslot i).addr from rfl, h]
  by_cases hst : st = stNOPATH
  · simp only [hst, if_true]
    rfl
  · simp only [hst, if_false]
    rfl

/-- A command on a hall word past the checks of its issue. -/
theorem Block.wsIssue_hall {k : Nat} (hfree : (b.wslot (wsIdx c k)).op = none) (hstop : b.issueStop c 1 op = none) :
    b.wsIssue c k 1 op f =
      (b.hallTaken c (wsIdx c k) op f).hallIssue (wsIdx c k) (b.newOp c (wsIdx c k) 1 op f) := by
  unfold Block.wsIssue
  dsimp only
  rw [hfree, if_neg (show ¬(none : Option WOp).isSome = true by decide), hstop]
  exact if_pos rfl

end

/-! ### The commands -/

/-- A command on a hall word at a free wait slot. -/
theorem wsCmd_hall {s : State} {a : Access} {c : Ctx6} {k : BitVec 3} {op : BitVec 4} {f : WsFlags}
    (hfree : s.blk.slotFree a c.toNat k.toNat = true) (hpair : opPairs 1 op = true) :
    s.wsCmd a c k 1 op f = .next { s with
      blk := ((s.blk.hallTaken c.toNat (wsIdx c.toNat k.toNat) op f).hallIssue (wsIdx c.toNat k.toNat)
        (s.blk.newOp c.toNat (wsIdx c.toNat k.toNat) 1 op f)).emit (.reg none 0 0) } := by
  obtain ⟨_, hop, _⟩ := Block.slotFree_iff.1 hfree
  rw [State.wsCmd_free hfree, Block.wsIssue_hall hop (Block.slotFree.issueStop hfree hpair)]

/-- Settles O13: a command on a hall word is sent where nothing stops it, and ends at once with its status where something
does. -/
theorem hallOperations : Obligations.HallOperations := by
  unfold Obligations.HallOperations
  intro a c k f s hfree i ha sent
  refine ⟨fun h => ?_, fun st h => ?_⟩
  · have hsent : ∀ op : BitVec 4, opPairs 1 op = true → s.wsCmd a c k 1 op f = .next { s with blk := sent op } := by
      intro op hop
      rw [wsCmd_hall hfree hop, Block.hallIssue_sends h, wsIdx_ctx]
      rfl
    exact ⟨hsent 0 (by decide), hsent 1 (by decide), hsent 2 (by decide), hsent 3 (by decide), hsent 4 (by decide),
      hsent 5 (by decide)⟩
  · refine ⟨_, wsCmd_hall (op := 0) hfree (by decide), ?_⟩
    rw [Block.hallIssue_stops h]
    have hslot := fun j => wslot_wsDone ((s.blk.hallTaken c.toNat i 0 f).mHall fun x =>
      { x with nopath := if st = stNOPATH then sat1 x.nopath else x.nopath }) i j { status := st }
    refine ⟨congrArg WSlot.op ((hslot i).trans (if_pos rfl)), congrArg WSlot.status ((hslot i).trans (if_pos rfl)),
      fun j hj => (hslot j).trans ((if_neg (Ne.symm hj)).trans ?_), (congrArg HallReq.out (wsDone_hall _ i _)).trans rfl,
      (congrArg HallReq.nopath (wsDone_hall _ i _)).trans rfl, wsDone_tm _ _ _, wsDone_dist _ _ _, rfl⟩
    exact (s.blk.takeOp_wslot i _ j).trans (if_neg (Ne.symm hj))

end Sys2Proof.Machine
end

section
/-! SUPPORT. Writes of a deadline timer's registers, timers that fire, and those whose time has passed (R269 to R271, R275),
and the telemetry record (R387). -/

namespace Sys2Proof.Machine

open Sys2Proof

/-! ### Updates of a timer -/

section
variable (b : Block) (n : Nat)

@[simp] theorem timer_mTimer (f : Timer → Timer) : (b.mTimer n f).timer n = f (b.timer n) := by
  simp [Block.timer, Block.mTimer]

/-- Two changes of one timer that agree on what it holds are one. -/
theorem mTimer_congr {f g : Timer → Timer} (h : f (b.timer n) = g (b.timer n)) : b.mTimer n f = b.mTimer n g := by
  have hmod : smMod {} b.tsu.timers.timers n f = smMod {} b.tsu.timers.timers n g := by
    rw [smMod, smMod]
    exact congrArg (smPut {} _ n) h
  simp only [Block.mTimer, Block.mTimers, Block.mTsu, hmod]

end

/-- A timer with the fields of TSU_DT_CFG as written (R275). -/
def Timer.configured (t : Timer) (d : BitVec 64) : Timer :=
  { t with
    en := d.getLsbD 0, action := fld d 1 2, irq := d.getLsbD 3, ctx := fld d 4 6, addr := fld d 12 19, data := fld d 32 20 }

/-! ### Firing (R270, R271) -/

section
variable {b : Block} {n : Nat}

theorem Block.timerDo_noAction (h : (b.timer n).action = 0) : b.timerDo n = b := if_pos h

theorem Block.timerDo_word (h0 : (b.timer n).action ≠ 0) (h3 : (b.timer n).action ≠ 3) :
    b.timerDo n = b.onWord (b.timer n).addr.toNat (.timer n) fun b => b.timerAct n :=
  (if_neg h0).trans (if_neg h3)

theorem Block.timerDo_engine (h : (b.timer n).action = 3) :
    b.timerDo n = b.onEngine (.timer n) fun b => b.timerAct n :=
  (if_neg (by rw [h]; decide)).trans (if_pos h)

/-- A timer whose AT has come, not passed, fires without PAST. -/
theorem Block.timerFire_onTime :
    b.timerFire n false = (b.mTimer n fun t => { t with en := false, fired := true }).timerDo n :=
  congrArg (fun c => Block.timerDo c n) (mTimer_congr b n (by simp))

theorem Block.timerFire_past (h : (b.timer n).action = 0) :
    b.timerFire n true = b.mTimer n fun t => { t with en := false, fired := true, past := true } := by
  rw [Block.timerFire, mTimer_congr b n (g := fun t => { t with en := false, fired := true, past := true }) (by simp)]
  exact Block.timerDo_noAction (by simpa using h)

theorem Block.timerPast_kept
    (h : (b.timer n).en = false ∨ b.due (b.timer n).at_ = false ∨ (b.timer n).at_ = b.tc) : b.timerPast n = b :=
  if_neg (by rcases h with h | h | h <;> simp [h])

theorem Block.timerPast_fires (hen : (b.timer n).en = true) (hdue : b.due (b.timer n).at_ = true)
    (hpast : (b.timer n).at_ ≠ b.tc) : b.timerPast n = b.timerFire n true :=
  if_pos (by simp [hen, hdue, hpast])

end

/-! ### Writes (R269, R271, R275) -/

section
variable {b : Block} {q : Req}

/-- A configuration that keeps the rule of worlds is stored, unless it enables a timer before TIME_VALID. -/
theorem Block.dtWrite_cfg {d : BitVec 64}
    (hmine : worldOk q (b.ctxWorld (b.timer b.tsu.timers.sel.toNat).ctx.toNat ||
      b.ctxWorld (fld d 4 6 : BitVec 6).toNat) = true) :
    b.dtWrite q (.cfg d) =
      if d.getLsbD 0 && !b.timeOk then b.mTimers fun t => { t with dtRef := true }
      else (b.mTimer b.tsu.timers.sel.toNat fun t => t.configured d).timerPast b.tsu.timers.sel.toNat :=
  if_neg (by rw [hmine]; decide)

theorem Block.dtWrite_at {x : Tick}
    (hmine : worldOk q (b.ctxWorld (b.timer b.tsu.timers.sel.toNat).ctx.toNat) = true) :
    b.dtWrite q (.at x) =
      if !b.timeOk then b
      else (b.mTimer b.tsu.timers.sel.toNat fun t => { t with at_ := x }).timerPast b.tsu.timers.sel.toNat :=
  if_neg (by rw [Bool.or_false, hmine]; decide)

/-- A write that would touch a context of the other world is a violation (R269, R336). -/
theorem Block.dtWrite_cfg_denied {d : BitVec 64}
    (hmine : worldOk q (b.ctxWorld (b.timer b.tsu.timers.sel.toNat).ctx.toNat ||
      b.ctxWorld (fld d 4 6 : BitVec 6).toNat) = false) :
    b.dtWrite q (.cfg d) = (b.violate q.src q true 0x7808).mTimers fun t => { t with dtRef := true } :=
  if_pos (by rw [hmine]; decide)

theorem Block.dtWrite_at_denied {x : Tick}
    (hmine : worldOk q (b.ctxWorld (b.timer b.tsu.timers.sel.toNat).ctx.toNat) = false) :
    b.dtWrite q (.at x) = (b.violate q.src q true 0x7810).mTimers fun t => { t with dtRef := true } :=
  if_pos (by rw [Bool.or_false, hmine]; decide)

end

/-! ### The commands -/

section
variable {a : Access} {s : State}

theorem exec_dtConfigWrite_cfg (hok : s.blk.check (portReq a) 0x7808 true = .ok) (d : BitVec 64) :
    exec (.dtConfigWrite a (.cfg d)) s =
      .next { s with blk := (s.blk.dtWrite (portReq a) (.cfg d)).emit (.reg none 0 0) } :=
  State.run_regCmd_ok _ hok

theorem exec_dtConfigWrite_at (hok : s.blk.check (portReq a) 0x7810 true = .ok) (x : Tick) :
    exec (.dtConfigWrite a (.at x)) s =
      .next { s with blk := (s.blk.dtWrite (portReq a) (.at x)).emit (.reg none 0 0) } :=
  State.run_regCmd_ok _ hok

theorem exec_dtFire (n : BitVec 12) (s : State) : exec (.dtFire n) s = execDtFire n s := rfl

theorem exec_dtFire_kept {n : BitVec 12} (h : s.blk.live = false ∨ (s.blk.timer n.toNat).en = false ∨
    s.blk.due (s.blk.timer n.toNat).at_ = false) : exec (.dtFire n) s = .next s := by
  rw [exec_dtFire]
  exact State.run_of (if_neg (by rcases h with h | h | h <;> simp [h]))

theorem exec_dtFire_due {n : BitVec 12} (hlive : s.blk.live = true) (hen : (s.blk.timer n.toNat).en = true)
    (hdue : s.blk.due (s.blk.timer n.toNat).at_ = true) : exec (.dtFire n) s = .next { s with
      blk := (s.blk.mTimer n.toNat fun t => { t with en := false, fired := true }).timerDo n.toNat } := by
  rw [exec_dtFire]
  exact State.run_of ((if_pos (by simp [hlive, hen, hdue])).trans Block.timerFire_onTime)

end

/-! ### Telemetry (R387) -/

@[simp] theorem length_toLE (n x : Nat) : (toLE n x).length = n := by
  induction n generalizing x with
  | zero => rfl
  | succ n ih => rw [toLE, List.length_cons, ih]

theorem telRecord_length (b : Block) : b.telRecord.length = 64 := by simp [Block.telRecord]

theorem exec_telemetryRecord (s : State) : exec .telemetryRecord s = .next { s with blk := s.blk.telemetry } := rfl

/-- Settles O35: a write by the worlds it names and by whether AT has passed, a timer that fires by its action, and the
record by whether it is due. -/
theorem timersAndTelemetry : Obligations.TimersAndTelemetry := by
  unfold Obligations.TimersAndTelemetry
  refine ⟨fun a d s hok => ?cfg, fun a x s hok => ?tick, fun n s => ?fire, fun s => ?telemetry⟩
  case cfg =>
    intro b n t mine t' ok
    have hset : (b.mTimer n fun t => t.configured d) = b.mTimer n fun _ => t' := mTimer_congr b n rfl
    rw [exec_dtConfigWrite_cfg hok]
    refine ⟨fun hmine => ?_, fun hmine hen htime => ?_, fun hmine hen => ?_, fun hmine hen htime hwhen => ?_,
      fun hmine hen htime hdue hpast hact => ?_⟩
    · rw [Block.dtWrite_cfg_denied hmine]
      rfl
    · rw [Block.dtWrite_cfg hmine, if_pos (by rw [hen, htime]; rfl)]
    · rw [Block.dtWrite_cfg hmine, if_neg (by rw [hen]; simp), hset,
        Block.timerPast_kept (.inl (by rw [timer_mTimer]; exact hen))]
    · rw [Block.dtWrite_cfg hmine, if_neg (by rw [hen, htime]; decide), hset,
        Block.timerPast_kept (.inr (by rw [timer_mTimer]; exact hwhen))]
    · rw [Block.dtWrite_cfg hmine, if_neg (by rw [hen, htime]; decide), hset,
        Block.timerPast_fires (by rw [timer_mTimer]; exact hen) (by rw [timer_mTimer]; exact hdue)
          (by rw [timer_mTimer]; exact hpast), Block.timerFire_past (by rw [timer_mTimer]; exact hact)]
  case tick =>
    intro b n t mine ok
    rw [exec_dtConfigWrite_at hok]
    refine ⟨fun hmine => ?_, fun hmine htime => ?_, fun hmine htime hwhen => ?_⟩
    · rw [Block.dtWrite_at_denied hmine]
      rfl
    · rw [Block.dtWrite_at hmine, if_pos (by rw [htime]; rfl)]
    · rw [Block.dtWrite_at hmine, if_neg (by rw [htime]; decide),
        Block.timerPast_kept (by rw [timer_mTimer]; exact hwhen)]
  case fire =>
    intro b t fired
    have ht : fired.timer n.toNat = { t with en := false, fired := true } := timer_mTimer b n.toNat _
    refine ⟨exec_dtFire_kept, fun hlive hen hdue hact => ?_, fun hlive hen hdue h0 h3 => ?_,
      fun hlive hen hdue hact => ?_⟩
    · rw [exec_dtFire_due hlive hen hdue, Block.timerDo_noAction (by rw [ht]; exact hact)]
    · rw [exec_dtFire_due hlive hen hdue, Block.timerDo_word (by rw [ht]; exact h0) (by rw [ht]; exact h3), ht]
    · rw [exec_dtFire_due hlive hen hdue, Block.timerDo_engine (by rw [ht]; exact hact)]
  case telemetry =>
    intro b base
    rw [exec_telemetryRecord]
    refine ⟨fun h => ?_, fun h => ?_, telRecord_length b⟩
    · rw [Block.telemetry, if_pos (by rw [h]; rfl)]
    · rw [Block.telemetry, if_neg (by rw [h]; decide)]
      rfl

end Sys2Proof.Machine
end

section
/-! SUPPORT. A hall request at its owner: one attempt on its word, what is answered and what waits (R256, R258, R259, R263,
R264, R267, R268). -/

namespace Sys2Proof.Machine

open Sys2Proof

section
variable {b : Block}

theorem mHm_congr {f g : HMem → HMem} (h : f b.hm = g b.hm) : b.mHm f = b.mHm g :=
  congrArg (fun m => b.mHm fun _ => m) h

/-- A response leaves all but the distributor's lanes and what has been sent. -/
theorem hrespSend_lanes (b : Block) (w : Bool) (p : HResp) :
    ∃ ls os, b.hrespSend w p = { b with dist := { b.dist with lanes := ls }, out := b.out ++ os } := by
  have none : ∃ ls os, b = { b with dist := { b.dist with lanes := ls }, out := b.out ++ os } :=
    LinkOnly.refl (.dist 0) b
  unfold Block.hrespSend Block.sendChild Block.sendUp
  split
  · split
    · exact send_dist _ _ _ _
    · exact none
  · split
    · exact send_dist _ _ _ _
    · exact none

@[simp] theorem hrespSend_hm (b : Block) (w : Bool) (p : HResp) : (b.hrespSend w p).hm = b.hm := by
  obtain ⟨ls, os, h⟩ := hrespSend_lanes b w p
  rw [h]
  rfl

/-! ### One attempt (R166, R263, R268) -/

theorem ledgerMark_onTime (d : BitVec 64) : ledgerMark false d = (d, false) := rfl

/-- The answer to a request that carries a status alone (R265). -/
def HWait.status (q : HWait) (st : Byte) : HResp := ⟨q.p.pda, q.p.tag, st, false, false, false, false, 0⟩

/-- The answer to a request that an operation gives (R265). -/
def HWait.answer (q : HWait) (r : WRes) : HResp := ⟨q.p.pda, q.p.tag, r.status, r.full, r.w, r.sat, false, r.rdata⟩

/-- A request that may wait: of a wait slot, without NOWAIT (R258). -/
def HWait.mayWait (q : HWait) : Bool := !q.p.nowait && q.p.tag.extractLsb' 12 4 == 0

theorem HWait.mayWait_eq (q : HWait) : q.mayWait = !(q.p.nowait || q.p.tag.extractLsb' 12 4 != 0) := by
  rw [HWait.mayWait, Bool.not_or, bne, Bool.not_not]

/-- The region of the word that a request names (R263). -/
def Block.hmRegionOf (b : Block) (q : HWait) : HRegion := b.hm.region (hmRegion q.word)

/-- The operation of a request on its word (R166). -/
def Block.hmWordOp (b : Block) (q : HWait) : Option (WRes × TWord) :=
  wordOp q.p.op.toNat q.p.wdata q.mayWait (b.hmRegionOf q).world (b.hm.get q.word)

section
variable {q : HWait}

/-- A non-secure request to a secure region (R263). -/
theorem Block.hmTry_denied (hw : q.w = false) (hworld : (b.hmRegionOf q).world = true) :
    b.hmTry q = (some (q.status stDENIED), b.mHm fun m => { m with denied := sat1 m.denied }) :=
  if_pos (show (!q.w && (b.hmRegionOf q).world) = true by rw [hw, hworld]; rfl)

theorem Block.world_passes (hworld : q.w = true ∨ (b.hmRegionOf q).world = false) :
    ¬(!q.w && (b.hmRegionOf q).world) = true := by
  rcases hworld with h | h <;> simp [h]

/-- A request to a ledger region that came over a lane without LEDGER (R268). -/
theorem Block.hmTry_unsupported (hworld : q.w = true ∨ (b.hmRegionOf q).world = false)
    (hledger : (b.hmRegionOf q).ledger = true) (hcap : q.p.lcap = false) :
    b.hmTry q = (some (q.status stUNSUPPORTED), b) :=
  (if_neg (Block.world_passes hworld)).trans
    (if_pos (show ((b.hmRegionOf q).ledger && !q.p.lcap) = true by rw [hledger, hcap]; rfl))

/-- A request reaches its word as in tagged memory: no ledger, good check bits, a sound row, and worlds that allow it. -/
structure Block.HmReach (b : Block) (q : HWait) : Prop where
  ledger : (b.hmRegionOf q).ledger = false
  ecc : (b.hm.get q.word).ecc = .good
  row : b.hmBadRow q.word = false
  world : q.w = true ∨ (b.hmRegionOf q).world = false ∧ (b.hm.get q.word).w = false

section
variable (h : b.HmReach q)
include h

/-- One attempt comes to the operation of R166 on the word that is held. -/
theorem Block.hmTry_reached : b.hmTry q =
    (b.hmWordOp q).elim (none, b) fun rx => (some (q.answer rx.1), b.mHm fun m => m.set q.word rx.2) := by
  obtain ⟨hledger, hecc, hrow, hworld⟩ := h
  have hgood : (⟨(b.hm.get q.word).data, (b.hm.get q.word).fe, (b.hm.get q.word).w, .good⟩ : TWord) = b.hm.get q.word := by
    rw [← hecc]
  have hw : (!q.w && (b.hm.get q.word).w) = false := by rcases hworld with h | ⟨_, h⟩ <;> simp [h]
  refine (if_neg (Block.world_passes (hworld.imp_right And.left))).trans ((if_neg ?_).trans ((if_neg ?_).trans ?_))
  · show ¬((b.hmRegionOf q).ledger && !q.p.lcap) = true
    simp [hledger]
  · show ¬((b.hm.get q.word).ecc = .ue ∨ (b.hm.get q.word).ecc = .ueHard ∨ b.hmBadRow q.word = true)
    simp [hecc, hrow]
  have hce : ¬(b.hm.get q.word).ecc = .ce := by rw [hecc]; decide
  have hop : wordOp q.p.op.toNat q.p.wdata (!q.p.nowait && q.p.tag.extractLsb' 12 4 == 0) (b.hm.region (hmRegion q.word)).world
      (b.hm.get q.word) = b.hmWordOp q := rfl
  have hled : ((b.hm.region (hmRegion q.word)).ledger && q.word % 2 == 1) = false := by
    rw [show (b.hm.region (hmRegion q.word)).ledger = false from hledger, Bool.false_and]
  rw [show (q.p.ha.extractLsb' 0 27).toNat = q.word from rfl, if_neg hce, hgood, hled]
  refine (if_neg (by rw [hw]; decide)).trans ?_
  simp only [ledgerMark_onTime, hop, Bool.false_eq_true, if_false, Nat.add_zero, satAdd_zero]
  cases b.hmWordOp q with
  | none => rfl
  | some rx => rfl

theorem Block.hmTry_waits (ho : b.hmWordOp q = none) : b.hmTry q = (none, b) := by rw [Block.hmTry_reached h, ho]; rfl

theorem Block.hmTry_done {r : WRes} {x : TWord} (ho : b.hmWordOp q = some (r, x)) :
    b.hmTry q = (some (q.answer r), b.mHm fun m => m.set q.word x) := by rw [Block.hmTry_reached h, ho]; rfl

end

end

/-! ### At the owner (R256, R258, R264) -/

/-- With no request waiting, an examination changes nothing. -/
theorem Block.hmExamine_idle (h : b.hm.waits = []) (n : Nat) : b.hmExamine n = b := by
  rw [Block.hmExamine, h]
  rfl

section
variable {q : HWait}

theorem Block.hmServe_answered {r : HResp} {c : Block} (htry : b.hmTry q = (some r, c)) (hidle : c.hm.waits = []) :
    b.hmServe q = c.hrespSend q.w r := by
  have hserve : b.hmServe q = if (c.hrespSend q.w r).hm.get q.word = b.hm.get q.word then c.hrespSend q.w r
      else (c.hrespSend q.w r).hmExamine q.word := by
    rw [Block.hmServe, htry]
  rw [hserve, Block.hmExamine_idle (by rw [hrespSend_hm, hidle]), ite_self]

theorem Block.hmServe_waits (htry : b.hmTry q = (none, b)) (hidle : b.hm.waits = []) :
    b.hmServe q = b.mHm fun m => { m with waits := [q] } := by
  have hserve : b.hmServe q = if b.hm.waits.length < 65536 then b.mHm fun m => { m with waits := m.waits ++ [q] }
      else (b.mHm fun m => { m with refused := sat1 m.refused }).hrespSend q.w (q.status stREFUSED) := by
    rw [Block.hmServe, htry]
    rfl
  rw [hserve, if_pos (by rw [hidle]; decide)]
  exact mHm_congr (by rw [hidle, List.nil_append])

theorem Block.hmOwner_notReady (h : b.dist.boot.hmReady = false) :
    b.hmOwner q = b.hrespSend q.w (q.status stNOPATH) :=
  if_pos (by rw [h]; rfl)

section
variable (hready : b.dist.boot.hmReady = true) (hn : q.word < 100663296)
include hready hn

theorem Block.hmOwner_scrubbed (hscrub : b.hm.scrub.contains (hmRegion q.word) = true) :
    b.hmOwner q = b.mHm fun m => { m with held := m.held ++ [q] } :=
  (if_neg (by rw [hready]; decide)).trans ((if_neg (Nat.not_le.2 hn)).trans (if_pos hscrub))

theorem Block.hmOwner_serves (hscrub : b.hm.scrub.contains (hmRegion q.word) = false) : b.hmOwner q = b.hmServe q :=
  (if_neg (by rw [hready]; decide)).trans ((if_neg (Nat.not_le.2 hn)).trans (if_neg (by rw [hscrub]; decide)))

end

end

end

end Sys2Proof.Machine
end

section
/-! SUPPORT. Hall requests, their withdrawals and their answers on the way (R254, R257, R259, R261), and the answer at the
TSU (R261). -/

namespace Sys2Proof.Machine

open Sys2Proof

/-! ### What the receipt of a frame leaves -/

section
variable (b : Block) (l : LaneRef) (h : Hdr) (cls : Nat)

theorem bucket_curator (ch : Option Nat) (sub k : Nat) :
    ∃ u, b.bucket ch sub k = b.mDist fun d => { d with curator := u } := by
  cases ch with
  | none => exact ⟨b.dist.curator, rfl⟩
  | some c =>
    unfold Block.bucket
    dsimp only
    split
    · exact ⟨b.dist.curator, rfl⟩
    · exact ⟨_, rfl⟩

/-- A part that no lane's link and no bucket of the Curator reaches. -/
theorem rxBook_keeps {β : Type} (g : Block → β) (hlink : ∀ b f, g (b.mLink l f) = g b)
    (hcurator : ∀ b u, g (b.mDist fun d => { d with curator := u }) = g b) : g (b.rxBook l h cls) = g b := by
  have hcorr : g (b.corrected l h.corr) = g b := by
    obtain ⟨u, hu⟩ := bucket_curator (b.mCnt l fun c => { c with fecCorr := satAdd c.fecCorr h.corr }) (laneChan l) 1 h.corr
    rw [Block.corrected, hu, hcurator]
    exact hlink b _
  unfold Block.rxBook
  dsimp only
  split
  · exact hcorr
  · exact (hlink _ _).trans hcorr

@[simp] theorem hm_rxBook : (b.rxBook l h cls).hm = b.hm :=
  rxBook_keeps b l h cls Block.hm (fun b f => by rcases l with (_ | _) | _ <;> rfl) fun _ _ => rfl

@[simp] theorem hall_rxBook : (b.rxBook l h cls).tsu.hall = b.tsu.hall :=
  rxBook_keeps b l h cls (fun b => b.tsu.hall) (fun b f => by rcases l with (_ | _) | _ <;> rfl) fun _ _ => rfl

end

section
variable {b c : Block} (h : RxSame b c)
include h

theorem RxSame.hmWay (ha : BitVec 39) : b.hmWay ha = c.hmWay ha := by
  unfold Block.hmWay Block.dPlane Block.dRole Block.t2idx Block.t1idx
  rw [h.dcat]

theorem RxSame.up (l : LaneRef) : b.up l = c.up l := by rw [Block.up, h.reg]; rfl

theorem RxSame.dRole : b.dRole = c.dRole := by rw [Block.dRole, h.dcat]; rfl

theorem RxSame.hmLane (ha : BitVec 39) : b.hmLane ha = c.hmLane ha := by
  unfold Block.hmLane Block.childLane Block.upLane Block.childLanes
  simp only [h.hmWay, h.up, h.dRole]

end

section
variable {b : Block} {l : LaneRef} {h : Hdr} {cls : Nat} {q : HWait}

theorem hmRegionOf_rxBook : (b.rxBook l h cls).hmRegionOf q = b.hmRegionOf q := by
  rw [Block.hmRegionOf, hm_rxBook]
  rfl

theorem hmWordOp_rxBook : (b.rxBook l h cls).hmWordOp q = b.hmWordOp q := by
  rw [Block.hmWordOp, hmRegionOf_rxBook, hm_rxBook]
  rfl

theorem Block.HmReach.rxBook (hreach : b.HmReach q) : (b.rxBook l h cls).HmReach q := by
  obtain ⟨hledger, hecc, hrow, hworld⟩ := hreach
  refine ⟨by rwa [hmRegionOf_rxBook], by rwa [hm_rxBook], ?_, by rwa [hmRegionOf_rxBook, hm_rxBook]⟩
  rw [Block.hmBadRow, (rxBook_same b l h cls).boot]
  exact hrow

end

/-! ### Requests on their way (R257, R261, R268) -/

section
variable {b : Block} {w : Bool} {p : HReq}

theorem Block.hmForward_lost (h : b.hmLane p.ha = none) :
    b.hmForward w p = b.hrespSend w ((⟨p, w⟩ : HWait).status stNOPATH) := by
  rw [Block.hmForward, h]
  rfl

theorem Block.hmForward_sends {k : Nat} (h : b.hmLane p.ha = some k)
    (hfeat : (b.lane (.dist k)).reg.featEff.getLsbD 10 = true) :
    b.hmForward w p =
      b.send (.dist k) w (.hreq { p with lcap := p.lcap && (b.lane (.dist k)).reg.featEff.getLsbD 17 }) := by
  rw [Block.hmForward, h]
  exact if_neg (by rw [hfeat]; decide)

theorem Block.hmCancel_passes {ha : BitVec 39} {pda tag : BitVec 16} {k : Nat} (hway : b.hmWay ha ≠ .here)
    (h : b.hmLane ha = some k) : b.hmCancel w ha pda tag = b.send (.dist k) w (.hcancel ha pda tag) := by
  rw [Block.hmCancel, h]
  exact if_neg hway

end

/-! ### The owner's clock (R259) -/

section
variable {b : Block} {pda tag : BitVec 16} {q : HWait}
  (h : (b.hm.waits.find? fun q => q.p.pda == pda && q.p.tag == tag) = some q)
include h

theorem Block.hmExpire_early (hx : Tick.le q.p.x b.dist.time.tc64 = false) : b.hmExpire pda tag = b := by
  rw [Block.hmExpire, h]
  exact if_pos (by rw [hx]; rfl)

theorem Block.hmExpire_due (hx : Tick.le q.p.x b.dist.time.tc64 = true) :
    b.hmExpire pda tag = (b.mHm fun m => { m with waits := m.waits.filter fun x => x != q }).hrespSend q.w
      ⟨pda, tag, stTIMEOUT, false, false, false, false, 0⟩ := by
  rw [Block.hmExpire, h]
  exact if_neg (by rw [hx]; decide)

end

/-! ### The answer at the TSU (R261) -/

section
variable {b : Block}

theorem Block.hallTake_some {tag : BitVec 16} {g : HOut} (h : (b.tsu.hall.out.find? fun x => x.tag == tag) = some g) :
    b.hallTake tag = some (g, b.mHall fun x => { x with out := x.out.eraseP fun y => y.tag == tag }) := by
  rw [Block.hallTake, h]
  simp only [Option.map_some, dropFirst_eq_eraseP]

theorem Block.hallTake_none {tag : BitVec 16} (h : (b.tsu.hall.out.find? fun x => x.tag == tag) = none) :
    b.hallTake tag = none := by
  rw [Block.hallTake, h]
  rfl

/-- A wait slot's operation ends with the answer's status; NOPATH is counted (R261). -/
theorem Block.hallDone_slot {g : HOut} {i : Nat} (hsrc : hallSrc g.tag = .slot i) (p : HResp) :
    b.hallDone g p = (if p.status = stNOPATH then b.nopath else b).wsDone i (hrespRes g.op p) := by
  rw [Block.hallDone, hsrc]

theorem Block.hrespTsu_slot {r : HResp} {g : HOut} {i : Nat} (h : (b.tsu.hall.out.find? fun x => x.tag == r.tag) = some g)
    (hsrc : hallSrc g.tag = .slot i) (hst : r.status ≠ stNOPATH) : b.hrespTsu r =
      (b.mHall fun x => { x with out := x.out.eraseP fun y => y.tag == r.tag }).wsDone i (hrespRes g.op r) := by
  rw [Block.hrespTsu, Block.hallTake_some h]
  exact (Block.hallDone_slot hsrc r).trans (by rw [if_neg hst])

/-- An answer that nothing awaits or explains is counted. -/
theorem Block.hrespTsu_orphan {r : HResp} (h : (b.tsu.hall.out.find? fun x => x.tag == r.tag) = none)
    (hgone : (b.tsu.hall.gone.find? fun x => x.tag == r.tag) = none) :
    b.hrespTsu r = b.mHall fun x => { x with orphanCnt := sat1 x.orphanCnt } := by
  rw [Block.hrespTsu, Block.hallTake_none h]
  dsimp only [Block.orphan, Block.mHall_tsu]
  rw [hgone]

section
variable {tag : BitVec 16} {g : HOut} (h : (b.tsu.hall.out.find? fun x => x.tag == tag) = some g)
include h

theorem Block.hmGrace_early (hx : b.due (g.x + b.tsu.hall.grace.setWidth 64) = false) : b.hmGrace tag = b := by
  rw [Block.hmGrace, Block.hallTake_some h]
  exact if_pos (by rw [hx]; rfl)

theorem Block.hmGrace_due {i : Nat} (hsrc : hallSrc g.tag = .slot i)
    (hx : b.due (g.x + b.tsu.hall.grace.setWidth 64) = true) : b.hmGrace tag = (b.mHall fun y => { y with
      out := y.out.eraseP fun z => z.tag == tag, gone := y.gone ++ [g], nopath := sat1 y.nopath }).wsDone i
        { status := stNOPATH } := by
  have hres : hrespRes g.op ⟨0, tag, stNOPATH, false, false, false, false, 0⟩ = { status := stNOPATH } := by
    simp [hrespRes]
  rw [Block.hmGrace, Block.hallTake_some h]
  refine (if_neg (by rw [hx]; decide)).trans ((Block.hallDone_slot hsrc _).trans ?_)
  rw [if_pos rfl, hres]
  rfl

end

end

end Sys2Proof.Machine
end

section
/-! SUPPORT. Scrubs and the self-test of hall memory (R256, R264, R393), and the commands on hall memory. -/

namespace Sys2Proof.Machine

open Sys2Proof

/-- `m'` is `m` with the words of region `r` DATA 0, EMPTY and of the region's world, and no other part changed. -/
structure HMem.Cleared (m m' : HMem) (r : Nat) : Prop where
  parts : ∃ ws fs, m' = { m with words := ws, fillN := fs }
  words : ∀ n, if hmRegion n = r then ∃ e, m'.get n = ⟨0, false, (m.region r).world, e⟩ else m'.get n = m.get n

section
variable {m m' : HMem} {r : Nat}

theorem HMem.Cleared.mine (h : m.Cleared m' r) {n : Nat} (hn : hmRegion n = r) :
    ∃ e, m'.get n = ⟨0, false, (m.region r).world, e⟩ := by
  simpa [hn] using h.words n

theorem HMem.Cleared.other (h : m.Cleared m' r) {n : Nat} (hn : hmRegion n ≠ r) : m'.get n = m.get n := by
  simpa [hn] using h.words n

/-- A word of the region may be marked as failed. -/
theorem HMem.Cleared.set (h : m.Cleared m' r) {k : Nat} (hk : hmRegion k = r) (e : Ecc) :
    m.Cleared (m'.set k ⟨0, false, (m.region r).world, e⟩) r := by
  refine ⟨?_, fun n => ?_⟩
  · obtain ⟨ws, fs, rfl⟩ := h.parts
    exact ⟨_, fs, rfl⟩
  · rw [HMem.get_set]
    by_cases hn : k = n
    · subst hn
      rw [if_pos hk, if_pos rfl]
      exact ⟨e, rfl⟩
    · rw [if_neg hn]
      exact h.words n

/-- The listed words of the region leave, and the region reads as cleared for its world. -/
theorem HMem.cleared_unlisted (m : HMem) (r : Nat) : m.Cleared { m with
    words := m.words.filter fun e => hmRegion e.1 != r, fillN := smPut false m.fillN r (!(m.region r).world) } r := by
  refine ⟨⟨_, _, rfl⟩, fun n => ?_⟩
  unfold HMem.get HMem.dflt
  rw [smGet_smPut]
  by_cases hn : hmRegion n = r
  · rw [if_pos hn, if_pos hn.symm]
    exact ⟨.good, (smGet_filter_drop _ fun v => by simp [hn]).trans (by rw [Bool.not_not])⟩
  · rw [if_neg hn, if_neg (Ne.symm hn)]
    exact smGet_filter_keep _ fun v => by simp [hn]

theorem HMem.clearRegion_cleared (m : HMem) (r : Nat) : m.Cleared (m.clearRegion r) r := by
  unfold HMem.clearRegion
  refine List.foldlRecOn (motive := fun m' => m.Cleared m' r) _ _ (m.cleared_unlisted r) fun m' h e he => h.set ?_ _
  obtain ⟨_, hmine⟩ := List.mem_filter.1 he
  simp only [Bool.and_eq_true, beq_iff_eq] at hmine
  exact hmine.1

end

section
variable {b : Block}

theorem Block.hmScrubDone_none {r : Nat} (h : b.hm.scrub.contains r = false) : b.hmScrubDone r = b :=
  if_pos (by rw [h]; rfl)

/-- The end of a scrub where no request waits or is held: its region is cleared. -/
theorem Block.hmScrubDone_idle {r : Nat} (h : b.hm.scrub.contains r = true) (hwaits : b.hm.waits = [])
    (hheld : b.hm.held = []) : b.hmScrubDone r = b.mHm fun m => { m.clearRegion r with
      scrub := m.scrub.filter fun x => x != r, held := [] } := by
  have hnone : (b.hm.clearRegion r).waits = [] := by
    obtain ⟨ws, fs, hclear⟩ := (b.hm.clearRegion_cleared r).parts
    rw [hclear, hwaits]
  generalize hc : (b.mHm fun m => { m.clearRegion r with scrub := m.scrub.filter fun x => x != r, held := [] }) = c
  have hc' : (b.mHm fun m => { m.clearRegion r with
      scrub := m.scrub.filter fun x => x != r, held := m.held.filter fun q => hmRegion q.word != r }) = c :=
    (mHm_congr (by rw [hheld, List.filter_nil])).trans hc
  have hcw : c.hm.waits = [] := by
    rw [← hc]
    exact hnone
  have hdone : b.hmScrubDone r = (c.each (((c.hm.waits.filter fun q => hmRegion q.word == r).map (·.word)).eraseDups)
      Block.hmExamine).each (b.hm.held.filter fun q => hmRegion q.word == r) fun b q => b.hmServe q := by
    rw [← hc']
    exact if_neg (by rw [h]; decide)
  rw [hdone, hcw, hheld, List.filter_nil, List.map_nil, List.eraseDups_nil]
  rfl

/-- The self-test that finds no failing row clears every word (R256, R393). -/
theorem Block.hmSelftest_sound (hpower : b.dist.mod.powered = true) (hfuse : b.dist.boot.fuseDone = true)
    (hready : b.dist.boot.hmReady = false) : b.hmSelftest [] = (b.mHm fun m => { m with
      words := [], fillN := ((m.regions.filter fun e => !e.2.world).map fun e => (e.1, true)) }).mDBoot fun d =>
        { d with hmUnrepaired := [], hmReady := true } :=
  if_neg (by rw [hpower, hfuse, hready]; decide)

end

/-! ### The commands -/

section
variable {s : State} {h : Hdr}

section
variable {l : Nat} (hl : l < 312) (hok : s.blk.rxOk (.dist l) h 4 10 false = true)
include hl hok

theorem exec_hreqReceive_dist (p : HReq) : exec (.hreqReceive (.dist l) h p) s = .next { s with
    blk := if (s.blk.rxBook (.dist l) h 4).hmWay p.ha = .here then (s.blk.rxBook (.dist l) h 4).hmOwner ⟨p, h.w⟩
      else (s.blk.rxBook (.dist l) h 4).hmForward h.w p } :=
  exec_of_runLane (l := .dist l) (by simp [LaneRef.ok, hl]) rfl (rx_ok _ _ _ _ _ _ _ hok)

section
variable {p : HReq}

theorem exec_hreqReceive_away (hway : s.blk.hmWay p.ha ≠ .here) : exec (.hreqReceive (.dist l) h p) s =
    .next { s with blk := (s.blk.rxBook (.dist l) h 4).hmForward h.w p } := by
  rw [exec_hreqReceive_dist hl hok, if_neg (by rwa [(rxBook_same _ _ _ _).hmWay])]

variable (hway : s.blk.hmWay p.ha = .here)
include hway

theorem exec_hreqReceive_here : exec (.hreqReceive (.dist l) h p) s =
    .next { s with blk := (s.blk.rxBook (.dist l) h 4).hmOwner ⟨p, h.w⟩ } := by
  rw [exec_hreqReceive_dist hl hok, if_pos (by rwa [(rxBook_same _ _ _ _).hmWay])]

/-- The owner is ready, the word exists, and its region is not being scrubbed. -/
theorem exec_hreqReceive_serves (hready : s.blk.dist.boot.hmReady = true) (hn : (⟨p, h.w⟩ : HWait).word < 100663296)
    (hscrub : s.blk.hm.scrub.contains (hmRegion (⟨p, h.w⟩ : HWait).word) = false) :
    exec (.hreqReceive (.dist l) h p) s = .next { s with blk := (s.blk.rxBook (.dist l) h 4).hmServe ⟨p, h.w⟩ } := by
  rw [exec_hreqReceive_here hl hok hway, Block.hmOwner_serves (by rwa [(rxBook_same _ _ _ _).boot]) hn (by rwa [hm_rxBook])]

end

theorem exec_hcancelReceive_dist (ha : BitVec 39) (pda tag : BitVec 16) :
    exec (.hcancelReceive (.dist l) h ha pda tag) s =
      .next { s with blk := (s.blk.rxBook (.dist l) h 4).hmCancel h.w ha pda tag } :=
  exec_of_runLane (l := .dist l) (by simp [LaneRef.ok, hl]) rfl (rx_ok _ _ _ _ _ _ _ hok)

theorem exec_hrespReceive_dist (r : HResp) : exec (.hrespReceive (.dist l) h r) s =
    .next { s with blk := (s.blk.rxBook (.dist l) h 4).hrespSend h.w r } :=
  exec_of_runLane (l := .dist l) (by simp [LaneRef.ok, hl]) rfl (rx_ok _ _ _ _ _ _ _ hok)

end

section
variable {pl : Plane} (hok : s.blk.rxOk (.tsu pl) h 4 10 false = true)
include hok

/-- A TSU serves no request. -/
theorem exec_hreqReceive_tsu (p : HReq) :
    exec (.hreqReceive (.tsu pl) h p) s = .next { s with blk := s.blk.rxBook (.tsu pl) h 4 } :=
  exec_of_runLane (f := fun b => b.rx (.tsu pl) h 4 10 false fun b => b) (.refl (LaneRef.ok (.tsu pl))) rfl
    (rx_ok _ _ _ _ _ _ _ hok)

theorem exec_hcancelReceive_tsu (ha : BitVec 39) (pda tag : BitVec 16) :
    exec (.hcancelReceive (.tsu pl) h ha pda tag) s = .next { s with blk := s.blk.rxBook (.tsu pl) h 4 } :=
  exec_of_runLane (f := fun b => b.rx (.tsu pl) h 4 10 false fun b => b) (.refl (LaneRef.ok (.tsu pl))) rfl
    (rx_ok _ _ _ _ _ _ _ hok)

theorem exec_hrespReceive_tsu (r : HResp) : exec (.hrespReceive (.tsu pl) h r) s =
    .next { s with blk := (s.blk.rxBook (.tsu pl) h 4).hrespTsu r } :=
  exec_of_runLane (f := fun b => b.rx (.tsu pl) h 4 10 false fun b => b.hrespTsu r) (.refl (LaneRef.ok (.tsu pl))) rfl
    (rx_ok _ _ _ _ _ _ _ hok)

end

theorem exec_hreqExpiry (pda tag : BitVec 16) (s : State) :
    exec (.hreqExpiry pda tag) s = .next { s with blk := s.blk.hmExpire pda tag } := rfl

theorem exec_hmGraceExpire (tag : BitVec 16) (s : State) :
    exec (.hmGraceExpire tag) s = .next { s with blk := s.blk.hmGrace tag } := rfl

theorem exec_hmemScrubDone (r : BitVec 10) (s : State) :
    exec (.hmemScrubDone r) s = .next { s with blk := s.blk.hmScrubDone r.toNat } := rfl

theorem exec_hmemSelftestDone (rows : List Nat) (s : State) :
    exec (.hmemSelftestDone rows) s = .next { s with blk := s.blk.hmSelftest rows } := rfl

end

/-- Settles O26: a request by where its word lies and by what one attempt on it comes to, its withdrawal and its answer by
their way, the answer at the TSU by what it ends, and the words that a scrub and the self-test clear. -/
theorem hallMemory : Obligations.HallMemory := by
  unfold Obligations.HallMemory
  refine ⟨fun l h p s hl hok => ?request, fun l h ha pda tag r s hl hok => ?cancel,
    fun pl h p ha pda tag s hok => ⟨exec_hreqReceive_tsu hok p, exec_hcancelReceive_tsu hok ha pda tag⟩,
    fun pda tag q s hq => ⟨fun hx => ?expired, fun hx => ?early⟩, fun pl h r s hok => ?response,
    fun tag g i s hg hsrc => ?grace, fun r s hwaits hheld => ⟨fun hnone => ?noScrub, fun hscrub => ?scrub⟩,
    fun s hpower hfuse hready => ?selftest⟩
  case request =>
    intro b n rg w resp now
    have same : RxSame b s.blk := rxBook_same s.blk (.dist l) h 4
    have hready : b.dist.boot.hmReady = s.blk.dist.boot.hmReady := congrArg DBoot.hmReady same.boot
    have hregion : b.hmRegionOf ⟨p, h.w⟩ = rg := hmRegionOf_rxBook
    refine ⟨fun hway hr => ?notReady, fun hway hr hn hs => ?scrubbed, fun hway hr hn hs hidle => ?served,
      fun k hway hk hfeat => ?passed, fun hway hk => ?lost⟩
    case notReady =>
      rw [exec_hreqReceive_here hl hok hway, Block.hmOwner_notReady (hready.trans hr)]
      rfl
    case scrubbed =>
      rw [exec_hreqReceive_here hl hok hway,
        Block.hmOwner_scrubbed (q := ⟨p, h.w⟩) (hready.trans hr) hn (by rw [hm_rxBook]; exact hs)]
    case served =>
      have hwaits : b.hm.waits = [] := (congrArg HMem.waits (hm_rxBook _ _ _ _)).trans hidle
      rw [exec_hreqReceive_serves hl hok hway hr hn hs]
      refine ⟨fun hw hworld => ?_, fun hledger hcap hworld => ?_, fun hledger hecc hrow hworld =>
        ⟨fun r x ho => ?_, fun ho => ?_⟩⟩
      · rw [Block.hmServe_answered (Block.hmTry_denied hw (by rw [hregion]; exact hworld)) hwaits]
        rfl
      · rw [Block.hmServe_answered (Block.hmTry_unsupported (by rw [hregion]; exact hworld) (by rw [hregion]; exact hledger)
          hcap) hwaits]
        rfl
      all_goals
        have hreach : s.blk.HmReach ⟨p, h.w⟩ := ⟨hledger, hecc, hrow, hworld⟩
        rw [← HWait.mayWait_eq ⟨p, h.w⟩] at ho
      · rw [Block.hmServe_answered (Block.hmTry_done hreach.rxBook (hmWordOp_rxBook.trans ho)) hwaits]
        rfl
      · rw [Block.hmServe_waits (Block.hmTry_waits hreach.rxBook (hmWordOp_rxBook.trans ho)) hwaits]
    case passed =>
      rw [exec_hreqReceive_away hl hok hway, Block.hmForward_sends (by rw [same.hmLane]; exact hk)
        (by rw [same.reg]; exact hfeat), same.reg]
    case lost =>
      rw [exec_hreqReceive_away hl hok hway, Block.hmForward_lost (by rw [same.hmLane]; exact hk)]
      rfl
  case cancel =>
    intro b out
    have same : RxSame b s.blk := rxBook_same s.blk (.dist l) h 4
    rw [exec_hcancelReceive_dist hl hok]
    exact ⟨fun hway => by rw [Block.hmCancel, if_pos (by rw [same.hmWay]; exact hway)],
      fun k hway hk => by rw [Block.hmCancel_passes (by rw [same.hmWay]; exact hway) (by rw [same.hmLane]; exact hk)],
      exec_hrespReceive_dist hl hok r⟩
  case expired =>
    rw [exec_hreqExpiry, Block.hmExpire_due hq hx]
    rfl
  case early => rw [exec_hreqExpiry, Block.hmExpire_early hq hx]
  case response =>
    intro b
    have hhall : b.tsu.hall = s.blk.tsu.hall := hall_rxBook s.blk (.tsu pl) h 4
    rw [exec_hrespReceive_tsu hok]
    refine ⟨fun g i hg hsrc hst => ?_, fun hnone hgone => ?_⟩
    · rw [Block.hrespTsu_slot (by rw [hhall]; exact hg) hsrc hst]
    · rw [Block.hrespTsu_orphan (by rw [hhall]; exact hnone) (by rw [hhall]; exact hgone)]
  case grace =>
    intro x
    rw [exec_hmGraceExpire]
    refine ⟨fun hx => ?_, fun hx => ?_⟩
    · rw [Block.hmGrace_early hg hx]
    · rw [Block.hmGrace_due hg hsrc hx]
      rfl
  case noScrub => rw [exec_hmemScrubDone, Block.hmScrubDone_none hnone]
  case scrub =>
    have hclear := HMem.clearRegion_cleared s.blk.hm r.toNat
    refine ⟨_, exec_hmemScrubDone r s, ?_⟩
    rw [Block.hmScrubDone_idle hscrub hwaits hheld]
    refine ⟨rfl, fun n hn => ?_, fun n hn => hclear.other hn, rfl, rfl, rfl, rfl⟩
    obtain ⟨e, he⟩ := hclear.mine hn
    exact TWord.fields_of_cleared he
  case selftest =>
    refine ⟨_, exec_hmemSelftestDone [] s, ?_⟩
    rw [Block.hmSelftest_sound hpower hfuse hready]
    exact ⟨rfl, fun n => ⟨rfl, rfl⟩, rfl, rfl, rfl⟩

end Sys2Proof.Machine
end

section
/-! SUPPORT. The channels of the data mover (R277, R279, R287 to R293, R363, R406, R407, R410): what each write of DM_CH_CTRL
and each answer of the host fabric changes in its channel, before the engines run. -/

namespace Sys2Proof.Machine

open Sys2Proof

/-! ### Updates of one channel -/

theorem dmCh_mDmCh_same (b : Block) (n : Nat) (f : DmCh → DmCh) : (b.mDmCh n f).dmCh n = f (b.dmCh n) := by
  unfold Block.mDmCh Block.dmCh
  rw [Block.mDm_tsu, smGet_smMod, if_pos rfl]

@[simp] theorem mDmCh_mDmCh (b : Block) (n : Nat) (f g : DmCh → DmCh) :
    (b.mDmCh n f).mDmCh n g = b.mDmCh n fun c => g (f c) := by
  unfold Block.mDmCh Block.mDm Block.mTsu
  simp only [smMod_smMod]

/-- An update is known by what it makes of the channel as it stands. -/
theorem mDmCh_congr {b : Block} {n : Nat} {f g : DmCh → DmCh} (h : f (b.dmCh n) = g (b.dmCh n)) :
    b.mDmCh n f = b.mDmCh n g :=
  congrArg (fun c => b.mDmCh n fun _ => c) h

section
variable {b : Block} {n : Nat}

/-! ### Enable and disable (R293, R406, R410) -/

theorem Block.dmEnable_eq : b.dmEnable n = b.mDmCh n fun c =>
    if c.st = .stopping ∨ c.st = .off ∧ b.tsu.boot.inCloak then { c with enPend := true }
    else if c.st = .off then { c with st := if c.pause then .paused else .idle } else c := by
  simp only [Block.dmEnable, Bool.or_eq_true, Bool.and_eq_true, beq_iff_eq]

/-- EN = 0 cancels a held enable, whatever else it does. -/
theorem dmDisable_st (b : Block) (n : Nat) : ((b.mDmCh n fun c => { c with enPend := false }).dmCh n).st = (b.dmCh n).st := by
  rw [dmCh_mDmCh_same]

theorem Block.dmDisable_off (h : (b.dmCh n).st = .off ∨ (b.dmCh n).st = .stopping) :
    b.dmDisable n = b.mDmCh n fun c => { c with enPend := false } := by
  unfold Block.dmDisable
  dsimp only
  rw [dmDisable_st]
  rcases h with h | h <;> rw [h]

theorem Block.dmDisable_stopping (hoff : (b.dmCh n).st ≠ .off) (hstop : (b.dmCh n).st ≠ .stopping)
    (hhalt : (b.dmCh n).st ≠ .haltErr) :
    b.dmDisable n = b.mDmCh n fun c => { c with enPend := false, st := .stopping, poll := none } := by
  rw [← mDmCh_mDmCh b n (fun c => { c with enPend := false }) fun c => { c with st := .stopping, poll := none }]
  unfold Block.dmDisable
  dsimp only
  rw [dmDisable_st]
  cases h : (b.dmCh n).st with
  | off => exact absurd h hoff
  | stopping => exact absurd h hstop
  | haltErr => exact absurd h hhalt
  | idle => rfl
  | run => rfl
  | pausing => rfl
  | paused => rfl

/-- A channel in HALT_ERR reaches OFF at once, and its sets are discarded. -/
theorem Block.dmDisable_haltErr (h : (b.dmCh n).st = .haltErr) :
    b.dmDisable n = b.mDmCh n fun c => { c with
      enPend := false, st := .off, step := .none, cur := {}, shadow := {}, shadowValid := false, rd := 0, hold := [], hb := 0
      wr := 0, acked := 0, fetch := false, poll := none, kick := false, errAt := none } := by
  unfold Block.dmDisable
  dsimp only
  rw [dmDisable_st, h]
  exact mDmCh_mDmCh b n _ _

/-! ### LOAD, KICK, PAUSE and the end of it (R287, R290) -/

theorem Block.dmLoad_eq : b.dmLoad n = b.mDmCh n fun c =>
    if c.ring = true ∨ c.shadowValid = true then { c with loadLost := true } else { c with shadowValid := true } := by
  simp only [Block.dmLoad, Bool.or_eq_true]

theorem Block.dmKick_eq : b.dmKick n = b.mDmCh n fun c =>
    if c.ring = false then c else if c.fetch then { c with kick := true } else { c with poll := none } := by
  simp only [Block.dmKick, Bool.not_eq_true']

theorem Block.dmPause_noError (h : (b.dmCh n).errAt = none) : b.dmPause n = b.mDmCh n fun c => { c with
    pause := true, st := if c.st = .run then .pausing else if c.st = .idle then .paused else c.st } :=
  mDmCh_congr (by simp [h])

/-- A channel whose writes drain after a bus error goes on to HALT_ERR. -/
theorem Block.dmPause_error (h : (b.dmCh n).errAt.isSome = true) :
    b.dmPause n = b.mDmCh n fun c => { c with pause := true } :=
  mDmCh_congr (by simp [h])

theorem Block.dmResume_eq : b.dmResume n = b.mDmCh n fun c => { c with
    pause := false
    st := if c.st = .pausing then .run else if c.st = .paused then (if c.step = .none then .idle else .run) else c.st } := by
  simp only [Block.dmResume, beq_iff_eq]

/-! ### RESTART, SKIP and ABORT (R292) -/

theorem Block.dmRestart_ignored (h : (b.dmCh n).st ≠ .haltErr) : b.dmRestart n = b := by
  unfold Block.dmRestart
  exact if_pos (by simpa using h)

theorem Block.dmDrop_ignored (h : (b.dmCh n).st ≠ .haltErr) (abort : Bool) : b.dmDrop n abort = b := by
  unfold Block.dmDrop
  exact if_pos (by simpa using h)

/-- Outside ring mode a transfer ends without a status write-back. -/
theorem Block.dmFinish_load (h : (b.dmCh n).ring = false) (code err : BitVec 8) :
    b.dmFinish n code err = b.mDmCh n fun c => { c with
      code := code, err := err, step := .none, doneCnt := sat1 c.doneCnt, done := c.done || c.cur.irq } := by
  unfold Block.dmFinish
  dsimp only
  rw [dmCh_mDmCh_same, if_neg (by rw [h]; decide)]
  exact mDmCh_mDmCh b n _ _

section
variable (hst : (b.dmCh n).st = .haltErr) (hmove : (b.dmCh n).step = .move) (hpause : (b.dmCh n).pause = false)
include hst hmove hpause

theorem Block.dmRestart_move :
    b.dmRestart n = b.mDmCh n fun c => { c with errAt := none, errValid := false, st := .run } := by
  unfold Block.dmRestart
  dsimp only
  rw [if_neg (by rw [hst]; decide), if_neg (by rw [hmove]; decide)]
  exact mDmCh_congr (by simp [hmove, hpause])

/-- The transfer that failed ends with SKIPPED or ABORTED and the code of its error; ABORT discards the shadow too. -/
theorem Block.dmDrop_move (hload : (b.dmCh n).ring = false) (abort : Bool) :
    b.dmDrop n abort = b.mDmCh n fun c => { c with
      errAt := none, errValid := false, shadowValid := c.shadowValid && !abort, st := .run
      code := if abort then 3 else 2, err := c.errCode.setWidth 8, step := .none, doneCnt := sat1 c.doneCnt
      done := c.done || c.cur.irq } := by
  unfold Block.dmDrop
  dsimp only
  rw [if_neg (by rw [hst]; decide), if_neg (by rw [hmove]; decide), if_neg (by rw [hmove]; decide),
    Block.dmFinish_load (by rw [dmCh_mDmCh_same]; exact hload), mDmCh_mDmCh]
  exact mDmCh_congr (by simp [hload, hmove, hpause])

end

/-! ### Descriptors (R287) -/

section
variable {resp : BitVec 2} {d : Bytes} (hfetch : (b.dmCh n).fetch = true) (hresp : resp = 0)
  (hst : (b.dmCh n).st ≠ .stopping)
include hfetch hresp hst

/-- A descriptor with OWN = 1 becomes the shadow. -/
theorem Block.dmFetched_owned (hown : (d.getD 63 0).getLsbD 7 = true) :
    b.dmFetched n resp d = b.mDmCh n fun c => { c with
      fetch := false, kick := false, shadow := dmSetOf d, shadowValid := true, entryS := c.head, head := c.next c.head } := by
  unfold Block.dmFetched
  dsimp only
  rw [if_neg (by rw [hfetch]; decide), if_neg (not_not.mpr hresp), if_neg (by simpa using hst), if_pos hown]
  exact mDmCh_mDmCh b n _ _

/-- A descriptor with OWN = 0 is read again after DM_POLL_INT ticks. -/
theorem Block.dmFetched_empty (hkick : (b.dmCh n).kick = false) (hown : (d.getD 63 0).getLsbD 7 = false) :
    b.dmFetched n resp d = b.mDmCh n fun c => { c with
      fetch := false, kick := false, poll := some (b.tsu.time.tc64 + b.tsu.dm.pollInt.setWidth 64) } := by
  unfold Block.dmFetched
  dsimp only
  rw [if_neg (by rw [hfetch]; decide), if_neg (not_not.mpr hresp), if_neg (by simpa using hst),
    if_neg (by rw [hown]; decide), if_neg (by rw [hkick]; decide)]
  exact mDmCh_mDmCh b n _ _

end

/-! ### Data and acknowledgements (R277, R288, R289, R291, R363, R407) -/

/-- The first bus error of a channel is latched, and what it says of the channel stands until RESTART, SKIP or ABORT. -/
theorem Block.dmErr_first (hnone : (b.dmCh n).errAt = none) (hst : (b.dmCh n).st ≠ .stopping) (dir src : Bool)
    (code : BitVec 3) (addr : BitVec 64) (k : Nat) :
    b.dmErr n dir src code addr k = b.mDmCh n fun c => { c with
      errCnt := sat1 c.errCnt, errAt := some k, errDir := dir, errSrc := src, errCode := code, errAddr := addr
      errValid := true, halted := true } :=
  mDmCh_congr (by simp [hnone, hst])

section
variable {resp : BitVec 2} {d : Bytes} {i : Nat} {rest : List Nat} (hlost : (b.dmCh n).lostRds = 0)
  (hrds : (b.dmCh n).rds = i :: rest) (hnone : (b.dmCh n).errAt = none)
include hlost hrds hnone

theorem Block.dmReadData_kept (hresp : resp = 0) :
    b.dmReadData n resp d = b.mDmCh n fun c =>
      ({ c with rds := rest } : DmCh).take (slice d 0 c.cur.srcSide.width) := by
  unfold Block.dmReadData
  dsimp only
  rw [if_neg (by omega), hrds]
  dsimp only
  rw [if_neg (not_not.mpr hresp), Block.dmData, mDmCh_mDmCh]
  exact mDmCh_congr (if_neg (by simp [hnone]))

theorem Block.dmReadData_error (hst : (b.dmCh n).st ≠ .stopping) (hresp : resp ≠ 0) :
    b.dmReadData n resp d = b.mDmCh n fun c => { c with
      rds := rest, errCnt := sat1 c.errCnt, errAt := some i, errDir := false, errSrc := false
      errCode := resp.setWidth 3, errAddr := c.cur.srcSide.addr i, errValid := true, halted := true } := by
  unfold Block.dmReadData
  dsimp only
  rw [if_neg (by omega), hrds]
  dsimp only
  rw [if_pos hresp, Block.dmErr_first (by rw [dmCh_mDmCh_same]; exact hnone) (by rw [dmCh_mDmCh_same]; exact hst),
    mDmCh_mDmCh]
  exact mDmCh_congr rfl

end

/-- An acknowledgement of a write that a stop or reset has abandoned. -/
theorem Block.dmWriteAck_lost {resp : BitVec 2} (h : 0 < (b.dmCh n).lostAcks) :
    b.dmWriteAck n resp =
      (b.mDmCh n fun c => { c with lostAcks := c.lostAcks - 1 }).mBoot fun t => { t with lostAck := true } :=
  if_pos h

section
variable {resp : BitVec 2} {rest : List DmWr} (hlost : (b.dmCh n).lostAcks = 0) (hresp : resp = 0)
include hlost hresp

theorem Block.dmWriteAck_unit {i : Nat} (hwrs : (b.dmCh n).wrs = .unit i :: rest) :
    b.dmWriteAck n resp = b.mDmCh n fun c => { c with wrs := rest, acked := i + c.cur.dstSide.width } := by
  unfold Block.dmWriteAck
  dsimp only
  rw [if_neg (by omega), hwrs]
  dsimp only
  rw [if_neg (not_not.mpr hresp), mDmCh_mDmCh]
  exact mDmCh_congr rfl

/-- The acknowledgement of the second part of a status write-back ends the transfer. -/
theorem Block.dmWriteAck_own (hwrs : (b.dmCh n).wrs = .own :: rest) (hcode : (b.dmCh n).code ≠ 3) :
    b.dmWriteAck n resp = b.mDmCh n fun c => { c with
      wrs := rest, step := .none, doneCnt := sat1 c.doneCnt, done := c.done || c.cur.irq } := by
  unfold Block.dmWriteAck
  dsimp only
  rw [if_neg (by omega), hwrs]
  dsimp only
  rw [if_neg (not_not.mpr hresp), beq_false_of_ne hcode, Bool.false_and, if_neg (by decide)]
  exact mDmCh_mDmCh b n _ _

end

/-! ### HALT_ERR (R291) -/

theorem Block.dmHalt_noError (h : (b.dmCh n).errAt = none) : b.dmHalt n = b := by
  unfold Block.dmHalt
  dsimp only
  rw [h]

/-- After a failed read the channel stands at the failing unit. -/
theorem Block.dmHalt_read {i : Nat} (herr : (b.dmCh n).errAt = some i) (hstop : (b.dmCh n).st ≠ .stopping)
    (hhalt : (b.dmCh n).st ≠ .haltErr) (hdrained : (b.dmCh n).drained = true) (hwr : b.dmCanWrite n = false)
    (hmove : (b.dmCh n).step = .move) (hsrc : (b.dmCh n).errSrc = false) (hdir : (b.dmCh n).errDir = false) :
    b.dmHalt n = b.mDmCh n fun c => { c with st := .haltErr, rd := if i < c.rd then i else c.rd } := by
  unfold Block.dmHalt
  dsimp only
  rw [herr]
  dsimp only
  rw [beq_false_of_ne hstop, beq_false_of_ne hhalt, hdrained, hwr, if_neg (by decide)]
  exact mDmCh_congr (by simp [hmove, hsrc, hdir])

end

/-! ### The commands -/

/-- A write of DM_CH_CTRL that passes its checks takes effect, the engines run, and the write is answered. -/
theorem State.dmCmd_ok {a : Access} {k : BitVec 3} {f : Block → Nat → Block} {s : State} {b : Block}
    (hok : s.blk.check (portReq a) (0xA108 + 0x100 * k.toNat)
      (worldOk (portReq a) (s.blk.ctxWorld (s.blk.dmCh k.toNat).ctx.toNat)) = .ok)
    (hf : f s.blk k.toNat = b) : s.dmCmd a k f = .next { s with blk := b.dmGo.emit (.reg none 0 0) } := by
  have haddr : dmReg k 0x08 = 0xA108 + 0x100 * k.toNat := by unfold dmReg; omega
  subst hf
  exact State.run_regCmd_ok _ (by rw [haddr]; exact hok)

section
variable {k : BitVec 3} {resp : BitVec 2} {d : Bytes} {s : State} {b : Block}

/-- The answer of a read: the engines run on what it makes of the block. -/
theorem exec_dmDescFetchDone (h : s.blk.dmFetched k.toNat resp d = b) :
    exec (.dmDescFetchDone k resp d) s = .next { s with blk := b.dmGo } := by
  subst h
  rfl

theorem exec_dmReadData (h : s.blk.dmReadData k.toNat resp d = b) :
    exec (.dmReadData k resp d) s = .next { s with blk := b.dmGo } := by
  subst h
  rfl

theorem exec_dmWriteAck (h : s.blk.dmWriteAck k.toNat resp = b) :
    exec (.dmWriteAck k resp) s = .next { s with blk := b.dmGo } := by
  subst h
  rfl

theorem exec_dmHaltDrained (h : s.blk.dmHalt k.toNat = b) : exec (.dmHaltDrained k) s = .next { s with blk := b } := by
  subst h
  rfl

theorem exec_dmPollExpire_due {t : Tick} (hpoll : (s.blk.dmCh k.toNat).poll = some t)
    (hdue : Tick.le t s.blk.tsu.time.tc64 = true) : exec (.dmPollExpire k) s =
      .next { s with blk := (s.blk.mDmCh k.toNat fun c => { c with poll := none }).dmGo } := by
  have hdue' : s.blk.due t = true := hdue
  show execDmPollExpire k s = _
  rw [execDmPollExpire, State.run_eq, hpoll]
  dsimp only
  rw [if_pos hdue']

theorem exec_dmPollExpire_none (hpoll : (s.blk.dmCh k.toNat).poll = none) : exec (.dmPollExpire k) s = .next s := by
  show execDmPollExpire k s = _
  rw [execDmPollExpire, State.run_eq, hpoll]

end

/-- Settles O24: each write of the control register by the state of its channel, and each answer of the host fabric by what
the channel had in flight. -/
theorem dataMover : Obligations.DataMover := by
  unfold Obligations.DataMover
  refine ⟨fun a k s hok => ?_, fun k resp d s => ?_⟩
  · intro n c runs
    exact ⟨State.dmCmd_ok hok Block.dmEnable_eq,
      fun hoff => State.dmCmd_ok hok (Block.dmDisable_off hoff),
      fun hoff hstop hhalt => State.dmCmd_ok hok (Block.dmDisable_stopping hoff hstop hhalt),
      fun hhalt => State.dmCmd_ok hok (Block.dmDisable_haltErr hhalt),
      State.dmCmd_ok hok Block.dmLoad_eq,
      State.dmCmd_ok hok Block.dmKick_eq,
      fun hnone => State.dmCmd_ok hok (Block.dmPause_noError hnone),
      fun herr => State.dmCmd_ok hok (Block.dmPause_error herr),
      State.dmCmd_ok hok Block.dmResume_eq,
      fun hne => ⟨State.dmCmd_ok hok (Block.dmRestart_ignored hne), State.dmCmd_ok hok (Block.dmDrop_ignored hne false),
        State.dmCmd_ok hok (Block.dmDrop_ignored hne true)⟩,
      fun hhalt hmove hpause => ⟨State.dmCmd_ok hok (Block.dmRestart_move hhalt hmove hpause), fun hload =>
        ⟨State.dmCmd_ok hok ((Block.dmDrop_move hhalt hmove hpause hload false).trans (mDmCh_congr (by simp))),
          State.dmCmd_ok hok ((Block.dmDrop_move hhalt hmove hpause hload true).trans (mDmCh_congr (by simp)))⟩⟩⟩
  · intro n c
    exact ⟨fun hfetch hresp hst hown => exec_dmDescFetchDone (Block.dmFetched_owned hfetch hresp hst hown),
      fun hfetch hkick hresp hst hown => exec_dmDescFetchDone (Block.dmFetched_empty hfetch hresp hst hkick hown),
      fun t hpoll hdue => exec_dmPollExpire_due hpoll hdue,
      fun hpoll => exec_dmPollExpire_none hpoll,
      fun i rest hlost hrds hnone hresp => exec_dmReadData (Block.dmReadData_kept hlost hrds hnone hresp),
      fun i rest hlost hrds hnone hst hresp => exec_dmReadData (Block.dmReadData_error hlost hrds hnone hst hresp),
      fun i rest hlost hwrs hresp => exec_dmWriteAck (Block.dmWriteAck_unit hlost hresp hwrs),
      fun rest hlost hwrs hresp hcode => exec_dmWriteAck (Block.dmWriteAck_own hlost hresp hwrs hcode),
      fun hlost => exec_dmWriteAck (Block.dmWriteAck_lost hlost),
      fun hnone => exec_dmHaltDrained (Block.dmHalt_noError hnone),
      fun i herr hstop hhalt hdrained hwr hmove hsrc hdir =>
        exec_dmHaltDrained (Block.dmHalt_read herr hstop hhalt hdrained hwr hmove hsrc hdir)⟩

end Sys2Proof.Machine
end

section
/-! SUPPORT. The stream port (R296 to R306, R365): beats and bursts from the host, bursts to it, credits, and the enables of
the channels. -/

namespace Sys2Proof.Machine

open Sys2Proof

/-! ### Updates of the port and of its channels -/

theorem mStr_self {b : Block} {f : Str → Str} (h : f b.tsu.str = b.tsu.str) : b.mStr f = b :=
  congrArg (fun x => b.mStr fun _ => x) h

@[simp] theorem mStrCh_mStrCh (b : Block) (n : Nat) (f g : StrCh → StrCh) :
    (b.mStrCh n f).mStrCh n g = b.mStrCh n fun c => g (f c) := by
  unfold Block.mStrCh Block.mStr
  simp only [smMod_smMod]

/-- An update is known by what it makes of the channel as it stands. -/
theorem mStrCh_congr {b : Block} {n : Nat} {f g : StrCh → StrCh} (h : f (b.strCh n) = g (b.strCh n)) :
    b.mStrCh n f = b.mStrCh n g :=
  congrArg (fun c => b.mStrCh n fun _ => c) h

theorem strCh_mStrCh_same (b : Block) (n : Nat) (f : StrCh → StrCh) : (b.mStrCh n f).strCh n = f (b.strCh n) := by
  rw [strCh_mStrCh, if_pos rfl]

theorem strCh_mStrCh_other (b : Block) {n k : Nat} (h : k ≠ n) (f : StrCh → StrCh) :
    (b.mStrCh n f).strCh k = b.strCh k := by
  rw [strCh_mStrCh, if_neg (Ne.symm h)]

@[simp] theorem mStrCh_out (b : Block) (n : Nat) (f : StrCh → StrCh) : (b.mStrCh n f).out = b.out := rfl

@[simp] theorem strCh_emit (b : Block) (n : Nat) (o : Out) : (b.emit o).strCh n = b.strCh n := rfl

theorem strCh_mStr_hostCr (b : Block) (n : Nat) (f : Str → Nat) :
    (b.mStr fun x => { x with hostCr := f x }).strCh n = b.strCh n := rfl

/-- `c` is `b` but for the stream port, the power control and what leaves the unit. -/
def PortOnly (b c : Block) : Prop :=
  ∃ str pwr out, c = { b with tsu := { b.tsu with str := str, pwr := pwr }, out := out }

section
variable {b c : Block}

theorem PortOnly.mStr (h : PortOnly b c) (f : Str → Str) : PortOnly b (c.mStr f) := by
  obtain ⟨_, _, _, rfl⟩ := h
  exact ⟨_, _, _, rfl⟩

theorem PortOnly.emit (h : PortOnly b c) (o : Out) : PortOnly b (c.emit o) := by
  obtain ⟨_, _, _, rfl⟩ := h
  exact ⟨_, _, _, rfl⟩

theorem PortOnly.refl (b : Block) : PortOnly b b := ⟨_, _, _, rfl⟩

theorem PortOnly.trans {d : Block} (h : PortOnly b c) (g : PortOnly c d) : PortOnly b d := by
  obtain ⟨_, _, _, rfl⟩ := h
  obtain ⟨_, _, _, rfl⟩ := g
  exact ⟨_, _, _, rfl⟩

theorem PortOnly.demand (h : PortOnly b c) : PortOnly b c.demand := by
  obtain ⟨_, _, _, rfl⟩ := h
  exact ⟨_, _, _, rfl⟩

theorem PortOnly.mStrCh (h : PortOnly b c) (n : Nat) (f : StrCh → StrCh) : PortOnly b (c.mStrCh n f) := h.mStr _

section
variable (h : PortOnly b c)
include h

theorem PortOnly.tsu : c.tsu = { b.tsu with str := c.tsu.str, pwr := c.tsu.pwr } := by
  obtain ⟨_, _, _, rfl⟩ := h
  rfl

theorem PortOnly.tsu_of_pwr (hpwr : c.tsu.pwr = b.tsu.pwr) : c.tsu = { b.tsu with str := c.tsu.str } := by
  obtain ⟨_, pwr, _, rfl⟩ := h
  obtain rfl : pwr = b.tsu.pwr := hpwr
  rfl

theorem PortOnly.dist : c.dist = b.dist := by
  obtain ⟨_, _, _, rfl⟩ := h
  rfl

/-- Operation slots await bursts, whatever the port holds. -/
theorem PortOnly.collAwaits (ch : Nat) : c.collAwaits ch = b.collAwaits ch := by
  obtain ⟨_, _, _, rfl⟩ := h
  rfl

end

end

section
variable {b : Block} {ch : Nat}

/-! ### Credits for the host (R298) -/

theorem Block.credit_pos {k : Nat} (hk : k ≠ 0) (hcr : b.tsu.str.hostCr ≠ 0) :
    b.credit k = (b.mStr fun x => { x with hostCr := x.hostCr + k }).emit (.strCredit k) := by
  unfold Block.credit
  rw [if_neg hk]
  dsimp only
  rw [if_neg hcr]

/-- While the host holds a credit no stall count stands still, and a return of credits only adds them. -/
theorem Block.credit_adds (k : Nat) (hcr : b.tsu.str.hostCr ≠ 0) :
    ∃ out, b.credit k = { b.mStr fun x => { x with hostCr := x.hostCr + k } with out := out } := by
  by_cases hk : k = 0
  · subst hk
    exact ⟨b.out, if_pos rfl⟩
  · exact ⟨_, Block.credit_pos hk hcr⟩

section
variable (k : Nat) (hcr : b.tsu.str.hostCr ≠ 0)
include hcr

theorem strCh_credit (n : Nat) : (b.credit k).strCh n = b.strCh n := by
  obtain ⟨_, h⟩ := Block.credit_adds k hcr
  rw [h]
  rfl

theorem hostCr_credit : (b.credit k).tsu.str.hostCr = b.tsu.str.hostCr + k := by
  obtain ⟨_, h⟩ := Block.credit_adds k hcr
  rw [h]
  rfl

theorem portOnly_credit : PortOnly b (b.credit k) := by
  obtain ⟨_, h⟩ := Block.credit_adds k hcr
  exact ⟨_, _, _, h⟩

end

/-! ### Bursts that no operation awaits -/

theorem Block.feed_unawaited (h : b.collAwaits ch = none) (f : Nat) : Block.feed f b ch = b := by
  cases f with
  | zero => rfl
  | succ f =>
    unfold Block.feed
    rw [h]
    cases (b.strCh ch).inq with
    | nil => rfl
    | cons x rest => exact ite_self _

theorem Block.drainOpen_unawaited (h : b.collAwaits ch = none) : b.drainOpen ch = b := by
  unfold Block.drainOpen
  rw [h]
  cases (b.strCh ch).inq with
  | nil => rfl
  | cons x rest => exact if_neg (by simp)

/-! ### The open burst (R297, R300) -/

/-- The last burst of a channel is open: the whole bursts before it, and what has come of it. -/
structure StrCh.Opened (c : StrCh) (q : List InBurst) (i : InBurst) : Prop where
  inq : c.inq = q ++ [i]
  whole : ∀ j ∈ q, j.closed = true
  opened : i.closed = false

theorem StrCh.Opened.openBurst {c : StrCh} {q : List InBurst} {i : InBurst} (h : c.Opened q i) :
    c.openBurst = some i := by
  have hq : (q.find? fun j => !j.closed) = none := List.find?_eq_none.mpr fun j hj => by simp [h.whole j hj]
  rw [StrCh.openBurst, h.inq, List.find?_append, hq]
  simp [h.opened]

theorem StrCh.Opened.mOpen {c : StrCh} {q : List InBurst} {i : InBurst} (h : c.Opened q i) (f : InBurst → InBurst) :
    c.mOpen f = { c with inq := q ++ [f i] } := by
  have hq : (q.map fun j => if j.closed then j else f j) = q :=
    (List.map_congr_left fun j hj => if_pos (h.whole j hj)).trans (List.map_id q)
  rw [StrCh.mOpen, h.inq, List.map_append, hq]
  simp [h.opened]

/-- A burst that begins on a channel without an open one. -/
theorem StrCh.opened_append {c d : StrCh} {i : InBurst} (h : c.openBurst = none) (hd : d.inq = c.inq ++ [i])
    (hi : i.closed = false) : d.Opened c.inq i :=
  ⟨hd, by simpa [StrCh.openBurst] using h, hi⟩

/-- What is left of an open burst that is truncated (R300). -/
def InBurst.cut (i : InBurst) : InBurst := { i with data := [], held := 0, closed := true, corrupt := true }

/-- The channel once its open burst is truncated. -/
def StrCh.truncated (c : StrCh) (q : List InBurst) (i : InBurst) : StrCh := { c with
  inq := q ++ [i.cut], trunc := true, truncCnt := sat1 c.truncCnt }

theorem Block.truncBurst_none (h : (b.strCh ch).openBurst = none) : b.truncBurst ch = b := by
  unfold Block.truncBurst
  rw [h]

/-- An open burst that no operation awaits is truncated, and its beats leave the buffer. -/
theorem Block.truncBurst_opened {q : List InBurst} {i : InBurst} (h : (b.strCh ch).Opened q i)
    (hcr : b.tsu.str.hostCr ≠ 0) (hwait : b.collAwaits ch = none) :
    b.truncBurst ch = (b.mStrCh ch fun c => c.truncated q i).credit i.held := by
  have hkept := ((PortOnly.refl b).mStrCh ch fun c => c.truncated q i).trans (portOnly_credit i.held hcr)
  unfold Block.truncBurst
  rw [h.openBurst]
  dsimp only
  rw [mStrCh_congr (g := fun c => c.truncated q i) (by rw [h.mOpen]; rfl)]
  exact Block.feed_unawaited ((hkept.collAwaits ch).trans hwait) 8

/-! ### Beats from the host (R191, R296, R297, R301) -/

/-- An open burst of which one beat has come. -/
def firstBeat (x : Beat) : InBurst := { data := x.data, beats := 1, held := 1 }

/-- The channel after the first beat of a burst. -/
def StrCh.withFirst (c : StrCh) (x : Beat) (now : Tick) : StrCh := { c with
  skip := false, inq := c.inq ++ [firstBeat x], lastBeat := now }

/-- The burst that a single beat makes: it is corrupt where its BCRC is wrong. -/
def singleBurst (x : Beat) : InBurst := { firstBeat x with closed := true, corrupt := crc32c x.data != x.bcrc }

/-- The channel after a burst of one beat. -/
def StrCh.withSingle (c : StrCh) (x : Beat) (now : Tick) : StrCh := { c.withFirst x now with
  inq := c.inq ++ [singleBurst x]
  crcErr := c.crcErr || crc32c x.data != x.bcrc
  crcCnt := if crc32c x.data != x.bcrc then sat1 c.crcCnt else c.crcCnt }

/-- A beat that begins a burst and ends it. -/
theorem Block.extendBurst_single {x : Beat} (hopen : (b.strCh ch).openBurst = none) (hwait : b.collAwaits ch = none)
    (heob : x.eob = true) :
    (b.mStrCh ch fun c => { c with skip := false, inq := c.inq ++ [{}] }).extendBurst ch x =
      b.mStrCh ch fun c => c.withSingle x b.tc := by
  have hnew := StrCh.opened_append (d := { b.strCh ch with skip := false, inq := (b.strCh ch).inq ++ [{}] }) hopen rfl rfl
  have hbeat := StrCh.opened_append (d := (b.strCh ch).withFirst x b.tc) (i := firstBeat x) hopen rfl rfl
  unfold Block.extendBurst
  dsimp only
  rw [mStrCh_mStrCh, mStrCh_congr (g := fun c => c.withFirst x b.tc) (by rw [hnew.mOpen]; rfl),
    Block.drainOpen_unawaited (b := b.mStrCh _ _) hwait, strCh_mStrCh_same, hbeat.openBurst]
  dsimp only
  rw [if_pos heob, mStrCh_mStrCh, Block.feed_unawaited (b := b.mStrCh _ _) hwait]
  exact mStrCh_congr (by rw [hbeat.mOpen]; rfl)

/-- The block once the port has taken a beat: the host has one credit less, and ENGINE is demanded. -/
def Block.beatTaken (b : Block) : Block :=
  (b.mStr fun x => { x with hostCr := x.hostCr - 1, zeroAt := if x.hostCr = 1 then b.tc else x.zeroAt }).demand

theorem portOnly_beatTaken (b : Block) : PortOnly b b.beatTaken := ((PortOnly.refl b).mStr _).demand

@[simp] theorem beatTaken_out (b : Block) : b.beatTaken.out = b.out := rfl

@[simp] theorem strCh_beatTaken (b : Block) (n : Nat) : b.beatTaken.strCh n = b.strCh n := rfl

section
variable {x : Beat} (hrst : b.tsu.boot.tsuRst = false) (hclk : b.tsu.str.clkOk = true)
include hrst hclk

/-- A beat of a channel that is not an enabled input channel is discarded. -/
theorem Block.strBeat_discarded (hcr : b.tsu.str.hostCr ≠ 0)
    (hst : (b.strCh x.ch.toNat).st ≠ .on ∨ (b.strCh x.ch.toNat).dir = true) :
    b.strBeat x = b.beatTaken.discBeat x.ch.toNat := by
  have hclosed : ((b.strCh x.ch.toNat).st != .on || (b.strCh x.ch.toNat).dir) = true := by simpa using hst
  unfold Block.strBeat
  rw [if_neg (by rw [hrst, hclk, beq_false_of_ne hcr]; decide)]
  exact if_pos hclosed

/-- The first beat of a burst, on an enabled input channel without an open one. -/
theorem Block.strBeat_begins (hcr : b.tsu.str.hostCr ≠ 0) (hst : (b.strCh x.ch.toNat).st = .on)
    (hdir : (b.strCh x.ch.toNat).dir = false) (hopen : (b.strCh x.ch.toNat).openBurst = none)
    (hlate : (b.strCh x.ch.toNat).late = false) (hsob : x.sob = true) :
    b.strBeat x = (b.beatTaken.mStrCh x.ch.toNat fun c => { c with skip := false, inq := c.inq ++ [{}] }).extendBurst
      x.ch.toNat x := by
  unfold Block.strBeat
  rw [if_neg (by rw [hrst, hclk, beq_false_of_ne hcr]; decide)]
  dsimp only
  rw [← Block.beatTaken, strCh_beatTaken, if_neg (by rw [hst, hdir]; decide), if_pos hsob,
    Block.truncBurst_none (b := b.beatTaken) hopen, strCh_beatTaken, if_neg (by rw [hlate]; decide)]

end

/-- A discarded beat sets DISC and gives its credit back at once (R301). -/
theorem Block.discBeat_credited (hcr : b.tsu.str.hostCr ≠ 0) :
    b.discBeat ch = ((b.mStrCh ch fun c => { c with disc := true, discBeats := sat1 c.discBeats }).mStr fun x =>
      { x with hostCr := x.hostCr + 1 }).emit (.strCredit 1) :=
  Block.credit_pos (by decide) hcr

/-! ### Bursts to the host (R298, R302, R303) -/

theorem Block.strPump_noCredit (h : b.tsu.str.credits = 0) (f : Nat) : Block.strPump f b = b := by
  cases f with
  | zero => rfl
  | succ f => exact if_pos h

theorem Block.strPump_nothing (h : b.tsu.str.outq = []) (f : Nat) : Block.strPump f b = b := by
  cases f with
  | zero => rfl
  | succ f =>
    have hnone : nextOut b.tsu.str.outq b.tsu.str.rr = none := by
      rw [h, nextOut, List.find?_eq_none.mpr (by simp)]
    unfold Block.strPump
    rw [hnone]
    exact ite_self _

/-- The rotating order after any channel comes to every channel. -/
theorem mem_rotation (rr : Nat) {c : Nat} (h : c < 64) : c ∈ (List.range 64).map fun i => (rr + 1 + i) % 64 :=
  List.mem_map.mpr ⟨(c + 63 * (rr + 1)) % 64, List.mem_range.mpr (Nat.mod_lt _ (by decide)), by omega⟩

theorem nextOut_single {o : OutBurst} (k rr : Nat) (h : o.ch < 64) : nextOut [(o, k)] rr = some o.ch := by
  unfold nextOut
  dsimp only
  split
  next c hc =>
    have hfound := List.find?_some hc
    exact congrArg some (by simpa using hfound)
  next hnone => exact absurd (List.find?_eq_none.mp hnone o.ch (mem_rotation rr h)) (by simp)

/-- Beat `k` of a burst that has more to come. -/
def OutBurst.beat (o : OutBurst) (k : Nat) : Beat :=
  ⟨BitVec.ofNat 6 o.ch, k == 0, false, slice o.data (64 * k) 64, 0⟩

theorem sendBeat_more {o : OutBurst} {k : Nat} (h : k + 1 < beatsOf o.data) (t : List (OutBurst × Nat)) :
    sendBeat o.ch ((o, k) :: t) = some (o.beat k, (o, k + 1) :: t) := by
  unfold sendBeat
  dsimp only
  rw [if_pos rfl, beq_false_of_ne (Nat.ne_of_lt h)]
  rfl

/-- A channel with a burst in progress goes on with it. -/
theorem Block.strSettle_busy (h : b.outBusy ch = true) : b.strSettle ch = b :=
  if_neg (by simp [h])

/-- The only credit lets the next beat of the only admitted burst leave. -/
theorem Block.strPump_oneBeat {o : OutBurst} {k : Nat} (hq : b.tsu.str.outq = [(o, k)]) (hcr : b.tsu.str.credits = 1)
    (hch : o.ch < 64) (hmore : k + 1 < beatsOf o.data) (f : Nat) :
    Block.strPump (f + 1) b = (b.mStr fun x => { x with outq := [(o, k + 1)], credits := 0, rr := o.ch }).emit
      (.strBeat (o.beat k)) := by
  unfold Block.strPump
  rw [if_neg (by omega), hq, nextOut_single k _ hch]
  dsimp only
  rw [sendBeat_more hmore]
  dsimp only
  rw [Block.strSettle_busy (by simp [Block.outBusy]), Block.strPump_noCredit (by simp [hcr])]
  simp [Block.mStr, hcr]

/-- A credit that finds nothing to send is kept: at most 32 are held. -/
theorem Block.creditBack_nothing (h : b.tsu.str.outq = []) :
    b.creditBack = b.mStr fun x => { x with credits := if x.credits < 32 then x.credits + 1 else 32 } :=
  Block.strPump_nothing (by exact h) 32

/-- A credit that finds none held sends the next beat of the only admitted burst. -/
theorem Block.creditBack_oneBeat {o : OutBurst} {k : Nat} (hq : b.tsu.str.outq = [(o, k)]) (hcr : b.tsu.str.credits = 0)
    (hch : o.ch < 64) (hmore : k + 1 < beatsOf o.data) :
    b.creditBack = (b.mStr fun x => { x with outq := [(o, k + 1)], credits := 0, rr := o.ch }).emit
      (.strBeat (o.beat k)) := by
  unfold Block.creditBack
  rw [Block.strPump_oneBeat (k := k) (by exact hq) (by simp [hcr]) hch hmore 31]
  rfl

/-! ### Admission (R302, R303) -/

section
variable {p : Producer} {o : OutBurst} {rest : List OutBurst} (htake : takeWait p b.tsu.str.waits = some (o, rest))
  (hopen : (b.strCh o.ch).takes = true)
include htake hopen

/-- A burst is admitted where there is room; without a credit none of its beats leaves. -/
theorem Block.admitBurst_room (hroom : b.room o = true) (hcr : b.tsu.str.credits = 0) (drop : Bool) :
    b.admitBurst p drop = b.mStr fun x => { x with waits := rest, outq := x.outq ++ [(o, 0)] } := by
  unfold Block.admitBurst
  rw [htake]
  dsimp only
  rw [if_neg (by rw [hopen]; decide), if_pos hroom]
  exact Block.strPump_noCredit (by exact hcr) 32

/-- A burst whose wait is over is dropped where there is no room. -/
theorem Block.admitBurst_drop (hroom : b.room o = false) :
    b.admitBurst p true = (b.mStr fun x => { x with waits := rest }).dropBurst o := by
  unfold Block.admitBurst
  rw [htake]
  dsimp only
  rw [if_neg (by rw [hopen]; decide), if_neg (by rw [hroom]; decide)]
  rfl

end

/-- A slot of the generator that has formed all its calls presents no burst, and no other producer forms one here. -/
theorem Block.genNext_nothing {p : Producer}
    (h : ∀ n, p = .gen n → (b.genSlot n.toNat).ncall.toNat ≤ (b.genSlot n.toNat).formed) : b.genNext p = b := by
  cases p with
  | gen n =>
    unfold Block.genNext
    dsimp only
    rw [Block.genRun_formed _ (h n rfl), ite_self]
  | _ => rfl

theorem Block.outWait_due {p : Producer} {o : OutBurst} {rest : List OutBurst}
    (htake : takeWait p b.tsu.str.waits = some (o, rest))
    (hdue : Tick.le (o.since + b.tsu.str.outWait.setWidth 64) b.tsu.time.tc64 = true) :
    b.outWait p = (b.admitBurst p true).genNext p := by
  unfold Block.outWait
  rw [htake]
  exact if_pos hdue

/-! ### Enables (R304, R406, R410) -/

theorem Str.filter_nothing {x : Str} (hq : x.outq = []) (hw : x.waits = []) (f : OutBurst × Nat → Bool)
    (g : OutBurst → Bool) : { x with outq := x.outq.filter f, waits := x.waits.filter g } = x := by
  cases x
  subst hq hw
  rfl

/-- An output port that holds no burst loses none. -/
theorem Block.strStopOut_nothing (hq : b.tsu.str.outq = []) (hw : b.tsu.str.waits = []) : b.strStopOut ch = b := by
  unfold Block.strStopOut
  rw [hq, hw]
  dsimp only [List.filter_nil, List.map_nil, List.append_nil, Block.each, List.foldl_nil]
  exact mStr_self (by exact Str.filter_nothing hq hw _ _)

theorem Block.strSettle_off (hst : (b.strCh ch).st = .stopping) (hpend : (b.strCh ch).enPend = false)
    (hq : b.tsu.str.outq = []) : b.strSettle ch = b.mStrCh ch fun c => { c with st := .off } := by
  unfold Block.strSettle
  rw [if_pos (by rw [hst, Block.outBusy, hq]; rfl)]
  exact mStrCh_congr (by simp [hpend])

theorem Block.strDisable_notOn (h : (b.strCh ch).st ≠ .on) :
    b.strDisable ch = b.mStrCh ch fun c => { c with enPend := false } := by
  unfold Block.strDisable
  exact if_pos (by simpa using h)

/-- An output channel with no burst is OFF at once. -/
theorem Block.strDisable_idleOutput (hst : (b.strCh ch).st = .on) (hdir : (b.strCh ch).dir = true)
    (hq : b.tsu.str.outq = []) (hw : b.tsu.str.waits = []) :
    b.strDisable ch = b.mStrCh ch fun c => { c with enPend := false, st := .off } := by
  unfold Block.strDisable
  dsimp only
  rw [if_neg (by rw [hst]; decide), if_pos hdir, Block.strStopOut_nothing (b := b.mStrCh _ _) hq hw, mStrCh_mStrCh,
    Block.strSettle_off (b := b.mStrCh _ _) (by rw [strCh_mStrCh_same]) (by rw [strCh_mStrCh_same]) hq, mStrCh_mStrCh]

end

/-! ### The commands -/

section
variable {s : State}

theorem exec_streamCreditReturn (s : State) :
    exec .streamCreditReturn s = .next { s with blk := s.blk.creditBack } := rfl

theorem exec_streamBeatReceive (x : Beat) (s : State) :
    exec (.streamBeatReceive x) s = .next { s with blk := s.blk.strBeat x } := rfl

theorem exec_outputBurstAdmit (p : Producer) (s : State) :
    exec (.outputBurstAdmit p) s = .next { s with blk := (s.blk.admitBurst p false).genNext p } := rfl

theorem exec_outWaitExpire (p : Producer) (s : State) :
    exec (.outWaitExpire p) s = .next { s with blk := s.blk.outWait p } := rfl

theorem exec_strClkStart (hclk : s.blk.tsu.str.clkOk = false) (hrst : s.blk.tsu.boot.tsuRst = false) :
    exec .strClkStart s = .next { s with
      blk := (s.blk.mStr fun x => { x with clkOk := true, hostCr := 32 }).emit (.strCredit 32) } := by
  show execStrClkStart s = _
  rw [execStrClkStart, State.run_eq, Block.strClk, if_neg (by rw [hclk, hrst]; decide)]

/-- The stall count of an open burst exceeds STALL_LIMIT while the host holds a credit. -/
theorem exec_burstStallTrunc {ch : BitVec 6} (hopen : (s.blk.strCh ch.toNat).openBurst.isSome = true)
    (hcr : s.blk.tsu.str.hostCr ≠ 0)
    (hstall : (s.blk.tsu.str.stall : Int) < Tick.diff s.blk.tsu.time.tc64 (s.blk.strCh ch.toNat).lastBeat) :
    exec (.burstStallTrunc ch) s = .next { s with blk := s.blk.truncBurst ch.toNat } := by
  have hdue : ((s.blk.strCh ch.toNat).openBurst.isSome && s.blk.tsu.str.hostCr != 0 &&
      decide ((s.blk.tsu.str.stall : Int) < Tick.diff s.blk.tc (s.blk.strCh ch.toNat).lastBeat)) = true := by
    simp [hopen, hcr, Block.tc, hstall]
  show execBurstStallTrunc ch s = _
  rw [execBurstStallTrunc, State.run_eq]
  dsimp only
  rw [if_pos hdue]

section
variable {a : Access} {ch : BitVec 6}
  (hok : s.blk.check (portReq a) (0xB100 + 0x20 * ch.toNat) (worldOk (portReq a) (s.blk.strCh ch.toNat).world) = .ok)
include hok

theorem exec_strChEnable :
    exec (.strChEnable a ch) s = .next { s with blk := (s.blk.strEnable ch.toNat).emit (.reg none 0 0) } :=
  State.run_regCmd_ok _ hok

theorem exec_strChDisable :
    exec (.strChDisable a ch) s = .next { s with blk := (s.blk.strDisable ch.toNat).emit (.reg none 0 0) } :=
  State.run_regCmd_ok _ hok

end

end

/-- Settles O10: beats and credits by what the port holds, bursts by what their channel and the buffer take, and the enables
by the channel's state. -/
theorem streamPort : Obligations.StreamPort := by
  unfold Obligations.StreamPort
  refine ⟨?credit, ?beatOut, fun s hclk hrst => exec_strClkStart hclk hrst, ?discarded, ?single, ?stall, ?enable,
    ?disableOff, ?disableOutput, ?room, ?expire⟩
  case credit =>
    intro s hq
    rw [exec_streamCreditReturn, Block.creditBack_nothing hq]
  case beatOut =>
    intro o k s hq hcr hch hmore
    refine ⟨_, exec_streamCreditReturn s, ?_⟩
    rw [Block.creditBack_oneBeat hq hcr hch hmore]
    have hport := ((PortOnly.refl s.blk).mStr fun x => { x with outq := [(o, k + 1)], credits := 0, rr := o.ch }).emit
      (.strBeat (o.beat k))
    exact ⟨rfl, rfl, rfl, hport.tsu_of_pwr rfl, hport.dist, rfl⟩
  case discarded =>
    intro x s hrst hclk hcr hst
    have hleft : s.blk.beatTaken.tsu.str.hostCr ≠ 0 := Nat.sub_ne_zero_of_lt hcr
    have hport := (((portOnly_beatTaken s.blk).mStrCh x.ch.toNat fun c =>
      { c with disc := true, discBeats := sat1 c.discBeats }).mStr fun x => { x with hostCr := x.hostCr + 1 }).emit
        (.strCredit 1)
    refine ⟨_, exec_streamBeatReceive x s, ?_⟩
    rw [Block.strBeat_discarded hrst hclk (by omega) hst, Block.discBeat_credited hleft]
    refine ⟨?_, Nat.sub_add_cancel (by omega), fun c hc => ?_, ?_, hport.tsu, hport.dist, rfl⟩
    · rw [strCh_emit, strCh_mStr_hostCr, strCh_mStrCh_same, strCh_beatTaken]
    · rw [strCh_emit, strCh_mStr_hostCr, strCh_mStrCh_other _ hc, strCh_beatTaken]
    · rw [Block.emit_out, Block.mStr_out, mStrCh_out, beatTaken_out]
  case single =>
    intro x s hrst hclk hcr hst hdir hopen hlate hwait hsob heob
    have hch := strCh_mStrCh_same s.blk.beatTaken x.ch.toNat fun c => c.withSingle x s.blk.beatTaken.tc
    have hport := (portOnly_beatTaken s.blk).mStrCh x.ch.toNat fun c => c.withSingle x s.blk.beatTaken.tc
    refine ⟨_, exec_streamBeatReceive x s, ?_⟩
    rw [Block.strBeat_begins hrst hclk hcr hst hdir hopen hlate hsob,
      Block.extendBurst_single (b := s.blk.beatTaken) hopen hwait heob]
    refine ⟨congrArg StrCh.inq hch, congrArg StrCh.crcCnt hch, rfl, fun c hc => ?_, hport.tsu, ?_, hport.dist, rfl⟩
    · rw [strCh_mStrCh_other _ hc, strCh_beatTaken]
    · rw [mStrCh_out, beatTaken_out]
  case stall =>
    intro ch i s hinq hclosed hcr hwait hstall
    have hopen : (s.blk.strCh ch.toNat).Opened [] i := ⟨hinq, by simp, hclosed⟩
    refine ⟨_, exec_burstStallTrunc (by rw [hopen.openBurst]; rfl) hcr hstall, ?_⟩
    rw [Block.truncBurst_opened hopen hcr hwait]
    have hport := (PortOnly.refl s.blk).mStrCh ch.toNat fun c => c.truncated [] i
    have hch := (strCh_credit (b := s.blk.mStrCh _ _) i.held hcr ch.toNat).trans
      (strCh_mStrCh_same s.blk ch.toNat fun c => c.truncated [] i)
    refine ⟨congrArg StrCh.inq hch, congrArg StrCh.trunc hch, congrArg StrCh.truncCnt hch,
      hostCr_credit (b := s.blk.mStrCh _ _) i.held hcr, fun c hc => ?_, (hport.trans (portOnly_credit i.held hcr)).dist, rfl⟩
    exact (strCh_credit (b := s.blk.mStrCh _ _) i.held hcr c).trans (strCh_mStrCh_other s.blk hc _)
  case enable =>
    intro a ch s hok
    rw [exec_strChEnable hok, Block.strEnable]
    refine congrArg (fun b => Host.Outcome.next { s with blk := Block.emit b (.reg none 0 0) }) (mStrCh_congr ?_)
    cases (s.blk.strCh ch.toNat).st with
    | off => cases s.blk.tsu.boot.inCloak <;> rfl
    | on => rfl
    | stopping => rfl
  case disableOff =>
    intro a ch s hok hst
    rw [exec_strChDisable hok, Block.strDisable_notOn hst]
  case disableOutput =>
    intro a ch s hok hst hdir hq hw
    refine ⟨_, exec_strChDisable hok, ?_⟩
    rw [Block.strDisable_idleOutput hst hdir hq hw]
    have hport := ((PortOnly.refl s.blk).mStrCh ch.toNat fun c => { c with enPend := false, st := .off }).emit
      (.reg none 0 0)
    exact ⟨congrArg StrCh.st (strCh_mStrCh_same s.blk _ _), fun c hc => strCh_mStrCh_other s.blk hc _,
      hport.tsu_of_pwr rfl, rfl, hport.dist, rfl⟩
  case room =>
    intro p o rest s htake hopen hroom hcr hformed
    rw [exec_outputBurstAdmit, Block.admitBurst_room htake hopen hroom hcr,
      Block.genNext_nothing (b := s.blk.mStr _) hformed]
  case expire =>
    intro p o rest s htake hopen hroom hdue hgen
    rw [exec_outWaitExpire, Block.outWait_due htake hdue, Block.admitBurst_drop htake hopen hroom,
      Block.genNext_nothing fun n hn => absurd hn (hgen n)]
    rfl

end Sys2Proof.Machine
end

section
/-! SUPPORT. What a Catalogue request through the network answers and changes (R310, R312, R313, R318, R325). -/

namespace Sys2Proof.Machine

open Sys2Proof

/-! ### A request that is served -/

section
variable {b c : Block} {q : CatReq} {idx sub : Nat} {op : CatOp} {a : CatAns}

/-- A request that is served is performed, and answered in the wire's encoding. -/
theorem Block.catRun_served (h : b.netServes q = true) (hdo : b.catDo q (catWho q) true idx sub op = (a, c)) :
    b.catRun q idx sub op = c.emit (.cat q.unit q.src q.tid a.status (a.payload op)) := by
  unfold Block.netServes at h
  unfold Block.catRun
  simp only [hdo]
  cases hu : q.unit with
  | dist =>
    rw [hu] at h
    exact if_pos h
  | tsu =>
    rw [hu] at h
    obtain ⟨hlive, hsrc⟩ := Bool.and_eq_true_iff.mp h
    dsimp only
    split
    · next hs =>
      rw [hs] at hsrc
      cases hsrc
    · exact if_pos hlive

/-- A request that answers a status alone. -/
theorem CatAns.payload_refused {st : Byte} (h : st ≠ 0x00) (op : CatOp) : ({ status := st } : CatAns).payload op = [] :=
  if_pos h

end

/-! ### READ and READ_BLOCK of an entry (R318) -/

section
variable {b : Block} {q : CatReq} {idx sub : Nat} {e : CatEnt} (hent : b.catFind q.unit idx sub = .ent e)
include hent

section
variable {st : Byte} (hno : catNoRead q (b.catAcc q.unit idx sub e) = some st)
include hno

theorem Block.catRead_refused (wire staged : Bool) : b.catRead q wire idx sub staged = ({ status := st }, b) := by
  simp only [Block.catRead, hent, hno]

theorem Block.catReadBlock_refused (wire : Bool) (off cnt : Nat) :
    b.catReadBlock q wire idx sub off cnt = ({ status := st }, b) := by
  simp only [Block.catReadBlock, hent, hno]

end

section
variable (hmay : catNoRead q (b.catAcc q.unit idx sub e) = none)
include hmay

theorem Block.catRead_applied (hsize : e.size ≤ 1024) : b.catRead q true idx sub false =
    ({ vtype := e.vtype, total := e.size, value := wireValue e.vtype (b.catSlice q.unit idx sub e 0 e.size).1 },
      (b.catSlice q.unit idx sub e 0 e.size).2) := by
  simp only [Block.catRead, hent, hmay]
  exact if_neg (Nat.not_lt.mpr hsize)

theorem Block.catRead_staged (hsize : e.size ≤ 1024) : b.catRead q true idx sub true =
    ({ vtype := e.vtype, total := e.size, value := wireValue e.vtype (b.catStaged q idx sub e) }, b) := by
  simp only [Block.catRead, hent, hmay]
  exact if_neg (Nat.not_lt.mpr hsize)

/-- Bytes of an entry of type BYTES go out in the order of their offsets (R309). -/
theorem Block.catReadBlock_bytes {off cnt : Nat} (hcnt : cnt ≠ 0) (hmax : cnt ≤ 1024) (hend : off + cnt ≤ e.size)
    (htype : e.vtype = 10) : b.catReadBlock q true idx sub off cnt =
      ({ total := e.size, value := (b.catSlice q.unit idx sub e off cnt).1, off := off },
        (b.catSlice q.unit idx sub e off cnt).2) := by
  have hin : (cnt == 0 || decide (1024 < cnt) || decide (e.size < off + cnt)) = false := by
    simp [hcnt, hmax, hend]
  simp only [Block.catReadBlock, hent, hmay, hin, htype]
  rfl

end

end

/-! ### WRITE and WRITE_BLOCK of an entry (R310, R312, R318) -/

section
variable {b : Block} {q : CatReq} {idx sub : Nat} {e : CatEnt} {v : Bytes}

section
variable (hent : b.catFind q.unit idx sub = .ent e)
include hent

theorem Block.catWrite_refused {st : Byte} (hno : catNoWrite q (b.catAcc q.unit idx sub e) = some st) (vt : Nat) :
    b.catWrite q idx sub vt v = b.catRefuse q idx sub st := by
  simp only [Block.catWrite, hent, hno]

section
variable (hmay : catNoWrite q (b.catAcc q.unit idx sub e) = none)
include hmay

theorem Block.catWrite_taken (hsize : e.size ≤ 1024) (hlen : v.length = e.size) :
    b.catWrite q idx sub e.vtype v = b.catTake q idx sub e v := by
  simp only [Block.catWrite, hent, hmay]
  rw [if_neg (Nat.not_lt.mpr hsize), if_neg (by simp [hlen])]

/-- A part of a value joins the buffer of the open sequence. -/
theorem Block.catWriteBlock_opened {off : Nat} {d : Bytes} (htype : e.vtype = 10) (hd : d ≠ []) (hmax : d.length ≤ 1024)
    (hend : off + d.length ≤ e.size) : b.catWriteBlock q idx sub off d false =
      (caOK, b.mCat q.unit fun c => c.setOpen q.secure (catKey idx sub) (1 :: putAt (b.catBuffer q idx sub e) off d)) := by
  have hbad : ¬(d.length = 0 ∨ 1024 < d.length ∨ e.size < off + d.length) := by
    have := mt List.length_eq_zero_iff.mp hd
    omega
  simp only [Block.catWriteBlock, hent, hmay]
  rw [if_neg (by simp [htype]), if_neg hbad, if_neg Bool.false_ne_true]

end

end

/-- A non-secure request without the right is a violation at a TSU (R310, R339). -/
theorem Block.catRefuse_denied (hu : q.unit = .tsu) (hsec : q.secure = false) : b.catRefuse q idx sub 0x05 =
    (0x05, b.violate 7 (catReqAttr q) true (BitVec.ofNat 64 (256 * idx + sub))) := by
  simp only [Block.catRefuse, Block.catViolate, hu, hsec]
  rfl

section
variable (hgood : b.catBad q.unit idx sub e v = none) (hacts : catActs q.unit idx sub = false)
include hgood hacts

theorem Block.catTake_plain (hplain : b.catIsRecord q.unit idx = false) (hepoch : idx ≠ 0x2001) :
    b.catTake q idx sub e v = (caOK, (b.catPut q.unit idx sub v).catAfter q.unit idx) := by
  simp [Block.catTake, Block.catPlain, hgood, hacts, hplain, hepoch]

theorem Block.catTake_field (hrec : b.catIsRecord q.unit idx = true) (hsub : sub ≠ catCommitSub idx)
    (hacc : idx ≠ 0x4201) : b.catTake q idx sub e v = (caOK, b.catStage q idx sub v) := by
  simp [Block.catTake, hgood, hacts, hrec, hsub, hacc]

end

end

/-! ### COMMIT (R313) -/

section
variable {b b1 : Block} {q : CatReq} {idx sub : Nat} {e : CatEnt}

theorem Block.catRowsOf_ne_nil {u : UnitRef} (hent : b.catFind u idx sub = .ent e) :
    (b.catRowsOf u idx).isEmpty = false := by
  cases h : (b.catRowsOf u idx).isEmpty with
  | false => rfl
  | true => simp [Block.catFind, h] at hent

/-- Only a record whose commit sub-index is 0xFF has one beside its fields. -/
theorem Block.catFind_commit {u : UnitRef} (h : b.catFind u idx sub = .commit) :
    b.catIsRecord u idx = true ∧ catCommitSub idx = 0xFF := by
  unfold Block.catFind at h
  dsimp only at h
  split at h
  · cases h
  · split at h
    · cases h
    · split at h
      · cases h
      · split at h
        · next hc => exact ⟨hc.1, hc.2.2⟩
        · cases h

theorem Block.catCommit_stagedOk {cmd : Nat} (hok : b.stagedOk q idx = true)
    (hrule : b.recRule q idx cmd (b.staged q idx) = (0x00, b1)) :
    b.catCommit q idx cmd = (caOK, b1.recStore q idx ((b.catOf q.unit).staged q.secure idx)) := by
  obtain ⟨hdenied, hbad⟩ := Bool.and_eq_true_iff.mp hok
  unfold Block.staged at hrule
  simp only [Block.catCommit, Option.isNone_iff_eq_none.mp hdenied, Option.isNone_iff_eq_none.mp hbad, hrule]
  rfl

theorem Block.catCommitMsg_record (hrows : (b.catRowsOf q.unit idx).isEmpty = false)
    (hcommit : b.catFind q.unit idx 0xFF = .commit) (hpriv : q.priv ≠ 0) : b.catCommitMsg q idx = b.catCommit q idx 1 := by
  obtain ⟨hrec, hsub⟩ := Block.catFind_commit hcommit
  simpa [Block.catCommitMsg, hrows, hrec, hsub, hcommit] using fun h => absurd h hpriv

end

/-! ### SUBSCRIBE at a distributor (R325) -/

section
variable {b : Block} {q : CatReq} {who : SubWho} {e : EntryId} {r : CatEnt} {m l : BitVec 16} {k : Nat}

theorem Block.catSubscribe_new (hu : q.unit = .dist)
    (hent : b.catFind q.unit e.index.toNat e.sub.toNat = .ent r)
    (hmay : catNoRead q (b.catAcc q.unit e.index.toNat e.sub.toNat r) = none) (hl : l ≠ 0) (hm : m ≠ 0)
    (hsize : r.size ≤ 1024)
    (hnew : ∀ j, j < 256 → ∀ x, smGet none (b.catOf q.unit).subs j = some x → ¬(x.who = who ∧ x.entry = e))
    (hk : k < 256) (hfree : smGet none (b.catOf q.unit).subs k = none)
    (hused : ∀ j, j < k → (smGet none (b.catOf q.unit).subs j).isSome = true) :
    b.catSubscribe q who e.index.toNat e.sub.toNat m l = ({ subn := k }, b.mCat q.unit fun c => { c with
      subs := smPut none c.subs k (some ⟨who, e, m, l, b.tcOf q.unit, b.tcOf q.unit, none, 0⟩) }) := by
  have hright : b.subRight q e.index.toNat e.sub.toNat = (caOK, r.size) := by
    simp only [Block.subRight, hent, hmay, Option.getD_none]
  have hrange : subRange q.unit who = (0, 256) := by rw [hu]; rfl
  have hid : (⟨BitVec.ofNat 16 e.index.toNat, BitVec.ofNat 8 e.sub.toNat⟩ : EntryId) = e := by simp
  have hslot : ((List.range 256).find? fun j => (smGet none (b.catOf q.unit).subs j).isNone) = some k := by
    rw [List.find?_range_eq_some]
    refine ⟨by rw [hfree]; rfl, List.mem_range.mpr hk, fun j hj => ?_⟩
    simp [Option.isNone_eq_false_iff.mpr (hused j hj)]
  unfold Block.catSubscribe
  simp only [hright, hrange, hid, Nat.add_zero, List.map_id', hslot]
  rw [if_neg (by simp), if_neg hl, if_neg hm, if_neg (Nat.not_lt.mpr hsize)]
  split
  · next j hj =>
    have hmine := List.find?_some hj
    have hlt := List.mem_range.mp (List.mem_of_find?_eq_some hj)
    split at hmine
    · next x hx => exact absurd (by simpa using hmine) (hnew j hlt x hx)
    · cases hmine
  · rfl

end

/-! ### The commands -/

section
variable {b : Block} {q : CatReq} {e : EntryId} {s : State} {a : CatAns} (h : s.blk.netServes q = true)
include h

theorem State.run_catRun {idx sub : Nat} {op : CatOp} (hdo : s.blk.catDo q (catWho q) true idx sub op = (a, b)) :
    s.run (fun b => b.catRun q idx sub op) =
      .next { s with blk := b.emit (.cat q.unit q.src q.tid a.status (a.payload op)) } :=
  State.run_of (Block.catRun_served h hdo)

theorem exec_catRead_served {staged : Bool} (hdo : s.blk.catRead q true e.index.toNat e.sub.toNat staged = (a, b)) :
    exec (.catRead q e staged) s =
      .next { s with blk := b.emit (.cat q.unit q.src q.tid a.status (a.payload (.read staged))) } :=
  State.run_catRun h (op := .read staged) hdo

theorem exec_catReadBlock_served {off : BitVec 32} {cnt : BitVec 16}
    (hdo : s.blk.catReadBlock q true e.index.toNat e.sub.toNat off.toNat cnt.toNat = (a, b)) :
    exec (.catReadBlock q e off cnt) s = .next { s with
      blk := b.emit (.cat q.unit q.src q.tid a.status (a.payload (.readBlock off.toNat cnt.toNat))) } :=
  State.run_catRun h (op := .readBlock off.toNat cnt.toNat) hdo

theorem exec_catSubscribe_served {m l : BitVec 16}
    (hdo : s.blk.catSubscribe q (catWho q) e.index.toNat e.sub.toNat m l = (a, b)) :
    exec (.catSubscribe q e m l) s =
      .next { s with blk := b.emit (.cat q.unit q.src q.tid a.status (a.payload (.subscribe m l))) } :=
  State.run_catRun h (op := .subscribe m l) hdo

/-- A WRITE, a WRITE_BLOCK and a COMMIT are answered by their status alone. -/
theorem State.run_catRun_statusOnly {idx sub : Nat} {op : CatOp} {st : Byte}
    (hdo : s.blk.catDo q (catWho q) true idx sub op = ({ status := st }, b))
    (hpay : ({ status := st } : CatAns).payload op = []) :
    s.run (fun b => b.catRun q idx sub op) = .next { s with blk := b.emit (.cat q.unit q.src q.tid st []) } :=
  (State.run_catRun h hdo).trans (by rw [hpay])

theorem exec_catWrite_served {vt : BitVec 8} {v : Bytes} {st : Byte}
    (hdo : s.blk.catWrite q e.index.toNat e.sub.toNat vt.toNat v = (st, b)) :
    exec (.catWrite q e vt v) s = .next { s with blk := b.emit (.cat q.unit q.src q.tid st []) } :=
  State.run_catRun_statusOnly h (op := .write vt.toNat v) (by rw [Block.catDo, hdo]) (ite_self _)

theorem exec_catWriteBlock_served {off : BitVec 32} {d : Bytes} {last : Bool} {st : Byte}
    (hdo : s.blk.catWriteBlock q e.index.toNat e.sub.toNat off.toNat d last = (st, b)) :
    exec (.catWriteBlock q e off d last) s = .next { s with blk := b.emit (.cat q.unit q.src q.tid st []) } :=
  State.run_catRun_statusOnly h (op := .writeBlock off.toNat d last) (by rw [Block.catDo, hdo]) (ite_self _)

theorem exec_catCommit_served {idx : BitVec 16} {st : Byte} (hdo : s.blk.catCommitMsg q idx.toNat = (st, b)) :
    exec (.catCommit q idx) s = .next { s with blk := b.emit (.cat q.unit q.src q.tid st []) } :=
  State.run_catRun_statusOnly h (op := .commit) (by rw [Block.catDo, hdo]) (ite_self _)

end

/-- Settles O16: each request by its checks in their order, which here all pass or stop at the first that fails. -/
theorem catalogueRequests : Obligations.CatalogueRequests := by
  unfold Obligations.CatalogueRequests
  intro q e r s h hent
  refine ⟨?read, ?noRead, ?readBlock, ?write, ?noWrite, ?writeBlock, ?subscribe, ?commit⟩
  case read =>
    intro hmay hsize
    exact ⟨exec_catRead_served h (Block.catRead_applied hent hmay hsize),
      exec_catRead_served h (Block.catRead_staged hent hmay hsize)⟩
  case noRead =>
    intro c hno hc off cnt st
    refine ⟨(exec_catRead_served h (Block.catRead_refused hent hno true st)).trans ?_,
      (exec_catReadBlock_served h (Block.catReadBlock_refused hent hno true off.toNat cnt.toNat)).trans ?_⟩ <;>
    rw [CatAns.payload_refused hc]
  case readBlock =>
    intro off cnt hmay hcnt hmax hend htype
    exact exec_catReadBlock_served h
      (Block.catReadBlock_bytes hent hmay (BitVec.toNat_ne_iff_ne.mpr hcnt) hmax hend htype)
  case write =>
    intro vt v hmay hsize hvt hlen hgood hacts
    have htake := Block.catWrite_taken (v := v) hent hmay hsize hlen
    rw [← hvt] at htake
    exact ⟨fun hplain hepoch => exec_catWrite_served h (htake.trans (Block.catTake_plain hgood hacts hplain hepoch)),
      fun hrec hsub hacc => exec_catWrite_served h (htake.trans (Block.catTake_field hgood hacts hrec hsub hacc))⟩
  case noWrite =>
    intro vt v hno hu hsec
    exact exec_catWrite_served h
      ((Block.catWrite_refused hent hno vt.toNat).trans (Block.catRefuse_denied hu hsec))
  case writeBlock =>
    intro off d hmay htype hd hmax hend
    exact exec_catWriteBlock_served h (Block.catWriteBlock_opened hent hmay htype hd hmax hend)
  case subscribe =>
    intro m l k hmay hl hm hsize hu hnew hk hfree hused
    exact exec_catSubscribe_served h (Block.catSubscribe_new hu hent hmay hl hm hsize hnew hk hfree hused)
  case commit =>
    intro b1 hcommit hpriv hok hrule
    exact exec_catCommit_served h ((Block.catCommitMsg_record (Block.catRowsOf_ne_nil hent) hcommit hpriv).trans
      (Block.catCommit_stagedOk hok hrule))

end Sys2Proof.Machine
end

section
/-! SUPPORT. Catalogue messages over UDP and the tree (R317, R320 to R324), subscriptions (R325), and the end of a save
(R332). -/

namespace Sys2Proof.Machine

open Sys2Proof

/-! ### Messages over UDP (R317, R321, R323, R324) -/

section
variable {b c : Block} {src : UdpSource} {m : Bytes} {a : CatAns}

theorem exec_udpMessageReceive {s : State} (hserves : s.blk.distServes = true) (hrx : s.blk.udpRx src m = b) :
    exec (.udpMessageReceive src m) s = .next { s with blk := b } :=
  State.run_of ((if_pos hserves).trans hrx)

theorem Block.udpRx_bad {st : Byte} (hbad : msgBad m = some st) : b.udpRx src m = b.emit (.udp src (msgResp m st [])) := by
  rw [Block.udpRx, hbad]
  rfl

theorem Block.seqOk_old {seq : Nat} (h : seq ≤ b.dist.cat.macLast.toNat) : b.seqOk seq = false := by
  simp [Block.seqOk, h]

section
variable (hform : msgBad m = none)
include hform

theorem Block.udpRx_plain (hauth : msgAuth m = false) : b.udpRx src m = b.udpServe src m false none := by
  rw [Block.udpRx, hform, hauth]
  rfl

theorem Block.udpRx_keyless (hauth : msgAuth m = true) (hkey : allZero b.macKey = true) : b.udpRx src m =
    (b.mCat .dist fun c => { c with authFail := sat1 c.authFail }).udpSend src (some (msgSeq m)) (msgResp m 0x0B []) := by
  rw [Block.udpRx, hform, hauth, hkey]
  rfl

/-- Past the MAC, SEQ decides (R324). -/
theorem Block.udpRx_verified (hauth : msgAuth m = true) (hkey : allZero b.macKey = false)
    (hmac : b.macOf (m.take (24 + msgLen m)) = m.drop (24 + msgLen m)) : b.udpRx src m =
      if b.seqOk (ofBE (msgSeq m)) = true then
        (b.mCat .dist fun c => { c with macLast := BitVec.ofNat 64 (ofBE (msgSeq m)) }).udpServe src m true (some (msgSeq m))
      else b.udpSend src (some (msgSeq m)) (msgResp m 0x0C []) := by
  have hn : 16 + msgLen m + 8 = 24 + msgLen m := by omega
  simp only [Block.udpRx, hform, hauth, hkey, hn, hmac]
  cases b.seqOk (ofBE (msgSeq m)) <;> simp [caREPLAY]

end

/-- A message for this distributor is served here (R320). -/
theorem Block.udpServe_here {w : Bool} {seq : Option Bytes} (hdst : msgDst m = 0x100000)
    (hdo : b.catDo ⟨.dist, .udp, w, if w then 3 else 1, msgTid m⟩ (.udp src w) true (msgIndex m) (msgSub m) (msgOp m) =
      (a, c)) : b.udpServe src m w seq = c.udpSend src seq (msgResp m a.status (a.payload (msgOp m))) := by
  simp only [Block.udpServe, hdo]
  exact if_pos (Or.inl hdst)

theorem Block.udpServe_elsewhere {w : Bool} {seq : Option Bytes} (hdst : msgDst m ≠ 0x100000)
    (hway : b.ctrlWay (msgDst m) ≠ .here) : b.udpServe src m w seq = b.catForward src m w seq :=
  if_neg (not_or.mpr ⟨hdst, hway⟩)

/-- No more than 256 forwarded messages await their response (R321). -/
theorem Block.catForward_busy {w : Bool} {seq : Option Bytes} (hfull : 256 ≤ b.dist.cat.fwds.length) :
    b.catForward src m w seq = b.udpSend src seq (msgResp m 0x0D []) :=
  if_pos hfull

end

/-! ### Forwarded messages without a response (R321) -/

section
variable {b : Block} {tag : Nat} {f : Fwd} (hf : smGet none b.dist.cat.fwds tag = some f)
include hf

theorem Block.fwdTimeout_early (hnow : Tick.diff b.dist.time.tc64 f.at_ < (b.catNat .dist 0x1031 0 : Int)) :
    b.fwdTimeout tag = b := by
  rw [Block.fwdTimeout, hf]
  exact if_pos hnow

theorem Block.fwdTimeout_due (hnow : (b.catNat .dist 0x1031 0 : Int) ≤ Tick.diff b.dist.time.tc64 f.at_) :
    b.fwdTimeout tag = (b.mCat .dist fun c => { c with fwds := smPut none c.fwds tag none }).udpSend f.src f.seq
      (msgResp f.head 0x0F []) := by
  rw [Block.fwdTimeout, hf]
  exact if_neg (Int.not_lt.mpr hnow)

end

theorem exec_fwdTimeout {b : Block} {tag : BitVec 24} {s : State} (h : s.blk.fwdTimeout tag.toNat = b) :
    exec (.fwdTimeout tag) s = .next { s with blk := b } :=
  State.run_of (f := fun b => b.fwdTimeout tag.toNat) h

/-! ### CTRL messages (R320 to R322) -/

section
variable {b c : Block} {w : Bool} {csf : BitVec 48} {m : Bytes} {a : CatAns}

theorem Block.ctrlServe_inForm {u : UnitRef} (hform : msgBad m = none)
    (hdo : b.catDo ⟨u, .tree, w, if w then 3 else 1, msgTid m⟩ (.tree csf w) true (msgIndex m) (msgSub m) (msgOp m) =
      (a, c)) : b.ctrlServe u w csf m = (msgResp m a.status (a.payload (msgOp m)), c) := by
  simp only [Block.ctrlServe, hform, hdo]

section
variable {n : Nat} (hrole : b.dRole ≠ 0) (hreq : msgBack m = false) (hway : b.ctrlWay (msgDst m) ≠ .here)
include hrole hreq hway

/-- A request for another unit goes on along its way. -/
theorem Block.ctrlDist_passes (hsend : b.ctrlSend (msgDst m) w csf m = (none, c)) : b.ctrlDist n w csf m = c := by
  simp [Block.ctrlDist, hrole, hreq, hway, hsend]

/-- What stops it is answered towards its entry distributor. -/
theorem Block.ctrlDist_stopped {st : Byte} (hsend : b.ctrlSend (msgDst m) w csf m = (some st, c)) :
    b.ctrlDist n w csf m = c.ctrlBack w csf (msgResp m st []) := by
  simp [Block.ctrlDist, hrole, hreq, hway, hsend]

end

section
variable {h : Hdr} {s : State}

theorem exec_ctrlFrameReceive_tsu {p : Plane}
    (hok : s.blk.rxOk (.tsu p) h 5 (frameFeature (.ctrl csf m)) false = true) :
    exec (.ctrlFrameReceive (.tsu p) h csf m) s = .next { s with
      blk := if msgBack m || !(s.blk.rxBook (.tsu p) h 5).ctrlMine p (msgDst m) then s.blk.rxBook (.tsu p) h 5
        else ((s.blk.rxBook (.tsu p) h 5).ctrlServe .tsu h.w csf m).2.send (.tsu p) h.w
          (.ctrl csf ((s.blk.rxBook (.tsu p) h 5).ctrlServe .tsu h.w csf m).1) } := by
  rw [show exec (.ctrlFrameReceive (.tsu p) h csf m) s = execCtrlFrameReceive (.tsu p) h csf m s from rfl,
    execCtrlFrameReceive, State.runLane_tsu, rx_ok _ _ _ _ _ _ _ hok]

theorem exec_ctrlFrameReceive_dist {n : Nat} (hn : n < 312)
    (hok : s.blk.rxOk (.dist n) h 5 (frameFeature (.ctrl csf m)) false = true)
    (hserves : (s.blk.rxBook (.dist n) h 5).distServes = true) :
    exec (.ctrlFrameReceive (.dist n) h csf m) s =
      .next { s with blk := (s.blk.rxBook (.dist n) h 5).ctrlDist n h.w csf m } :=
  (State.runLane_ok (.dist n) _ s (decide_eq_true hn)).trans (by rw [rx_ok _ _ _ _ _ _ _ hok]; simp only [hserves, if_true])

end

end

/-! ### Subscriptions (R325) -/

section
variable {b : Block} {n : Nat} {x : Sub}

/-- At a TSU every value is known. -/
theorem Block.subValue_tsu {e : EntryId} {r : CatEnt} (hent : b.catFind .tsu e.index.toNat e.sub.toNat = .ent r) :
    b.subValue .tsu e =
      (some (r.vtype, slice (b.catNow .tsu e.index.toNat e.sub.toNat r) 0 r.size), b) := by
  simp only [Block.subValue, hent]
  rfl

/-- A sample that is due: the value, and a NOTIFY where it differs from the last. -/
theorem Block.notifySample_due {vt : Nat} {v : Bytes} (hx : smGet none b.tsu.cat.subs n = some x) (hlive : b.live = true)
    (hdue : (x.minInt.toNat * 2 ^ 20 : Int) ≤ Tick.diff b.tsu.time.tc64 x.sampled)
    (hval : b.subValue .tsu x.entry = (some (vt, v), b)) : b.notifySample .tsu n =
      if x.last = some v then
        b.mCat .tsu fun c => { c with subs := smPut none c.subs n (some { x with sampled := b.tsu.time.tc64 }) }
      else (b.mCat .tsu fun c => { c with
        subs := smPut none c.subs n (some { x with sampled := b.tsu.time.tc64, last := some v, nseq := x.nseq + 1 }) }).notify
          .tsu n x vt v := by
  have hcat : smGet none (b.catOf .tsu).subs n = some x := hx
  have hnow : (!b.catRuns .tsu || decide (Tick.diff (b.tcOf .tsu) x.sampled < (x.minInt.toNat * 2 ^ 20 : Nat))) = false := by
    simp only [Block.catRuns, hlive, Bool.not_true, Bool.false_or, decide_eq_false_iff_not, Int.not_lt]
    exact_mod_cast hdue
  simp only [Block.notifySample, hcat, hnow, hval]
  rfl

section
variable {u : UnitRef} (hx : smGet none (b.catOf u).subs n = some x)
include hx

theorem Block.subExpire_early (hnow : Tick.diff (b.tcOf u) x.since < (x.lifetime.toNat * 1250000000 : Int)) :
    b.subExpire u n = b := by
  have hover : lifeOver (b.tcOf u) x.since x.lifetime = false := decide_eq_false (Int.not_le.mpr hnow)
  rw [Block.subExpire, hx]
  exact if_neg (by rw [hover, Bool.and_false]; exact Bool.false_ne_true)

theorem Block.subExpire_due (hruns : b.catRuns u = true)
    (hnow : (x.lifetime.toNat * 1250000000 : Int) ≤ Tick.diff (b.tcOf u) x.since) :
    b.subExpire u n = b.mCat u fun c => { c with subs := smPut none c.subs n none } := by
  have hover : lifeOver (b.tcOf u) x.since x.lifetime = true := decide_eq_true hnow
  rw [Block.subExpire, hx]
  exact if_pos (by rw [hruns, hover]; rfl)

end

end

section
variable {b : Block} {u : UnitRef} {n : Nat} {s : State}

theorem exec_notifySample (h : s.blk.notifySample u n = b) : exec (.notifySample u n) s = .next { s with blk := b } :=
  State.run_of (f := fun b => b.notifySample u n) h

theorem exec_subscriptionExpire (h : s.blk.subExpire u n = b) :
    exec (.subscriptionExpire u n) s = .next { s with blk := b } :=
  State.run_of (f := fun b => b.subExpire u n) h

end

/-! ### The end of a save (R332) -/

section
variable {b : Block} {d : Bytes}

theorem exec_catSaveDone {s : State} (h : s.blk.catSaveEnd = b) : exec .catSaveDone s = .next { s with blk := b } :=
  State.run_of (f := Block.catSaveEnd) h

/-- The Catalogue of the distributor once slot `n` holds a saved image. -/
def savedCat (c : CatSt) (n : Nat) (d : Bytes) : CatSt := { c with
  saving := none, inUse := n, generation := BitVec.ofNat 32 (imgGen d), imageId := imgId d
  check := BitVec.ofNat 32 (leAt d (32 + imgLen d) 4) }

theorem Block.catSaveEnd_slot1 (hd : b.dist.cat.saving = some d) (huse : b.dist.cat.inUse = 0) :
    b.catSaveEnd = (b.emit (.flash 1 d)).mCat .dist fun c => savedCat { c with flash1 := d } 1 d := by
  rw [Block.catSaveEnd, hd]
  simp only [huse]
  rfl

theorem Block.catSaveEnd_slot0 (hd : b.dist.cat.saving = some d) (huse : b.dist.cat.inUse = 1) :
    b.catSaveEnd = (b.emit (.flash 0 d)).mCat .dist fun c => savedCat { c with flash0 := d } 0 d := by
  rw [Block.catSaveEnd, hd]
  simp only [huse]
  rfl

end

/-- Settles O18: a message by the first check that it fails or by where it is served, a time-out and a sample by whether they
are due, and a save by the slot that it writes. -/
theorem catalogueNetwork : Obligations.CatalogueNetwork := by
  unfold Obligations.CatalogueNetwork
  refine ⟨?udp, ?busy, ?forwarded, ?ctrlTsu, ?ctrlDist, ?sample, ?expire, ?save⟩
  case udp =>
    intro src m s hserves
    refine ⟨fun c hbad => exec_udpMessageReceive hserves (Block.udpRx_bad hbad), fun hform hauth hdst => ?_,
      fun hform hauth hkey => exec_udpMessageReceive hserves (Block.udpRx_keyless hform hauth hkey),
      fun hform hauth hkey hmac => ⟨fun hold => ?_, fun hseq hdst => ?_⟩⟩
    · exact exec_udpMessageReceive hserves ((Block.udpRx_plain hform hauth).trans (Block.udpServe_here hdst rfl))
    · refine exec_udpMessageReceive hserves ((Block.udpRx_verified hform hauth hkey hmac).trans (if_neg ?_))
      rw [Block.seqOk_old hold]
      exact Bool.false_ne_true
    · exact exec_udpMessageReceive hserves
        ((Block.udpRx_verified hform hauth hkey hmac).trans ((if_pos hseq).trans (Block.udpServe_here hdst rfl)))
  case busy =>
    intro src m s hserves hform hauth hdst hway hfull
    exact exec_udpMessageReceive hserves
      ((Block.udpRx_plain hform hauth).trans ((Block.udpServe_elsewhere hdst hway).trans (Block.catForward_busy hfull)))
  case forwarded =>
    intro tag f s hf
    exact ⟨fun hnow => exec_fwdTimeout (Block.fwdTimeout_due hf hnow),
      fun hnow => exec_fwdTimeout (Block.fwdTimeout_early hf hnow)⟩
  case ctrlTsu =>
    intro p h csf m s hok
    refine ⟨fun hreq hmine hform => (exec_ctrlFrameReceive_tsu hok).trans ?_,
      fun hmine => (exec_ctrlFrameReceive_tsu hok).trans ?_⟩
    · rw [hreq, hmine, Block.ctrlServe_inForm hform rfl]
      rfl
    · rw [hmine, Bool.not_false, Bool.or_true]
      rfl
  case ctrlDist =>
    intro n h csf m s hn hok b hserves hrole hreq hway
    have hexec := exec_ctrlFrameReceive_dist (s := s) hn hok hserves
    refine ⟨fun b1 hsend => hexec.trans ?_, fun c hsend => hexec.trans ?_⟩
    · rw [Block.ctrlDist_passes hrole hreq hway hsend]
    · rw [Block.ctrlDist_stopped hrole hreq hway hsend]
      rfl
  case sample =>
    intro n x r s hx hlive hdue hent v
    have hsample := Block.notifySample_due hx hlive hdue (Block.subValue_tsu hent)
    refine ⟨fun hlast => exec_notifySample (hsample.trans (if_pos hlast)), fun w hlast hwho => ?_⟩
    refine exec_notifySample (hsample.trans ((if_neg hlast).trans ?_))
    rw [Block.notify, hwho]
  case expire =>
    intro u n x s hx hruns
    exact ⟨fun hnow => exec_subscriptionExpire (Block.subExpire_due hx hruns hnow),
      fun hnow => exec_subscriptionExpire (Block.subExpire_early hx hnow)⟩
  case save =>
    intro d s hd huse
    obtain h0 | h1 : s.blk.dist.cat.inUse = 0 ∨ s.blk.dist.cat.inUse = 1 := by omega
    · refine ⟨_, exec_catSaveDone (Block.catSaveEnd_slot1 hd h0), rfl, ?_, ?_, rfl, rfl, rfl, ?_, rfl⟩
      · rw [h0]; rfl
      · rw [if_pos h0]; exact ⟨rfl, rfl⟩
      · rw [h0]; rfl
    · refine ⟨_, exec_catSaveDone (Block.catSaveEnd_slot0 hd h1), rfl, ?_, ?_, rfl, rfl, rfl, ?_, rfl⟩
      · rw [h1]; rfl
      · rw [if_neg (by omega)]; exact ⟨rfl, rfl⟩
      · rw [h1]; rfl

end Sys2Proof.Machine
end

section
/-! SUPPORT. What leaves the TSU's Catalogue and the distributor alone: the operations of ENGINE, and the data mover. -/

namespace Sys2Proof.Machine

open Sys2Proof

/-- The TSU's Catalogue and the distributor. -/
def Block.catDist (b : Block) : CatSt × Dist := (b.tsu.cat, b.dist)

theorem catDist_of_lessWaits {b c : Block} (h : b.lessWaits = c.lessWaits) : b.catDist = c.catDist :=
  (congrArg Block.catDist h : b.lessWaits.catDist = c.lessWaits.catDist)

theorem Block.eq_of_catDist {b : Block} {c : CatSt} {d : Dist} (h : b.catDist = (c, d)) : b.tsu.cat = c ∧ b.dist = d :=
  Prod.mk.inj h

/-! ### Updates of one part -/

section
variable (b : Block)

@[simp] theorem catDist_mCtx (c : Nat) (f : Ctx → Ctx) : (b.mCtx c f).catDist = b.catDist := rfl
@[simp] theorem catDist_mCtxReg (c : Nat) (f : CtxReg → CtxReg) : (b.mCtxReg c f).catDist = b.catDist := rfl
@[simp] theorem catDist_mCtxRun (c : Nat) (f : CtxRun → CtxRun) : (b.mCtxRun c f).catDist = b.catDist := rfl
@[simp] theorem catDist_mEp (n : Nat) (f : Endpoint → Endpoint) : (b.mEp n f).catDist = b.catDist := rfl
@[simp] theorem catDist_mSlot (n : Nat) (f : Slot → Slot) : (b.mSlot n f).catDist = b.catDist := rfl
@[simp] theorem catDist_mBar (f : BarSt → BarSt) : (b.mBar f).catDist = b.catDist := rfl
@[simp] theorem catDist_mWslot (i : Nat) (f : WSlot → WSlot) : (b.mWslot i f).catDist = b.catDist := rfl
@[simp] theorem catDist_mHall (f : HallReq → HallReq) : (b.mHall f).catDist = b.catDist := rfl
@[simp] theorem catDist_mDmCh (n : Nat) (f : DmCh → DmCh) : (b.mDmCh n f).catDist = b.catDist := rfl
@[simp] theorem catDist_nopath : b.nopath.catDist = b.catDist := rfl

end

theorem catDist_each {α : Type} {f : Block → α → Block} (h : ∀ b a, (f b a).catDist = b.catDist) (l : List α)
    (b : Block) : (b.each l f).catDist = b.catDist :=
  each_keeps Block.catDist l f h b

/-! ### Waits and frames -/

section
variable (b : Block)

@[simp] theorem catDist_wsDone (i : Nat) (r : WRes) : (b.wsDone i r).catDist = b.catDist :=
  catDist_of_lessWaits (lessWaits_wsDone b i r)

@[simp] theorem catDist_send (p : Plane) (w : Bool) (f : FrameBody) : (b.send (.tsu p) w f).catDist = b.catDist :=
  catDist_of_lessWaits (lessWaits_send b p w f)

@[simp] theorem catDist_sendBoth (w : Bool) (f : FrameBody) : (b.sendBoth w f).catDist = b.catDist :=
  catDist_of_lessWaits (lessWaits_sendBoth b w f)

@[simp] theorem catDist_wsWithdrawCtx (c : Nat) (st : Byte) (cancel : Bool) (e : HallEnd) :
    (b.wsWithdrawCtx c st cancel e).catDist = b.catDist :=
  catDist_of_lessWaits (lessWaits_wsWithdrawCtx b c st cancel e)

@[simp] theorem catDist_releaseAwait (c : Nat) (st : Byte) : (b.releaseAwait c st).catDist = b.catDist :=
  catDist_of_lessWaits (lessWaits_releaseAwait b c st)

@[simp] theorem catDist_releasePhase (n : Nat) (ph : Bool) : (b.releasePhase n ph).catDist = b.catDist :=
  catDist_of_lessWaits (lessWaits_releasePhase b n ph)

@[simp] theorem catDist_bindPhase (n : Nat) (ph : Bool) (cs : List Nat) (c : Nat) :
    (b.bindPhase n ph cs c).catDist = b.catDist :=
  catDist_of_lessWaits (lessWaits_bindPhase b n ph cs c)

end

/-! ### Operations on tagged words -/

section
variable (b : Block)

@[simp] theorem catDist_wordFix (n : Nat) : (b.wordFix n).catDist = b.catDist := by
  unfold Block.wordFix
  dsimp only
  split <;> rfl

@[simp] theorem catDist_wordTry (q : Req) (src : BitVec 4) (n op : Nat) (d : BitVec 64) (waits : Bool) :
    (b.wordTry q src n op d waits).2.catDist = b.catDist := by
  unfold Block.wordTry
  split
  · rfl
  dsimp only
  split
  · rfl
  split
  · exact catDist_wordFix b n
  split
  · exact catDist_wordFix b n
  dsimp only
  split <;> exact catDist_wordFix b n

@[simp] theorem catDist_examine (n : Nat) : (b.examine n).catDist = b.catDist := by
  refine catDist_each (fun b x => ?_) _ b
  dsimp only
  split <;> simp

@[simp] theorem catDist_wordNow (q : Req) (src : BitVec 4) (n op : Nat) (d : BitVec 64) :
    (b.wordNow q src n op d).2.catDist = b.catDist := by
  unfold Block.wordNow
  dsimp only
  split <;> simp

@[simp] theorem catDist_wordRead (q : Req) (src : BitVec 4) (n : Nat) : (b.wordRead q src n).2.catDist = b.catDist := by
  unfold Block.wordRead
  dsimp only
  split <;> simp

end

/-! ### Contexts that close or halt -/

section
variable (b : Block)

@[simp] theorem catDist_present (p : Producer) (ch : Nat) (d : Bytes) : (b.present p ch d).catDist = b.catDist := by
  unfold Block.present
  dsimp only
  split
  · rfl
  · cases p <;> rfl

@[simp] theorem catDist_takeDebt (rs : List Nat) (snap : Bool) : (b.takeDebt rs snap).catDist = b.catDist :=
  catDist_each (fun b n => by dsimp only; split <;> rfl) rs b

@[simp] theorem catDist_endInterval (c : Nat) (restart : Bool) : (b.endInterval c restart).catDist = b.catDist := by
  unfold Block.endInterval
  split
  · rfl
  · dsimp only
    split <;> simp

@[simp] theorem catDist_halt (c : Nat) (why : CtxFlags → CtxFlags) (fenced : Bool) :
    (b.halt c why fenced).catDist = b.catDist := by
  unfold Block.halt
  dsimp only
  rw [catDist_releaseAwait, catDist_wsWithdrawCtx]
  split
  · exact (catDist_each (fun b n => catDist_mEp b n _) _ _).trans (catDist_endInterval b c false)
  · exact catDist_endInterval b c false

@[simp] theorem catDist_rplEntry (c : Nat) (step : BitVec 64) : (b.rplEntry c step).2.catDist = b.catDist := by
  unfold Block.rplEntry
  dsimp only
  split
  · rfl
  · split <;> simp

@[simp] theorem catDist_rplFail (c : Nat) : (b.rplFail c).catDist = b.catDist := catDist_halt _ c id false

/-- A replay entry where the context replays, and otherwise the tick of its register. -/
theorem catDist_launchEntry (rpl : Bool) (c : Nat) (step : BitVec 64) (t : Tick) :
    (if rpl = true then b.rplEntry c step else (some t, b)).2.catDist = b.catDist := by
  split <;> simp

@[simp] theorem catDist_closeCtx (c : Nat) (stamp : Tick) (missed void : Bool) :
    (b.closeCtx c stamp missed void).2.catDist = b.catDist := by
  unfold Block.closeCtx
  extract_lets x
  have hentry := catDist_launchEntry b x.run.rplEn c (x.reg.step + 1) x.reg.tat
  generalize (if x.run.rplEn = true then b.rplEntry c (x.reg.step + 1) else (some x.reg.tat, b)) = e at hentry ⊢
  obtain ⟨tat, b1⟩ := e
  cases tat with
  | none =>
    dsimp only
    exact (catDist_rplFail b1 c).trans hentry
  | some t =>
    dsimp only
    exact (catDist_mCtx b1 c _).trans hentry

@[simp] theorem catDist_closeAll (cs : List Nat) (stamp : Tick) (missed void : Bool) :
    (b.closeAll cs stamp missed void).2.catDist = b.catDist := by
  refine List.foldlRecOn (motive := fun acc : Option StepFields × Block => acc.2.catDist = b.catDist) cs _ rfl
    fun acc hacc c _ => ?_
  have hclose := (catDist_closeCtx acc.2 c stamp missed void).trans hacc
  dsimp only
  split <;> exact hclose

@[simp] theorem catDist_schedule (c : Nat) (t : Tick) (ok swap slip : Bool) (brim : BitVec 16) :
    (b.schedule c t ok swap slip brim).catDist = b.catDist := rfl

@[simp] theorem catDist_deliver (c : Nat) (g : StepGo) : (b.deliver c g).catDist = b.catDist := by
  unfold Block.deliver
  extract_lets l b1 x mark r b2 bVoid bRetry bOk t ovr slips bNext
  have hmark (o : BitVec 2) : (mark o b1).catDist = b.catDist := (catDist_mCtx b1 c _).trans (catDist_mCtx b c _)
  have hVoid : bVoid.catDist = b.catDist := (catDist_mCtxReg b2 c _).trans (hmark _)
  have hRetry : bRetry.catDist = b.catDist := (catDist_mCtxReg bVoid c _).trans hVoid
  have hOk : bOk.catDist = b.catDist := (catDist_mCtxReg b2 c _).trans (hmark _)
  have hNext : bNext.catDist = b.catDist := (catDist_mCtxReg bOk c _).trans hOk
  clear_value bNext bOk bRetry bVoid b2 mark x b1
  generalize (if r.attemptMax = 0 then 1 else r.attemptMax) = limit
  split
  · exact (catDist_halt _ c _ _).trans (hmark 2)
  split
  · split
    · exact (catDist_halt bVoid c _ _).trans hVoid
    split
    · exact (catDist_halt bVoid c _ _).trans hVoid
    have hentry := (catDist_launchEntry bRetry x.run.rplEn c r.step r.tat).trans hRetry
    generalize (if x.run.rplEn = true then bRetry.rplEntry c r.step else (some r.tat, bRetry)) = e at hentry ⊢
    obtain ⟨tat, b3⟩ := e
    cases tat with
    | none =>
      dsimp only
      exact (catDist_rplFail b3 c).trans hentry
    | some t =>
      dsimp only
      exact (catDist_schedule b3 c _ _ _ _ _).trans hentry
  split
  · exact (catDist_halt _ c _ _).trans ((catDist_mCtxRun bOk c _).trans hOk)
  · exact (catDist_schedule bNext c _ _ _ _ _).trans hNext

@[simp] theorem catDist_takeGo (c : Nat) (s : Bool) (g : StepGo) : (b.takeGo c s g).catDist = b.catDist := by
  unfold Block.takeGo
  dsimp only
  split <;> simp

end

/-! ### Arrivals at barriers -/

section
variable (b : Block) (n : Nat)

@[simp] theorem catDist_phaseEnd (cs : List Nat) : (b.phaseEnd n cs).catDist = b.catDist := by
  unfold Block.phaseEnd
  dsimp only
  cases cs <;> simp

@[simp] theorem catDist_goPhase (cs : List Nat) (g : StepGo) : (b.goPhase n cs g).catDist = b.catDist :=
  (catDist_each (fun b c => catDist_takeGo b c _ g) cs _).trans (catDist_phaseEnd b n cs)

@[simp] theorem catDist_sendArrive (f : Option StepFields) : (b.sendArrive n f).catDist = b.catDist :=
  catDist_sendBoth b _ _

@[simp] theorem catDist_reach (f : Nat) : (Block.reach f b n).catDist = b.catDist := by
  induction f generalizing b with
  | zero => rfl
  | succ f ih =>
    unfold Block.reach
    dsimp only
    split
    · split
      · split <;> simp [ih]
      · split
        · simp
        · split <;> simp [ih]
    · rfl

@[simp] theorem catDist_arriveAt (s : Bool) (cnt : BitVec 20) (void : Bool) (bind : Option Nat) :
    (b.arriveAt n s cnt void bind).2.catDist = b.catDist := by
  unfold Block.arriveAt
  dsimp only
  split
  · rfl
  split
  · rfl
  · cases bind <;> split <;> simp

@[simp] theorem catDist_arriveVbid (c : Nat) (cnt : BitVec 20) : (b.arriveVbid c n cnt).2.catDist = b.catDist := by
  unfold Block.arriveVbid
  split <;> simp

end

/-! ### The data mover -/

section
variable (b : Block) (n : Nat)

@[simp] theorem catDist_dmLocal (q : Req) (m w : Nat) : (b.dmLocal q m w).2.catDist = b.catDist := by
  induction m generalizing b w with
  | zero => rfl
  | succ m ih =>
    unfold Block.dmLocal
    dsimp only
    split <;> simp [ih]

@[simp] theorem catDist_hallSend (tag : BitVec 16) (ha : BitVec 64) (op : BitVec 4) (nowait : Bool) (x : Tick)
    (d : BitVec 64) (secure : Bool) : (b.hallSend tag ha op nowait x d secure).catDist = b.catDist :=
  catDist_send _ _ _ _

@[simp] theorem catDist_dmHallReq (s : DmSide) (k : Nat) (wr : Bool) (d : BitVec 64) :
    (b.dmHallReq n s k wr d).catDist = b.catDist := by
  unfold Block.dmHallReq
  split
  · rfl
  split
  · split <;> rfl
  · simp

@[simp] theorem catDist_dmRead : (b.dmRead n).catDist = b.catDist := by
  unfold Block.dmRead
  extract_lets c s k w q b1
  have h1 : b1.catDist = b.catDist := rfl
  clear_value b1
  split
  · exact h1
  · split
    · exact h1
    · next i m _ =>
      have hread := (catDist_dmLocal b1 q m i).trans h1
      dsimp only
      split <;> exact hread
  · exact (catDist_dmHallReq b1 n s k false 0).trans h1

@[simp] theorem catDist_dmPut (q : Req) (m w : Nat) (d : Bytes) : (b.dmPut q m w d).2.catDist = b.catDist := by
  induction m generalizing b w d with
  | zero => rfl
  | succ m ih =>
    unfold Block.dmPut
    dsimp only
    split <;> simp [ih]

@[simp] theorem catDist_dmWrite : (b.dmWrite n).catDist = b.catDist := by
  unfold Block.dmWrite
  extract_lets c s k w q d b1
  have h1 : b1.catDist = b.catDist := rfl
  clear_value b1
  split
  · exact h1
  · split
    · exact h1
    · next i m _ =>
      have hwrite := (catDist_dmPut b1 q m i d).trans h1
      dsimp only
      split <;> exact hwrite
  · exact (catDist_dmHallReq b1 n s k true _).trans h1

@[simp] theorem catDist_dmFinish (code err : BitVec 8) : (b.dmFinish n code err).catDist = b.catDist := by
  unfold Block.dmFinish
  dsimp only
  split <;> rfl

@[simp] theorem catDist_dmSignal : (b.dmSignal n).catDist = b.catDist := by
  unfold Block.dmSignal
  dsimp only
  split <;> split <;> simp

@[simp] theorem catDist_dmStart : (b.dmStart n).catDist = b.catDist := by
  unfold Block.dmStart
  dsimp only
  split <;> simp

@[simp] theorem catDist_dmOff : (b.dmOff n).catDist = b.catDist := rfl

/-- Whatever control action is taken. -/
theorem catDist_dmCtl {c : Block} (h : b.dmCtl n = some c) : c.catDist = b.catDist := by
  unfold Block.dmCtl at h
  extract_lets x q wants c1 at h
  split at h
  · split at h
    · cases h
      exact catDist_dmOff b n
    · cases h
  split at h
  · cases h
  split at h
  · cases h
    split
    · exact (catDist_dmFinish _ n 0 0).trans (catDist_mDmCh b n c1)
    · exact catDist_mDmCh b n _
  split at h
  · cases h
    exact catDist_dmSignal b n
  split at h
  · cases h
    exact catDist_mDmCh b n _
  split at h
  · cases h
    exact catDist_dmStart b n
  split at h
  · cases h
    exact catDist_mDmCh b n _
  split at h
  · cases h
    exact catDist_mDmCh b n _
  · cases h

theorem catDist_dmPump (f : Nat) : (Block.dmPump f b).catDist = b.catDist := by
  induction f generalizing b with
  | zero => rfl
  | succ f ih =>
    unfold Block.dmPump
    split
    · split <;> rfl
    split
    · exact (ih _).trans (catDist_dmWrite b _)
    split
    · exact (ih _).trans (catDist_dmRead b _)
    split
    · next c hc =>
      obtain ⟨n, _, hn⟩ := List.exists_of_findSome?_eq_some hc
      exact (ih c).trans (catDist_dmCtl b n hn)
    · rfl

@[simp] theorem catDist_dmGo : b.dmGo.catDist = b.catDist := by
  unfold Block.dmGo
  split
  · rfl
  · exact catDist_dmPump b 4096

@[simp] theorem catDist_dmHallDone (ha : BitVec 39) (st : Byte) (d : BitVec 64) :
    (b.dmHallDone n ha st d).catDist = b.catDist := by
  unfold Block.dmHallDone
  dsimp only
  split
  · rfl
  split
  · rfl
  split
  · rfl
  split <;> rfl

end

end Sys2Proof.Machine
end

section
/-! SUPPORT. The start of the fields and lanes that follows the load of a Catalogue (R469), and the load of an image (R329
to R332, R441). -/

namespace Sys2Proof.Machine

open Sys2Proof

/-! ### What the start at a TSU leaves alone -/

section
variable (b : Block) (p : Plane)

theorem ServoTimeOnly.catDist {b c : Block} (h : ServoTimeOnly b c) : c.catDist = b.catDist := by
  obtain ⟨servo, time, rfl⟩ := h
  rfl

@[simp] theorem catDist_mLane (f : Lane → Lane) : (b.mLane (.tsu p) f).catDist = b.catDist := by cases p <;> rfl

@[simp] theorem catDist_mReg (f : LaneReg → LaneReg) : (b.mReg (.tsu p) f).catDist = b.catDist := catDist_mLane b p _

@[simp] theorem catDist_mBoot (f : Boot → Boot) : (b.mBoot f).catDist = b.catDist := rfl

@[simp] theorem catDist_mSpine (f : Spine → Spine) : (b.mSpine f).catDist = b.catDist := rfl

@[simp] theorem catDist_mStrCh (n : Nat) (f : StrCh → StrCh) : (b.mStrCh n f).catDist = b.catDist := rfl

@[simp] theorem catDist_mDbg (f : Dbg → Dbg) : (b.mDbg f).catDist = b.catDist := rfl

@[simp] theorem catDist_tsuTopo : b.tsuTopo.catDist = b.catDist := by simp [Block.tsuTopo]

@[simp] theorem catDist_servoLoss : (b.servoLoss (.tsu p)).catDist = b.catDist :=
  (ServoTimeOnly.refl b).reselect.promise.catDist

@[simp] theorem catDist_leave (st : LaneSt) : (b.leave (.tsu p) st).catDist = b.catDist := by
  unfold Block.leave
  dsimp only
  split <;> simp

@[simp] theorem catDist_hallEndAll (st : Byte) : (b.hallEndAll p st).catDist = b.catDist := by
  unfold Block.hallEndAll
  dsimp only
  rw [catDist_dmGo, catDist_each, catDist_mHall]
  intro b g
  split <;> split <;> simp

@[simp] theorem catDist_startTrain : (b.startTrain (.tsu p)).catDist = b.catDist := by
  unfold Block.startTrain
  dsimp only
  split <;> simp

@[simp] theorem catDist_laneEnable : (b.laneEnable (.tsu p)).catDist = b.catDist := by
  unfold Block.laneEnable
  dsimp only
  split
  · simp
  split <;> simp

@[simp] theorem catDist_laneDisable : (b.laneDisable (.tsu p)).catDist = b.catDist := by
  unfold Block.laneDisable
  dsimp only
  split <;> simp [Block.laneDown]

@[simp] theorem catDist_laneStart : (b.laneStart (.tsu p)).catDist = b.catDist := by
  unfold Block.laneStart
  dsimp only
  split <;> simp

@[simp] theorem catDist_tsuStart : b.tsuStart.catDist = b.catDist := by
  unfold Block.tsuStart
  extract_lets mask b1 b2 d b3 b4 b5 b6
  have h2 : b2.catDist = b.catDist := (catDist_each (fun b n => catDist_mEp b n _) _ b1).trans (catDist_mSpine b _)
  have h3 : b3.catDist = b.catDist := (catDist_each (fun b c => catDist_mCtxReg b c _) _ b2).trans h2
  have h4 : b4.catDist = b.catDist := (catDist_each (fun b n => catDist_mDmCh b n _) _ b3).trans h3
  have h5 : b5.catDist = b.catDist := (catDist_each (fun b n => catDist_mStrCh b n _) _ b4).trans h4
  have h6 : b6.catDist = b.catDist := (catDist_mDbg b5 _).trans h5
  clear_value b6
  rw [catDist_tsuTopo, catDist_laneStart, catDist_laneStart, h6]

@[simp] theorem catDist_cdcStart : (b.cdcStart .tsu).catDist = b.catDist := by
  unfold Block.cdcStart
  dsimp only
  split <;> rfl

end

/-! ### The load of a TSU ends (R331) -/

section
variable (b : Block)

theorem Block.tsuLoaded_default (n : Nat) :
    (b.tsuLoaded (.inl n)).tsu.cat = { b.tsu.cat with lstate := 3, defaulted := true, reason := BitVec.ofNat 4 n } ∧
      (b.tsuLoaded (.inl n)).dist = b.dist :=
  Block.eq_of_catDist ((catDist_cdcStart _).trans (catDist_tsuStart _))

theorem Block.tsuLoaded_image (c : Block) :
    (b.tsuLoaded (.inr c)).tsu.cat = { c.tsu.cat with lstate := 2 } ∧ (b.tsuLoaded (.inr c)).dist = c.dist :=
  Block.eq_of_catDist ((catDist_cdcStart _).trans (catDist_tsuStart _))

/-- The image's check word and number, and no reason. -/
theorem Block.imgLoad_tsu_done {b c : Block} {d : Bytes} (h : b.imgLoad .tsu d = .inr c) :
    c.tsu.cat.check = BitVec.ofNat 32 (leAt d (32 + imgLen d) 4) ∧ c.tsu.cat.imageId = imgId d ∧ c.tsu.cat.reason = 0 := by
  unfold Block.imgLoad at h
  dsimp only at h
  split at h
  · cases h
  split at h
  · cases h
  split at h
  · cases h
  · cases h
    exact ⟨rfl, rfl, rfl⟩

end

/-! ### What the start at a distributor leaves alone -/

/-- The TSU, the distributor's Catalogue, and whether it is loaded. -/
def Block.distCat (b : Block) : Tsu × CatSt × Bool := (b.tsu, b.dist.cat, b.dist.boot.catLoaded)

theorem Block.eq_of_distCat {b : Block} {t : Tsu} {c : CatSt} {l : Bool} (h : b.distCat = (t, c, l)) :
    b.tsu = t ∧ b.dist.cat = c ∧ b.dist.boot.catLoaded = l := by
  simpa only [Block.distCat, Prod.mk.injEq] using h

section
variable (b : Block) (n : Nat)

@[simp] theorem distCat_mLane (f : Lane → Lane) : (b.mLane (.dist n) f).distCat = b.distCat := rfl
@[simp] theorem distCat_mReg (f : LaneReg → LaneReg) : (b.mReg (.dist n) f).distCat = b.distCat := rfl
@[simp] theorem distCat_octets : b.octets.distCat = b.distCat := rfl
@[simp] theorem distCat_enterHold : (b.enterHold .dist).distCat = b.distCat := rfl
@[simp] theorem distCat_runNominal : b.runNominal.distCat = b.distCat := rfl

@[simp] theorem distCat_servoLoss : (b.servoLoss (.dist n)).distCat = b.distCat := by
  unfold Block.servoLoss Block.distLoss
  dsimp only
  split
  · rfl
  split
  · rfl
  split
  · rfl
  split
  · rfl
  · simp

@[simp] theorem distCat_leave (st : LaneSt) : (b.leave (.dist n) st).distCat = b.distCat := by
  unfold Block.leave
  dsimp only
  split
  · simp
  · exact distCat_servoLoss _ n

@[simp] theorem distCat_startTrain : (b.startTrain (.dist n)).distCat = b.distCat := by
  unfold Block.startTrain
  dsimp only
  split <;> simp

@[simp] theorem distCat_laneEnable : (b.laneEnable (.dist n)).distCat = b.distCat := by
  unfold Block.laneEnable
  dsimp only
  split
  · simp
  split <;> simp

@[simp] theorem distCat_laneDisable : (b.laneDisable (.dist n)).distCat = b.distCat := by
  unfold Block.laneDisable
  dsimp only
  split <;> simp [Block.laneDown]

@[simp] theorem distCat_laneStart : (b.laneStart (.dist n)).distCat = b.distCat := by
  unfold Block.laneStart
  dsimp only
  split <;> simp

@[simp] theorem distCat_cdcStart : (b.cdcStart .dist).distCat = b.distCat := by
  unfold Block.cdcStart
  dsimp only
  split <;> rfl

/-- The load of a distributor ends: its Catalogue stays as the load left it. -/
theorem Block.distStart_keeps : b.distStart.tsu = b.tsu ∧ b.distStart.dist.cat = b.dist.cat ∧
    b.distStart.dist.boot.catLoaded = true := by
  refine Block.eq_of_distCat ?_
  unfold Block.distStart
  extract_lets b1 b2 b3
  have h3 : b3.distCat = (b.tsu, b.dist.cat, true) := each_keeps Block.distCat _ _ (fun b n => distCat_laneStart b n) b2
  clear_value b3
  rw [distCat_cdcStart, distCat_octets]
  split
  · exact (distCat_runNominal b3).trans h3
  · exact h3

end

/-! ### The load of a distributor (R332) -/

section
variable {b : Block}

/-- Empty slots hold no image. -/
theorem Block.distTry_empty : b.distTry (slotOrder [] []) 0 = .inr 2 := rfl

theorem Block.distLoad_empty (hpow : b.dist.mod.powered = true) (hfw : b.dist.boot.fwBooted = true)
    (hload : b.dist.boot.catLoaded = false) (h0 : b.dist.cat.flash0 = []) (h1 : b.dist.cat.flash1 = []) :
    b.distLoad [] = (b.mCat .dist fun c => { c with lstate := 3, defaulted := true, reason := 2 }).distStart := by
  unfold Block.distLoad
  rw [if_neg (by simp [hpow, hfw, hload])]
  simp only [List.getD_nil, Block.mCat_dist_dist, h0, h1, Block.distTry_empty]
  rfl

end

/-! ### The commands -/

section
variable {a : Access} {b : Block} {s : State}

section
variable (hok : s.blk.check (portReq a) 0xC808 true = .ok)
include hok

theorem exec_catImageLoad : exec (.catImageLoad a) s = .next { s with blk := s.blk.catLoadStart.emit (.reg none 0 0) } :=
  State.run_regCmd_ok _ hok

theorem exec_catDefault : exec (.catDefault a) s = .next { s with blk := s.blk.catDefaults.emit (.reg none 0 0) } :=
  State.run_regCmd_ok _ hok

end

section
variable {resp : BitVec 2} {img : Bytes} (hl : s.blk.tsu.cat.lstate = 1)
include hl

/-- The fetch of the image fails (R329). -/
theorem exec_catImageFetched_failed (hresp : resp ≠ 0) :
    exec (.catImageFetched resp img) s = .next { s with blk := s.blk.tsuLoaded (.inl 9) } := by
  rw [show exec (.catImageFetched resp img) s = execCatImageFetched resp img s from rfl]
  exact State.run_of ((if_neg (not_not.mpr hl)).trans (if_pos hresp))

/-- A check of the image's outer parts fails. -/
theorem exec_catImageFetched_refused (hbad : imgOuter false s.blk.tsu.boot.unitId img ≠ 0) :
    exec (.catImageFetched 0 img) s =
      .next { s with blk := s.blk.tsuLoaded (.inl (imgOuter false s.blk.tsu.boot.unitId img)) } := by
  rw [show exec (.catImageFetched 0 img) s = execCatImageFetched 0 img s from rfl]
  refine State.run_of ((if_neg (not_not.mpr hl)).trans ((if_neg (by simp)).trans ?_))
  split
  · next h => exact absurd h hbad
  · rfl

theorem exec_catImageFetched_loaded (hgood : imgOuter false s.blk.tsu.boot.unitId img = 0) :
    exec (.catImageFetched 0 img) s = .next { s with blk := s.blk.tsuLoaded (s.blk.imgLoad .tsu img) } := by
  rw [show exec (.catImageFetched 0 img) s = execCatImageFetched 0 img s from rfl]
  refine State.run_of ((if_neg (not_not.mpr hl)).trans ((if_neg (by simp)).trans ?_))
  rw [hgood]
  rfl

end

theorem exec_catLoadTimeout (hlive : s.blk.live = true) (hl : s.blk.tsu.cat.lstate = 0)
    (hdue : Tick.le 1250000000 s.blk.tsu.time.tc64 = true) :
    exec .catLoadTimeout s = .next { s with blk := s.blk.tsuLoaded (.inl 1) } := by
  rw [show exec .catLoadTimeout s = execCatLoadTimeout s from rfl]
  exact State.run_of (if_pos (Bool.and_eq_true_iff.mpr ⟨by rw [hlive, hl]; rfl, hdue⟩))

theorem exec_distCatLoadDone {slots : List Bytes} (h : s.blk.distLoad slots = b) :
    exec (.distCatLoadDone slots) s = .next { s with blk := b } :=
  State.run_of (f := fun b => b.distLoad slots) h

end

/-- Settles O6: a command by LSTATE, a fetched image by the check that it fails, and each end of the load by the start that
follows it, which leaves the Catalogue and the other unit alone. -/
theorem catalogueLoad : Obligations.CatalogueLoad := by
  unfold Obligations.CatalogueLoad
  refine ⟨?load, ?notWaiting, ?default, ?fetchFailed, ?refused, ?loaded, ?timeout, ?empty⟩
  case load =>
    intro a s hok hl
    rw [exec_catImageLoad hok, Block.catLoadStart]
    simp only [hl]
    rfl
  case notWaiting =>
    intro a s hok hl
    rw [exec_catImageLoad hok, exec_catDefault hok, Block.catLoadStart, Block.catDefaults]
    exact ⟨by rw [if_pos hl], by rw [if_pos hl]⟩
  case default =>
    intro a s hok hl
    obtain ⟨hcat, hdist⟩ := s.blk.tsuLoaded_default 10
    refine ⟨_, exec_catDefault hok, ?_⟩
    rw [Block.catDefaults, if_neg (not_not.mpr hl)]
    simp [hcat, hdist]
  case fetchFailed =>
    intro resp img s hl hresp
    obtain ⟨hcat, hdist⟩ := s.blk.tsuLoaded_default 9
    refine ⟨_, exec_catImageFetched_failed hl hresp, ?_⟩
    simp [hcat, hdist]
  case refused =>
    intro img s hl hbad
    obtain ⟨hcat, hdist⟩ := s.blk.tsuLoaded_default (imgOuter false s.blk.tsu.boot.unitId img)
    refine ⟨_, exec_catImageFetched_refused hl hbad, ?_⟩
    simp [hcat, hdist]
  case loaded =>
    intro img b s hl hgood hload
    obtain ⟨hcheck, hid, hreason⟩ := Block.imgLoad_tsu_done hload
    obtain ⟨hcat, _⟩ := s.blk.tsuLoaded_image b
    refine ⟨_, exec_catImageFetched_loaded hl hgood, ?_⟩
    simp [hload, hcat, hcheck, hid, hreason]
  case timeout =>
    intro s hlive hl hdue
    obtain ⟨hcat, hdist⟩ := s.blk.tsuLoaded_default 1
    refine ⟨_, exec_catLoadTimeout hlive hl hdue, ?_⟩
    simp [hcat, hdist]
  case empty =>
    intro s hpow hfw hload h0 h1
    refine ⟨_, exec_distCatLoadDone (Block.distLoad_empty hpow hfw hload h0 h1), ?_⟩
    simp [Block.distStart_keeps]

end Sys2Proof.Machine
end

section
/-! SUPPORT. Every command that can come leaves the queue alone (log entry 1), and what follows for runs. -/

namespace Sys2Proof.Machine

open Sys2Proof

/-! ### One command -/

/-- The outcome is a next state with the queue of `s`. -/
def KeepsQueue (o : Host.Outcome State Fault Refusal) (s : State) : Prop := ∃ b, o = .next { s with blk := b }

theorem keepsQueue_runLane {l : LaneRef} (h : l.ok = true) (f : Block → Block) (s : State) : KeepsQueue (s.runLane l f) s :=
  ⟨_, State.runLane_ok l f s h⟩

theorem keepsQueue_runCh {ch : TdcCh} (h : ch.ok = true) (f : Block → Block) (s : State) : KeepsQueue (s.runCh ch f) s := by
  cases ch with
  | dist n => exact keepsQueue_runLane (l := .dist n) h f s
  | _ => exact ⟨_, rfl⟩

/-- A command runs on the block, or on the block through a lane or TDC channel that it names, which exists where the command
is well formed. -/
theorem exec_keepsQueue (i : Instr) (s : State) (h : i.wf = true) : KeepsQueue (exec i s) s := by
  cases i
  case laneEnable | laneDisable | laneShutdownDone | retrain | laneCntClr | trainingDone | codewordLock |
      trainingTimeout | retrainBackoffExpire | helloSend | helloReceive | negTimeout | cdrLockLoss | frameCorrupt |
      linkctlSend | linkctlReceive | syncSendUp | syncFrameReceive | syncLossDetect | stepGoReceive | armReceive |
      commitReceive | abortReceive | doneReceive | takeRespReceive | kdownReceive | resultReceive | hreqReceive |
      hcancelReceive | hrespReceive | imgStartReceive | imgEndReceive | imgCommitReceive | imgRollbackReceive =>
    exact keepsQueue_runLane h _ s
  case syncSendDown | armedReceive | arriveReceive | signalReceive | takeReceive | cancelReceive | contribReceive |
      absentReceive | ssum2Receive | topoReportReceive | topoSumReceive | imgNackReceive | imgReportReceive |
      imgActedReceive | fenceReceiveDist | portListen | portEnergyDetect =>
    exact keepsQueue_runLane (l := .dist _) h _ s
  case ctrlFrameReceive | imgBlockReceive => exact keepsQueue_runLane (Bool.and_eq_true_iff.1 h).1 _ s
  case tdcCaptureDiscard | dllUnlock | dllLockRegain => exact keepsQueue_runCh h _ s
  case cdcStart a u | stepArm a u => cases u <;> exact ⟨_, rfl⟩
  all_goals exact ⟨_, rfl⟩

/-! ### Steps and runs -/

theorem step_cons {c : Instr} {q : List Instr} {s : State} (h : s.pending = c :: q) :
    step s = exec c { s with pending := q } := by
  rw [step, h]

/-- A well-formed command at the front of the queue is served, and the rest of the queue waits. -/
theorem step_serves {c : Instr} {q : List Instr} {s : State} (h : s.pending = c :: q) (hc : c.wf = true) :
    ∃ t, step s = .next t ∧ t.pending = q := by
  obtain ⟨b, hb⟩ := exec_keepsQueue c { s with pending := q } hc
  exact ⟨_, (step_cons h).trans hb, rfl⟩

/-- Settles O41: the definition of a step on a queue that is not empty. -/
theorem stepServesFront : Obligations.StepServesFront := by
  unfold Obligations.StepServesFront
  exact fun c q s => ⟨rfl, step_cons⟩

/-- Settles O44: with an empty queue a tick passes, and otherwise the command at the front is served. -/
theorem queueInvariant : Obligations.QueueInvariant := by
  unfold Obligations.QueueInvariant
  intro s hok
  cases hp : s.pending with
  | nil => exact ⟨_, step_empty hp, hok, hp⟩
  | cons c q =>
    have hwf : (c :: q).all Instr.wf = true := hp ▸ hok
    obtain ⟨hc, hq⟩ : c.wf = true ∧ q.all Instr.wf = true := by simpa using hwf
    obtain ⟨t, ht, hrest⟩ := step_serves hp hc
    exact ⟨t, ht, by rw [State.queueOk, hrest]; exact hq, hrest⟩

/-- Settles O45: the queue of the reset state is empty. -/
theorem resetQueue : Obligations.ResetQueue := ⟨rfl, rfl⟩

/-- Settles O46, by induction on the commands that wait in front: each step serves one of them. -/
theorem queueServed : Obligations.QueueServed := by
  unfold Obligations.QueueServed
  intro q r s hwf hp
  induction q generalizing s with
  | nil => exact ⟨s, rfl, hp⟩
  | cons c q ih =>
    obtain ⟨t, ht, hrest⟩ := step_serves hp (hwf c List.mem_cons_self)
    rw [List.length_cons, stepN, ht]
    exact ih t (fun x hx => hwf x (List.mem_cons_of_mem c hx)) hrest

end Sys2Proof.Machine
end

section
/-! SUPPORT. Accesses that are turned away: commands of the register port (R336, R339, R352), debug writes of the Gauntlet
block (R342), and the Gauntlet under accesses other than a monitor's (R337). -/

namespace Sys2Proof.Machine

open Sys2Proof

/-! ### Commands of the register port -/

/-- The command is the access `a` of the register port to `x`; `res` is the check against the world of what it reaches. -/
def IsPortCmd (a : Access) (x : Nat) (res : Bool) (s : State) (i : Instr) : Prop :=
  ∃ f, exec i s = .next { s with blk := s.blk.regCmd (portReq a) x res f }

section
variable {b : Block} {q : Req} {x : Nat} {res : Bool}

theorem Block.check_inReset (h : b.tsu.boot.tsuRst = true) : b.check q x res = .none := by simp [Block.check, h]

theorem Block.check_violation (h : b.tsu.boot.tsuRst = false) (hv : b.nibbleOk q x = false ∨ res = false) :
    b.check q x res = .violation := by
  rcases hv with hv | hv <;> simp [Block.check, h, hv]

theorem Block.check_power (h : b.tsu.boot.tsuRst = false) (hn : b.nibbleOk q x = true) (hr : res = true)
    (hp : b.targetOn x = false) : b.check q x res = .power := by
  simp [Block.check, h, hn, hr, hp]

theorem Block.regCmd_inReset {f : Block → Block} (h : b.tsu.boot.tsuRst = true) : b.regCmd q x res f = b := by
  rw [Block.regCmd, Block.check_inReset h]

/-- A violation while one is latched is only counted. -/
theorem Block.violate_latched {src : BitVec 4} {w : Bool} {v : BitVec 64} (h : b.tsu.gnt.vValid = true) :
    b.violate src q w v = b.mGnt fun g => { g with vCnt := sat1 g.vCnt } := by
  simp [Block.violate, Block.mGnt, h]

/-- A violation while none is latched is counted and latched. -/
theorem Block.violate_free {src : BitVec 4} {w : Bool} {v : BitVec 64} (h : b.tsu.gnt.vValid = false) :
    b.violate src q w v = b.mGnt fun g => { g with
      vCnt := sat1 g.vCnt, vValid := true, vSrc := src, vWorld := q.secure, vPriv := q.priv, vDbg := q.dbg, vWrite := w
      vGen := g.gen, vAddr := v } := by
  simp [Block.violate, Block.mGnt, h]

/-- A violation reaches the fields that describe it, and leaves one latched. -/
theorem Block.violate_tsu (src : BitVec 4) (w : Bool) (v : BitVec 64) :
    let g := (b.violate src q w v).tsu.gnt
    (b.violate src q w v).tsu = { b.tsu with gnt := { b.tsu.gnt with
      vCnt := sat1 b.tsu.gnt.vCnt, vValid := true, vSrc := g.vSrc, vWorld := g.vWorld, vPriv := g.vPriv, vDbg := g.vDbg
      vWrite := g.vWrite, vGen := g.vGen, vAddr := g.vAddr } } := by
  cases h : b.tsu.gnt.vValid with
  | true =>
    rw [Block.violate_latched h, ← h]
    rfl
  | false =>
    rw [Block.violate_free h]
    rfl

theorem Block.violate_vCnt (src : BitVec 4) (w : Bool) (v : BitVec 64) :
    (b.violate src q w v).tsu.gnt.vCnt = sat1 b.tsu.gnt.vCnt := by
  cases h : b.tsu.gnt.vValid with
  | true => rw [Block.violate_latched h]; rfl
  | false => rw [Block.violate_free h]; rfl

end

/-- Settles O55: each listed command is a command of the register port by its definition, and `Block.regCmd` answers where the
check fails. -/
theorem portTurnedAway : Obligations.PortTurnedAway := by
  unfold Obligations.PortTurnedAway
  intro a ch n m c k f d e p rg hi i x res s b q mine all page slot owned channel mover hi
  have hall : ∀ y ∈ all, IsPortCmd a y.2 true s y.1 := by
    refine List.forall_iff_forall_mem.1 ?_
    and_intros <;> exact ⟨_, rfl⟩
  have howned : ∀ y ∈ owned, IsPortCmd a y.2 mine s y.1 := by
    refine List.forall_iff_forall_mem.1 ?_
    and_intros <;> exact ⟨_, rfl⟩
  have hchannel : ∀ y ∈ channel, IsPortCmd a y.2.1 (worldOk q y.2.2) s y.1 := by
    refine List.forall_iff_forall_mem.1 ?_
    and_intros <;> exact ⟨_, rfl⟩
  have hmover : ∀ y ∈ mover, IsPortCmd a (dmReg n 0x08) (worldOk q (b.ctxWorld (b.dmCh n.toNat).ctx.toNat)) s y := by
    refine List.forall_iff_forall_mem.1 ?_
    and_intros <;> exact ⟨_, rfl⟩
  obtain ⟨f, hexec⟩ : IsPortCmd a x res s i := by
    rcases hi with ⟨hmem, rfl⟩ | ⟨hmem, rfl⟩ | ⟨w, hmem, rfl⟩ | ⟨hmem, rfl, rfl⟩
    · exact hall (i, x) hmem
    · exact howned (i, x) hmem
    · exact hchannel (i, x, w) hmem
    · exact hmover i hmem
  refine ⟨fun hrst => ?reset, fun hrst hv => ?violation, fun hrst hn hr hp => ?power, Block.violate_vCnt 0 true _,
    Block.violate_latched, Block.violate_free⟩
  case reset => rw [hexec, Block.regCmd_inReset hrst]
  case violation =>
    rw [hexec, Block.regCmd_violation (Block.check_violation hrst hv)]
    rfl
  case power =>
    rw [hexec, Block.regCmd_power (Block.check_power hrst hn hr hp)]
    rfl

/-! ### Debug writes of the Gauntlet block -/

section
variable {b : Block} {secure : Bool} {x : Nat}

theorem Block.dbgResolve_gauntlet_refused (hlo : 0xD000 ≤ x) (hhi : x < 0xE000) (hl : b.tsu.dbg.level ≠ 1) :
    b.dbgResolve secure true x = .refused := by
  have hu : isUnlockReg x = false := by simp [isUnlockReg]; omega
  have h1 : ¬b.tsu.dbg.level = 1#2 := hl
  simp [Block.dbgResolve, hu, h1, hlo, hhi]

theorem Block.dbgResolve_gauntlet_violation (hlo : 0xD000 ≤ x) (hhi : x < 0xE000) (hl : b.tsu.dbg.level = 1) :
    b.dbgResolve secure true x = .violation := by
  have hu : isUnlockReg x = false := by simp [isUnlockReg]; omega
  simp [Block.dbgResolve, hu, hl, hlo, hhi]

end

theorem isFreeze_below {c : Nat} (h : c < 0xE000) : isFreeze c = false := by
  simp [isFreeze]
  omega

/-- Settles O56: in the Gauntlet block the level alone decides on a debug write. -/
theorem debugLeavesGauntlet : Obligations.DebugLeavesGauntlet := by
  unfold Obligations.DebugLeavesGauntlet
  intro r s b x hrst hw hlo hhi
  have hf : r.write = true → isFreeze (r.addr.toNat / 8 * 8) = false := fun _ =>
    isFreeze_below (lt_of_le_of_lt (Nat.div_mul_le_self _ _) hhi)
  refine ⟨fun hl => ?refused, fun hl => ?violation⟩
  case refused =>
    rw [exec_debugAccess, Block.debugAccess_refused hrst hf (hw ▸ Block.dbgResolve_gauntlet_refused hlo hhi hl)]
    rfl
  case violation =>
    have hexec : exec (.debugAccess r) s = .next { s with blk := s.blk.dbgViolate ⟨r.secure, 2, true⟩ r } := by
      rw [exec_debugAccess, Block.debugAccess_violation hrst hf (hw ▸ Block.dbgResolve_gauntlet_violation hlo hhi hl)]
    rw [Block.dbgViolate, hw] at hexec
    refine ⟨_, hexec, rfl, rfl, Block.violate_tsu 8 true _, fun hv => ?_, rfl⟩
    rw [Block.emit_tsu, Block.violate_free hv]
    rfl

/-! ### The Gauntlet under accesses other than a monitor's (R337) -/

/-- The Gauntlet's fields, the worlds of contexts and channels, tagged memory and the distributor are as they were. -/
def GauntletKept (b c : Block) : Prop :=
  let g := b.tsu.gnt
  let h := c.tsu.gnt
  h.blk = g.blk ∧ h.tmw = g.tmw ∧ h.crsel = g.crsel ∧ h.raise = g.raise ∧ h.gen = g.gen ∧ h.violIrq = g.violIrq ∧
    (∀ n, (c.ctx n).world = (b.ctx n).world) ∧ (∀ n, (c.strCh n).world = (b.strCh n).world) ∧
    c.tsu.tm = b.tsu.tm ∧ c.dist = b.dist

section
variable {b c : Block} {q : Req}

theorem GauntletKept.refl (b : Block) : GauntletKept b b := by simp [GauntletKept]

theorem GauntletKept.emit (h : GauntletKept b c) (o : Out) : GauntletKept b (c.emit o) := h

theorem gauntletKept_violate (src : BitVec 4) (w : Bool) (v : BitVec 64) : GauntletKept b (b.violate src q w v) := by
  cases h : b.tsu.gnt.vValid with
  | true => rw [Block.violate_latched h]; exact GauntletKept.refl b
  | false => rw [Block.violate_free h]; exact GauntletKept.refl b

theorem gauntletKept_powerErr : GauntletKept b (b.powerErr q) := by
  rw [Block.powerErr]
  split <;> exact GauntletKept.refl b

/-- A command of the register port keeps the Gauntlet if what it does where it passes does. -/
theorem gauntletKept_regCmd {x : Nat} {res : Bool} {f : Block → Block} (h : b.check q x res = .ok → GauntletKept b (f b)) :
    GauntletKept b (b.regCmd q x res f) := by
  cases hc : b.check q x res with
  | none => rw [Block.regCmd, hc]; exact GauntletKept.refl b
  | violation => rw [Block.regCmd_violation hc]; exact (gauntletKept_violate _ _ _).emit _
  | power => rw [Block.regCmd_power hc]; exact gauntletKept_powerErr.emit _
  | ok => rw [Block.regCmd_ok hc]; exact (h hc).emit _

/-- Only a monitor passes the check of the Gauntlet block, whose nibble is fixed at 7. -/
theorem Block.check_gauntlet {x : Nat} {res : Bool} (hq : q.monitor = false) (hlo : 0xD000 ≤ x) (hhi : x < 0xE000) :
    b.check q x res ≠ .ok := by
  have hx : x / 0x1000 = 13 := by omega
  have hn : b.nibbleOk q x = false := by
    have h3 : q.secure = true → q.priv.toNat < 3 := fun hs => by
      have hne : q.priv ≠ 3#2 := fun hp => by simp [Req.monitor, hs, hp] at hq
      bv_omega
    simpa [Block.nibbleOk, Gnt.nibble, hx, show x < 0x10000 by omega] using h3
  rw [Block.check, hn]
  split <;> simp

theorem gauntletKept_ctxWorldWrite (hq : q.monitor = false) (d : BitVec 64) : GauntletKept b (b.ctxWorldWrite q d) := by
  unfold Block.ctxWorldWrite
  rw [hq]
  dsimp only
  split
  · exact GauntletKept.refl b
  · exact gauntletKept_violate _ _ _

theorem gauntletKept_strWorldWrite (hq : q.monitor = false) (ch : Nat) (w : Bool) :
    GauntletKept b (b.strWorldWrite q ch w) := by
  unfold Block.strWorldWrite
  rw [hq]
  dsimp only
  split
  · exact GauntletKept.refl b
  · exact gauntletKept_violate _ _ _

/-- A write of the cell of TSU_CTX_WORLD, which holds no RW-S bit, is a write of the contexts' worlds. -/
theorem Block.regWrite_ctxWorld (b : Block) (q : Req) {x : Nat} (hx : x / 8 * 8 = 0x5018) (d m : BitVec 64) :
    ∃ v, b.regWrite q x d m = b.ctxWorldWrite q v := by
  have hv : (writeS q (rwsBits 0x5018) (b.regRead q 0x5018) d m).2 = false := by
    rw [writeS]
    split
    · rfl
    · simp [rwsBits]
  simp only [Block.regWrite, hx, hv, Block.when_false]
  exact ⟨_, rfl⟩

theorem gauntletKept_portWrite {a : Access} {size64 : Bool} {x : Nat} {d : BitVec 64} (hq : (portReq a).monitor = false)
    (hx : 0xD000 ≤ x ∧ x < 0xE000 ∨ x / 8 * 8 = 0x5018) : GauntletKept b (b.portWrite a size64 x d) := by
  have hlow : x < 0xE000 := by omega
  cases hrst : b.tsu.boot.tsuRst with
  | true => rw [Block.portWrite_inReset hrst]; exact GauntletKept.refl b
  | false =>
    cases hr : regAssigned x with
    | false => rw [Block.portWrite_unassigned hrst hr]; exact (GauntletKept.refl b).emit _
    | true =>
      rw [Block.portWrite_register hrst hr (by omega) (isFreeze_below (by omega))]
      refine gauntletKept_regCmd fun hok => ?_
      rcases hx with ⟨hlo, hhi⟩ | hcell
      · exact absurd hok (Block.check_gauntlet hq hlo hhi)
      · obtain ⟨v, hv⟩ := b.regWrite_ctxWorld (portReq a) hcell (accData size64 x d) (accMask size64 x)
        rw [hv]
        exact gauntletKept_ctxWorldWrite hq v

/-- What a GAUNTLET_WRITE does. -/
def Block.gntWrite (b : Block) (q : Req) : GntWrite → Block
  | .blk d => b.regCmd q 0xD000 true fun b => b.blkWrite d
  | .tmw d => b.regCmd q 0xD008 true fun b => b.tmwWrite d
  | .crdata d => b.regCmd q 0xD018 true fun b => b.crWrite d
  | .vctrl d => b.regCmd q 0xD028 true fun b => b.mGnt fun g =>
      { g with violIrq := d.getLsbD 0, vCnt := if d.getLsbD 1 then 0 else g.vCnt }
  | .ctxWorld d => b.regCmd q 0x5018 true fun b => b.ctxWorldWrite q d
  | .strWorld ch secure => b.regCmd q (strReg ch) (worldOk q (b.strCh ch.toNat).world) fun b =>
      b.strWorldWrite q ch.toNat secure

theorem exec_gauntletWrite (a : Access) (w : GntWrite) (s : State) :
    exec (.gauntletWrite a w) s = .next { s with blk := s.blk.gntWrite (portReq a) w } := by
  cases w <;> rfl

theorem gauntletKept_gntWrite (hq : q.monitor = false) (w : GntWrite) : GauntletKept b (b.gntWrite q w) := by
  cases w with
  | ctxWorld d => exact gauntletKept_regCmd fun _ => gauntletKept_ctxWorldWrite hq d
  | strWorld ch w => exact gauntletKept_regCmd fun _ => gauntletKept_strWorldWrite hq ch.toNat w
  | _ => exact gauntletKept_regCmd fun hok => absurd hok (Block.check_gauntlet hq (by decide) (by decide))

end

/-- Settles O59: the Gauntlet block lets no such access pass, and its writes of worlds are violations where they would change
one. -/
theorem gauntletGuard : Obligations.GauntletGuard := by
  unfold Obligations.GauntletGuard
  intro kept
  have hkept {s : State} {c : Block} (h : GauntletKept s.blk c) : kept s { s with blk := c } := by
    obtain ⟨hblk, htmw, hcrsel, hraise, hgen, hirq, hctx, hstr, htm, hdist⟩ := h
    exact ⟨hblk, htmw, hcrsel, hraise, hgen, hirq, hctx, hstr, htm, hdist, rfl⟩
  refine ⟨fun a w s hq => ?command, fun a size64 addr d s hq hx => ?register⟩
  case command => exact ⟨_, exec_gauntletWrite a w s, hkept (gauntletKept_gntWrite hq w)⟩
  case register => exact ⟨_, exec_registerWrite a size64 addr d s, hkept (gauntletKept_portWrite hq hx)⟩

end Sys2Proof.Machine
end

section
/-! SUPPORT. The step freeze (R343), the debug level and its unlock (R340, R341), and the writes of the Gauntlet that pass
their checks (R337, R338, R355). -/

namespace Sys2Proof.Machine

open Sys2Proof

section
variable {b : Block} {a : Access}

/-! ### The step freeze (R343) -/

section
variable {tag : Byte} {x : Nat} {world : Bool} {f : Bool → Block → Block}

theorem Block.frzCmd_monitor (hq : (portReq a).monitor = true) (hok : b.check (portReq a) x true = .ok) :
    b.frzCmd (.port a) tag x world f = (f false b).emit (.reg none 0 0) := by
  rw [Block.frzCmd, Block.regCmd_ok hok, hq]
  rfl

theorem Block.frzCmd_refused (hq : (portReq a).monitor = false) (hok : b.check (portReq a) x true = .ok) :
    b.frzCmd (.port a) tag x world f = (b.mDbg fun d => { d with frzRef := true }).emit (.reg none 0 0) := by
  rw [Block.frzCmd, Block.regCmd_ok hok, hq]
  rfl

theorem Block.frzCmd_off {secure : Bool} (hrst : b.tsu.boot.tsuRst = false) (hl : b.tsu.dbg.level = 0) :
    b.frzCmd (.debug secure) tag x world f = (b.mDbg fun d => { d with dbgRef := true }).emit (.dbg tag 0 0) := by
  rw [Block.frzCmd, hrst, hl]
  rfl

end

/-- What FREEZE_ARM and FREEZE_RELEASE do at the port that makes them. -/
def Block.frzArm (b : Block) (a : AnyAccess) : FrzWrite → Block
  | .sel c => b.frzCmd a 0 0xE140 false fun _ b => b.mDbg fun d => { d with frzSel := c }
  | .at step => b.frzCmd a 0 0xE148 true fun _ b => b.mCtxRun b.tsu.dbg.frzSel.toNat fun r => { r with frzAt := step }
  | .arm on => b.frzCmd a 0 0xE150 true fun dbg b =>
      b.mCtxRun b.tsu.dbg.frzSel.toNat fun r => { r with frzArm := on, frzDbg := on && dbg }

theorem exec_freezeArm (a : AnyAccess) (w : FrzWrite) (s : State) :
    exec (.freezeArm a w) s = .next { s with blk := s.blk.frzArm a w } := by
  cases w <;> rfl

theorem exec_freezeRelease (a : AnyAccess) (s : State) :
    exec (.freezeRelease a) s = .next { s with
      blk := s.blk.frzCmd a 0 0xE150 true fun _ b => b.frzRelease b.tsu.dbg.frzSel.toNat } := rfl

theorem Block.frzArm_refused (hq : (portReq a).monitor = false) (hctrl : b.check (portReq a) 0xE150 true = .ok)
    (hsel : b.check (portReq a) 0xE140 true = .ok) (hat : b.check (portReq a) 0xE148 true = .ok) (w : FrzWrite) :
    b.frzArm (.port a) w = (b.mDbg fun d => { d with frzRef := true }).emit (.reg none 0 0) := by
  match w with
  | .sel c => rw [Block.frzArm, Block.frzCmd_refused hq hsel]
  | .at step => rw [Block.frzArm, Block.frzCmd_refused hq hat]
  | .arm on => rw [Block.frzArm, Block.frzCmd_refused hq hctrl]

/-- No freeze is released where no debug access armed one. -/
theorem Block.frzLower_none (h : (b.ctxsWhere fun x => x.run.frzDbg) = []) : b.frzLower = b := by
  have hnone : (b.ctxsWhere fun x => x.run.frzDbg &&
      (b.tsu.dbg.level == 0 || (b.tsu.dbg.level == 1 && x.world))) = [] := by
    rw [Block.ctxsWhere, List.filter_eq_nil_iff] at h ⊢
    intro c hc hp
    exact h c hc (Bool.and_eq_true_iff.1 hp).1
  rw [Block.frzLower, hnone]
  rfl

/-! ### Level and unlock (R340, R341) -/

section
variable {l : BitVec 2}

theorem Block.anyCmd_port {x : Nat} {f : Req → Block → Block} (hok : b.check (portReq a) x true = .ok) :
    b.anyCmd (.port a) x f = (f (portReq a) b).emit (.reg none 0 0) :=
  Block.regCmd_ok hok

theorem exec_dbgSet {s : State} (hok : s.blk.check (portReq a) 0xE100 true = .ok) :
    exec (.dbgSet (.port a) l) s = .next { s with blk := (s.blk.dbgSet (portReq a) l).emit (.reg none 0 0) } :=
  State.run_of (f := fun b => b.anyCmd (.port a) 0xE100 fun q b => b.dbgSet q l) (Block.anyCmd_port hok)

theorem exec_dbgUnlock {s : State} (hok : s.blk.check (portReq a) 0xE100 true = .ok) :
    exec (.dbgUnlock (.port a) l) s = .next { s with blk := (s.blk.dbgUnlock l).emit (.reg none 0 0) } :=
  State.run_of (f := fun b => b.anyCmd (.port a) 0xE100 fun _ b => b.dbgUnlock l) (Block.anyCmd_port hok)

theorem Block.dbgSet_raise (h0 : b.tsu.dbg.level = 0) (hq : (portReq a).monitor = true) :
    b.dbgSet (portReq a) 1 = b.mDbg fun d => { d with reqLevel := 1, level := 1 } := by
  have hdbg : (portReq a).dbg = false := rfl
  simp [Block.dbgSet, Block.mDbg, h0, hq, hdbg]

theorem Block.dbgSet_refused (hlt : b.tsu.dbg.level.toNat < l.toNat) (h : l ≠ 1 ∨ (portReq a).monitor = false) :
    b.dbgSet (portReq a) l = b.mDbg fun d => { d with reqLevel := l, dbgRef := true } := by
  have hne : ¬l = b.tsu.dbg.level := fun he => by simp [he] at hlt
  have hge : ¬l.toNat < b.tsu.dbg.level.toNat := by omega
  have hno : ¬(l = 1#2 ∧ (portReq a).monitor = true) := by rintro ⟨h1, hm⟩; simp [h1, hm] at h
  simp [Block.dbgSet, Block.mDbg, Block.dbgRefused, hne, hge, hno]

theorem Block.dbgSet_lower (hlt : l.toNat < b.tsu.dbg.level.toNat) (hnone : (b.ctxsWhere fun x => x.run.frzDbg) = []) :
    b.dbgSet (portReq a) l = b.mDbg fun d => { d with reqLevel := l, level := l } := by
  have hne : ¬l = b.tsu.dbg.level := fun he => by simp [he] at hlt
  simp only [Block.dbgSet, Block.mDbg, hne, hlt, if_false, if_true]
  exact Block.frzLower_none hnone

theorem Block.dbgUnlock_locked (h : b.tsu.dbg.lockout = true) : b.dbgUnlock l = b.mDbg fun d => { d with reqLevel := l } :=
  if_pos h

theorem Block.dbgUnlock_opens (h : b.tsu.dbg.lockout = false) (h3 : l ≠ 3#2)
    (hfull : l = 2#2 → allZero b.tsu.dbg.dkey = false ∧ b.tsu.dbg.fullDis = false)
    (hresp : toLE 16 b.tsu.dbg.resp.toNat = b.dbgMac l) (hnone : (b.ctxsWhere fun x => x.run.frzDbg) = []) :
    b.dbgUnlock l = b.draw.2.mDbg fun d => { d with reqLevel := l, level := l, failCnt := 0, chal := b.draw.1 } := by
  have hok : (l != 3 && !(l == 2 && (allZero b.tsu.dbg.dkey || b.tsu.dbg.fullDis)) &&
      toLE 16 b.tsu.dbg.resp.toNat == b.dbgMac l) = true := by
    by_cases h2 : l = 2#2
    · obtain ⟨hkey, hdis⟩ := hfull h2
      simp [h3, hresp, hkey, hdis]
    · simp [h3, hresp, h2]
  rw [Block.dbgUnlock]
  refine (if_neg (by simp [Block.mDbg, h])).trans ((if_pos hok).trans ?_)
  exact Block.frzLower_none hnone

theorem Block.dbgUnlock_fails (h : b.tsu.dbg.lockout = false) (hresp : toLE 16 b.tsu.dbg.resp.toNat ≠ b.dbgMac l) :
    b.dbgUnlock l = b.draw.2.mDbg fun d => { d with
      reqLevel := l, failCnt := sat1 d.failCnt, lockout := decide (2 ≤ d.failCnt.toNat), chal := b.draw.1 } := by
  have hbad : ¬(l != 3 && !(l == 2 && (allZero b.tsu.dbg.dkey || b.tsu.dbg.fullDis)) &&
      toLE 16 b.tsu.dbg.resp.toNat == b.dbgMac l) = true := by simp [hresp]
  rw [Block.dbgUnlock]
  exact (if_neg (by simp [Block.mDbg, h])).trans (if_neg hbad)

end

/-! ### Writes of the Gauntlet that pass (R337, R338, R355) -/

theorem Block.each_nil {α : Type} (f : Block → α → Block) : b.each [] f = b := rfl

theorem Block.filterHeld_nil (h : b.tsu.held = []) (p : EngOp → Bool) :
    (b.mTsu fun t => { t with held := t.held.filter p }) = b :=
  congrArg (fun l => b.mTsu fun t => { t with held := l }) (show b.tsu.held.filter p = b.tsu.held by rw [h]; rfl)

/-- A new TMW forbids nothing where no operation waits and none is held. -/
theorem Block.tmwApply_idle (hops : ∀ e ∈ b.tsu.ws, e.2.op = none) (hheld : b.tsu.held = []) : b.tmwApply = b := by
  simp only [Block.tmwApply, Block.filterHeld_nil hheld, hheld, List.filter_nil, Block.each_nil, wsWhere_nil b hops,
    List.map_nil]

theorem Block.tmwWrite_idle (hops : ∀ e ∈ b.tsu.ws, e.2.op = none) (hheld : b.tsu.held = []) (d : BitVec 64) :
    b.tmwWrite d = if b.tsu.gnt.tmw = d then b else
      (b.mGnt fun g => { g with tmw := d }).mGnt fun g => { g with gen := g.gen + 1 } := by
  rw [Block.tmwWrite, Block.setTmw, Block.tmwApply_idle (b := b.mGnt _) hops hheld]
  rfl

/-- The contexts whose world a write of TSU_CTX_WORLD would change. -/
def Block.worldDiff (b : Block) (d : BitVec 64) : List Nat :=
  (List.range 64).filter fun c => (b.ctx c).st == .off && !(b.ctx c).enPend && (b.ctx c).world != d.getLsbD c

theorem Block.ctxWorldWrite_refused {q : Req} {d : BitVec 64} (hq : q.monitor = false)
    (hdiff : ((List.range 64).any fun c => (b.ctx c).st == .off && !(b.ctx c).enPend &&
      (b.ctx c).world != d.getLsbD c) = true) :
    b.ctxWorldWrite q d = b.violate q.src q true 0x5018 := by
  have hne : ¬(b.worldDiff d).isEmpty = true := by
    rw [List.isEmpty_iff, Block.worldDiff, List.filter_eq_nil_iff]
    obtain ⟨c, hc, hp⟩ := List.any_eq_true.1 hdiff
    exact fun h => h c hc hp
  exact (if_neg hne).trans (if_pos (by rw [hq]; rfl))

/-- Sets the worlds of the contexts of a list to their bits of `d`. -/
def Block.setWorlds (b : Block) (d : BitVec 64) (l : List Nat) : Block :=
  b.each l fun b c => b.mCtx c fun x => { x with world := d.getLsbD c }

theorem setWorlds_ctx (b : Block) (d : BitVec 64) (l : List Nat) (k : Nat) :
    (b.setWorlds d l).ctx k = if k ∈ l then { b.ctx k with world := d.getLsbD k } else b.ctx k := by
  induction l generalizing b with
  | nil => rfl
  | cons c l ih =>
    have hstep : b.setWorlds d (c :: l) = (b.mCtx c fun x => { x with world := d.getLsbD c }).setWorlds d l := rfl
    rw [hstep, ih, ctx_mCtx]
    by_cases hck : c = k
    · subst hck
      simp
    · have hkc : k ≠ c := fun h => hck h.symm
      simp [hck, hkc]

theorem setWorlds_keeps {β : Type} (g : Block → β) (hg : ∀ (b : Block) c f, g (b.mCtx c f) = g b) (b : Block)
    (d : BitVec 64) (l : List Nat) : g (b.setWorlds d l) = g b :=
  each_keeps g l _ (fun b c => hg b c _) b

/-- A monitor's write of TSU_CTX_WORLD reaches the worlds of contexts that are OFF, and GNT_GEN. -/
theorem Block.ctxWorldWrite_monitor {q : Req} (hq : q.monitor = true) (d : BitVec 64) :
    ∃ f, b.ctxWorldWrite q d = (b.setWorlds d (b.worldDiff d)).mGnt f := by
  by_cases hnil : b.worldDiff d = []
  · exact ⟨id, (if_pos (List.isEmpty_iff.2 hnil)).trans (by rw [hnil]; rfl)⟩
  · exact ⟨_, (if_neg fun h => hnil (List.isEmpty_iff.1 h)).trans (if_neg (by rw [hq]; decide))⟩

theorem setWorlds_worldDiff_ctx (d : BitVec 64) {c : Nat} (hc : c < 64) :
    (b.setWorlds d (b.worldDiff d)).ctx c =
      if (b.ctx c).st = .off ∧ (b.ctx c).enPend = false then { b.ctx c with world := d.getLsbD c } else b.ctx c := by
  have hmem : c ∈ b.worldDiff d ↔
      ((b.ctx c).st = .off ∧ (b.ctx c).enPend = false) ∧ (b.ctx c).world ≠ d.getLsbD c := by
    simp [Block.worldDiff, hc, and_assoc]
  rw [setWorlds_ctx]
  by_cases hw : (b.ctx c).world = d.getLsbD c
  · rw [if_neg fun h => (hmem.1 h).2 hw, ← hw]
    split <;> rfl
  · simp only [hmem, hw, ne_eq, not_false_eq_true, and_true]

theorem Block.strWorldWrite_monitor {q : Req} {ch : Nat} (hq : q.monitor = true) (hst : (b.strCh ch).st = .off)
    (hen : (b.strCh ch).enPend = false) (hw : (b.strCh ch).world = false) :
    b.strWorldWrite q ch true =
      (b.mStrCh ch fun c => { c with world := true }).mGnt fun g => { g with gen := g.gen + 1 } := by
  simp [Block.strWorldWrite, Block.gntGen, hq, hst, hen, hw]

end

/-- Settles O21: a freeze register by the right of its access, the level by what SET and UNLOCK ask for, and a Gauntlet field
by whether the write changes it. -/
theorem debugAndGauntlet : Obligations.DebugAndGauntlet := by
  unfold Obligations.DebugAndGauntlet
  refine ⟨fun a c v on s hq => ?freeze, fun a w s hq hctrl hsel hat => ?freezeRefused, fun a l s hok => ?level,
    fun p s hrst hl => ?off, fun a d e s => ?gauntlet⟩
  case freeze =>
    refine ⟨fun hok => ?_, fun hok => ?_, fun hok => ?_, fun hok => ?_⟩
    · rw [exec_freezeArm, Block.frzArm, Block.frzCmd_monitor hq hok]
    · rw [exec_freezeArm, Block.frzArm, Block.frzCmd_monitor hq hok]
    · rw [exec_freezeArm, Block.frzArm, Block.frzCmd_monitor hq hok]
      simp only [Bool.and_false]
    · rw [exec_freezeRelease, Block.frzCmd_monitor hq hok]
      rfl
  case freezeRefused =>
    exact ⟨by rw [exec_freezeArm, Block.frzArm_refused hq hctrl hsel hat],
      by rw [exec_freezeRelease, Block.frzCmd_refused hq hctrl]⟩
  case level =>
    refine ⟨fun h1 h0 hq => ?_, fun hlt hno => ?_, fun hlt hnone => ?_, fun hlock => ?_, fun hlock h3 hfull hresp hnone => ?_,
      fun hlock hresp => ?_⟩
    · rw [exec_dbgSet hok, h1, Block.dbgSet_raise h0 hq]
    · rw [exec_dbgSet hok, Block.dbgSet_refused hlt hno]
    · rw [exec_dbgSet hok, Block.dbgSet_lower hlt hnone]
    · rw [exec_dbgUnlock hok, Block.dbgUnlock_locked hlock]
    · have hexec := exec_dbgUnlock (l := l) hok
      rw [Block.dbgUnlock_opens hlock h3 hfull hresp hnone] at hexec
      exact ⟨_, hexec, rfl, rfl, rfl, rfl, rfl⟩
    · have hexec := exec_dbgUnlock (l := l) hok
      rw [Block.dbgUnlock_fails hlock hresp] at hexec
      exact ⟨_, hexec, rfl, rfl, rfl, rfl⟩
  case off => rw [exec_freezeRelease, Block.frzCmd_off hrst hl]
  case gauntlet =>
    intro up
    simp only [exec_gauntletWrite, Block.gntWrite]
    refine ⟨fun hok => ?_, fun hok hops hheld => ?_, fun hok => ?_, fun hok => ?_, fun hok hq hdiff => ?_, fun hok hq => ?_,
      fun ch hok hq hst hen hw => ?_⟩
    · rw [Block.regCmd_ok hok]
      rfl
    · rw [Block.regCmd_ok hok, Block.tmwWrite_idle hops hheld]
    · rw [Block.regCmd_ok hok]
      rfl
    · rw [Block.regCmd_ok hok]
    · rw [Block.regCmd_ok hok, Block.ctxWorldWrite_refused hq hdiff]
      rfl
    · obtain ⟨f, hf⟩ := Block.ctxWorldWrite_monitor (b := s.blk) hq d
      rw [Block.regCmd_ok hok, hf]
      refine ⟨_, rfl, fun c hc => setWorlds_worldDiff_ctx d hc, ?_, ?_, ?_, rfl⟩
      · exact setWorlds_keeps (·.tsu.time) (fun _ _ _ => rfl) s.blk d _
      · exact setWorlds_keeps (·.tsu.tm) (fun _ _ _ => rfl) s.blk d _
      · exact setWorlds_keeps (·.dist) (fun _ _ _ => rfl) s.blk d _
    · have hok' : s.blk.check (portReq a) (strReg ch) (worldOk (portReq a) (s.blk.strCh ch.toNat).world) = .ok := hok
      rw [Block.regCmd_ok hok', Block.strWorldWrite_monitor hq hst hen hw]

end Sys2Proof.Machine
end

section
/-! SUPPORT. The resets of the TSU and what their release starts (R340, R379, R394), fuse words (R384, R390), and the sending
of TOPO_REPORT (R403). -/

namespace Sys2Proof.Machine

open Sys2Proof

section
variable {b : Block} {s : State}

/-! ### Resets (R340, R379) -/

/-- With nothing applied, dbg.start_level reads 0. -/
theorem catNat_startLevel (h : b.tsu.cat.vals = []) : b.catNat .tsu 0x6102 0 = 0 := by
  rw [Block.catNat, Block.catVal, Block.catOf, h]
  rfl

/-- At a Catalogue without applied values the debug level starts at 0, with a new challenge. -/
theorem Block.dbgStart_default (h : b.tsu.cat.vals = []) :
    b.dbgStart = b.draw.2.mDbg fun d => { d with level := 0, chal := b.draw.1 } := by
  have hlevel : b.draw.2.catNat .tsu 0x6102 0 = 0 := catNat_startLevel h
  rw [Block.dbgStart]
  simp only [hlevel]
  rfl

theorem exec_aonResetRelease (h : s.blk.tsu.boot.aonRst = true) :
    exec .aonResetRelease s = .next { s with blk := (s.blk.mTsu fun _ => { boot := { aonRst := false } }).dbgStart } :=
  State.run_of (f := fun b => if b.tsu.boot.aonRst then (b.mTsu fun _ => { boot := { aonRst := false } }).dbgStart else b)
    (if_pos h)

theorem exec_tsuResetAssert (h : s.blk.tsu.boot.tsuRst = false) :
    exec .tsuResetAssert s = .next { s with blk := s.blk.mTsu Tsu.fresh } :=
  State.run_of (f := fun b => if b.tsu.boot.tsuRst then b else b.mTsu Tsu.fresh) (if_neg (by simp [h]))

/-- The TSU as its release finds it: out of reset, with every domain requested and the fuses being read. -/
def Tsu.starting (t : Tsu) : Tsu :=
  { t.fresh with
    boot := { aonRst := false, tsuRst := false, fuseBusy := true }
    pwr := { req := ⟨true, true, true, true, true⟩ } }

theorem Block.tsuRelease_starts (haon : b.tsu.boot.aonRst = false) (hrst : b.tsu.boot.tsuRst = true) :
    b.tsuRelease = ((b.mTsu Tsu.starting).draw.2.mDbg fun d => { d with
      level := 0, chal := b.draw.1 }).mGen fun g => { g with stDone := true, stOk := Config.selfTestWords03 } := by
  rw [Block.tsuRelease, haon, hrst]
  refine (if_neg (by decide)).trans ?_
  rw [Block.genSelfTest_eq]
  exact congrArg (fun c : Block => c.mGen fun g => { g with stDone := true, stOk := Config.selfTestWords03 })
    (Block.dbgStart_default (b := b.mTsu Tsu.starting) rfl)

/-! ### Fuses (R384, R390) -/

theorem exec_fuseReadDone_tsu {ws : List (Nat × BitVec 32)} (h : s.blk.tsu.boot.fuseBusy = true) :
    exec (.fuseReadDone .tsu ws) s = .next { s with blk := s.blk.tsuFuses ws } :=
  State.run_of (f := fun b => if b.tsu.boot.fuseBusy then b.tsuFuses ws else b) (if_pos h)

theorem exec_fuseReadDone_dist {ws : List (Nat × BitVec 32)} (hpow : s.blk.dist.mod.powered = true)
    (hdone : s.blk.dist.boot.fuseDone = false) :
    exec (.fuseReadDone .dist ws) s = .next { s with blk := s.blk.distFuses ws } :=
  State.run_of (f := fun b => if b.dist.mod.powered && !b.dist.boot.fuseDone then b.distFuses ws else b)
    (if_pos (by simp [hpow, hdone]))

theorem exec_fuseTimeout (h : s.blk.tsu.boot.fuseBusy = true) :
    exec .fuseTimeout s = .next { s with
      blk := (s.blk.tsuFuses []).mBoot fun t => { t with fuseErr := true, fuseDone := false } } :=
  State.run_of (f := fun b => if b.tsu.boot.fuseBusy then
    (b.tsuFuses []).mBoot fun t => { t with fuseErr := true, fuseDone := false } else b) (if_pos h)

theorem tsuFuses_dkey_length (ws : List (Nat × BitVec 32)) : (b.tsuFuses ws).tsu.dbg.dkey.length = 32 := by
  simp [Block.tsuFuses]

theorem tsuFuses_hostMap_length (ws : List (Nat × BitVec 32)) :
    (b.tsuFuses ws).tsu.boot.hostMap.length = min 255 (fuse ws 0x100).toNat := by
  simp only [Block.tsuFuses, Block.mDbg_tsu, Block.mBoot_tsu, List.length_map, List.length_range]
  split <;> omega

/-! ### TOPO_REPORT (R403) -/

theorem up_send_tsu (p q : Plane) (w : Bool) (f : FrameBody) : (b.send (.tsu p) w f).up (.tsu q) = b.up (.tsu q) := by
  rw [Block.up, send_reg]
  rfl

theorem exec_topoReportSend (s : State) : exec .topoReportSend s = .next { s with blk := s.blk.sendTopo } := rfl

/-- The report goes out on each lane that is UP. -/
theorem Block.sendTopo_one {p q : Plane} (hpq : p ≠ q) (hp : b.up (.tsu p) = true) (hq : b.up (.tsu q) = false) :
    b.sendTopo = b.send (.tsu p) true (.topoReport (b.topoReport p)) := by
  have hsent (f : FrameBody) : (b.send (.tsu p) true f).up (.tsu q) = false := (up_send_tsu p q true f).trans hq
  cases p <;> cases q
  case A.A | B.B => exact absurd rfl hpq
  case A.B | B.A => simp [Block.sendTopo, Block.each, hp, hq, hsent]

theorem Block.sendTopo_none (hA : b.up (.tsu .A) = false) (hB : b.up (.tsu .B) = false) : b.sendTopo = b := by
  simp [Block.sendTopo, Block.each, hA, hB]

end

/-- Settles O4: each reset and each reading of fuse words is one update of its unit, and a report is sent on the lane that is
UP. -/
theorem resetsAndFuses : Obligations.ResetsAndFuses := by
  unfold Obligations.ResetsAndFuses
  refine ⟨fun s => rfl, fun s haon => ?aonRelease, fun s hrst => ?tsuAssert, fun s haon hrst => ?tsuRelease,
    fun ws s hbusy => ?tsuFuses, fun ws s hpow hdone hbad => ?distFuses, fun s hbusy => ?timeout,
    fun p q s hpq hp hq => ?report, fun s hA hB => ?noReport⟩
  case aonRelease =>
    rw [exec_aonResetRelease haon, Block.dbgStart_default (b := s.blk.mTsu _) rfl]
    rfl
  case tsuAssert =>
    rw [exec_tsuResetAssert hrst]
    rfl
  case tsuRelease =>
    have hexec : exec .tsuResetRelease s = .next { s with blk := s.blk.tsuRelease } := rfl
    rw [Block.tsuRelease_starts haon hrst] at hexec
    exact ⟨_, hexec, rfl, rfl, rfl, rfl, rfl, rfl, rfl, rfl, rfl, rfl, rfl⟩
  case tsuFuses =>
    exact ⟨_, exec_fuseReadDone_tsu hbusy, rfl, rfl, rfl, rfl, rfl, rfl, tsuFuses_dkey_length ws, rfl,
      tsuFuses_hostMap_length ws, rfl, rfl, rfl, rfl⟩
  case distFuses =>
    rw [exec_fuseReadDone_dist hpow hdone, Block.distFuses, hbad]
    rfl
  case timeout => exact ⟨_, exec_fuseTimeout hbusy, rfl, rfl, rfl, rfl, rfl, rfl, rfl, rfl, rfl, rfl⟩
  case report =>
    refine ⟨s.blk.topoReport p, _, exec_topoReportSend s, Block.sendTopo_one hpq hp hq, rfl, rfl, rfl, rfl, rfl, rfl, rfl,
      rfl, rfl, rfl, rfl⟩
  case noReport => rw [exec_topoReportSend, Block.sendTopo_none hA hB]

end Sys2Proof.Machine
end

section
/-! SUPPORT. The HZM-288 module's power and heat (R398, R463 to R465, R468), and the Curator's measures, buckets and
congestion window (R442 to R444, R449, R453). -/

namespace Sys2Proof.Machine

open Sys2Proof

section
variable {b : Block} {s : State}

/-! ### Power and heat (R398, R463 to R465, R468) -/

theorem Block.modStart_stays (h : b.dist.mod.powered = true ∨ b.dist.mod.tripped = true) : b.modStart = b :=
  if_pos (by rcases h with h | h <;> simp [h])

theorem Block.modStart_starts (hoff : b.dist.mod.powered = false) (hok : b.dist.mod.tripped = false) :
    b.modStart = { b with
      free := b.free + 2
      dist := { b.dist with mod := { b.dist.mod with
        powered := true, inOk := true, vIn := (Config.freeValue b.free).setWidth 16
        pIn := (Config.freeValue (b.free + 1)).setWidth 16 } } } :=
  if_neg (by simp [hoff, hok])

theorem exec_distPowerUp (s : State) : exec .distPowerUp s = .next { s with blk := s.blk.modStart } := rfl

theorem exec_inputRecovered (s : State) : exec .inputRecovered s = .next { s with blk := s.blk.modStart } := rfl

/-- What INPUT_UNDERVOLTAGE does at a powered module. -/
def Block.inputSagged (b : Block) (v : BitVec 16) : Block :=
  if v.toNat < 4000 then b.modShut fun m => { m with uvWarn := true, vIn := v }
  else if 6200 < v.toNat then b.modShut fun m => { m with ov := true, vIn := v }
  else b.mMod fun m => { m with vIn := v }

theorem exec_inputUndervoltage (v : BitVec 16) (hpow : s.blk.dist.mod.powered = true) :
    exec (.inputUndervoltage v) s = .next { s with blk := s.blk.inputSagged v } :=
  State.run_of (f := fun b => if !b.dist.mod.powered then b else b.inputSagged v) (if_neg (by simp [hpow]))

theorem exec_inputUndervoltage_off (v : BitVec 16) (hoff : s.blk.dist.mod.powered = false) :
    exec (.inputUndervoltage v) s = .next s :=
  State.run_of (f := fun b => if !b.dist.mod.powered then b else b.inputSagged v) (if_pos (by simp [hoff]))

/-- The junction is above 100 °C. -/
def Block.warned (b : Block) (tj : BitVec 8) : Block :=
  (b.mMod fun m => { m with thermWarn := true, tjMax := tj }).each (List.range 24) Block.predict

theorem exec_thermWarn (tj : BitVec 8) (s : State) : exec (.thermWarn tj) s =
    s.run fun b => if !b.dist.mod.powered || decide (tj.toNat ≤ 100) then b else b.warned tj := rfl

theorem exec_thermTrip (tj : BitVec 8) (s : State) : exec (.thermTrip tj) s =
    s.run fun b => if !b.dist.mod.powered || decide (tj.toNat ≤ 115) then b
      else b.modShut fun m => { m with thermTrip := true, tripped := true, tjMax := tj } := rfl

/-- The cages of the lanes named are disabled. -/
def Block.cagesOff (b : Block) (lanes : List Nat) : Block :=
  (b.mMod fun m => { m with cageLimit := true }).each (lanes.filter fun n => decide (n < 312)) fun b n =>
    (b.laneDown (.dist n)).mReg (.dist n) fun r => { r with cageOff := true }

theorem exec_cageLimit (lanes : List Nat) (s : State) : exec (.cageLimit lanes) s =
    s.run fun b => if !b.dist.mod.powered then b else b.cagesOff lanes := rfl

theorem exec_ocxoWarm (s : State) : exec .ocxoWarm s =
    s.run fun b => if b.dist.mod.powered then b.mMod fun m => { m with ocxoWarm := true } else b := rfl

theorem exec_firmwareBootDone (s : State) : exec .firmwareBootDone s =
    s.run fun b => if b.dist.mod.powered && b.dist.boot.fuseDone then b.mDBoot fun d => { d with fwBooted := true }
      else b := rfl

/-! ### Measures (R442, R443) -/

/-- A fourth good update in a row clears a measure's state. -/
theorem measState_eq (st : BitVec 2) (run : Nat) (warn fail : Bool) : measState st run warn fail =
    if fail then (2, 0) else if warn then (1, 0) else if 3 ≤ run then (0, run + 1) else (st, run + 1) := by
  simp only [measState, Nat.succ_le_succ_iff]

theorem exec_curatorUpdate (m : Measure) (s : State) : exec (.curatorUpdate m) s = .next { s with blk := s.blk.curate m } :=
  rfl

theorem mHealth_congr {l : LaneRef} {f g : LaneHealth → LaneHealth} (h : f (b.lane l).health = g (b.lane l).health) :
    b.mHealth l f = b.mHealth l g :=
  mLane_congr b l (congrArg (fun q => { b.lane l with health := q }) h)

/-- A TSU's lane has no privileged channel, so that no PREDICT_FAIL follows its eye. -/
theorem Block.curate_eye_tsu (p : Plane) (v : Byte) : b.curate (.eye (.tsu p) v) = b.mHealth (.tsu p) fun h =>
    let r := measState h.eyeSt h.eyeRun (decide (v.toNat < b.tsu.hlth.eyeWarn.toNat))
      (decide (v.toNat < b.tsu.hlth.eyeFail.toNat))
    { (h.enter h.eyeSt r.1) with
      eye := v, eyeLow := if v.toNat < h.eyeLow.toNat then v else h.eyeLow, eyeSt := r.1, eyeRun := r.2 } := rfl

theorem Block.curate_res_tsu (p : Plane) (w : BitVec 16) : b.curate (.res (.tsu p) w) = b.mHealth (.tsu p) fun h =>
    let r := measState h.resSt h.resRun (decide (b.tsu.hlth.resWarn.toNat < w.toNat))
      (decide (b.tsu.hlth.resFail.toNat < w.toNat))
    { (h.enter h.resSt r.1) with res := w, resSt := r.1, resRun := r.2 } := rfl

theorem Block.curate_refRes_none {c : BitVec 3} {w : BitVec 16} (h : 6 ≤ c.toNat ∨ b.dRole ≠ 3) :
    b.curate (.refRes c w) = b :=
  if_neg (by rintro ⟨hc, hr⟩; rcases h with h | h <;> [omega; exact h hr])

theorem Block.curate_refRes {c : BitVec 3} {w : BitVec 16} (hc : c.toNat < 6) (hr : b.dRole = 3) :
    b.curate (.refRes c w) = b.refUpdate c.toNat w :=
  if_pos ⟨hc, hr⟩

/-- A new value of a candidate's REF_RES: PREDICT_FAIL, which follows it, is one more part of the Curator's state. -/
theorem Block.refUpdate_eq (b : Block) (c : Nat) (w : BitVec 16) : ∃ q : Curator,
    b.refUpdate c w = (b.mDist fun d => { d with curator := q }) ∧
    smGet 0 q.refRes c = w ∧ smGet 0 q.refSt c = (measState (smGet 0 b.dist.curator.refSt c)
      (smGet 0 b.dist.curator.refRun c) (decide (b.catNat .dist 0x7001 3 < w.toNat))
      (decide (b.catNat .dist 0x7001 4 < w.toNat))).1 :=
  ⟨(b.refUpdate c w).dist.curator, rfl, (smGet_smPut ..).trans (if_pos rfl), (smGet_smPut ..).trans (if_pos rfl)⟩

/-- The links and slices of a window that stalled for more than the limit. -/
def Block.stalled (b : Block) (w : CongMeasure) : List (CongWhere × Nat) :=
  w.stalls.filter fun x => decide (b.catNat .dist 0x7140 2 * 2 ^ 20 < 256 * x.2)

/-- The state after a window in which `hot` stalled. -/
def Curator.congStep (hot : List (CongWhere × Nat)) (q : Curator) : Curator :=
  match hot with
  | x :: _ => { q with congested := true, below := 0, where_ := if q.congested then q.where_ else congCode x.1 }
  | [] => if 4 ≤ q.below + 1 then { q with congested := false, below := 0 } else { q with below := q.below + 1 }

theorem Curator.congStep_clears {q : Curator} (h : 3 ≤ q.below) : q.congStep [] = { q with congested := false, below := 0 } :=
  if_pos (by omega)

theorem Curator.congStep_waits {q : Curator} (h : q.below < 3) : q.congStep [] = { q with below := q.below + 1 } :=
  if_neg (by omega)

theorem exec_congestionWindow (w : CongMeasure) (s : State) : exec (.congestionWindow w) s = .next { s with
    blk := s.blk.mDist fun d => { d with curator := d.curator.congStep (s.blk.stalled w) } } := rfl

/-- Puts the Curator's state at `q`. -/
def State.withCurator (s : State) (q : Curator) : State :=
  { s with blk := s.blk.mDist fun d => { d with curator := q } }

end

/-- Settles O32: each event of the module and of the Curator by the conditions of its own rule. -/
theorem moduleAndCurator : Obligations.ModuleAndCurator := by
  unfold Obligations.ModuleAndCurator
  refine ⟨fun s => ?power, fun v tj ls s hpow => ?heat, fun v tj ls s hoff => ?unpowered, fun p v w s => ?measures,
    fun c w s => ?refs, fun s => rfl, fun w s => ?congestion⟩
  case power =>
    refine ⟨fun h => ⟨?_, ?_⟩, fun hoff hok => ⟨?_, ?_⟩, rfl, fun h => ?_, fun h => ?_, fun hp hf => ?_, fun h => ?_⟩
    · rw [exec_distPowerUp, Block.modStart_stays h]
    · rw [exec_inputRecovered, Block.modStart_stays h]
    · rw [exec_distPowerUp, Block.modStart_starts hoff hok]
    · rw [exec_inputRecovered, Block.modStart_starts hoff hok]
    · rw [exec_ocxoWarm, State.run_eq, if_pos h]
    · rw [exec_ocxoWarm, State.run_eq, if_neg (by simp [h])]
    · rw [exec_firmwareBootDone, State.run_eq, if_pos (by simp [hp, hf])]
    · rw [exec_firmwareBootDone, State.run_eq, if_neg (by rcases h with h | h <;> simp [h])]
  case heat =>
    refine ⟨fun hv => ?_, fun hv => ?_, fun hlo hhi => ?_, fun ht => ?_, fun ht => ?_, fun ht => ?_, fun ht => ?_, ?_⟩
    · rw [exec_inputUndervoltage v hpow, Block.inputSagged, if_pos hv]
      rfl
    · rw [exec_inputUndervoltage v hpow, Block.inputSagged, if_neg (by omega), if_pos hv]
      rfl
    · rw [exec_inputUndervoltage v hpow, Block.inputSagged, if_neg (by omega), if_neg (by omega)]
    · rw [exec_thermWarn, State.run_eq, if_neg (by simp [hpow, ht])]
      rfl
    · rw [exec_thermWarn, State.run_eq, if_pos (by simp [ht])]
    · rw [exec_thermTrip, State.run_eq, if_neg (by simp [hpow, ht])]
      rfl
    · rw [exec_thermTrip, State.run_eq, if_pos (by simp [ht])]
    · rw [exec_cageLimit, State.run_eq, if_neg (by simp [hpow])]
      rfl
  case unpowered =>
    refine ⟨exec_inputUndervoltage_off v hoff, ?_, ?_, ?_⟩
    · rw [exec_thermWarn, State.run_eq, if_pos (by simp [hoff])]
    · rw [exec_thermTrip, State.run_eq, if_pos (by simp [hoff])]
    · rw [exec_cageLimit, State.run_eq, if_pos (by simp [hoff])]
  case measures =>
    constructor
    · rw [exec_curatorUpdate, Block.curate_eye_tsu]
      refine congrArg (fun b => Host.Outcome.next { s with blk := b }) (mHealth_congr ?_)
      simp [measState_eq, LaneHealth.enter]
    · rw [exec_curatorUpdate, Block.curate_res_tsu]
      refine congrArg (fun b => Host.Outcome.next { s with blk := b }) (mHealth_congr ?_)
      simp [measState_eq, LaneHealth.enter]
  case refs =>
    refine ⟨fun h => ?_, fun hc hr => ?_⟩
    · rw [exec_curatorUpdate, Block.curate_refRes_none h]
    · obtain ⟨q, heq, hres, hst⟩ := s.blk.refUpdate_eq c.toNat w
      have hexec := exec_curatorUpdate (.refRes c w) s
      rw [Block.curate_refRes hc hr, heq] at hexec
      refine ⟨_, hexec, rfl, rfl, rfl, rfl, hres, fun hf => ?_, fun hf hw => ?_⟩
      · exact hst.trans (by rw [measState_eq, if_pos (by simpa using hf)])
      · exact hst.trans (by rw [measState_eq, if_neg (by simpa using hf), if_pos (by simpa using hw)])
  case congestion =>
    rw [exec_congestionWindow]
    refine ⟨fun x r h => ?_, fun h hb => ?_, fun h hb => ?_⟩ <;> rw [show s.blk.stalled w = _ from h]
    · rfl
    · exact congrArg (fun q => Host.Outcome.next (s.withCurator q)) (Curator.congStep_clears hb)
    · exact congrArg (fun q => Host.Outcome.next (s.withCurator q)) (Curator.congStep_waits hb)

end Sys2Proof.Machine
end

section
/-! SUPPORT. Membership: topology reports and their sums (R403), fences (R429 to R431) and the shadow (R440). -/

namespace Sys2Proof.Machine

open Sys2Proof

section
variable {b : Block} {n : Nat} {h : Hdr} {s : State}

/-! ### What the receipt of a frame leaves as it was -/

@[simp] theorem distBoot_rxBook (b : Block) (l : LaneRef) (h : Hdr) (cls : Nat) :
    (b.rxBook l h cls).dist.boot = b.dist.boot :=
  (rxBook_same b l h cls).boot

@[simp] theorem tsuBoot_rxBook (b : Block) (l : LaneRef) (h : Hdr) (cls : Nat) :
    (b.rxBook l h cls).tsu.boot = b.tsu.boot :=
  (rxBook_same b l h cls).tsu

@[simp] theorem distTime_rxBook (b : Block) (l : LaneRef) (h : Hdr) (cls : Nat) :
    (b.rxBook l h cls).dist.time = b.dist.time :=
  (rxBook_same b l h cls).dtime

@[simp] theorem tc_rxBook (b : Block) (l : LaneRef) (h : Hdr) (cls : Nat) : (b.rxBook l h cls).tc = b.tc :=
  tcOf_rxBook b l h cls .tsu

@[simp] theorem ldiMap_rxBook (b : Block) (l : LaneRef) (h : Hdr) (cls i : Nat) :
    (b.rxBook l h cls).ldiMap i = b.ldiMap i := by
  rw [Block.ldiMap, (rxBook_same b l h cls).dcat]
  rfl

@[simp] theorem portPda_rxBook (b : Block) (l : LaneRef) (h : Hdr) (cls i : Nat) :
    (b.rxBook l h cls).portPda i = b.portPda i := by
  rw [Block.portPda, Block.t2idx, Block.t1idx, (rxBook_same b l h cls).dcat]
  rfl

theorem upDown_rxBook (b : Block) (l : LaneRef) (h : Hdr) (cls : Nat) : (b.rxBook l h cls).upDown = b.upDown := by
  have same := rxBook_same b l h cls
  simp only [Block.upDown, Block.downLanes, same.up, same.dRole]

@[simp] theorem ctxs_rxBook (b : Block) (l : LaneRef) (h : Hdr) (cls : Nat) :
    (b.rxBook l h cls).tsu.ctxs = b.tsu.ctxs :=
  rxBook_keeps b l h cls (fun b => b.tsu.ctxs) (fun b f => by rcases l with (_ | _) | _ <;> rfl) fun _ _ => rfl

@[simp] theorem coll_rxBook (b : Block) (l : LaneRef) (h : Hdr) (cls : Nat) :
    (b.rxBook l h cls).tsu.coll = b.tsu.coll :=
  rxBook_keeps b l h cls (fun b => b.tsu.coll) (fun b f => by rcases l with (_ | _) | _ <;> rfl) fun _ _ => rfl

@[simp] theorem dm_rxBook (b : Block) (l : LaneRef) (h : Hdr) (cls : Nat) : (b.rxBook l h cls).tsu.dm = b.tsu.dm :=
  rxBook_keeps b l h cls (fun b => b.tsu.dm) (fun b f => by rcases l with (_ | _) | _ <;> rfl) fun _ _ => rfl

/-! ### Reports and sums (R403) -/

/-- What a T1 keeps of a report: whether its PDA is the one of the map, and a fence of the port that it clears. -/
def DBoot.reported (d : DBoot) (n : Nat) (h : Hdr) (r : TopoReport) (mapped : Bool) : DBoot :=
  { d with
    reports := smPut none d.reports n (some (r, h.mepoch))
    mapDiff := if r.ldi != 0xFFFF && !mapped then sat1 d.mapDiff else d.mapDiff
    fencedPorts := match smGet none d.fencedPorts n with
      | some e => if r.admitted && newer h.mepoch e && mapped then smPut none d.fencedPorts n none else d.fencedPorts
      | none => d.fencedPorts }

theorem Block.reportRx_other {r : TopoReport} (ho : b.dRole ≠ 1 ∨ 256 ≤ n) : b.reportRx n h r = b := if_pos ho

theorem Block.reportRx_port {r : TopoReport} (hr : b.dRole = 1) (hn : n < 256) :
    b.reportRx n h r =
      b.mDBoot fun d => d.reported n h r (r.ldi != 0xFFFF && b.ldiMap r.ldi.toNat == b.portPda n) := by
  rw [Block.reportRx, if_neg (by rintro (h1 | h1); exacts [h1 hr, by omega])]
  refine congrArg (fun d => b.mDBoot fun _ => d) ?_
  cases hf : smGet none b.dist.boot.fencedPorts n with
  | none => simp only [DBoot.reported, hf]
  | some e => simp only [DBoot.reported, hf]; split <;> rfl

theorem exec_topoReportReceive {r : TopoReport} (hn : n < 312) (hok : s.blk.rxOk (.dist n) h 5 3 false = true) :
    exec (.topoReportReceive n h r) s = .next { s with blk := (s.blk.rxBook (.dist n) h 5).reportRx n h r } :=
  exec_of_runLane (l := .dist n) (by simpa [LaneRef.ok] using hn) rfl (rx_ok _ _ _ _ _ _ _ hok)

/-- The sum of a child is kept. -/
def Block.sumRx (b : Block) (n : Nat) (k : BitVec 32) : Block :=
  if b.dRole = 1 ∨ 288 ≤ n then b else b.mDBoot fun d => { d with sums := smPut 0 d.sums (b.childOf n) k }

theorem exec_topoSumReceive {k : BitVec 32} (hn : n < 312) (hok : s.blk.rxOk (.dist n) h 5 3 false = true) :
    exec (.topoSumReceive n h k) s = .next { s with blk := (s.blk.rxBook (.dist n) h 5).sumRx n k } :=
  exec_of_runLane (l := .dist n) (by simpa [LaneRef.ok] using hn) rfl (rx_ok _ _ _ _ _ _ _ hok)

theorem Block.childOf_notT1 (hr : b.dRole ≠ 1) : b.childOf n = n / 24 := if_neg hr

theorem Block.sendUp_some {w : Bool} {body : FrameBody} (hup : b.upLane = some n) :
    b.sendUp w body = b.send (.dist n) w body := by
  rw [Block.sendUp, hup]

theorem exec_topoSumSend (s : State) : exec .topoSumSend s =
    .next { s with blk := if s.blk.dRole = 3 then s.blk else s.blk.sendUp true (.topoSum s.blk.admittedCount) } := rfl

theorem exec_shadowEnd (s : State) : exec .shadowEnd s = s.run fun b =>
    if b.dist.boot.shadow && b.dist.servo.state == .locked &&
        decide ((1250000000 * b.catNat .dist 0x7150 2 : Int) ≤ Tick.diff b.dist.time.tc64 b.dist.boot.shadowAt) then
      b.mDBoot fun d => { d with shadow := false }
    else b := rfl

/-! ### Fences (R429 to R431) -/

/-- A distributor adopts the epoch of a fence and stores the fence. -/
def Block.fenceTaken (b : Block) (f : FenceMsg) : Block :=
  (b.dAdopt f.epoch).mDBoot fun d => { d with stored := some f }

theorem exec_fenceReceiveDist {f : FenceMsg} (hn : n < 312) (hok : s.blk.rxOk (.dist n) h 1 0 true = true) :
    exec (.fenceReceiveDist n h f) s = .next { s with
      blk := if n < 288 then s.blk.rxBook (.dist n) h 1 else (s.blk.rxBook (.dist n) h 1).fenceDist f } :=
  exec_of_runLane (l := .dist n) (by simpa [LaneRef.ok] using hn) rfl (rx_ok _ _ _ _ _ _ _ hok)

theorem Block.fenceDist_older {f : FenceMsg} (hold : newer f.epoch b.dist.boot.ep = false) : b.fenceDist f = b :=
  if_pos (by simp [hold])

theorem Block.fenceDist_newer {f : FenceMsg} (hnew : newer f.epoch b.dist.boot.ep = true) :
    b.fenceDist f =
      ((b.fencePorts f).fenceTaken f).each ((b.fencePorts f).fenceTaken f).upDown fun b n =>
        b.send (.dist n) true (.fence f) :=
  if_neg (by simp [hnew])

theorem Block.fencePorts_notT1 {f : FenceMsg} (hr : b.dRole ≠ 1) : b.fencePorts f = b := if_pos hr

theorem exec_fenceReceiveTsu {p : Plane} {f : FenceMsg} (hok : s.blk.rxOk (.tsu p) h 1 0 true = true) :
    exec (.fenceReceiveTsu p h f) s = .next { s with blk := (s.blk.rxBook (.tsu p) h 1).fenceTsu f } :=
  State.run_of (f := fun b => b.rx (.tsu p) h 1 0 true fun b => b.fenceTsu f) (rx_ok _ _ _ _ _ _ _ hok)

theorem Block.fenceTsu_older {f : FenceMsg} (hold : newer f.epoch b.tsu.boot.ep = false) : b.fenceTsu f = b :=
  if_pos (by simp [hold])

theorem Block.fenceTsu_other {f : FenceMsg} (hnew : newer f.epoch b.tsu.boot.ep = true)
    (hldi : f.ldis.contains b.tsu.boot.ldi = false) : b.fenceTsu f = b.tAdopt f.epoch := by
  rw [Block.fenceTsu, if_neg (by simp [hnew]), if_neg (by rw [hldi]; decide)]

theorem Block.fenceTsu_named {f : FenceMsg} (hnew : newer f.epoch b.tsu.boot.ep = true)
    (hldi : f.ldis.contains b.tsu.boot.ldi = true) : b.fenceTsu f = b.fenceDie f.epoch := by
  rw [Block.fenceTsu, if_neg (by simp [hnew]), if_pos hldi]

/-- Without contexts none is in a state that is not OFF. -/
theorem Block.ctxsWhere_noCtx {p : Ctx → Bool} (hctxs : b.tsu.ctxs = []) (hp : p {} = false) : b.ctxsWhere p = [] := by
  have hnone (c : Nat) : b.ctx c = {} := by rw [Block.ctx, hctxs]; rfl
  exact List.filter_eq_nil_iff.2 fun c _ => by rw [hnone, hp]; exact Bool.false_ne_true

/-- COLL_CANCEL of an idle slot does nothing. -/
theorem Block.collCancel_noSlot {i : Nat} (hslots : b.tsu.coll.slots = []) : b.collCancel i = b :=
  if_pos (by rw [Block.collSlot, hslots]; rfl)

/-- Turns that each leave the block as it is. -/
theorem Block.each_fixed {α : Type} {f : Block → α → Block} {l : List α} (hf : ∀ x ∈ l, f b x = b) : b.each l f = b := by
  induction l with
  | nil => rfl
  | cons x l ih =>
    rw [Block.each, List.foldl_cons, hf x (.head l)]
    exact ih fun y hy => hf y (.tail x hy)

theorem Block.fenceHall_nothing (hout : b.tsu.hall.out = []) (hchs : b.tsu.dm.chs = []) :
    b.fenceHall = b.mHall fun h => { h with gone := [] } := by
  have hquiet : b.fenceHall = (b.mHall fun h => { h with out := [], gone := [] }).dmGo := by
    rw [Block.fenceHall, hout]
    rfl
  rw [hquiet, Block.dmGo_noChannel (b := b.mHall _) hchs]
  simp only [Block.mHall, Block.mTsu, ← hout]

/-- A die without contexts, collectives, hall operations and channels has only its membership to give up. -/
theorem Block.fenceDie_idle (e : BitVec 32) (hctxs : b.tsu.ctxs = []) (hslots : b.tsu.coll.slots = [])
    (hout : b.tsu.hall.out = []) (hchs : b.tsu.dm.chs = []) :
    b.fenceDie e = ((b.mHall fun h => { h with gone := [] }).mBoot fun t => { t with
      fenced := true, fenceRx := true, fenceEp := e, admitted := false, ldi := 0xFFFF }).sendTopo := by
  have hwhere (c : Block) (hc : c.tsu.ctxs = []) :
      (c.ctxsWhere fun x => x.st != .off && x.st != .stopping && x.st != .halt) = [] := ctxsWhere_noCtx hc rfl
  have hcancel (c : Block) (hc : c.tsu.coll.slots = []) : c.each (List.range 16) Block.collCancel = c :=
    each_fixed fun _ _ => collCancel_noSlot hc
  rw [Block.fenceDie, hwhere (b.mBoot _) hctxs, each_nil, hcancel (b.mBoot _) hslots,
    fenceHall_nothing (b := b.mBoot _) hout hchs]
  rfl

end

/-- Settles O31: each receipt by `rx_ok` and by what the frame does at its receiver. -/
theorem membership : Obligations.Membership := by
  unfold Obligations.Membership
  refine ⟨fun n h r s hn hok => ?reports, fun n h k s hn hok => ?sums, fun s => ?sends, fun n h f s hn hok => ?fences,
    fun p h f s hok => ?die⟩
  case reports =>
    rw [exec_topoReportReceive hn hok]
    refine ⟨fun ho => ?_, fun hr hn => ?_⟩
    · rw [Block.reportRx_other (by simpa [dRole_rxBook] using ho)]
    · rw [Block.reportRx_port (by rwa [dRole_rxBook]) hn, ldiMap_rxBook, portPda_rxBook]
      rfl
  case sums =>
    rw [exec_topoSumReceive hn hok]
    refine ⟨fun ho => ?_, fun hr hn => ?_⟩
    · rw [Block.sumRx, if_pos (by simpa [dRole_rxBook] using ho)]
    · rw [Block.sumRx, dRole_rxBook, if_neg (by rintro (h1 | h1); exacts [hr h1, by omega]),
        Block.childOf_notT1 (by rwa [dRole_rxBook])]
  case sends =>
    rw [exec_topoSumSend, exec_shadowEnd, State.run_eq]
    refine ⟨fun hr => ?_, fun n hr hup => ?_, fun n hr hup => ?_, fun hs hl ht => ?_, fun hno => ?_⟩
    · rw [if_pos hr]
    · rw [if_neg (by rw [hr]; decide), Block.sendUp_some hup, Block.admittedCount, if_pos hr]
    · rw [if_neg (by rw [hr]; decide), Block.sendUp_some hup, Block.admittedCount, if_neg (by rw [hr]; decide)]
    · rw [if_pos (by simp [hs, hl, ht])]
    · rw [if_neg (by rcases hno with hno | hno <;> simp [hno])]
  case fences =>
    rw [exec_fenceReceiveDist hn hok]
    refine ⟨fun ho => ?_, fun hn hnew hr hdown => ?_, fun hn hnew => ?_⟩
    · split
      · rfl
      · next hge => rw [Block.fenceDist_older (by simpa [hge] using ho)]
    · rw [if_neg (by omega), Block.fenceDist_newer (by simpa using hnew),
        Block.fencePorts_notT1 (by rwa [dRole_rxBook]),
        show ((s.blk.rxBook (.dist n) h 1).fenceTaken f).upDown = [] from (upDown_rxBook ..).trans hdown, Block.each_nil]
      simp [Block.fenceTaken, Block.dAdopt, Block.mDBoot]
    · rw [if_neg (by omega), Block.fenceDist_newer (by simpa using hnew)]
      rfl
  case die =>
    rw [exec_fenceReceiveTsu hok]
    refine ⟨fun hold => ?_, fun hnew hldi => ?_, fun hnew hldi hctxs hslots hout hchs => ?_⟩
    · rw [Block.fenceTsu_older (by simpa using hold)]
    · rw [Block.fenceTsu_other (by simpa using hnew) (by simpa using hldi), Block.tAdopt, tc_rxBook]
    · rw [Block.fenceTsu_named (by simpa using hnew) (by simpa using hldi),
        Block.fenceDie_idle _ (by simpa using hctxs) (by simpa using hslots) (by simpa using hout) (by simpa using hchs)]

end Sys2Proof.Machine
end

section
/-! SUPPORT. What the stop of a context and of the channels leaves alone: every other context, AON's part of the boot, the
distributor, and the state of the data mover's channels where no channel reaches OFF. -/

namespace Sys2Proof.Machine

open Sys2Proof

/-- The contexts, the boot, the distributor and the states of the data mover's channels. -/
def Block.stopView (b : Block) : List (Nat × Ctx) × Boot × Dist × (Nat → DmSt) :=
  (b.tsu.ctxs, b.tsu.boot, b.dist, fun n => (b.dmCh n).st)

theorem stopView_of_lessWaits {b c : Block} (h : b.lessWaits = c.lessWaits) : b.stopView = c.stopView :=
  (congrArg Block.stopView h : b.lessWaits.stopView = c.lessWaits.stopView)

theorem stopView_each {α : Type} {f : Block → α → Block} (h : ∀ b a, (f b a).stopView = b.stopView) (l : List α)
    (b : Block) : (b.each l f).stopView = b.stopView :=
  each_keeps Block.stopView l f h b

section
variable {b c : Block} (h : b.stopView = c.stopView)
include h

theorem ctxs_of_stopView : b.tsu.ctxs = c.tsu.ctxs := congrArg Prod.fst h

theorem boot_of_stopView : b.tsu.boot = c.tsu.boot := congrArg (fun v => v.2.1) h

theorem dist_of_stopView : b.dist = c.dist := congrArg (fun v => v.2.2.1) h

theorem dmSt_of_stopView (n : Nat) : (b.dmCh n).st = (c.dmCh n).st := congrArg (fun v => v.2.2.2 n) h

end

/-! ### Updates of one part -/

section
variable (b : Block)

@[simp] theorem stopView_emit (o : Out) : (b.emit o).stopView = b.stopView := rfl
@[simp] theorem stopView_demand : b.demand.stopView = b.stopView := rfl
@[simp] theorem stopView_mEp (n : Nat) (f : Endpoint → Endpoint) : (b.mEp n f).stopView = b.stopView := rfl
@[simp] theorem stopView_mSlot (n : Nat) (f : Slot → Slot) : (b.mSlot n f).stopView = b.stopView := rfl
@[simp] theorem stopView_mWslot (i : Nat) (f : WSlot → WSlot) : (b.mWslot i f).stopView = b.stopView := rfl
@[simp] theorem stopView_mTimer (n : Nat) (f : Timer → Timer) : (b.mTimer n f).stopView = b.stopView := rfl
@[simp] theorem stopView_mHall (f : HallReq → HallReq) : (b.mHall f).stopView = b.stopView := rfl
@[simp] theorem stopView_nopath : b.nopath.stopView = b.stopView := rfl
@[simp] theorem stopView_mStr (f : Str → Str) : (b.mStr f).stopView = b.stopView := rfl
@[simp] theorem stopView_mStrCh (n : Nat) (f : StrCh → StrCh) : (b.mStrCh n f).stopView = b.stopView := rfl
@[simp] theorem stopView_mColl (f : Coll → Coll) : (b.mColl f).stopView = b.stopView := rfl
@[simp] theorem stopView_mCollSlot (n : Nat) (f : CollSlot → CollSlot) : (b.mCollSlot n f).stopView = b.stopView := rfl
@[simp] theorem stopView_mGenSlot (n : Nat) (f : GenSlot → GenSlot) : (b.mGenSlot n f).stopView = b.stopView := rfl
@[simp] theorem stopView_unmap (c : Nat) (own : List Nat) : (b.unmap c own).stopView = b.stopView := rfl

theorem dmCh_mDmCh (n k : Nat) (f : DmCh → DmCh) :
    (b.mDmCh n f).dmCh k = if n = k then f (b.dmCh n) else b.dmCh k := by
  unfold Block.mDmCh Block.dmCh
  rw [Block.mDm_tsu, smGet_smMod]

/-- A channel that stays in its state. -/
theorem stopView_mDmCh {n : Nat} {f : DmCh → DmCh} (hf : ∀ c, (f c).st = c.st := by intro c; rfl) :
    (b.mDmCh n f).stopView = b.stopView := by
  refine congrArg (fun st => (b.tsu.ctxs, b.tsu.boot, b.dist, st)) (funext fun k => ?_)
  rw [dmCh_mDmCh]
  split
  · next hk => rw [hf, hk]
  · rfl

end

/-! ### Waits and frames -/

section
variable (b : Block)

@[simp] theorem stopView_wsDone (i : Nat) (r : WRes) : (b.wsDone i r).stopView = b.stopView :=
  stopView_of_lessWaits (lessWaits_wsDone b i r)

@[simp] theorem stopView_send (p : Plane) (w : Bool) (f : FrameBody) : (b.send (.tsu p) w f).stopView = b.stopView :=
  stopView_of_lessWaits (lessWaits_send b p w f)

@[simp] theorem stopView_wsWithdraw (i : Nat) (st : Byte) (arr cancel : Bool) (e : HallEnd) :
    (b.wsWithdraw i st arr cancel e).stopView = b.stopView :=
  stopView_of_lessWaits (lessWaits_wsWithdraw b i st arr cancel e)

@[simp] theorem stopView_releaseAwait (c : Nat) (st : Byte) : (b.releaseAwait c st).stopView = b.stopView :=
  stopView_of_lessWaits (lessWaits_releaseAwait b c st)

@[simp] theorem stopView_hallSend (tag : BitVec 16) (ha : BitVec 64) (op : BitVec 4) (nowait : Bool) (x : Tick)
    (d : BitVec 64) (secure : Bool) : (b.hallSend tag ha op nowait x d secure).stopView = b.stopView :=
  stopView_send _ _ _ _

end

/-! ### Operations on tagged words -/

section
variable (b : Block)

@[simp] theorem stopView_wordFix (n : Nat) : (b.wordFix n).stopView = b.stopView := by
  unfold Block.wordFix
  dsimp only
  split <;> rfl

@[simp] theorem stopView_wordTry (q : Req) (src : BitVec 4) (n op : Nat) (d : BitVec 64) (waits : Bool) :
    (b.wordTry q src n op d waits).2.stopView = b.stopView := by
  unfold Block.wordTry
  split
  · rfl
  dsimp only
  split
  · rfl
  split
  · exact stopView_wordFix b n
  split
  · exact stopView_wordFix b n
  dsimp only
  split <;> exact stopView_wordFix b n

@[simp] theorem stopView_examine (n : Nat) : (b.examine n).stopView = b.stopView := by
  refine stopView_each (fun b x => ?_) _ b
  dsimp only
  split
  · exact stopView_wordTry ..
  · exact (stopView_wsDone ..).trans (stopView_wordTry ..)

@[simp] theorem stopView_wordNow (q : Req) (src : BitVec 4) (n op : Nat) (d : BitVec 64) :
    (b.wordNow q src n op d).2.stopView = b.stopView := by
  unfold Block.wordNow
  dsimp only
  split
  · exact stopView_wordTry ..
  · exact (stopView_examine ..).trans (stopView_wordTry ..)

@[simp] theorem stopView_wordRead (q : Req) (src : BitVec 4) (n : Nat) : (b.wordRead q src n).2.stopView = b.stopView := by
  unfold Block.wordRead
  dsimp only
  split <;> exact stopView_wordTry ..

end

/-! ### Streams and collectives -/

section
variable (b : Block)

@[simp] theorem stopView_dropBurst (o : OutBurst) : (b.dropBurst o).stopView = b.stopView := by
  unfold Block.dropBurst Block.outDropped
  split <;> rfl

@[simp] theorem stopView_present (p : Producer) (ch : Nat) (d : Bytes) : (b.present p ch d).stopView = b.stopView := by
  unfold Block.present
  dsimp only
  split
  · rfl
  · exact stopView_dropBurst ..

@[simp] theorem stopView_collSend (n : Nat) (fs : List FrameBody) : (b.collSend n fs).stopView = b.stopView := by
  have hplane (use : Bool) (p : Plane) (w : Bool) (b : Block) :
      (if use then b.each fs fun b f => b.send (.tsu p) w f else b).stopView = b.stopView := by
    split
    · exact stopView_each (fun b f => stopView_send b p w f) fs b
    · rfl
  exact (hplane _ .B _ _).trans (hplane _ .A _ b)

@[simp] theorem stopView_collAbsent (n : Nat) : (b.collAbsent n).stopView = b.stopView :=
  (stopView_mCollSlot ..).trans (stopView_collSend ..)

@[simp] theorem stopView_collUnhook (n : Nat) (cancelled : Bool) : (b.collUnhook n cancelled).stopView = b.stopView :=
  stopView_each (fun b _ => stopView_mStrCh b _ _) _ b

@[simp] theorem stopView_collFinish (n : Nat) (f : CDone) (nres : Nat) (elems : Bytes) (missing : List (BitVec 32)) :
    (b.collFinish n f nres elems missing).stopView = b.stopView := by
  unfold Block.collFinish
  dsimp only
  split <;> simp

@[simp] theorem stopView_collFail (n : Nat) (code : BitVec 3) (flags : BitVec 9) (nmiss : BitVec 16) (npres : BitVec 32)
    (missing : List (BitVec 32)) : (b.collFail n code flags nmiss npres missing).stopView = b.stopView :=
  stopView_collFinish ..

@[simp] theorem stopView_collDone (n : Nat) : (b.collDone n).stopView = b.stopView := rfl

@[simp] theorem stopView_readPerm (q : Req) (base m i : Nat) : (b.readPerm q base m i).2.stopView = b.stopView := by
  induction m generalizing b i with
  | zero => rfl
  | succ m ih =>
    unfold Block.readPerm
    dsimp only
    split
    · exact stopView_wordRead ..
    · exact (ih _ _).trans (stopView_wordRead ..)

@[simp] theorem stopView_collDeliver (n : Nat) (recs recs2 : List CRec) (npres : BitVec 32) (planeB : Bool) :
    (b.collDeliver n recs recs2 npres planeB).stopView = b.stopView := by
  unfold Block.collDeliver
  extract_lets d
  obtain ⟨es, fl, nres⟩ := d.results recs recs2
  dsimp only
  have hperm : (if d.permEn then b.readPerm (b.ctxReq d.ctx) d.permBase ((d.nout + 3) / 4) 0
      else (some [], b)).2.stopView = b.stopView := by
    split <;> simp
  generalize (if d.permEn then b.readPerm (b.ctxReq d.ctx) d.permBase ((d.nout + 3) / 4) 0 else (some [], b)) = r at hperm ⊢
  obtain ⟨perm, b1⟩ := r
  cases perm <;> dsimp only <;> simpa using hperm

@[simp] theorem stopView_collDie (n : Nat) : (b.collDie n).stopView = b.stopView := stopView_collDeliver ..

@[simp] theorem stopView_collTry (n : Nat) : (b.collTry n).stopView = b.stopView := by
  unfold Block.collTry
  dsimp only
  repeat' split
  all_goals simp

@[simp] theorem stopView_collSource (n i : Nat) (x : InBurst) : (b.collSource n i x).stopView = b.stopView :=
  stopView_collTry ..

@[simp] theorem stopView_credit (k : Nat) : (b.credit k).stopView = b.stopView := by
  unfold Block.credit
  dsimp only
  split
  · rfl
  · split <;> rfl

@[simp] theorem stopView_feed (f : Nat) (ch : Nat) : (Block.feed f b ch).stopView = b.stopView := by
  induction f generalizing b with
  | zero => rfl
  | succ f ih =>
    unfold Block.feed
    split
    · split
      · rfl
      · split
        · rfl
        · simp [ih]
    · rfl

@[simp] theorem stopView_truncBurst (ch : Nat) : (b.truncBurst ch).stopView = b.stopView := by
  unfold Block.truncBurst
  split <;> simp

@[simp] theorem stopView_strSettle (ch : Nat) : (b.strSettle ch).stopView = b.stopView := by
  unfold Block.strSettle
  dsimp only
  split <;> simp

@[simp] theorem stopView_strStopOut (ch : Nat) : (b.strStopOut ch).stopView = b.stopView :=
  stopView_each (fun b o => stopView_dropBurst b o) _ _

@[simp] theorem stopView_strDisable (ch : Nat) : (b.strDisable ch).stopView = b.stopView := by
  unfold Block.strDisable
  dsimp only
  split
  · simp
  · split <;> simp

end

/-! ### The stop of a context (R114, R175) -/

section
variable (b : Block) (c : Nat)

@[simp] theorem stopView_wsClear : (b.wsClear c).stopView = b.stopView := by
  refine stopView_each (fun b k => ?_) _ b
  dsimp only
  split <;> simp

@[simp] theorem stopView_clearing : (b.clearing c).stopView = b.stopView := by
  unfold Block.clearing
  dsimp only
  rw [stopView_releaseAwait, stopView_each (fun b x => stopView_wsWithdraw b _ _ _ _ _), stopView_wsClear,
    stopView_each (fun b n => stopView_mSlot b n _), stopView_unmap]

@[simp] theorem stopView_timersStop : (b.timersStop c).stopView = b.stopView :=
  stopView_each (fun b n => stopView_mTimer b n _) _ b

@[simp] theorem stopView_collCancel (n : Nat) : (b.collCancel n).stopView = b.stopView := by
  unfold Block.collCancel
  dsimp only
  split
  · rfl
  · split <;> simp

/-- CANCEL of a slot ends it with code 2 at once, or once its bursts have left: no signal is raised. -/
@[simp] theorem stopView_genCancel (n : Nat) : (b.genCancel n).stopView = b.stopView := by
  unfold Block.genCancel
  dsimp only
  split
  · rfl
  · have hcancel : ((b.mGenSlot n fun s => { s with cancel := true }).genSlot n).cancel = true := by
      simp [Block.mGenSlot, Block.mGen, Block.genSlot]
    unfold Block.genComplete
    dsimp only
    split
    · rfl
    · rw [Block.genEnd_silent (.inl rfl)]
      rfl

end

/-! ### The data mover's channels (R293) -/

section
variable (b : Block) (n : Nat)

@[simp] theorem stopView_dmErr (dir src : Bool) (code : BitVec 3) (addr : BitVec 64) (at_ : Nat) :
    (b.dmErr n dir src code addr at_).stopView = b.stopView :=
  stopView_mDmCh b (by intro c; dsimp only; split <;> rfl)

@[simp] theorem stopView_dmHallReq (s : DmSide) (k : Nat) (wr : Bool) (d : BitVec 64) :
    (b.dmHallReq n s k wr d).stopView = b.stopView := by
  unfold Block.dmHallReq
  split
  · exact stopView_dmErr ..
  split
  · rw [stopView_dmErr]
    split <;> rfl
  · exact (stopView_hallSend ..).trans (stopView_mDmCh b)

@[simp] theorem stopView_dmPut (q : Req) (m w : Nat) (d : Bytes) : (b.dmPut q m w d).2.stopView = b.stopView := by
  induction m generalizing b w d with
  | zero => rfl
  | succ m ih =>
    unfold Block.dmPut
    dsimp only
    split
    · exact stopView_wordNow ..
    · exact (ih _ _ _).trans (stopView_wordNow ..)

/-- A unit that leaves the holding register. -/
@[simp] theorem stopView_dmWrite : (b.dmWrite n).stopView = b.stopView := by
  unfold Block.dmWrite
  extract_lets c s k w q d b1
  have h0 : (b.mDmCh n fun c => ({ c with wr := k + w }).take []).stopView = b.stopView := stopView_mDmCh b
  have h1 : b1.stopView = b.stopView := h0
  clear_value b1
  split
  · exact (stopView_mDmCh b1).trans h1
  · split
    · exact (stopView_dmErr ..).trans h1
    · next i m _ =>
      have hput := (stopView_dmPut b1 q m i d).trans h1
      dsimp only
      split
      · exact (stopView_mDmCh _).trans hput
      · exact (stopView_dmErr ..).trans hput
  · exact (stopView_dmHallReq ..).trans h1

end

/-- A channel that is off or on its way there. -/
def DmSt.halting (st : DmSt) : Bool := st == .off || st == .stopping

theorem DmSt.halting_iff {st : DmSt} : st.halting = true ↔ st = .off ∨ st = .stopping := by simp [DmSt.halting]

section
variable {b : Block} {n : Nat}

/-- A channel that is stopping reads nothing. -/
theorem Block.dmCanRead_halting (h : (b.dmCh n).st.halting = true) : b.dmCanRead n = false := by
  rcases DmSt.halting_iff.1 h with h | h <;> simp [Block.dmCanRead, h]

/-- The one control action left to a channel that is stopping is to reach OFF. -/
theorem Block.dmCtl_halting (h : (b.dmCh n).st.halting = true) {c : Block} (hc : b.dmCtl n = some c) :
    c = b.dmOff n := by
  rcases DmSt.halting_iff.1 h with h | h
  · simp [Block.dmCtl, h] at hc
  · simp only [Block.dmCtl, h] at hc
    obtain ⟨-, hoff⟩ : _ ∧ b.dmOff n = c := by simpa using hc
    exact hoff.symm

/-- A channel at OFF, its sets discarded. -/
def DmCh.atOff (c : DmCh) : DmCh :=
  { c with
    st := .off, step := .none, cur := {}, shadow := {}, shadowValid := false, rd := 0, hold := [], hb := 0, wr := 0, acked := 0
    fetch := false, poll := none, kick := false, errAt := none }

/-- In Cloakroom no held enable starts a channel again. -/
theorem Block.dmOff_inCloak (hin : b.tsu.boot.inCloak = true) : b.dmOff n = b.mDmCh n DmCh.atOff := by
  refine mDmCh_congr ?_
  simp [hin, DmCh.atOff]

theorem dmCh_dmOff_halting (hin : b.tsu.boot.inCloak = true) (k : Nat) (h : (b.dmCh k).st.halting = true) :
    ((b.dmOff n).dmCh k).st.halting = true := by
  rw [Block.dmOff_inCloak hin, dmCh_mDmCh]
  split
  · rfl
  · exact h

/-- With every channel stopping, the engines only write what is left and bring channels to OFF. -/
theorem dmPump_halting (f : Nat) (hin : b.tsu.boot.inCloak = true) (hch : ∀ k, (b.dmCh k).st.halting = true) :
    (Block.dmPump f b).tsu.ctxs = b.tsu.ctxs ∧ (Block.dmPump f b).tsu.boot = b.tsu.boot ∧
      (Block.dmPump f b).dist = b.dist := by
  induction f generalizing b with
  | zero => exact ⟨rfl, rfl, rfl⟩
  | succ f ih =>
    unfold Block.dmPump
    split
    · split <;> exact ⟨rfl, rfl, rfl⟩
    split
    · next n _ =>
      have hw := stopView_dmWrite b n
      have hrest := ih (b := b.dmWrite n) (by rw [boot_of_stopView hw, hin])
        fun k => by rw [dmSt_of_stopView hw, hch]
      rwa [ctxs_of_stopView hw, boot_of_stopView hw, dist_of_stopView hw] at hrest
    split
    · next n hn =>
      have hread := List.find?_some hn
      rw [Block.dmCanRead_halting (hch n)] at hread
      cases hread
    split
    · next c hc =>
      obtain ⟨n, _, hn⟩ := List.exists_of_findSome?_eq_some hc
      rw [Block.dmCtl_halting (hch n) hn]
      exact ih (b := b.dmOff n) hin fun k => dmCh_dmOff_halting hin k (hch k)
    · exact ⟨rfl, rfl, rfl⟩

theorem dmGo_halting (hin : b.tsu.boot.inCloak = true) (hch : ∀ k, (b.dmCh k).st.halting = true) :
    b.dmGo.tsu.ctxs = b.tsu.ctxs ∧ b.dmGo.tsu.boot = b.tsu.boot ∧ b.dmGo.dist = b.dist := by
  unfold Block.dmGo
  split
  · exact ⟨rfl, rfl, rfl⟩
  · exact dmPump_halting 4096 hin hch

end

end Sys2Proof.Machine
end

section
/-! SUPPORT. Cloakroom: entry, the stop of everything, the forced stop, the drain and the exit (R380, R406 to R410). -/

namespace Sys2Proof.Machine

open Sys2Proof

/-! ### Sparse maps -/

/-- What the listed values and the default share is true of every value. -/
theorem smGet_of_forall {α : Type} {P : α → Prop} {d : α} {l : List (Nat × α)} (hd : P d) (hl : ∀ e ∈ l, P e.2) (n : Nat) :
    P (smGet d l n) := by
  induction l with
  | nil => exact hd
  | cons e t ih =>
    rw [smGet]
    split
    · exact hl e (.head t)
    · exact ih fun x hx => hl x (.tail e hx)

/-- A value that the default is not belongs to a listed key. -/
theorem mem_smKeys {α : Type} {p : α → Bool} {d : α} {l : List (Nat × α)} (hd : p d = false) {n : Nat}
    (h : p (smGet d l n) = true) : n ∈ smKeys p l := by
  induction l with
  | nil => rw [smGet, hd] at h; cases h
  | cons e t ih =>
    rw [smGet] at h
    by_cases he : e.1 = n
    · rw [if_pos he] at h
      simp [smKeys, h, he]
    · rw [if_neg he] at h
      have ht := ih h
      simp only [smKeys, List.filter_cons] at ht ⊢
      split
      · exact .tail _ ht
      · exact ht

theorem smKeys_eq_nil {α : Type} {p : α → Bool} {l : List (Nat × α)} (h : ∀ e ∈ l, p e.2 = false) : smKeys p l = [] := by
  rw [smKeys, List.filter_eq_nil_iff.2 fun e he => by simp [h e he]]
  rfl

section
variable {b : Block} {n : Nat} {s : State}

/-! ### The channels -/

/-- EN = 0 leaves a channel off or stopping. -/
theorem Block.dmDisable_eq (b : Block) (n : Nat) :
    ∃ f, b.dmDisable n = b.mDmCh n f ∧ (f (b.dmCh n)).st.halting = true := by
  by_cases hoff : (b.dmCh n).st = .off ∨ (b.dmCh n).st = .stopping
  · exact ⟨_, dmDisable_off hoff, DmSt.halting_iff.2 hoff⟩
  · rw [not_or] at hoff
    by_cases hhalt : (b.dmCh n).st = .haltErr
    · exact ⟨_, dmDisable_haltErr hhalt, rfl⟩
    · exact ⟨_, dmDisable_stopping hoff.1 hoff.2 hhalt, rfl⟩

/-- After EN = 0 of the channels listed, these and those that were stopping already are off or stopping. -/
theorem each_dmDisable (l : List Nat) (b : Block) :
    (b.each l Block.dmDisable).tsu.ctxs = b.tsu.ctxs ∧ (b.each l Block.dmDisable).tsu.boot = b.tsu.boot ∧
      (b.each l Block.dmDisable).dist = b.dist ∧
      ∀ k, k ∈ l ∨ (b.dmCh k).st.halting = true → ((b.each l Block.dmDisable).dmCh k).st.halting = true := by
  induction l generalizing b with
  | nil => exact ⟨rfl, rfl, rfl, fun k h => h.resolve_left List.not_mem_nil⟩
  | cons n l ih =>
    obtain ⟨f, hf, hst⟩ := b.dmDisable_eq n
    obtain ⟨hctxs, hboot, hdist, hch⟩ := ih (b.dmDisable n)
    rw [hf] at hctxs hboot hdist hch
    rw [Block.each, List.foldl_cons, hf]
    refine ⟨hctxs, hboot, hdist, fun k hk => hch k ?_⟩
    rw [dmCh_mDmCh]
    by_cases hnk : n = k
    · rw [if_pos hnk]
      exact .inr hst
    · rw [if_neg hnk]
      exact hk.imp_left fun h => (List.mem_cons.1 h).resolve_left fun e => hnk e.symm

/-- The stop of every channel reaches no context, nothing of the boot and nothing of the distributor. -/
theorem Block.stopChannels_keeps (hin : b.tsu.boot.inCloak = true) :
    b.stopChannels.tsu.ctxs = b.tsu.ctxs ∧ b.stopChannels.tsu.boot = b.tsu.boot ∧ b.stopChannels.dist = b.dist := by
  unfold Block.stopChannels
  obtain ⟨hctxs, hboot, hdist, hch⟩ := each_dmDisable (smKeys (fun c => c.st != .off) b.tsu.dm.chs) b
  set b1 := b.each (smKeys (fun c => c.st != .off) b.tsu.dm.chs) Block.dmDisable
  have hstr := stopView_each (fun b n => stopView_strDisable b n) (smKeys (fun c => c.st != .off) b1.tsu.str.chs) b1
  set b2 := b1.each (smKeys (fun c => c.st != .off) b1.tsu.str.chs) Block.strDisable
  have hstopped (k : Nat) : (b2.dmCh k).st.halting = true := by
    rw [dmSt_of_stopView hstr]
    refine hch k ?_
    by_cases hoff : (b.dmCh k).st = .off
    · exact .inr (DmSt.halting_iff.2 (.inl hoff))
    · exact .inl (mem_smKeys (d := {}) rfl (by rw [bne_iff_ne]; exact hoff))
  have hgo := dmGo_halting (by rw [boot_of_stopView hstr, hboot, hin]) hstopped
  rwa [ctxs_of_stopView hstr, boot_of_stopView hstr, dist_of_stopView hstr, hctxs, hboot, hdist] at hgo

/-- Channels that are all off have nothing to run. -/
theorem Block.dmGo_allOff (h : ∀ e ∈ b.tsu.dm.chs, e.2.st = .off) : b.dmGo = b := by
  have hoff (n : Nat) : (b.dmCh n).st = .off := smGet_of_forall (P := fun c : DmCh => c.st = .off) rfl h n
  have hready : (b.tsu.dm.chs.any fun e => e.2.ready) = false :=
    List.any_eq_false.2 fun e he => by simp [DmCh.ready, h e he]
  have hwrite : b.dmCanWrite = fun _ => false := funext fun n => by simp [Block.dmCanWrite, hoff]
  have hread : b.dmCanRead = fun _ => false := funext fun n => by simp [Block.dmCanRead, hoff]
  have hctl : b.dmCtl = fun _ => none := funext fun n => by simp [Block.dmCtl, hoff]
  unfold Block.dmGo
  split
  · rfl
  · rw [Block.dmPump, hready, hwrite, hread, hctl, List.find?_eq_none.2 (by simp), List.find?_eq_none.2 (by simp),
      List.findSome?_eq_none_iff.2 (by simp)]
    simp

theorem Block.stopChannels_allOff (hdm : ∀ e ∈ b.tsu.dm.chs, e.2.st = .off) (hstr : ∀ e ∈ b.tsu.str.chs, e.2.st = .off) :
    b.stopChannels = b := by
  have hdmKeys : smKeys (fun c : DmCh => c.st != .off) b.tsu.dm.chs = [] := smKeys_eq_nil fun e he => by simp [hdm e he]
  have hstrKeys : smKeys (fun c : StrCh => c.st != .off) b.tsu.str.chs = [] := smKeys_eq_nil fun e he => by simp [hstr e he]
  rw [Block.stopChannels, hdmKeys, Block.each_nil, hstrKeys, Block.each_nil, dmGo_allOff hdm]

/-! ### The stop of a context (R114, R406) -/

/-- What STOPPING leaves of a context. -/
def Ctx.stopped (x : Ctx) : Ctx :=
  { x with
    st := .stopping, enPend := false, sched := none, heldGo := none, missedWin := false, interval := none, arm := none
    run := { x.run with accOn := false } }

/-- The stop of a context changes no other, and nothing of the boot and of the distributor. -/
theorem stopView_ctxStop {c : Nat} (hoff : (b.ctx c).st ≠ .off) (hstop : (b.ctx c).st ≠ .stopping) :
    (b.ctxStop c).stopView = (b.mCtx c Ctx.stopped).stopView := by
  have hquiesce (b : Block) (l : List Nat) :
      (b.each l fun b n => b.mEp n fun e => { e with quiesce := false }).stopView = b.stopView :=
    stopView_each (fun b n => stopView_mEp b n _) l b
  have hcoll (b : Block) :
      (b.each (List.range 16) fun b n => if (b.collSlot n).desc.ctx = c then b.collCancel n else b).stopView = b.stopView :=
    stopView_each (fun b n => by split <;> simp) _ b
  have hgen (b : Block) :
      (b.each (List.range 8) fun b n => if (b.genSlot n).ctx = c then b.genCancel n else b).stopView = b.stopView :=
    stopView_each (fun b n => by split <;> simp) _ b
  have hmCtx {b d : Block} (h : b.stopView = d.stopView) (f : Ctx → Ctx) : (b.mCtx c f).stopView = (d.mCtx c f).stopView := by
    refine Prod.ext ?_ (congrArg Prod.snd h : b.stopView.2 = d.stopView.2)
    exact congrArg (fun l => smMod {} l c f) (ctxs_of_stopView h)
  unfold Block.ctxStop
  dsimp only
  rw [if_neg (by simp [hoff, hstop]), hgen, hcoll, stopView_timersStop, stopView_clearing]
  refine hmCtx ?_ Ctx.stopped
  split
  · exact hquiesce b _
  · rfl

/-! ### Entry (R407) -/

theorem exec_cloakroomEntry (s : State) : exec .cloakroomEntry s = .next { s with blk := s.blk.cloakEnter } := rfl

/-- The block in Cloakroom, before anything stops. -/
def Block.inCloak (b : Block) : Block := b.mBoot fun t => { t with
  inCloak := true, hostReady := false, computeRst := true, exitPend := false, crCnt := sat1 t.crCnt, cloakAt := b.tc }

theorem Block.cloakEnter_again (hlive : b.live = true) (hin : b.tsu.boot.inCloak = true) :
    b.cloakEnter = b.mBoot fun t => { t with computeRst := true, exitPend := false } := by
  rw [Block.cloakEnter, if_neg (by simp [hlive]), if_pos hin]

theorem Block.cloakEnter_first (hlive : b.live = true) (hin : b.tsu.boot.inCloak = false) :
    b.cloakEnter = (b.inCloak.each (b.ctxsWhere fun x => x.st != .off) fun b c =>
      (b.mFlags c fun f => { f with withdrawn := true }).ctxStop c).stopChannels := by
  rw [Block.cloakEnter, if_neg (by simp [hlive]), if_neg (by simp [hin])]
  rfl

/-- With every context and channel off there is nothing to stop. -/
theorem Block.cloakEnter_allOff (hlive : b.live = true) (hin : b.tsu.boot.inCloak = false)
    (hdm : ∀ e ∈ b.tsu.dm.chs, e.2.st = .off) (hstr : ∀ e ∈ b.tsu.str.chs, e.2.st = .off)
    (hctxs : ∀ e ∈ b.tsu.ctxs, e.2.st = .off) : b.cloakEnter = b.inCloak := by
  have hoff (c : Nat) : (b.ctx c).st = .off := smGet_of_forall (P := fun x : Ctx => x.st = .off) rfl hctxs c
  have hnone : b.ctxsWhere (fun x => x.st != .off) = [] :=
    List.filter_eq_nil_iff.2 fun c _ => by simp [hoff c]
  rw [cloakEnter_first hlive hin, hnone, each_nil]
  exact stopChannels_allOff hdm hstr

/-- The block in Cloakroom whose context `c` is withdrawn. -/
def Block.withdrawn (b : Block) (c : Nat) : Block := b.inCloak.mFlags c fun f => { f with withdrawn := true }

/-- One context is not OFF: it is withdrawn and stops. -/
theorem Block.cloakEnter_one {c : Nat} (hlive : b.live = true) (hin : b.tsu.boot.inCloak = false)
    (hone : (b.ctxsWhere fun x => x.st != .off) = [c]) (hstop : (b.ctx c).st ≠ .stopping) :
    b.cloakEnter.tsu.ctxs = ((b.withdrawn c).mCtx c Ctx.stopped).tsu.ctxs ∧
      b.cloakEnter.tsu.boot = b.inCloak.tsu.boot ∧ b.cloakEnter.dist = b.dist := by
  have hoff : (b.ctx c).st ≠ .off := by
    have hmem : c ∈ b.ctxsWhere fun x => x.st != .off := by rw [hone]; exact .head _
    simpa using (List.mem_filter.1 hmem).2
  have hctx : ((b.withdrawn c).ctx c).st = (b.ctx c).st := by
    rw [Block.withdrawn, ctx_mFlags, if_pos rfl]
    rfl
  have hview := stopView_ctxStop (c := c) (b := b.withdrawn c) (by rwa [hctx]) (by rwa [hctx])
  have hboot : ((b.withdrawn c).ctxStop c).tsu.boot = b.inCloak.tsu.boot := (boot_of_stopView hview).trans rfl
  have hdist : ((b.withdrawn c).ctxStop c).dist = b.dist := (dist_of_stopView hview).trans rfl
  have hstopped := stopChannels_keeps (b := (b.withdrawn c).ctxStop c) (by rw [hboot]; rfl)
  rw [ctxs_of_stopView hview, hboot, hdist] at hstopped
  have henter : b.cloakEnter = ((b.withdrawn c).ctxStop c).stopChannels := by
    rw [cloakEnter_first hlive hin, hone]
    rfl
  rwa [henter]

/-! ### The forced stop (R407) -/

theorem exec_cloakroomForcedStop (n : BitVec 3) (s : State) :
    exec (.cloakroomForcedStop n) s = .next { s with blk := s.blk.cloakForce n.toNat } := rfl

theorem Block.cloakForce_early (h : Tick.diff b.tc b.tsu.boot.cloakAt < 1250000) : b.cloakForce n = b :=
  if_pos (by simp [h])

/-- A channel as a forced stop finds nothing outstanding in it: what was is counted as lost. -/
def DmCh.lost (c : DmCh) : DmCh :=
  { c with lostAcks := c.lostAcks + c.wrs.length, lostRds := c.lostRds + c.rds.length, rds := [], wrs := [], halls := [] }

/-- The hall requests of channel `n` are gone, and LOST_ACK is set. -/
def Block.abandon (b : Block) (n : Nat) : Block :=
  (b.mHall fun h => { h with
    out := h.out.filter fun x => hallSrc x.tag != .dm n
    gone := h.gone ++ b.tsu.hall.out.filter fun h => hallSrc h.tag == .dm n }).mBoot fun t => { t with lostAck := true }

theorem Block.cloakForce_due (hin : b.tsu.boot.inCloak = true) (hst : (b.dmCh n).st = .stopping)
    (hdue : 1250000 ≤ Tick.diff b.tc b.tsu.boot.cloakAt) :
    b.cloakForce n = (b.abandon n).mDmCh n fun c => c.lost.atOff := by
  have hforce : b.cloakForce n = ((b.abandon n).mDmCh n DmCh.lost).dmOff n := if_neg (by simp [hin, hst, hdue])
  rw [hforce, Block.dmOff_inCloak (b := (b.abandon n).mDmCh n DmCh.lost) hin, mDmCh_mDmCh]

/-! ### The drain and the exit (R407, R410) -/

theorem exec_cloakroomExit (s : State) : exec .cloakroomExit s = .next { s with
    blk := if !s.blk.tsu.boot.inCloak then s.blk else if s.blk.tsu.boot.crAck then s.blk.cloakExit
      else s.blk.mBoot fun t => { t with exitPend := true, computeRst := false } } := rfl

theorem Block.cloakExit_noneHeld (hdm : ∀ e ∈ b.tsu.dm.chs, e.2.enPend = false)
    (hstr : ∀ e ∈ b.tsu.str.chs, e.2.enPend = false) (hctxs : (b.ctxsWhere fun x => x.enPend) = []) :
    b.cloakExit = (b.mBoot fun t =>
      { t with inCloak := false, crAck := false, exitPend := false, computeRst := false }).sendTopo.dmGo := by
  have hdmKeys : smKeys (fun c : DmCh => c.enPend && c.st == .off) b.tsu.dm.chs = [] :=
    smKeys_eq_nil fun e he => by simp [hdm e he]
  have hstrKeys : smKeys (fun c : StrCh => c.enPend && c.st == .off) b.tsu.str.chs = [] :=
    smKeys_eq_nil fun e he => by simp [hstr e he]
  have hwhere (f : Boot → Boot) : (b.mBoot f).ctxsWhere (fun x => x.enPend) = [] := hctxs
  have hdm' (f : Boot → Boot) : smKeys (fun c : DmCh => c.enPend && c.st == .off) (b.mBoot f).tsu.dm.chs = [] := hdmKeys
  have hstr' (f : Boot → Boot) : smKeys (fun c : StrCh => c.enPend && c.st == .off) (b.mBoot f).tsu.str.chs = [] := hstrKeys
  rw [Block.cloakExit, hwhere, Block.each_nil, hdm', Block.each_nil, hstr', Block.each_nil]

theorem exec_cloakroomDrainDone (s : State) :
    exec .cloakroomDrainDone s = .next { s with blk := s.blk.cloakDone } := rfl

theorem stopView_sendTopo (b : Block) : b.sendTopo.stopView = b.stopView :=
  stopView_each (fun b p => by split <;> simp) _ b

theorem Block.cloakDone_waits (h : b.cloakDrained = false) : b.cloakDone = b := if_pos (by simp [h])

theorem Block.cloakDone_drained (hin : b.tsu.boot.inCloak = true) (hack : b.tsu.boot.crAck = false)
    (hdrained : b.cloakDrained = true) (hexit : b.tsu.boot.exitPend = false) :
    b.cloakDone = (b.mBoot fun t => { t with crAck := true }).sendTopo := by
  have hstays : (b.mBoot fun t => { t with crAck := true }).sendTopo.tsu.boot.exitPend = false := by
    rw [boot_of_stopView (stopView_sendTopo _)]
    exact hexit
  rw [Block.cloakDone, if_neg (by simp [hin, hack, hdrained]), if_neg (by simp [hstays])]

end

/-- Settles O19: entry by what the stops leave alone (`Block.stopView`), the rest by the conditions of its own rule. -/
theorem cloakroom : Obligations.Cloakroom := by
  unfold Obligations.Cloakroom
  refine ⟨fun s hlive hin => ?again, fun s hlive hin hdm hstr hctxs => ?allOff, fun c s hlive hin hone hstop => ?one,
    fun n s hin hst => ?forced, fun s hin => ?notIn, fun s hin hack => ?held, fun s hin hack hdm hstr hctxs => ?leaves,
    fun s hin hack => ?drain⟩
  case again => rw [exec_cloakroomEntry, Block.cloakEnter_again hlive hin]
  case allOff =>
    have hexec := exec_cloakroomEntry s
    rw [Block.cloakEnter_allOff hlive hin hdm hstr hctxs] at hexec
    exact ⟨_, hexec, rfl, rfl, rfl, rfl, rfl, rfl⟩
  case one =>
    obtain ⟨hctxs, hboot, hdist⟩ := Block.cloakEnter_one hlive hin hone hstop
    have hctx (k : Nat) : s.blk.cloakEnter.ctx k =
        ((s.blk.withdrawn c).mCtx c Ctx.stopped).ctx k := by
      rw [Block.ctx, hctxs]
      rfl
    refine ⟨_, exec_cloakroomEntry s, ?_, ?_, ?_, fun k hk => ?_, by rw [hboot]; rfl, hdist, rfl⟩
    · rw [hctx, ctx_mCtx, if_pos rfl]
      rfl
    · rw [hctx, ctx_mCtx, if_pos rfl, Block.withdrawn, ctx_mFlags, if_pos rfl]
      rfl
    · rw [hctx, ctx_mCtx, if_pos rfl]
      rfl
    · rw [hctx, ctx_mCtx, if_neg (Ne.symm hk), Block.withdrawn, ctx_mFlags, if_neg (Ne.symm hk)]
      rfl
  case forced =>
    rw [exec_cloakroomForcedStop]
    refine ⟨fun hearly => ?_, fun hdue => ⟨_, rfl, ?_⟩⟩
    · rw [Block.cloakForce_early hearly]
    · rw [Block.cloakForce_due hin hst hdue]
      refine ⟨?_, ?_, rfl, fun k hk => ?_, rfl, rfl, rfl, rfl⟩
      · rw [dmCh_mDmCh_same]; rfl
      · rw [dmCh_mDmCh_same]; rfl
      · rw [dmCh_mDmCh, if_neg (Ne.symm hk)]; rfl
  case notIn => rw [exec_cloakroomExit, if_pos (by simp [hin])]
  case held => rw [exec_cloakroomExit, if_neg (by simp [hin]), if_neg (by simp [hack])]
  case leaves =>
    rw [exec_cloakroomExit, if_neg (by simp [hin]), if_pos hack, Block.cloakExit_noneHeld hdm hstr hctxs]
  case drain =>
    rw [exec_cloakroomDrainDone]
    exact ⟨fun hd he => by rw [Block.cloakDone_drained hin hack hd he], fun hd => by rw [Block.cloakDone_waits hd]⟩

end Sys2Proof.Machine
end

section
/-! SUPPORT. The power handshake (R344, R382, R383) and MITTEN's entry, wakes and exit (R345 to R351). -/

namespace Sys2Proof.Machine

open Sys2Proof

section
variable {b : Block} {s : State} {d : PwrDomain} {v : Bool}

/-! ### The handshake (R344, R382, R383) -/

theorem exec_powerAck (d : PwrDomain) (v : Bool) (s : State) :
    exec (.powerAck d v) s = .next { s with blk := s.blk.powerAck d v } := rfl

theorem exec_pwrAckLoss (d : PwrDomain) (s : State) :
    exec (.pwrAckLoss d) s = .next { s with blk := s.blk.ackLoss d } := rfl

theorem Block.powerAck_same (h : b.tsu.boot.aonRst = true ∨ b.tsu.pwr.ack.get d = v) : b.powerAck d v = b :=
  if_pos (by rcases h with h | h <;> simp [h])

theorem Block.powerAck_rise (haon : b.tsu.boot.aonRst = false) (hack : b.tsu.pwr.ack.get d = false) :
    b.powerAck d true = (b.mPwr fun p => { p with ack := p.ack.set d true }).domOn d := by
  rw [Block.powerAck, if_neg (by simp [haon, hack]), if_pos rfl]

/-- A domain that is not requested, or is on already, stays as it is. -/
theorem Block.domOn_stays (h : b.tsu.pwr.req.get d = false ∨ b.tsu.pwr.on.get d = true) : b.domOn d = b :=
  if_pos (by rcases h with h | h <;> simp [h])

theorem Block.domOn_mem (hreq : b.tsu.pwr.req.mem = true) (hon : b.tsu.pwr.on.mem = false) :
    b.domOn .mem = b.mPwr fun p => { p with on := { p.on with mem := true } } :=
  if_neg (by simp [Doms.get, hreq, hon])

theorem Block.powerAck_fall (haon : b.tsu.boot.aonRst = false) (hack : b.tsu.pwr.ack.get d = true)
    (hreq : b.tsu.pwr.req.get d = false) : b.powerAck d false =
      if d = .engine ∧ b.tsu.pwr.engWanted then (b.mPwr fun p => { p with ack := p.ack.set d false }).demand
      else b.mPwr fun p => { p with ack := p.ack.set d false } := by
  rw [Block.powerAck, if_neg (by simp [haon, hack]), if_neg (by simp), if_neg (by simp [hreq])]
  rfl

theorem Block.powerAck_loss (haon : b.tsu.boot.aonRst = false) (hack : b.tsu.pwr.ack.get d = true)
    (hreq : b.tsu.pwr.req.get d = true) : b.powerAck d false = b.ackLoss d := by
  rw [Block.powerAck, if_neg (by simp [haon, hack]), if_neg (by simp), if_pos hreq]

theorem Block.ackLoss_not (h : b.tsu.boot.aonRst = true ∨ b.tsu.pwr.req.get d = false ∨ b.tsu.pwr.ack.get d = false) :
    b.ackLoss d = b :=
  if_pos (by rcases h with h | h | h <;> simp [h])

theorem Block.ackLoss_engine (haon : b.tsu.boot.aonRst = false) (hack : b.tsu.pwr.ack.engine = true)
    (hreq : b.tsu.pwr.req.engine = true) : b.ackLoss .engine = b.mPwr fun p => { p with
      pwrLost := true, ack := { p.ack with engine := false }, on := { p.on with engine := false }
      st := if p.st = .on then .idle else p.st } :=
  if_neg (by simp [Doms.get, haon, hack, hreq])

/-! ### MITTEN_REQ (R347, R351) -/

section
variable {a : Access} (hok : s.blk.check (portReq a) 0xE000 true = .ok)
include hok

theorem exec_mittenRequest_secure (hsec : a.secure = true) :
    exec (.mittenRequest a) s = .next { s with blk := s.blk.mitWrite.emit (.reg none 0 0) } := by
  have hexec := State.run_regCmd_ok (fun b => if a.secure then b.mitWrite else if b.tsu.pwr.mittenReq then b
    else b.violate 0 (portReq a) true 0xE000) hok
  rw [if_pos hsec] at hexec
  exact hexec

theorem exec_mittenRequest_other (hsec : a.secure = false) :
    exec (.mittenRequest a) s = .next { s with
      blk := (if s.blk.tsu.pwr.mittenReq then s.blk else s.blk.violate 0 (portReq a) true 0xE000).emit (.reg none 0 0) } := by
  have hexec := State.run_regCmd_ok (fun b => if a.secure then b.mitWrite else if b.tsu.pwr.mittenReq then b
    else b.violate 0 (portReq a) true 0xE000) hok
  rw [if_neg (by simp [hsec])] at hexec
  exact hexec

theorem exec_softwareWake_secure (hsec : a.secure = true) :
    exec (.softwareWake a) s = .next { s with blk := s.blk.unwant.emit (.reg none 0 0) } := by
  have hexec := State.run_regCmd_ok (fun b => if a.secure then b.unwant
    else if b.tsu.pwr.mittenReq then b.violate 0 (portReq a) true 0xE000 else b) hok
  rw [if_pos hsec] at hexec
  exact hexec

theorem exec_softwareWake_other (hsec : a.secure = false) :
    exec (.softwareWake a) s = .next { s with
      blk := (if s.blk.tsu.pwr.mittenReq then s.blk.violate 0 (portReq a) true 0xE000 else s.blk).emit (.reg none 0 0) } := by
  have hexec := State.run_regCmd_ok (fun b => if a.secure then b.unwant
    else if b.tsu.pwr.mittenReq then b.violate 0 (portReq a) true 0xE000 else b) hok
  rw [if_neg (by simp [hsec])] at hexec
  exact hexec

end

theorem Block.mitEnter_accepted (h : b.mitReason = 0) : b.mitEnter = b.mPwr fun p => { p with
    st := .entering, mittenReq := true, incDone := false, heldCause := 0, enPend := false } := if_pos h

theorem Block.mitEnter_refused (h : b.mitReason ≠ 0) : b.mitEnter = b.mPwr fun p => { p with
    mitRef := true, mitReason := b.mitReason, mittenReq := false } := if_neg h

theorem Block.mitWrite_awake (h : b.tsu.pwr.st = .on ∨ b.tsu.pwr.st = .idle) : b.mitWrite = b.mitEnter := by
  rcases h with h | h <;> rw [Block.mitWrite, h]

theorem Block.mitWrite_entering (h : b.tsu.pwr.st = .entering) :
    b.mitWrite = b.mPwr fun p => { p with enPend := false, heldCause := 0 } := by rw [Block.mitWrite, h]

theorem Block.mitWrite_exiting (h : b.tsu.pwr.st = .exiting) :
    b.mitWrite = b.mPwr fun p => { p with mittenReq := true } := by rw [Block.mitWrite, h]

/-! ### Wakes (R349 to R351) -/

theorem Block.wake_mitten {c : BitVec 6} (h : b.tsu.pwr.st = .mitten) : b.wake c = b.mitExit c := by rw [Block.wake, h]

theorem Block.wake_entering {c : BitVec 6} (h : b.tsu.pwr.st = .entering) :
    b.wake c = b.mPwr fun p => { p with enPend := true, heldCause := p.heldCause ||| c } := by rw [Block.wake, h]

theorem Block.wake_other {c : BitVec 6} (hm : b.tsu.pwr.st ≠ .mitten) (he : b.tsu.pwr.st ≠ .entering) : b.wake c = b := by
  unfold Block.wake
  cases h : b.tsu.pwr.st with
  | mitten => exact absurd h hm
  | entering => exact absurd h he
  | on => rfl
  | idle => rfl
  | exiting => rfl

theorem Block.unwant_wakes (h : b.tsu.pwr.st = .mitten ∨ b.tsu.pwr.st = .entering) : b.unwant = b.wake 32 := by
  rcases h with h | h <;> rw [Block.unwant, h]

theorem Block.unwant_clears (h : b.tsu.pwr.st = .on ∨ b.tsu.pwr.st = .idle ∨ b.tsu.pwr.st = .exiting) :
    b.unwant = b.mPwr fun p => { p with mittenReq := false } := by
  rcases h with h | h | h <;> rw [Block.unwant, h]

theorem exec_hostWakeRequest (s : State) : exec .hostWakeRequest s = .next { s with blk := s.blk.wake 1 } := rfl

/-- The LISTEN bit of a lane, and the cause that energy on it sets. -/
def Pwr.listens (p : Pwr) : Plane → Bool
  | .A => p.listenA
  | .B => p.listenB

def laneCause : Plane → BitVec 6
  | .A => 4
  | .B => 8

theorem exec_laneEnergyWake (q : Plane) (s : State) : exec (.laneEnergyWake q) s =
    .next { s with blk := if s.blk.tsu.pwr.listens q then s.blk.wake (laneCause q) else s.blk } := by
  cases q <;> rfl

theorem exec_wakeAtReached (s : State) : exec .wakeAtReached s = .next { s with
    blk := if s.blk.tsu.pwr.wakeAtEn &&
        Tick.le s.blk.tsu.pwr.wakeAt (if s.blk.tsu.pwr.st = .mitten then s.blk.tsu.pwr.mitTc else s.blk.tc) then
      s.blk.wake 2 else s.blk } := rfl

theorem exec_dbgWake {a : Access} (hok : s.blk.check (portReq a) 0xE100 true = .ok) :
    exec (.dbgWake (.port a)) s = .next { s with blk := s.blk.dbgWake.emit (.reg none 0 0) } :=
  State.run_of (f := fun b => b.anyCmd (.port a) 0xE100 fun _ b => b.dbgWake) (Block.anyCmd_port hok)

/-! ### Entry and exit (R348, R350) -/

theorem exec_mittenIncMeasured (inc : BitVec 64) (s : State) :
    exec (.mittenIncMeasured inc) s = .next { s with blk := s.blk.mitMeasured inc } := rfl

theorem exec_mittenEntryComplete (s : State) : exec .mittenEntryComplete s = .next { s with blk := s.blk.mitDone } := rfl

theorem exec_mittenExitDone (s : State) : exec .mittenExitDone s = .next { s with blk := s.blk.mitExitDone } := rfl

theorem Block.mitMeasured_not {inc : BitVec 64} (h : b.tsu.pwr.st ≠ .entering ∨ b.tsu.pwr.incDone = true) :
    b.mitMeasured inc = b :=
  if_pos (by rcases h with h | h <;> simp [h])

/-- With no context and no channel only the lanes and the age of the lock are left to stop. -/
theorem Block.mitMeasured_idle {inc : BitVec 64} (hst : b.tsu.pwr.st = .entering) (hinc : b.tsu.pwr.incDone = false)
    (hctxs : b.tsu.ctxs = []) (hdm : b.tsu.dm.chs = []) (hstr : b.tsu.str.chs = []) :
    b.mitMeasured inc =
      (((b.mPwr fun p => { p with inc := inc, incDone := true }).laneDown (.tsu .A)).laneDown (.tsu .B)).clearAge := by
  have hdrop : b.ctxsWhere (fun x => x.st != .off) = [] := ctxsWhere_noCtx hctxs rfl
  rw [Block.mitMeasured, if_neg (by simp [hst, hinc]), hdrop]
  simp only [each_nil, List.isEmpty_nil, Bool.not_true, Bool.or_false]
  rw [stopChannels_allOff (b := b.mPwr _) (by simp [hdm]) (by simp [hstr])]

theorem Block.mitDone_not (h : b.tsu.pwr.st ≠ .entering ∨ b.tsu.pwr.incDone = false ∨ b.quiet = false) : b.mitDone = b :=
  if_pos (by rcases h with h | h | h <;> simp [h])

theorem Block.mitDone_idle (hst : b.tsu.pwr.st = .entering) (hinc : b.tsu.pwr.incDone = true) (hctxs : b.tsu.ctxs = [])
    (hquiet : b.quiet = true) (hwake : b.tsu.pwr.enPend = false) :
    b.mitDone = b.memLost.mPwr fun p => { p with
      st := .mitten, acc := b.tc ++ (0 : BitVec 32), on := .none, req := .none, mitCnt := sat1 p.mitCnt
      engWanted := false } := by
  have hdrop : b.ctxsWhere (fun x => x.st != .off) = [] := ctxsWhere_noCtx hctxs rfl
  rw [Block.mitDone, if_neg (by simp [hst, hinc, hquiet]), hdrop, each_nil, hwake]
  rfl

/-- What ends an exit besides its state: TIME, MEM and its initialisation, and the lanes that are enabled. -/
def Block.exitReady (b : Block) : Bool :=
  let p := b.tsu.pwr
  p.on.time && p.on.mem && b.tsu.tm.initDone && ((p.on.linkA || !p.req.linkA) && (p.on.linkB || !p.req.linkB))

theorem Block.mitExitDone_not (h : b.tsu.pwr.st ≠ .exiting ∨ b.exitReady = false) : b.mitExitDone = b := by
  refine if_pos ?_
  rcases h with h | h
  · simp [h]
  · simp only [Block.exitReady, Bool.and_eq_false_iff] at h
    rcases h with ((h | h) | h) | h | h <;> simp [Block.linkOn, h]

/-- The end of an exit: a held request is applied, and ENGINE is asked for without ENG_AUTO. -/
theorem Block.mitExitDone_ready (hst : b.tsu.pwr.st = .exiting) (hready : b.exitReady = true) : b.mitExitDone =
    let c := b.mPwr fun p => { p with st := .idle }
    let c := if b.tsu.pwr.mittenReq then c.mitEnter else c
    if !b.tsu.pwr.engAuto && c.tsu.pwr.st == .idle then c.demand else c := by
  simp only [Block.exitReady, Bool.and_eq_true] at hready
  obtain ⟨⟨⟨htime, hmem⟩, hinit⟩, hA, hB⟩ := hready
  exact if_neg (by simp [hst, htime, hmem, hinit, Block.linkOn, hA, hB])

end

/-- Settles O33: each command by its rule in the power state it meets. -/
theorem powerAndMitten : Obligations.PowerAndMitten := by
  unfold Obligations.PowerAndMitten
  refine ⟨fun d v s => ?handshake, fun a s hok => ?request, fun inc s => ?entry, fun q s => ?wakes, fun s => ?exit⟩
  case handshake =>
    refine ⟨fun h => ?_, fun haon hack h => ?_, fun haon hack hreq hon => ?_, fun haon hack hreq hd => ?_,
      fun haon hack hreq hw => ?_, fun haon hack hreq => ⟨?_, ?_⟩, fun h => ?_⟩
    · rw [exec_powerAck, Block.powerAck_same h]
    · rw [exec_powerAck, Block.powerAck_rise haon hack,
        Block.domOn_stays (b := s.blk.mPwr fun p => { p with ack := p.ack.set d true }) h]
    · rw [exec_powerAck, Block.powerAck_rise (d := .mem) haon hack,
        Block.domOn_mem (b := s.blk.mPwr fun p => { p with ack := p.ack.set .mem true }) hreq hon]
      rfl
    · rw [exec_powerAck, Block.powerAck_fall haon hack hreq]
      rw [if_neg (by rintro ⟨rfl, hw⟩; rcases hd with hd | hd; exacts [hd rfl, by simp [hd] at hw])]
    · rw [exec_powerAck, Block.powerAck_fall (d := .engine) haon hack hreq, if_pos ⟨rfl, hw⟩]
      rfl
    · rw [exec_pwrAckLoss, Block.ackLoss_engine haon hack hreq]
    · rw [exec_powerAck, Block.powerAck_loss (d := .engine) haon hack hreq, Block.ackLoss_engine haon hack hreq]
    · rw [exec_pwrAckLoss, Block.ackLoss_not h]
  case request =>
    refine ⟨fun hsec hst h => ?_, fun hsec hst h => ?_, fun hsec hst => ?_, fun hsec hst => ?_, fun hsec hst => ?_,
      fun hsec hst => ?_, fun hsec hreq => ⟨?_, ?_⟩, fun hsec hreq => ⟨?_, ?_⟩⟩
    · rw [exec_mittenRequest_secure hok hsec, Block.mitWrite_awake hst, Block.mitEnter_accepted h]
    · rw [exec_mittenRequest_secure hok hsec, Block.mitWrite_awake hst, Block.mitEnter_refused h]
    · rw [exec_mittenRequest_secure hok hsec, Block.mitWrite_entering hst]
    · rw [exec_mittenRequest_secure hok hsec, Block.mitWrite_exiting hst]
    · rw [exec_softwareWake_secure hok hsec, Block.unwant_clears hst]
    · rw [exec_softwareWake_secure hok hsec, Block.unwant_wakes (.inr hst), Block.wake_entering hst]
    · rw [exec_mittenRequest_other hok hsec, if_neg (by simp [hreq])]
    · rw [exec_softwareWake_other hok hsec, if_neg (by simp [hreq])]
    · rw [exec_softwareWake_other hok hsec, if_pos hreq]
    · rw [exec_mittenRequest_other hok hsec, if_pos hreq]
  case entry =>
    refine ⟨fun h => ?_, fun hst hinc hctxs hdm hstr => ?_, fun h => ?_, fun hst hinc hctxs hquiet hwake => ?_⟩
    · rw [exec_mittenIncMeasured, Block.mitMeasured_not h]
    · rw [exec_mittenIncMeasured, Block.mitMeasured_idle hst hinc hctxs hdm hstr]
      rfl
    · rw [exec_mittenEntryComplete, Block.mitDone_not h]
    · rw [exec_mittenEntryComplete, Block.mitDone_idle hst hinc hctxs hquiet hwake]
  case wakes =>
    have hlistens (v : Bool) (hl : (match q with | .A => s.blk.tsu.pwr.listenA | .B => s.blk.tsu.pwr.listenB) = v) :
        s.blk.tsu.pwr.listens q = v := by
      cases q <;> exact hl
    refine ⟨fun hst => ?_, fun hst => ?_, fun hm he => ?_, fun hst hl => ?_, fun hst hl => ?_, fun hl => ?_,
      fun hst hen hle => ?_, fun hst hen hle => ?_, fun hen => ?_, fun a hok hst => ⟨fun hlv => ?_, fun hlv => ?_⟩,
      fun a hok hsec hst => ?_⟩
    · rw [exec_hostWakeRequest, Block.wake_mitten hst]
      rfl
    · rw [exec_hostWakeRequest, Block.wake_entering hst]
    · rw [exec_hostWakeRequest, Block.wake_other hm he]
    · rw [exec_laneEnergyWake, if_pos (hlistens _ hl), Block.wake_mitten hst]
      cases q <;> rfl
    · rw [exec_laneEnergyWake, if_pos (hlistens _ hl), Block.wake_entering hst]
      cases q <;> rfl
    · rw [exec_laneEnergyWake, if_neg (by rw [hlistens _ hl]; decide)]
    · rw [exec_wakeAtReached, if_pos (by rw [hen, if_pos hst]; exact hle), Block.wake_mitten hst]
      rfl
    · rw [exec_wakeAtReached, if_pos (by rw [hen, if_neg (by rw [hst]; decide)]; exact hle), Block.wake_entering hst]
    · rw [exec_wakeAtReached, if_neg (by simp [hen])]
    · rw [exec_dbgWake hok, Block.dbgWake, if_neg hlv, Block.wake_mitten hst]
      rfl
    · rw [exec_dbgWake hok, Block.dbgWake, if_pos hlv]
    · rw [exec_softwareWake_secure hok hsec, Block.unwant_wakes (.inl hst), Block.wake_mitten hst]
      rfl
  case exit =>
    refine ⟨fun h => ?_, fun hst htime hmem hinit hlanes hreq => ⟨fun hauto => ?_, fun hauto => ?_⟩,
      fun hst htime hmem hinit hlanes hreq hr => ?_⟩ <;> rw [exec_mittenExitDone]
    · rw [Block.mitExitDone_not (h.imp_right fun h => by rcases h with h | h | h | h <;> simp [Block.exitReady, h])]
    · rw [Block.mitExitDone_ready hst (by simp [Block.exitReady, htime, hmem, hinit, hlanes])]
      simp [hreq, hauto]
    · rw [Block.mitExitDone_ready hst (by simp [Block.exitReady, htime, hmem, hinit, hlanes])]
      simp [hreq, hauto]
    · have henter : (s.blk.mPwr fun p => { p with st := .idle }).mitEnter = s.blk.mPwr fun p => { p with
          st := .entering, mittenReq := true, incDone := false, heldCause := 0, enPend := false } :=
        Block.mitEnter_accepted (b := s.blk.mPwr _) hr
      rw [Block.mitExitDone_ready hst (by simp [Block.exitReady, htime, hmem, hinit, hlanes])]
      simp only [hreq, henter]
      simp

end Sys2Proof.Machine
end

section
/-! SUPPORT. Image delivery at a target TSU (R411 to R419). -/

namespace Sys2Proof.Machine

open Sys2Proof

section
variable {b : Block} {h : Hdr} {s : State} {p : Plane} {a : ImgAddr}

@[simp] theorem img_rxBook (b : Block) (l : LaneRef) (h : Hdr) (cls : Nat) : (b.rxBook l h cls).tsu.img = b.tsu.img :=
  rxBook_keeps b l h cls (fun b => b.tsu.img) (fun b f => by rcases l with (_ | _) | _ <;> rfl) fun _ _ => rfl

theorem catNat_rxBook (b : Block) (l : LaneRef) (h : Hdr) (cls : Nat) (u : UnitRef) (i sub : Nat) :
    (b.rxBook l h cls).catNat u i sub = b.catNat u i sub :=
  (rxBook_same b l h cls).catNat u i sub

/-- A frame of a delivery that passes every check of a TSU's receiver. -/
theorem exec_of_imgRx_tsu {i : Instr} {k : Block → Block} (hi : exec i s = s.run fun b => b.rx (.tsu p) h 6 3 false k)
    (hok : s.blk.rxOk (.tsu p) h 6 3 false = true) : exec i s = .next { s with blk := k (s.blk.rxBook (.tsu p) h 6) } :=
  hi.trans (State.run_of (rx_ok _ _ _ _ _ _ _ hok))

/-- The same of a frame that a target takes for the delivery in hand alone. -/
theorem exec_of_imgMine_tsu {i : Instr} {k : Block → Block}
    (hi : exec i s = s.run fun b => b.rx (.tsu p) h 6 3 false fun b => if b.tsu.img.mine a then k b else b)
    (hok : s.blk.rxOk (.tsu p) h 6 3 false = true) (hmine : s.blk.tsu.img.mine a = true) :
    exec i s = .next { s with blk := k (s.blk.rxBook (.tsu p) h 6) } := by
  rw [exec_of_imgRx_tsu hi hok, if_pos (by rwa [img_rxBook])]

/-! ### What a target answers (R415 to R417) -/

theorem Block.imgNack_missing (h : b.tsu.img.missing ≠ []) : b.imgNack .tsu =
    b.imgUp .tsu (.imgNack b.tsu.img.addr (imgRanges b.tsu.img.missing)) :=
  if_neg (by simpa [Block.imgOf] using h)

/-- Blocks are still missing, or still being written. -/
theorem Block.imgWhole_notYet (h : b.tsu.img.missing ≠ []) : b.imgWhole .tsu = b :=
  if_pos (by simp [Block.imgOf, h])

/-- The last write is acknowledged: the image is read back. -/
theorem Block.imgWhole_written (hst : b.tsu.img.st = 1) (hmissing : b.tsu.img.missing = []) (hwrites : b.tsu.img.writes = []) :
    b.imgWhole .tsu = (b.mImg .tsu fun x => { x with st := 3 }).emit
      (.hmRead (BitVec.ofNat 64 (b.catNat .tsu 0x7201 1)) b.tsu.img.start.total.toNat 17 true 3) :=
  if_neg (by simp [Block.imgOf, hst, hmissing, hwrites])

/-! ### START (R414) -/

/-- START at a TSU: it is a target of TARGET 0. -/
def Block.imgStartTsu (b : Block) (p : Plane) (a : ImgAddr) (m : ImgStart) : Block :=
  if m.target = 0 then b.imgStartRx .tsu a m (p == .A) (p == .B) else b

theorem exec_imgStartReceive_tsu {m : ImgStart} (hok : s.blk.rxOk (.tsu p) h 6 3 false = true) :
    exec (.imgStartReceive (.tsu p) h a m) s = .next { s with blk := (s.blk.rxBook (.tsu p) h 6).imgStartTsu p a m } :=
  exec_of_imgRx_tsu (k := fun b => b.imgStartTsu p a m) rfl hok

/-- A delivery as it begins. -/
def ImgRx.begun (x : ImgRx) (a : ImgAddr) (m : ImgStart) (now : Tick) (p : Plane) : ImgRx :=
  { ih := a.ih, group := a.group, start := m, st := 1, startAt := now, planeA := p == .A, planeB := p == .B
    dropped := x.dropped, next := x.next, prev := x.prev, taken := x.taken, untaken := x.untaken }

theorem ImgRx.begun_missing {x : ImgRx} {m : ImgStart} {now : Tick} (h : m.nblk ≠ 0) : (x.begun a m now p).missing ≠ [] := by
  have hpos : 0 < m.nblk.toNat := Nat.pos_of_ne_zero (BitVec.toNat_ne_iff_ne.mpr h)
  exact List.ne_nil_of_mem (a := 0) (List.mem_filter.2 ⟨List.mem_range.2 hpos, rfl⟩)

/-- At an idle target an image that its unit takes, and that its buffer holds, begins a delivery. -/
theorem Block.imgStartRx_begins {m : ImgStart} (hst : b.tsu.img.st = 0) (huntaken : b.tsu.img.untaken = false)
    (htakes : imgTakes .tsu m.itype.toNat = true) (hbuf : b.catNat .tsu 0x7201 2 ≠ 0)
    (hfits : m.total.toNat ≤ b.catNat .tsu 0x7201 2) (hblocks : m.nblk ≠ 0) :
    b.imgStartRx .tsu a m (p == .A) (p == .B) = b.mImg .tsu fun x => x.begun a m b.tsu.time.tc64 p := by
  have hbegin : b.imgStartRx .tsu a m (p == .A) (p == .B) = b.imgBegin .tsu a m (p == .A) (p == .B) := by
    simp [Block.imgStartRx, Block.imgOf, ImgRx.busy, hst]
  have hwhole : (b.mImg .tsu fun x => x.begun a m b.tsu.time.tc64 p).imgWhole .tsu =
      b.mImg .tsu fun x => x.begun a m b.tsu.time.tc64 p := Block.imgWhole_notYet (ImgRx.begun_missing hblocks)
  rw [hbegin]
  refine Eq.trans ?_ hwhole
  refine (if_neg (by simp [Block.imgOf, Block.mImg, huntaken])).trans ((if_neg (by simp [htakes])).trans (if_neg ?_))
  rintro ⟨-, h0 | hlt⟩
  · exact hbuf h0
  · exact absurd hfits (Nat.not_le.2 hlt)

/-! ### Blocks (R414) -/

theorem exec_imgBlockReceive_tsu {d : Bytes} (hok : s.blk.rxOk (.tsu p) h 6 3 false = true) :
    exec (.imgBlockReceive (.tsu p) h a d) s = .next { s with blk := (s.blk.rxBook (.tsu p) h 6).imgBlockTsu a d } :=
  exec_of_imgRx_tsu (k := fun b => b.imgBlockTsu a d) rfl hok

theorem Block.imgBlockTsu_had {d : Bytes} (hgot : smGet false b.tsu.img.got a.block.toNat = true) : b.imgBlockTsu a d = b :=
  if_pos (by simp [hgot])

section
variable {d : Bytes} (hmine : b.tsu.img.mine a = true) (hst : b.tsu.img.st = 1 ∨ b.tsu.img.st = 2)
  (hin : a.block.toNat < b.tsu.img.start.nblk.toNat) (hnew : smGet false b.tsu.img.got a.block.toNat = false)
include hmine hst hin hnew

theorem Block.imgBlockTsu_new : b.imgBlockTsu a d =
    if b.tsu.boot.inCloak || decide (16 ≤ b.tsu.img.writes.length) then
      b.mImg .tsu fun x => { x with dropped := sat1 x.dropped }
    else
      (b.mImg .tsu fun x => { x with
        got := smPut false x.got a.block.toNat true, writes := x.writes ++ [a.block.toNat] }).emit
          (.hmWrite (BitVec.ofNat 64 (b.catNat .tsu 0x7201 1 + 2048 * a.block.toNat)) d 17 true 3) :=
  if_neg (by rcases hst with hst | hst <;> simp [hmine, hst, hin, hnew])

end

/-! ### END, COMMIT and ROLLBACK (R415, R417) -/

theorem exec_imgEndReceive_tsu {nb : BitVec 16} (hok : s.blk.rxOk (.tsu p) h 6 3 false = true)
    (hmine : s.blk.tsu.img.mine a = true) :
    exec (.imgEndReceive (.tsu p) h a nb) s = .next { s with blk := (s.blk.rxBook (.tsu p) h 6).imgEndRx .tsu } :=
  exec_of_imgMine_tsu (k := fun b => b.imgEndRx .tsu) rfl hok hmine

theorem exec_imgCommitReceive_tsu {t0 : BitVec 64} (hok : s.blk.rxOk (.tsu p) h 6 3 false = true)
    (hmine : s.blk.tsu.img.mine a = true) :
    exec (.imgCommitReceive (.tsu p) h a t0) s = .next { s with blk := (s.blk.rxBook (.tsu p) h 6).imgCommitRx .tsu t0 } :=
  exec_of_imgMine_tsu (k := fun b => b.imgCommitRx .tsu t0) rfl hok hmine

theorem exec_imgRollbackReceive_tsu (hok : s.blk.rxOk (.tsu p) h 6 3 false = true) (hmine : s.blk.tsu.img.mine a = true) :
    exec (.imgRollbackReceive (.tsu p) h a) s = .next { s with blk := (s.blk.rxBook (.tsu p) h 6).imgRollbackRx .tsu } :=
  exec_of_imgMine_tsu (k := fun b => b.imgRollbackRx .tsu) rfl hok hmine

theorem Block.imgEndRx_whole (hst : b.tsu.img.st = 1) (hend : b.tsu.img.ended = false) (hmissing : b.tsu.img.missing = []) :
    b.imgEndRx .tsu = b.mImg .tsu fun x => { x with ended := true } := by
  refine (if_neg (by simp [Block.imgOf, hst, hend])).trans (if_pos ?_)
  simp [Block.imgOf, hmissing]

theorem Block.imgEndRx_asks (hst : b.tsu.img.st = 1) (hend : b.tsu.img.ended = false) (hmissing : b.tsu.img.missing ≠ []) :
    b.imgEndRx .tsu =
      (b.mImg .tsu fun x => { x with ended := true, st := 2, rounds := 1, nackAt := b.tsu.time.tc64 }).imgUp .tsu
        (.imgNack b.tsu.img.addr (imgRanges b.tsu.img.missing)) := by
  refine (if_neg (by simp [Block.imgOf, hst, hend])).trans ((if_neg ?_).trans (Block.imgNack_missing hmissing))
  simp [Block.imgOf, hmissing]

theorem Block.imgCommitRx_ahead {t0 : Tick} (hst : b.tsu.img.st = 4) (hnone : b.tsu.img.tAct = none)
    (hle : Tick.le b.tsu.time.tc64 t0 = true) : b.imgCommitRx .tsu t0 = b.mImg .tsu fun x => { x with tAct := some t0 } :=
  (if_neg (by simp [Block.imgOf, hst, hnone])).trans (if_pos hle)

theorem Block.imgCommitRx_missed {t0 : Tick} (hst : b.tsu.img.st = 4) (hnone : b.tsu.img.tAct = none)
    (hle : Tick.le b.tsu.time.tc64 t0 = false) : b.imgCommitRx .tsu t0 =
      (b.mImg .tsu fun x => { x with st := 7 }).imgUp .tsu (.imgActed b.tsu.img.addr 0 1) :=
  (if_neg (by simp [Block.imgOf, hst, hnone])).trans (if_neg (ne_true_of_eq_false hle))

theorem Block.imgRollbackRx_active (hst : b.tsu.img.st = 6) : b.imgRollbackRx .tsu = b.mImg .tsu fun x => { x with
    st := 8, tAct := none, next := smPut 0 x.next x.start.itype.toNat (smGet 0 x.prev x.start.itype.toNat)
    untaken := false } :=
  (if_neg (by simp [Block.imgOf, hst])).trans (if_pos hst)

theorem Block.imgRollbackRx_other (h0 : b.tsu.img.st ≠ 0) (h6 : b.tsu.img.st ≠ 6) (h8 : b.tsu.img.st ≠ 8) :
    b.imgRollbackRx .tsu = b.mImg .tsu fun x => { x with st := 8, tAct := none } :=
  (if_neg (by simp [Block.imgOf, h0, h8])).trans (if_neg h6)

/-! ### The image read back, activation and the timers (R415 to R417) -/

/-- What the acknowledgement of the oldest block write does. -/
def Block.imgWritten (b : Block) (resp : BitVec 2) : Block :=
  match b.tsu.img.writes with
  | [] => b
  | _ :: rest =>
    let b := b.mImg .tsu fun x => { x with writes := rest }
    if !(b.tsu.img.st == 1 || b.tsu.img.st == 2) then b
    else if resp ≠ 0 then b.imgFail .tsu 7 else b.imgWhole .tsu

theorem exec_imgBlockWriteAck (resp : BitVec 2) (s : State) :
    exec (.imgBlockWriteAck resp) s = .next { s with blk := s.blk.imgWritten resp } := rfl

theorem Block.imgWritten_none {resp : BitVec 2} (hw : b.tsu.img.writes = []) : b.imgWritten resp = b := by
  rw [Block.imgWritten, hw]

theorem Block.imgWritten_receiving {resp : BitVec 2} {k : Nat} {rest : List Nat} (hw : b.tsu.img.writes = k :: rest)
    (hst : b.tsu.img.st = 1) : b.imgWritten resp =
      if resp ≠ 0 then (b.mImg .tsu fun x => { x with writes := rest }).imgFail .tsu 7
      else (b.mImg .tsu fun x => { x with writes := rest }).imgWhole .tsu := by
  rw [Block.imgWritten, hw]
  exact if_neg (by simp [Block.mImg, hst])

/-- What IMG_VERIFY_DONE does at a TSU. -/
def Block.imgVerified (b : Block) (resp : BitVec 2) (img : Bytes) : Block :=
  if b.tsu.img.st ≠ 3 then b
  else if resp ≠ 0 then b.imgFail .tsu 7
  else match imgVerify false b.tsu.boot.unitId b.tsu.img.start img with
    | 0 => (b.mImg .tsu fun x => { x with st := 4 }).imgReport .tsu 1 0
    | r => b.imgFail .tsu (BitVec.ofNat 8 r)

theorem exec_imgVerifyDone_tsu (resp : BitVec 2) (img : Bytes) (s : State) :
    exec (.imgVerifyDone .tsu resp img) s = .next { s with blk := s.blk.imgVerified resp img } := rfl

theorem Block.imgVerified_read {img : Bytes} (hst : b.tsu.img.st = 3) : b.imgVerified 0 img =
    if imgVerify false b.tsu.boot.unitId b.tsu.img.start img = 0 then
      (b.mImg .tsu fun x => { x with st := 4 }).imgUp .tsu (.imgReport b.tsu.img.addr 1 0)
    else b.imgFail .tsu (BitVec.ofNat 8 (imgVerify false b.tsu.boot.unitId b.tsu.img.start img)) := by
  rw [Block.imgVerified, if_neg (by simp [hst]), if_neg (by simp)]
  cases imgVerify false b.tsu.boot.unitId b.tsu.img.start img with
  | zero => rfl
  | succ r => rfl

theorem exec_imgActivate (u : UnitRef) (s : State) : exec (.imgActivate u) s = .next { s with blk := s.blk.imgActivate u } :=
  rfl

theorem Block.imgActivate_confirmed {t0 : Tick} (hact : b.tsu.img.tAct = some t0) (hst : b.tsu.img.st = 4) :
    b.imgActivate .tsu = if Tick.le t0 b.tsu.time.tc64 then
      (b.mImg .tsu fun x => { x with
        st := 6, prev := smPut 0 x.prev x.start.itype.toNat (smGet 0 x.next x.start.itype.toNat)
        next := smPut 0 x.next x.start.itype.toNat x.start.imageId, taken := false, untaken := true }).imgUp .tsu
          (.imgActed b.tsu.img.addr 1 0)
    else b := by
  have hact' : (b.imgOf .tsu).tAct = some t0 := hact
  have hst' : (b.imgOf .tsu).st = 4 := hst
  have htc : b.tcOf .tsu = b.tsu.time.tc64 := rfl
  unfold Block.imgActivate
  simp only [hact', hst', htc]
  by_cases hle : Tick.le t0 b.tsu.time.tc64 = true
  · rw [if_neg (by simp [hle]), if_pos hle]
    rfl
  · rw [if_pos (by simp [hle]), if_neg hle]

theorem exec_imgNackTimer (u : UnitRef) (s : State) :
    exec (.imgNackTimer u) s = .next { s with blk := s.blk.imgNackTimer u } := rfl

theorem Block.imgNackTimer_other (h : b.tsu.img.st ≠ 2) : b.imgNackTimer .tsu = b := if_neg h

section
variable (hst : b.tsu.img.st = 2) (hdue : (b.catNat .tsu 0x7220 1 : Int) ≤ Tick.diff b.tsu.time.tc64 b.tsu.img.nackAt)
  (hmissing : b.tsu.img.missing ≠ [])
include hst hdue hmissing

/-- The interval of NACKs is over with blocks still missing: the target fails after its last round, and asks again. -/
theorem Block.imgNackTimer_due : b.imgNackTimer .tsu =
    if b.catNat .tsu 0x7220 2 ≤ b.tsu.img.rounds then b.imgFail .tsu 1
    else (b.mImg .tsu fun x => { x with rounds := x.rounds + 1, nackAt := b.tsu.time.tc64 }).imgUp .tsu
      (.imgNack b.tsu.img.addr (imgRanges b.tsu.img.missing)) := by
  refine (if_pos hst).trans ((if_neg ?_).trans ?_)
  · rintro (h | h)
    · exact absurd hdue (Int.not_le.2 h)
    · exact hmissing (by simpa [Block.imgOf] using h)
  · exact congrArg (fun c => if b.catNat .tsu 0x7220 2 ≤ b.tsu.img.rounds then b.imgFail .tsu 1 else c)
      (Block.imgNack_missing (b := b.mImg .tsu fun x => { x with rounds := x.rounds + 1, nackAt := b.tsu.time.tc64 }) hmissing)

end

theorem exec_imgEndTimeout_due (hdue : ((s.blk.tsu.img.start.nblk.toNat * 64 + s.blk.catNat .tsu 0x7220 1 : Nat) : Int) ≤
      Tick.diff s.blk.tsu.time.tc64 s.blk.tsu.img.startAt) :
    exec (.imgEndTimeout .tsu) s = .next { s with blk := s.blk.imgEndRx .tsu } :=
  State.run_of (f := fun b =>
    if Tick.diff b.tsu.time.tc64 b.tsu.img.startAt < (b.tsu.img.start.nblk.toNat * 64 + b.catNat .tsu 0x7220 1 : Nat) then b
    else b.imgEndRx .tsu) (if_neg (Int.not_lt.2 hdue))

end

/-- Settles O27: each receipt by `rx_ok`, and each step of a delivery in the state it meets. -/
theorem imageTargets : Obligations.ImageTargets := by
  unfold Obligations.ImageTargets
  refine ⟨fun p h a m s hok => ?start, fun p h a d s hok => ?block, fun p h a nb t0 s hok hmine => ?control,
    fun resp img s => ?host⟩
  case start =>
    rw [exec_imgStartReceive_tsu hok]
    refine ⟨fun ht => ?_, fun ht hst huntaken htakes hbuf hfits hblocks => ?_⟩
    · rw [Block.imgStartTsu, if_neg ht]
    · have hnow : (s.blk.rxBook (.tsu p) h 6).tsu.time.tc64 = s.blk.tsu.time.tc64 := tcOf_rxBook s.blk (.tsu p) h 6 .tsu
      rw [Block.imgStartTsu, if_pos ht, Block.imgStartRx_begins (by simpa using hst) (by simpa using huntaken) htakes
        (by rwa [catNat_rxBook]) (by rwa [catNat_rxBook]) hblocks, hnow]
      rfl
  case block =>
    rw [exec_imgBlockReceive_tsu hok]
    refine ⟨fun hmine hst hin hnew hcloak hroom => ?_, fun hmine hst hin hnew hfull => ?_, fun hgot => ?_⟩
    · rw [Block.imgBlockTsu_new (by simpa using hmine) (by simpa using hst) (by simpa using hin) (by simpa using hnew),
        if_neg (by simp [hcloak, hroom]), catNat_rxBook]
    · rw [Block.imgBlockTsu_new (by simpa using hmine) (by simpa using hst) (by simpa using hin) (by simpa using hnew),
        if_pos (by simp [hfull])]
    · rw [Block.imgBlockTsu_had (by simpa using hgot)]
  case control =>
    have hnow : (s.blk.rxBook (.tsu p) h 6).tsu.time.tc64 = s.blk.tsu.time.tc64 := tcOf_rxBook s.blk (.tsu p) h 6 .tsu
    have himg := img_rxBook s.blk (.tsu p) h 6
    have h0 : s.blk.tsu.img.st ≠ 0 := by
      intro h0
      simp [ImgRx.mine, h0] at hmine
    rw [exec_imgEndReceive_tsu hok hmine, exec_imgCommitReceive_tsu hok hmine, exec_imgRollbackReceive_tsu hok hmine]
    refine ⟨fun hst hend hm => ?_, fun hst hend hm => ?_, fun hst hnone hle => ?_, fun hst hnone hle => ?_, fun hst => ?_,
      fun h6 h8 => ?_⟩
    · rw [Block.imgEndRx_whole (by rwa [himg]) (by rwa [himg]) (by rwa [himg])]
    · rw [Block.imgEndRx_asks (by rwa [himg]) (by rwa [himg]) (by rwa [himg]), hnow, himg]
    · rw [Block.imgCommitRx_ahead (by rwa [himg]) (by rwa [himg]) (by rwa [hnow])]
    · rw [Block.imgCommitRx_missed (by rwa [himg]) (by rwa [himg]) (by rwa [hnow]), himg]
    · rw [Block.imgRollbackRx_active (by rwa [himg])]
    · rw [Block.imgRollbackRx_other (by rwa [himg]) (by rwa [himg]) (by rwa [himg])]
  case host =>
    refine ⟨fun hw => ?_, fun k rest hw hst hresp => ?_, fun k rest hw hst hresp hm => ?_, fun k hw hst hresp hm => ?_,
      fun hst => ?_, fun hst hresp => ?_, fun hst hresp hv => ?_, fun r hst hresp hv hr => ?_,
      fun t0 hact hst => ⟨fun hle => ?_, fun hle => ?_⟩, fun hst hdue hm => ⟨fun hmax => ?_, fun hmax => ?_⟩, fun hst => ?_,
      fun hdue hst hend hm => ?_⟩
    · rw [exec_imgBlockWriteAck, Block.imgWritten_none hw]
    · rw [exec_imgBlockWriteAck, Block.imgWritten_receiving hw hst, if_pos hresp]
      rfl
    · rw [exec_imgBlockWriteAck, Block.imgWritten_receiving hw hst, if_neg (not_not.2 hresp),
        Block.imgWhole_notYet (b := s.blk.mImg .tsu fun x => { x with writes := rest }) hm]
    · rw [exec_imgBlockWriteAck, Block.imgWritten_receiving hw hst, if_neg (not_not.2 hresp),
        Block.imgWhole_written (b := s.blk.mImg .tsu fun x => { x with writes := [] }) hst hm rfl]
      rfl
    · rw [exec_imgVerifyDone_tsu, Block.imgVerified, if_pos hst]
    · rw [exec_imgVerifyDone_tsu, Block.imgVerified, if_neg (not_not.2 hst), if_pos hresp]
      rfl
    · rw [exec_imgVerifyDone_tsu, hresp, Block.imgVerified_read hst, if_pos hv]
    · rw [exec_imgVerifyDone_tsu, hresp, Block.imgVerified_read hst, hv, if_neg hr]
      rfl
    · rw [exec_imgActivate, Block.imgActivate_confirmed hact hst, if_neg (by simp [hle])]
    · rw [exec_imgActivate, Block.imgActivate_confirmed hact hst, if_pos hle]
    · rw [exec_imgNackTimer, Block.imgNackTimer_due hst hdue hm, if_pos hmax]
      rfl
    · rw [exec_imgNackTimer, Block.imgNackTimer_due hst hdue hm, if_neg (Nat.not_le.2 hmax)]
    · rw [exec_imgNackTimer, Block.imgNackTimer_other hst]
    · rw [exec_imgEndTimeout_due hdue, Block.imgEndRx_whole hst hend hm]

end Sys2Proof.Machine
end

section
/-! SUPPORT. Image delivery through the distributors (R412 to R417, R419): the cache slots, relay, repair and sums, and a
root's transmission. -/

namespace Sys2Proof.Machine

open Sys2Proof

section
variable {b c : Block} {h : Hdr} {s : State} {n i : Nat} {a : ImgAddr}

/-! ### The cache slots -/

@[simp] theorem slotOf_rxBook (b : Block) (l : LaneRef) (h : Hdr) (cls i : Nat) :
    (b.rxBook l h cls).slotOf i = b.slotOf i :=
  rxBook_keeps b l h cls (fun b => b.slotOf i) (fun b f => by rcases l with (_ | _) | _ <;> rfl) fun _ _ => rfl

@[simp] theorem slotOf_mImgSlot (b : Block) (i k : Nat) (f : ImgSlot → ImgSlot) :
    (b.mImgSlot i f).slotOf k = if i = k then f (b.slotOf i) else b.slotOf k := by
  unfold Block.mImgSlot Block.slotOf
  rw [Block.mDist_dist, smGet_smMod]

theorem mImgSlot_congr {f g : ImgSlot → ImgSlot} (h : f (b.slotOf i) = g (b.slotOf i)) : b.mImgSlot i f = b.mImgSlot i g :=
  congrArg (fun x => b.mImgSlot i fun _ => x) h

/-- What goes downward reaches only the lanes. -/
@[simp] theorem lessLanes_imgDown (b : Block) (x : ImgSlot) (f : FrameBody) : (b.imgDown x f).lessLanes = b.lessLanes := by
  refine each_keeps Block.lessLanes _ _ (fun b c => ?_) b
  unfold Block.imgPort
  split
  · split
    · exact lessLanes_send ..
    · rfl
  · rfl

theorem slotOf_of_lessLanes (e : b.lessLanes = c.lessLanes) (i : Nat) : b.slotOf i = c.slotOf i :=
  (congrArg (fun d : Block => d.slotOf i) e : b.lessLanes.slotOf i = c.lessLanes.slotOf i)

@[simp] theorem slotOf_imgDown (b : Block) (x : ImgSlot) (f : FrameBody) (i : Nat) :
    (b.imgDown x f).slotOf i = b.slotOf i :=
  slotOf_of_lessLanes (lessLanes_imgDown b x f) i

/-- A slot that is free again keeps what was sent in it. -/
theorem slotOf_imgFree_start (b : Block) (i : Nat) : ((b.imgFree i).slotOf i).start = (b.slotOf i).start := by
  unfold Block.imgFree
  dsimp only
  split
  · rw [slotOf_mImgSlot, if_pos rfl]
  · rfl

/-- A distributor is no target of a delivery to the TSUs. -/
theorem Block.imgSelf_tsu (h : (b.slotOf i).start.target = 0) : b.imgSelf i = false := by
  rw [Block.imgSelf, h]
  rfl

/-! ### Frames from the uplink (R413, R414, R417) -/

theorem exec_of_imgRx_dist {x : Instr} {k : Block → Block} (hn : n < 312)
    (hx : exec x s = s.runLane (.dist n) fun b => b.rx (.dist n) h 6 3 false k)
    (hok : s.blk.rxOk (.dist n) h 6 3 false = true) : exec x s = .next { s with blk := k (s.blk.rxBook (.dist n) h 6) } :=
  exec_of_runLane (l := .dist n) (by simpa [LaneRef.ok] using hn) hx (rx_ok _ _ _ _ _ _ _ hok)

theorem Block.imgRelay_down {f : Block → Block} {body : FrameBody} (hup : 288 ≤ n) (hih : a.ih.toNat < 4) :
    b.imgRelay n a f body = (f b).imgDown ((f b).slotOf a.ih.toNat) body :=
  if_neg (by omega)

/-- START at a distributor. -/
def Block.imgStartDist (b : Block) (n : Nat) (a : ImgAddr) (m : ImgStart) : Block :=
  if m.target ≠ 1 ∧ 4096 ≤ a.group.toNat then b.dropBar
  else
    let b := b.imgRelay n a (fun b => b.mImgSlot a.ih.toNat fun _ => { used := true, group := a.group, start := m })
      (.imgStart a m)
    if 288 ≤ n ∧ a.ih.toNat < 4 ∧ m.target = 1 then b.imgStartRx .dist a m true false else b

theorem exec_imgStartReceive_dist {m : ImgStart} (hn : n < 312) (hok : s.blk.rxOk (.dist n) h 6 3 false = true) :
    exec (.imgStartReceive (.dist n) h a m) s = .next { s with blk := (s.blk.rxBook (.dist n) h 6).imgStartDist n a m } :=
  exec_of_imgRx_dist (k := fun b => b.imgStartDist n a m) hn rfl hok

theorem Block.imgStartDist_group {m : ImgStart} (hup : 288 ≤ n) (hih : a.ih.toNat < 4) (ht : m.target = 0)
    (hg : a.group.toNat < 4096) : b.imgStartDist n a m =
      (b.mImgSlot a.ih.toNat fun _ => { used := true, group := a.group, start := m }).imgDown
        { used := true, group := a.group, start := m } (.imgStart a m) := by
  rw [Block.imgStartDist, if_neg (by omega), Block.imgRelay_down hup hih, if_neg (by simp [ht]), slotOf_mImgSlot, if_pos rfl]

theorem Block.imgStartDist_noGroup {m : ImgStart} (ht : m.target ≠ 1) (hg : 4096 ≤ a.group.toNat) :
    b.imgStartDist n a m = b.dropBar := if_pos ⟨ht, hg⟩

theorem exec_imgBlockReceive_dist {d : Bytes} (hn : n < 312) (hok : s.blk.rxOk (.dist n) h 6 3 false = true) :
    exec (.imgBlockReceive (.dist n) h a d) s = .next { s with blk := (s.blk.rxBook (.dist n) h 6).imgBlockDist n a d } :=
  exec_of_imgRx_dist (k := fun b => b.imgBlockDist n a d) hn rfl hok

/-- A block of a delivery to the TSUs is kept and goes on. -/
theorem Block.imgBlockDist_kept {d : Bytes} (hup : 288 ≤ n) (hih : a.ih.toNat < 4)
    (ht : (b.slotOf a.ih.toNat).start.target = 0) (hused : (b.slotOf a.ih.toNat).used = true)
    (hin : a.block.toNat < (b.slotOf a.ih.toNat).start.nblk.toNat) (hrep : a.repair = false) : b.imgBlockDist n a d =
      (b.mImgSlot a.ih.toNat fun x => { x with
        blocks := smPut [] x.blocks a.block.toNat d
        waiters := x.waiters.filter fun w => w.1 != a.block.toNat }).imgDown (b.slotOf a.ih.toNat) (.imgBlock a d) := by
  have hself (g : ImgSlot → ImgSlot) (hg : ∀ x, (g x).start = x.start) :
      ((b.mImgSlot a.ih.toNat g).imgDown (b.slotOf a.ih.toNat) (.imgBlock a d)).imgSelf a.ih.toNat = false :=
    imgSelf_tsu (by rw [slotOf_imgDown, slotOf_mImgSlot, if_pos rfl, hg, ht])
  rw [Block.imgBlockDist, if_neg (by simp [hused]; omega)]
  dsimp only
  rw [if_neg (c := a.repair = true) (by simp [hrep])]
  refine if_neg ?_
  rw [hself _ (by intro x; rfl)]
  simp

/-- A frame that goes on downward and, at a distributor that is a target itself, is acted on there. -/
def Block.imgRelayed (b : Block) (n : Nat) (a : ImgAddr) (f : Block → Block) (body : FrameBody) (act : Block → Block) : Block :=
  let b := b.imgRelay n a f body
  if 288 ≤ n && b.imgSelf a.ih.toNat && b.dist.img.mine a then act b else b

theorem Block.imgRelayed_tsu {f act : Block → Block} {body : FrameBody} (hup : 288 ≤ n) (hih : a.ih.toNat < 4)
    (ht : ((f b).slotOf a.ih.toNat).start.target = 0) :
    b.imgRelayed n a f body act = (f b).imgDown ((f b).slotOf a.ih.toNat) body := by
  rw [Block.imgRelayed, Block.imgRelay_down hup hih]
  exact if_neg (by rw [imgSelf_tsu (by rwa [slotOf_imgDown])]; simp)

/-- COMMIT or ROLLBACK has passed. -/
def Block.imgClosed (b : Block) (i : Nat) : Block := (b.mImgSlot i fun x => { x with closed := true }).imgFree i

theorem slotOf_imgClosed_start (b : Block) (i : Nat) : ((b.imgClosed i).slotOf i).start = (b.slotOf i).start := by
  rw [Block.imgClosed, slotOf_imgFree_start, slotOf_mImgSlot, if_pos rfl]

section
variable (hn : n < 312) (hok : s.blk.rxOk (.dist n) h 6 3 false = true)
include hn hok

theorem exec_imgEndReceive_dist {nb : BitVec 16} : exec (.imgEndReceive (.dist n) h a nb) s = .next { s with
    blk := (s.blk.rxBook (.dist n) h 6).imgRelayed n a (fun b => b.mImgSlot a.ih.toNat fun x => { x with ended := true })
      (.imgEnd a nb) fun b => b.imgEndRx .dist } :=
  exec_of_imgRx_dist (k := fun b => b.imgRelayed n a (fun b => b.mImgSlot a.ih.toNat fun x => { x with ended := true })
    (.imgEnd a nb) fun b => b.imgEndRx .dist) hn rfl hok

theorem exec_imgCommitReceive_dist {t0 : BitVec 64} : exec (.imgCommitReceive (.dist n) h a t0) s = .next { s with
    blk := (s.blk.rxBook (.dist n) h 6).imgRelayed n a (fun b => b.imgClosed a.ih.toNat) (.imgCommit a t0)
      fun b => b.imgCommitRx .dist t0 } :=
  exec_of_imgRx_dist (k := fun b => b.imgRelayed n a (fun b => b.imgClosed a.ih.toNat) (.imgCommit a t0)
    fun b => b.imgCommitRx .dist t0) hn rfl hok

theorem exec_imgRollbackReceive_dist : exec (.imgRollbackReceive (.dist n) h a) s = .next { s with
    blk := (s.blk.rxBook (.dist n) h 6).imgRelayed n a (fun b => b.imgClosed a.ih.toNat) (.imgRollback a)
      fun b => b.imgRollbackRx .dist } :=
  exec_of_imgRx_dist (k := fun b => b.imgRelayed n a (fun b => b.imgClosed a.ih.toNat) (.imgRollback a)
    fun b => b.imgRollbackRx .dist) hn rfl hok

end

/-! ### Frames from below (R413, R415) -/

section
variable (hn : n < 288) (hok : s.blk.rxOk (.dist n) h 6 3 false = true)
include hn hok

theorem exec_imgReportReceive {okn failn : BitVec 32} : exec (.imgReportReceive n h a okn failn) s = .next { s with
    blk := (s.blk.rxBook (.dist n) h 6).imgSum n a okn failn 0 0 (.imgReport a okn failn) } :=
  exec_of_imgRx_dist (k := fun b => b.imgSum n a okn failn 0 0 (.imgReport a okn failn)) (by omega) rfl hok

theorem exec_imgActedReceive {actn missn : BitVec 32} : exec (.imgActedReceive n h a actn missn) s = .next { s with
    blk := (s.blk.rxBook (.dist n) h 6).imgSum n a 0 0 actn missn (.imgActed a actn missn) } :=
  exec_of_imgRx_dist (k := fun b => b.imgSum n a 0 0 actn missn (.imgActed a actn missn)) (by omega) rfl hok

theorem exec_imgNackReceive {r : List (BitVec 16 × BitVec 16)} : exec (.imgNackReceive n h a r) s = .next { s with
    blk := (s.blk.rxBook (.dist n) h 6).imgNackRx n a r } :=
  exec_of_imgRx_dist (k := fun b => b.imgNackRx n a r) (by omega) rfl hok

end

/-- At a root counts are summed and kept by child. -/
theorem Block.imgSum_root {okn failn actn missn : BitVec 32} {body : FrameBody} (hn : n < 288) (hih : a.ih.toNat < 4)
    (hr : b.dRole = 3) : b.imgSum n a okn failn actn missn body =
      let k := smGet (0, 0, 0, 0) (b.slotOf a.ih.toNat).childs (n / 24)
      ((b.imgAdd a.ih.toNat okn.toNat failn.toNat actn.toNat missn.toNat).mImgSlot a.ih.toNat fun x => { x with
        childs := smPut (0, 0, 0, 0) x.childs (n / 24) (k.1 + okn, k.2.1 + failn, k.2.2.1 + actn, k.2.2.2 + missn) }).imgFree
          a.ih.toNat := by
  have hchild : b.childOf n = n / 24 := Block.childOf_notT1 (by rw [hr]; decide)
  have hrole (f g : ImgSlot → ImgSlot) : ((b.mImgSlot a.ih.toNat f).mImgSlot a.ih.toNat g).dRole = 3 := hr
  rw [Block.imgSum]
  dsimp only
  rw [if_neg (by simp [hr]; omega), hchild, Block.imgAdd, if_pos (hrole _ _)]

/-- One block is asked for. -/
theorem Block.imgNackRx_one {r : List (BitVec 16 × BitVec 16)} {k : Nat} (hn : n < 288) (hih : a.ih.toNat < 4)
    (hused : (b.slotOf a.ih.toNat).used = true) (hasked : imgAsked (b.slotOf a.ih.toNat).start.nblk.toNat r = [k]) :
    b.imgNackRx n a r =
      if (b.slotOf a.ih.toNat).blk k = [] then
        b.mImgSlot a.ih.toNat fun x => { x with
          waiters := if x.waiters.contains (k, n) then x.waiters else x.waiters ++ [(k, n)] }
      else b.send (.dist n) true
        (.imgBlock ⟨a.ih, BitVec.ofNat 16 k, (b.slotOf a.ih.toNat).group, true⟩ ((b.slotOf a.ih.toNat).blk k)) := by
  rw [Block.imgNackRx, if_neg (by simp [hused]; omega), hasked]
  rfl

/-! ### A root's transmission (R412) -/

theorem exec_imgBlockSend (s : State) :
    exec .imgBlockSend s = .next { s with blk := s.blk.each (List.range 4) Block.imgTxNext } := rfl

/-- The transmission of a slot. -/
def Block.txOf (b : Block) (i : Nat) : ImgTx := smGet {} b.dist.tx i

theorem txOf_of_lessLanes (e : b.lessLanes = c.lessLanes) (i : Nat) : b.txOf i = c.txOf i :=
  (congrArg (fun d : Block => d.txOf i) e : b.lessLanes.txOf i = c.lessLanes.txOf i)

theorem txOf_mTx (b : Block) (i k : Nat) (f : ImgTx → ImgTx) :
    (b.mTx i f).txOf k = if i = k then f (b.txOf i) else b.txOf k := by
  unfold Block.mTx Block.txOf
  rw [Block.mDist_dist, smGet_smMod]

/-- When a transmission sends what comes next. -/
def ImgTx.dueAt (x : ImgTx) : Tick := x.startAt + BitVec.ofNat 64 (256 + x.next * x.interval.toNat)

/-- A transmission that has nothing to send, or nothing due. -/
theorem Block.imgTxNext_not (e : (b.txOf i).active = false ∨ Tick.le (b.txOf i).dueAt b.dist.time.tc64 = false) :
    b.imgTxNext i = b := by
  have hnot : (!(b.txOf i).active || !Tick.le (b.txOf i).dueAt b.dist.time.tc64) = true := by
    rcases e with e | e <;> simp [e]
  exact if_pos hnot

theorem Block.imgTxNext_block (hact : (b.txOf i).active = true) (hdue : Tick.le (b.txOf i).dueAt b.dist.time.tc64 = true)
    (hnext : (b.txOf i).next < (b.slotOf i).start.nblk.toNat) : b.imgTxNext i =
      (b.mTx i fun t => { t with next := t.next + 1 }).imgDown (b.slotOf i)
        (.imgBlock ⟨BitVec.ofNat 8 i, BitVec.ofNat 16 (b.txOf i).next, (b.slotOf i).group, false⟩
          ((b.slotOf i).blk (b.txOf i).next)) := by
  have hgo : ¬(!(b.txOf i).active || !Tick.le (b.txOf i).dueAt b.dist.time.tc64) = true := by simp [hact, hdue]
  exact (if_neg hgo).trans (if_pos hnext)

/-- Of the turns of a list one alone does something. -/
theorem Block.each_single {f : Block → Nat → Block} {l : List Nat} (hi : i ∈ l) (hl : l.Nodup)
    (hbefore : ∀ j, j ≠ i → f b j = b) (hafter : ∀ j, j ≠ i → f (f b i) j = f b i) : b.each l f = f b i := by
  induction l with
  | nil => cases hi
  | cons x l ih =>
    rw [Block.each, List.foldl_cons]
    by_cases hx : x = i
    · subst hx
      exact each_fixed fun y hy => hafter y fun e => (List.nodup_cons.1 hl).1 (e ▸ hy)
    · rw [hbefore x hx]
      exact ih ((List.mem_cons.1 hi).resolve_left fun e => hx e.symm) (List.nodup_cons.1 hl).2

/-- The one transmission in progress is served. -/
theorem Block.imgBlockSend_one {x : ImgTx} (htx : b.dist.tx = [(i, x)]) (hi : i < 4) :
    b.each (List.range 4) Block.imgTxNext = b.imgTxNext i := by
  have hother {j : Nat} (hj : j ≠ i) : b.txOf j = {} := by
    rw [Block.txOf, htx, smGet_cons, if_neg (Ne.symm hj)]
    rfl
  refine each_single (List.mem_range.2 hi) List.nodup_range (fun j hj => imgTxNext_not (.inl (by rw [hother hj]))) fun j hj => ?_
  have hkept : (b.imgTxNext i).txOf j = b.txOf j := by
    have hslots (c : Block) (f : ImgSlot → ImgSlot) : (c.mImgSlot i f).txOf j = c.txOf j := rfl
    unfold Block.imgTxNext
    dsimp only
    split
    · rfl
    · split
      · rw [txOf_of_lessLanes (lessLanes_imgDown ..), txOf_mTx, if_neg (Ne.symm hj)]
      · rw [txOf_of_lessLanes (lessLanes_imgDown ..), hslots, txOf_mTx, if_neg (Ne.symm hj)]
  exact imgTxNext_not (.inl (by rw [hkept, hother hj]))

/-! ### The img.tx record (R412, R417) -/

/-- Which rows a root holds. -/
def rootHolds (w : CatWho) : Bool := w != .tsu && w != .t1

/-- The fields of img.tx, its command last. -/
def imgTxRows : List CatEnt := [
  ⟨0x7210, 0x01, 0x01, 2, 1, .rws, 0, true, .root⟩, ⟨0x7210, 0x02, 0x02, 3, 2, .rws, 0, true, .root⟩,
  ⟨0x7210, 0x03, 0x03, 2, 1, .rws, 0, true, .root⟩, ⟨0x7210, 0x04, 0x04, 10, 32, .rws, 0, true, .root⟩,
  ⟨0x7210, 0x05, 0x05, 3, 2, .rws, 0x80, true, .root⟩, ⟨0x7210, 0x06, 0x06, 8, 8, .rws, 0, true, .root⟩,
  ⟨0x7210, 0x07, 0x07, 2, 1, .rws, 0, true, .root⟩]

theorem catRows_imgTx : (catRows.filter fun e => e.index == catIndex 0x7210 && rootHolds e.who) = imgTxRows := by
  have h0 : (catRows0.filter fun e => e.index == catIndex 0x7210 && rootHolds e.who) = [] := rfl
  have h1 : (catRows1.filter fun e => e.index == catIndex 0x7210 && rootHolds e.who) = [] := rfl
  have h2 : (catRows2.filter fun e => e.index == catIndex 0x7210 && rootHolds e.who) = [] := rfl
  have h3 : (catRows3.filter fun e => e.index == catIndex 0x7210 && rootHolds e.who) = [] := rfl
  have h4 : (catRows4.filter fun e => e.index == catIndex 0x7210 && rootHolds e.who) = [] := rfl
  have h5 : (catRows5.filter fun e => e.index == catIndex 0x7210 && rootHolds e.who) = [] := rfl
  have h6 : (catRows6.filter fun e => e.index == catIndex 0x7210 && rootHolds e.who) = imgTxRows.take 1 := rfl
  have h7 : (catRows7.filter fun e => e.index == catIndex 0x7210 && rootHolds e.who) = imgTxRows.drop 1 := rfl
  simp only [catRows, List.filter_append, h0, h1, h2, h3, h4, h5, h6, h7]
  rfl

theorem Block.catRowsOf_imgTx (hr : b.dRole = 3) : b.catRowsOf .dist 0x7210 = imgTxRows := by
  rw [← catRows_imgTx, Block.catRowsOf]
  refine List.filter_congr fun e _ => ?_
  cases hw : e.who <;> simp [Block.catHolds, rootHolds, hr]

theorem Block.catFind_imgTx (hr : b.dRole = 3) :
    b.catFind .dist 0x7210 7 = .ent ⟨0x7210, 0x07, 0x07, 2, 1, .rws, 0, true, .root⟩ := by
  unfold Block.catFind Block.catIsRecord
  rw [catRowsOf_imgTx hr]
  rfl

theorem Block.catIsRecord_imgTx (hr : b.dRole = 3) : b.catIsRecord .dist 0x7210 = true := by
  rw [Block.catIsRecord, catRowsOf_imgTx hr]
  rfl

section
variable {q : CatReq} (hu : q.unit = .dist) (hsec : q.secure = true) (hpriv : q.priv ≠ 0) (hr : b.dRole = 3)
include hu hsec hpriv hr

/-- A write of the command of img.tx commits the record. -/
theorem Block.catWrite_imgTx {cmd : Nat} (h0 : cmd ≠ 0) (h3 : cmd ≤ 3) :
    b.catWrite q 0x7210 7 2 (toLE 1 cmd) = b.catCommit q 0x7210 cmd := by
  have hent : b.catFind q.unit 0x7210 7 = .ent ⟨0x7210, 0x07, 0x07, 2, 1, .rws, 0, true, .root⟩ := by
    rw [hu]
    exact catFind_imgTx hr
  have hmay : catNoWrite q (b.catAcc q.unit 0x7210 7 ⟨0x7210, 0x07, 0x07, 2, 1, .rws, 0, true, .root⟩) = none := by
    simpa [Block.catAcc, catNoWrite, hsec] using hpriv
  have hval : ofLE (toLE 1 cmd) = cmd := by
    interval_cases cmd <;> rfl
  have hlimits : b.catLimits .dist 0x7210 7 = some (0, 3) := rfl
  have hgood : b.catBad .dist 0x7210 7 ⟨0x7210, 0x07, 0x07, 2, 1, .rws, 0, true, .root⟩ (toLE 1 cmd) = none := by
    simp [Block.catBad, Block.catInRange, hlimits, typeValid, hval, h3]
  refine (catWrite_taken hent hmay (v := toLE 1 cmd) (by decide) rfl).trans ?_
  simp only [Block.catTake, hu, hgood, catIsRecord_imgTx hr, hval]
  simp [catActs, catCommitSub, catCache, h0, catIndex]

end

theorem Block.catCommit_refused {q : CatReq} {idx cmd : Nat} {st : Byte} (hok : b.stagedOk q idx = true)
    (hrule : b.recRule q idx cmd (b.staged q idx) = (st, c)) (hst : st ≠ 0x00) : b.catCommit q idx cmd = (st, c) := by
  obtain ⟨hdenied, hbad⟩ := Bool.and_eq_true_iff.mp hok
  unfold Block.staged at hrule
  simp only [Block.catCommit, Option.isNone_iff_eq_none.mp hdenied, Option.isNone_iff_eq_none.mp hbad, hrule]
  exact if_neg hst

theorem Block.recRule_imgTx {q : CatReq} {cmd : Nat} {v : RecVals} (hu : q.unit = .dist) :
    b.recRule q 0x7210 cmd v = b.imgTxApply cmd v := by
  unfold Block.recRule
  rw [hu]
  rfl

section
variable {q : CatReq} {cmd : Nat} {b1 : Block} {st : Byte} (hu : q.unit = .dist) (hserves : s.blk.distServes = true)
  (hsec : q.secure = true) (hpriv : q.priv ≠ 0) (hr : s.blk.dRole = 3) (h0 : cmd ≠ 0) (h3 : cmd ≤ 3)
include hu hserves hsec hpriv hr h0 h3

theorem State.run_imgTx (hdo : s.blk.catCommit q 0x7210 cmd = (st, b1)) :
    s.run (fun b => b.catCmd q 0x7210 7 2 cmd) = .next { s with blk := b1.emit (.cat q.unit q.src q.tid st []) } := by
  have hnet : s.blk.netServes q = true := by rw [Block.netServes, hu]; exact hserves
  exact State.run_catRun_statusOnly hnet (op := .write 2 (toLE 1 cmd))
    (by rw [Block.catDo, Block.catWrite_imgTx hu hsec hpriv hr h0 h3, hdo]) (ite_self _)

variable (hok : s.blk.stagedOk q 0x7210 = true)
include hok

/-- The record's rule passes: its effect, then the staged fields. -/
theorem State.run_imgTx_ok (happly : s.blk.imgTxApply cmd (s.blk.staged q 0x7210) = (0x00, b1)) :
    s.run (fun b => b.catCmd q 0x7210 7 2 cmd) =
      .next { s with blk := b1.committed q 0x7210 (s.blk.dist.cat.staged true 0x7210) } := by
  have hcommit := Block.catCommit_stagedOk hok ((Block.recRule_imgTx hu).trans happly)
  have hstaged : (s.blk.catOf q.unit).staged q.secure 0x7210 = s.blk.dist.cat.staged true 0x7210 := by rw [hu, hsec]; rfl
  rw [hstaged] at hcommit
  exact State.run_imgTx hu hserves hsec hpriv hr h0 h3 hcommit

/-- The record's rule refuses it. -/
theorem State.run_imgTx_refused (happly : s.blk.imgTxApply cmd (s.blk.staged q 0x7210) = (st, s.blk)) (hst : st ≠ 0x00) :
    s.run (fun b => b.catCmd q 0x7210 7 2 cmd) = .next { s with blk := s.blk.emit (.cat .dist q.src q.tid st []) } := by
  have hcommit := Block.catCommit_refused hok ((Block.recRule_imgTx hu).trans happly) hst
  rw [State.run_imgTx hu hserves hsec hpriv hr h0 h3 hcommit, hu]

end

/-! ### START, COMMIT and ROLLBACK of a transmission (R412, R417) -/

theorem slice_self (l : Bytes) : slice l 0 l.length = l := by
  simp [slice]

theorem Block.imgTxCommit_early {v : RecVals} {t0 : Tick} (ht0 : BitVec.ofNat 64 (ofLE (v 6)) = t0)
    (hearly : Tick.diff t0 b.dist.time.tc64 < 62500) : b.imgTxCommit v = (caRANGE, b) := by
  rw [Block.imgTxCommit, ht0]
  exact if_pos hearly

section
variable {v : RecVals} {x : ImgSlot} (hx : b.slotOf (ofLE (v 1)) = x)
include hx

/-- The slot's image has another hash than the record names. -/
theorem Block.imgTxStart_hash (hlen : 36 + imgLen x.bytes ≤ 67108864)
    (hhash : sha256 (slice x.bytes 0 (36 + imgLen x.bytes)) ≠ slice (v 4) 0 32) : b.imgTxStart v = (caRECORD, b) := by
  rw [Block.imgTxStart, hx]
  dsimp only
  rw [if_pos hlen]
  exact if_pos (by simp [hhash])

/-- A slot as a transmission to the TSUs begins it. -/
def ImgSlot.sending (d : Bytes) (group : BitVec 16) : ImgSlot :=
  let bl := imgBlocks 32768 d
  { used := true, group := group
    start := ⟨imgId d, BitVec.ofNat 32 d.length, BitVec.ofNat 16 bl.length, BitVec.ofNat 8 (imgType d), 0, sha256 d⟩
    blocks := (List.range bl.length).zip bl }

theorem Block.imgTxStart_ok (hhdr : imgHdrOk x.bytes none = true) (hlen : 36 + imgLen x.bytes = x.bytes.length)
    (hmax : x.bytes.length ≤ 67108864) (hcrc : imgCrcOk x.bytes = true) (hhash : sha256 x.bytes = slice (v 4) 0 32)
    (ht : ofLE (v 3) = 0) :
    let g : BitVec 16 := BitVec.ofNat 16 (ofLE (v 2))
    let slot := ImgSlot.sending x.bytes g
    b.imgTxStart v = (caOK, ((b.mImgSlot (ofLE (v 1)) fun _ => slot).mTx (ofLE (v 1)) fun _ =>
      { active := true, startAt := b.dist.time.tc64, next := 0, interval := BitVec.ofNat 16 (ofLE (v 5)) }).imgDown slot
        (.imgStart ⟨BitVec.ofNat 8 (ofLE (v 1)), 0, g, false⟩ slot.start)) := by
  intro g slot
  have hslot (f : ImgTx → ImgTx) : ((b.mImgSlot (ofLE (v 1)) fun _ => slot).mTx (ofLE (v 1)) f).slotOf (ofLE (v 1)) = slot :=
    (slotOf_mImgSlot b (ofLE (v 1)) (ofLE (v 1)) fun _ => slot).trans (if_pos rfl)
  rw [Block.imgTxStart, hx]
  dsimp only
  rw [hlen, if_pos hmax, slice_self, ht, if_neg (by simp [hhdr, hmax, hcrc, hhash])]
  exact (if_neg (by decide)).trans (congrArg (fun y => (caOK, Block.imgDown ((b.mImgSlot (ofLE (v 1)) fun _ => slot).mTx
    (ofLE (v 1)) fun _ => { active := true, startAt := b.dist.time.tc64, next := 0, interval := BitVec.ofNat 16 (ofLE (v 5)) })
      y (.imgStart ⟨BitVec.ofNat 8 (ofLE (v 1)), 0, g, false⟩ slot.start))) (hslot _))

section
variable (ht : x.start.target = 0)
include ht

theorem Block.imgTxCommit_ahead {t0 : Tick} (ht0 : BitVec.ofNat 64 (ofLE (v 6)) = t0)
    (hahead : 62500 ≤ Tick.diff t0 b.dist.time.tc64) : b.imgTxCommit v =
      (caOK, (b.imgDown x (.imgCommit ⟨BitVec.ofNat 8 (ofLE (v 1)), 0, x.group, false⟩ t0)).imgClosed (ofLE (v 1))) := by
  have hself (a : ImgAddr) : ((b.imgDown x (.imgCommit a t0)).mImgSlot (ofLE (v 1)) fun y => { y with closed := true }).imgSelf
      (ofLE (v 1)) = false :=
    imgSelf_tsu (by rw [slotOf_mImgSlot, if_pos rfl, slotOf_imgDown, hx, ht])
  rw [Block.imgTxCommit, ht0, hx]
  refine (if_neg (Int.not_lt.2 hahead)).trans ?_
  dsimp only
  rw [hself, if_neg (by simp)]
  rfl

theorem Block.imgTxRollback_tsu : b.imgTxRollback v = (caOK, ((b.mTx (ofLE (v 1)) fun _ => {}).imgDown x
    (.imgRollback ⟨BitVec.ofNat 8 (ofLE (v 1)), 0, x.group, false⟩)).imgClosed (ofLE (v 1))) := by
  have hx' : (b.mTx (ofLE (v 1)) fun _ => {}).slotOf (ofLE (v 1)) = x := hx
  have hself (a : ImgAddr) : (((b.mTx (ofLE (v 1)) fun _ => {}).imgDown x (.imgRollback a)).mImgSlot (ofLE (v 1)) fun y =>
      { y with closed := true }).imgSelf (ofLE (v 1)) = false :=
    imgSelf_tsu (by rw [slotOf_mImgSlot, if_pos rfl, slotOf_imgDown, hx', ht])
  rw [Block.imgTxRollback, hx, hself, if_neg (by simp)]
  rfl

end

end

end

theorem exec_imgTxStart (q : CatReq) (s : State) :
    exec (.imgTxStart q) s = s.run fun b => b.catCmd q 0x7210 7 2 1 := rfl

theorem exec_imgTxCommit (q : CatReq) (s : State) :
    exec (.imgTxCommit q) s = s.run fun b => b.catCmd q 0x7210 7 2 2 := rfl

theorem exec_imgTxRollback (q : CatReq) (s : State) :
    exec (.imgTxRollback q) s = s.run fun b => b.catCmd q 0x7210 7 2 3 := rfl

theorem Block.imgTxApply_start {v : RecVals} (b : Block) : b.imgTxApply 1 v = b.imgTxStart v := rfl

theorem Block.imgTxApply_commit {v : RecVals} (b : Block) : b.imgTxApply 2 v = b.imgTxCommit v := rfl

theorem Block.imgTxApply_rollback {v : RecVals} (b : Block) : b.imgTxApply 3 v = b.imgTxRollback v := rfl

/-- Settles O28: each frame by what it does to its slot and by what goes on downward, each command of img.tx by its rule. -/
theorem imageDelivery : Obligations.ImageDelivery := by
  unfold Obligations.ImageDelivery
  refine ⟨fun n h a m d nb t0 s hup hn hok hih => ?down, fun n h a okn failn s hn hok hih hr => ?sums,
    fun n h a k d r s hn hok hih => ?nack, fun i x s htx hi hact => ?send, fun q s hu hserves hsec hpriv hr hok => ?record⟩
  case down =>
    refine ⟨fun ht hg => ?_, fun ht hg => ?_, fun ht hused hin hrep => ?_, fun ht => ?_, fun ht => ⟨?_, ?_⟩⟩
    · rw [exec_imgStartReceive_dist hn hok, Block.imgStartDist_group hup hih ht hg]
    · rw [exec_imgStartReceive_dist hn hok, Block.imgStartDist_noGroup ht hg]
      rfl
    · rw [exec_imgBlockReceive_dist hn hok, Block.imgBlockDist_kept hup hih (by simpa using ht) (by simpa using hused)
        (by simpa using hin) hrep, slotOf_rxBook]
    · rw [exec_imgEndReceive_dist hn hok, Block.imgRelayed_tsu hup hih (by simpa using ht), slotOf_mImgSlot, if_pos rfl,
        slotOf_rxBook]
    · rw [exec_imgCommitReceive_dist hn hok, Block.imgRelayed_tsu hup hih (by simpa [slotOf_imgClosed_start] using ht)]
      rfl
    · rw [exec_imgRollbackReceive_dist hn hok, Block.imgRelayed_tsu hup hih (by simpa [slotOf_imgClosed_start] using ht)]
      rfl
  case sums =>
    rw [exec_imgReportReceive hn hok, exec_imgActedReceive hn hok, Block.imgSum_root hn hih (by rwa [dRole_rxBook]),
      Block.imgSum_root hn hih (by rwa [dRole_rxBook]), slotOf_rxBook]
    exact ⟨rfl, rfl⟩
  case nack =>
    intro b x hused hasked hd
    rw [exec_imgNackReceive hn hok, Block.imgNackRx_one hn hih (by simpa using hused) (by simpa using hasked), slotOf_rxBook]
    refine ⟨fun hne => ?_, fun hnil hw => ?_⟩
    · rw [if_neg (by rwa [hd]), hd]
    · rw [if_pos (by rwa [hd])]
      refine congrArg (fun c => Host.Outcome.next { s with blk := c }) (mImgSlot_congr ?_)
      rw [slotOf_rxBook, hw]
      rfl
  case send =>
    have hself : s.blk.txOf i = x := by rw [Block.txOf, htx, smGet_cons, if_pos rfl]
    rw [exec_imgBlockSend, Block.imgBlockSend_one htx hi]
    refine ⟨fun hearly => ?_, fun hdue hnext => ?_⟩
    · rw [Block.imgTxNext_not (.inr (by rw [hself]; exact hearly))]
    · rw [Block.imgTxNext_block (by rwa [hself]) (by rw [hself]; exact hdue) (by rwa [hself]), hself]
  case record =>
    refine ⟨fun hlen hhash => ?_, fun hhdr hlen hmax hcrc hhash ht => ?_, fun hearly => ?_, fun hahead ht => ?_, fun ht => ?_⟩
    · rw [exec_imgTxStart]
      exact State.run_imgTx_refused hu hserves hsec hpriv hr (by decide) (by decide) hok
        ((s.blk.imgTxApply_start).trans (Block.imgTxStart_hash rfl hlen hhash)) (by decide)
    · rw [exec_imgTxStart, State.run_imgTx_ok hu hserves hsec hpriv hr (by decide) (by decide) hok
        ((s.blk.imgTxApply_start).trans (Block.imgTxStart_ok rfl hhdr hlen hmax hcrc hhash ht))]
      rfl
    · rw [exec_imgTxCommit]
      exact State.run_imgTx_refused hu hserves hsec hpriv hr (by decide) (by decide) hok
        ((s.blk.imgTxApply_commit).trans (Block.imgTxCommit_early rfl hearly)) (by decide)
    · rw [exec_imgTxCommit, State.run_imgTx_ok hu hserves hsec hpriv hr (by decide) (by decide) hok
        ((s.blk.imgTxApply_commit).trans (Block.imgTxCommit_ahead rfl ht rfl hahead))]
      rfl
    · rw [exec_imgTxRollback, State.run_imgTx_ok hu hserves hsec hpriv hr (by decide) (by decide) hok
        ((s.blk.imgTxApply_rollback).trans (Block.imgTxRollback_tsu rfl ht))]
      rfl

end Sys2Proof.Machine
end
